-- ==== Sys2Proof/Word.lean ====
section
/-! DEFINITION. The word types of the X5120 (R15: registers are 32 bits wide, counters 64) and the sparse table type
that every table of the state uses. -/

namespace Sys2Proof

abbrev Byte := BitVec 8
abbrev Word := BitVec 32
abbrev DWord := BitVec 64

/-- A sparse table: (key, value) pairs, keys strictly rising, no entry equal to what an unlisted key reads as. -/
abbrev Tab (α : Type) := List (Nat × α)

end Sys2Proof
end

