-- ==== Sys2Proof/Syntax.lean ====
section
/-! DEFINITION. The commands of the device: one constructor of `Instr` per row of the opcode table, with the row's
operands. An operand is what the outside supplies (an address, a value, bytes received, a measured delay, a unit number)
or the choice of which unit an event of the row concerns. -/

namespace Sys2Proof

/-- Who makes a register access (R16, R444, R484): Skyline at a credential level, or a control core. -/
inductive Agent where
  | sky (level : Fin 4)
  | core (n : Fin 16)
deriving DecidableEq, Repr

/-- What the outside supplies with a ply edge (R44): Tally clock cycles since the last edge, the latch deviations
measured at step 4 by lane (R145; 0 where a lane is not listed), die sensor temperatures and the Tally island's
(R597; two's complement degrees Celsius). -/
structure EdgeIn where
  tallyCycles : Nat
  deviations : List (Nat × Int)
  temps : List Int
  tlyTemp : Int
deriving DecidableEq, Repr

/-- Why a port returns to TRAINING (R80). -/
inductive LinkCause where
  | signal | cdr | markers | highSer | localFault
deriving DecidableEq, Repr

/-- A Skyline request frame as it reaches the node (R477): its fields, its payload words, its AUTH bytes and the CRC
that came with it. -/
structure SkyReq where
  level : Fin 4
  bcast : Bool
  dest : Byte
  tag : BitVec 16
  count : BitVec 16
  addr : Word
  nonce : DWord
  payload : List Word
  auth : List Byte
  crc : Word
deriving DecidableEq, Repr

/-- What the Cruise visits (R272): a Deck way, an index bucket, or the end of an index pass. -/
inductive CruiseTarget where
  | deck (pipe : Fin 8) (set : Nat) (way : Fin 16)
  | bucket (b : Nat)
  | passEnd
deriving DecidableEq, Repr

/-- The four receipt timers of a PTP port (R140). -/
inductive PtpTimer where
  | announce | sync | delayResp | interval
deriving DecidableEq, Repr

/-- The commands (the rows of the opcode table). -/
inductive Instr where
  /-- REGISTER_WRITE (R21): A write to a register that has no row of its own takes its new value, and takes effect
  at once or at the next ply as its field states. -/
  | registerWrite (a : Agent) (addr : Nat) (v : Word)
  /-- COUNTER_LOW_READ (R16): A read of the low word of a 64-bit counter returns it and latches the high word for
  the reading agent. -/
  | counterLowRead (a : Agent) (addr : Nat)
  /-- RC_FIELD_READ (R17): A read of an RC field returns its value and then clears it, unless a hardware update
  falls in the same cycle. -/
  | rcFieldRead (a : Agent) (addr : Nat) (hw : Option Word)
  /-- PLY_EDGE (R44): At each ply edge the ply counter advances and the ply-synchronous work commits in its fixed
  order. -/
  | plyEdge (e : EdgeIn)
  /-- KERNEL_TICK (R39): Every 25 ply a kernel tick falls and sets the TICK interrupt of each core. -/
  | kernelTick
  /-- ISLAND_TICK (R603): While the ply counter is stopped, the Tally runs its edge-timed work at 40 ns island
  ticks. -/
  | islandTick (tallyCycles : Nat)
  /-- CORE_PLL_LOCK_LOST (R42): The core PLL loses lock; the ply counter stops, LOCK_LOST is set, and in LIVE this
  is FATAL. -/
  | corePllLockLost
  /-- CORE_PLL_LOCK_REGAINED (R42): The core PLL regains lock and the ply counter resumes at its held value. -/
  | corePllLockRegained
  /-- ALIGNMENT_MARKER_LATCH (R73): A lane's capture latch takes the Tally Time of an alignment marker's first bit
  at the alignment point. -/
  | alignmentMarkerLatch (lane : Fin 258) (dt : Nat)
  /-- FRAME_CAPTURE (R74): A frame's reference bit arrives, and its arrival time is computed and delivered to the
  Tally. -/
  | frameCapture (port : Fin 257) (lane : Fin 258) (bits : Nat) (head : List Byte) (fifoFull : Bool)
  /-- INGRESS_SLOT_GRANT (R51): A waiting frame head is granted an ingress packet slot and passed on to parse. -/
  | ingressSlotGrant (pipe : Fin 8)
  /-- FRAME_END (R72): A frame's last bit arrives and the MAC makes its runt, giant and FCS checks. -/
  | frameEnd (frame : Nat) (rest : List Byte)
  /-- AM_LOCK_ACQUIRED (R77): A lane's alignment markers lock and the lane measures its receive and transmit PMA
  delays. -/
  | amLockAcquired (lane : Fin 258) (rx : BitVec 24) (tx : BitVec 24)
  /-- PORT_ENABLE_WRITE (R80): A write of PORT_CTRL.ENABLE moves the port to TRAINING or DISABLED at the next ply.
  -/
  | portEnableWrite (a : Agent) (port : Fin 257) (v : Word)
  /-- LINK_TRAINING_COMPLETE (R80): CDR lock and link training complete on all lanes, and the port moves to
  ALIGNING. -/
  | linkTrainingComplete (port : Fin 257)
  /-- UP_HOLD_EXPIRY (R80): UP conditions have held for UP_HOLD, and the port enters UP, or returns to UP from
  FAULT. -/
  | upHoldExpiry (port : Fin 257)
  /-- REMOTE_FAULT_RECEIVED (R80): An UP port receives remote fault and moves to FAULT. -/
  | remoteFaultReceived (port : Fin 257)
  /-- LINK_LOSS (R80): CDR, signal or marker lock is lost, high SER is seen or a local fault is received, and the
  port returns to TRAINING. -/
  | linkLoss (port : Fin 257) (lane : Fin 258) (cause : LinkCause)
  /-- TRAIN_FAIL (R80): Link training fails and TRAIN_FAIL is raised. -/
  | trainFail (lane : Fin 258)
  /-- TRAIN_RETRY (R80): Training is retried 1 ms after a failure. -/
  | trainRetry (port : Fin 257)
  /-- SER_WINDOW_END (R91): At the end of an FEC window, HIGH_SER is judged from the symbol errors against
  SER_THRESH. -/
  | serWindowEnd (lane : Fin 258) (errors : Nat) (corrected : Nat) (uncorrected : Nat)
  /-- PORT_MAP_WRITE (R68): A PORT_MAP write is checked against the lane and enable rules; it is refused or staged
  for the next ply. -/
  | portMapWrite (a : Agent) (group : Fin 32) (v : Word)
  /-- PFC_FRAME_RECEIVED (R85): A good PFC frame for an enabled priority is decoded and its pause timers are loaded.
  -/
  | pfcFrameReceived (port : Fin 256) (enable : Byte) (quanta : List (BitVec 16)) (fcsGood : Bool)
  /-- PFC_PAUSE_HOLD (R86): The pause takes hold at the edge two ply after the PFC frame, and grants to the paused
  classes stop. -/
  | pfcPauseHold (port : Fin 256)
  /-- PFC_PAUSE_EXPIRY (R87): A pause timer expires and its class resumes at the first edge at or after expiry. -/
  | pfcPauseExpiry (port : Fin 256) (prio : Fin 8)
  /-- PFC_FRAME_SEND (R89): On XOFF assert or release, the port sends a PFC frame with TX_QUANTA or 0 within 2 ply.
  -/
  | pfcFrameSend (port : Fin 256) (classB : Bool)
  /-- PFC_REFRESH (R89): While XOFF holds, the PFC frame is repeated every REFRESH. -/
  | pfcRefresh (port : Fin 256) (classB : Bool)
  /-- PFC_WATCHDOG_EXPIRY (R90): A class paused longer than PFC_WD sets PFC_STORM, and with WD_DROP its frames are
  discarded. -/
  | pfcWatchdogExpiry (port : Fin 256) (cls : Fin 8)
  /-- FRAMER_CTRL_WRITE (R99): A FRAMER_CTRL write changing enable, N or lane mode is checked against ownership and
  accepted or rejected. -/
  | framerCtrlWrite (a : Agent) (f : Fin 16) (v : Word)
  /-- FLEXO_MARKER_LATCH (R103): The capture latch takes the time of a FlexO alignment marker, and the lane rate is
  measured. -/
  | flexoMarkerLatch (lane : Fin 256) (dt : Nat) (bits : Nat)
  /-- FLEXO_PATTERN_SIGHTING (R106): In OOF, a pattern match opens, confirms or closes an alignment candidate. -/
  | flexoPatternSighting (f : Fin 16) (inst : Fin 8) (sightings : List (Nat × Byte))
  /-- FLEXO_FRAME_CHECK (R107): In frame, the pattern is checked at the expected position with AM_TOL errors
  allowed. -/
  | flexoFrameCheck (f : Fin 16) (inst : Fin 8) (errors : Nat) (mfbyte : Byte)
  /-- OOF_DECLARE (R107): Five consecutive failed in-frame checks declare OOF. -/
  | oofDeclare (f : Fin 16) (inst : Fin 8)
  /-- DEFECT_DECLARE (R108): A defect's declare time elapses; it is reported unless suppressed, and its consequent
  actions begin. -/
  | defectDeclare (f : Fin 16) (defect : Fin 16)
  /-- DEFECT_CLEAR (R108): A defect's clear time elapses and it is no longer reported. -/
  | defectClear (f : Fin 16) (defect : Fin 16)
  /-- DEG_SECOND_END (R108): A second ends and is judged bad or good against DEG_THR for DEG detection. -/
  | degSecondEnd (f : Fin 16) (pm : Bool) (errors : Nat)
  /-- TTI_CYCLE (R111): A 64-frame TTI cycle ends; the received TTI is compared and the transmitted TTI restarts. -/
  | ttiCycle (f : Fin 16) (pm : Bool) (received : List Byte)
  /-- PPS_RISING_EDGE (R131): A rising 1PPS edge is stamped; it may be discarded as PPS_FAST and may open a ToD
  window. -/
  | ppsRisingEdge (dt : Nat)
  /-- PPS_FALLING_EDGE (R131): A falling 1PPS edge is stamped and the pulse is judged good or bad. -/
  | ppsFallingEdge (dt : Nat)
  /-- PPS_WIDTH_TIMEOUT (R131): PPS_WMAX elapses with the input still high, and the pulse is judged too wide. -/
  | ppsWidthTimeout
  /-- PPS_MISSING (R132): No rising edge arrives within 1.001 s of the last accepted edge, and 1PPS is disqualified.
  -/
  | ppsMissing
  /-- TOD_MESSAGE (R135): A ToD message is received and judged good or not good. -/
  | todMessage (begins : Nat) (ends : Nat) (msg : List Byte)
  /-- TOD_WINDOW_CLOSE (R135): A ToD window closes without a good message and TOD_OK falls. -/
  | todWindowClose
  /-- FREQ_GATE_END (R136): A 10 ms gate ends; the 10 MHz and SyncE offsets are measured and qualification is
  updated. -/
  | freqGateEnd (synce : Bool) (dev : Int)
  /-- FREQ_EDGE_LOSS (R136): A frequency input shows no edge for 1 µs and is disqualified. -/
  | freqEdgeLoss (synce : Bool)
  /-- PTP_FRAME_DIVERT (R137): A matching PTP frame is diverted to the Tally before parse and processed. -/
  | ptpFrameDivert (port : Fin 256) (lane : Fin 256) (bits : Nat) (msg : List Byte)
  /-- PTP_MESSAGE_SEND (R137): The Tally injects a PTP message at the first frame boundary of the port. -/
  | ptpMessageSend (portB : Bool) (dt : Nat) (msg : List Byte)
  /-- PTP_RECEIPT_TIMEOUT (R140): Sync or Delay_Resp is missing for 3 intervals and the PTP port is disqualified. -/
  | ptpReceiptTimeout (portB : Bool) (which : PtpTimer)
  /-- TE_MEASUREMENT (R141): Once per second the time error against the selected reference is measured into TE_LAST.
  -/
  | teMeasurement (te : Int)
  /-- TT_NS_READ (R157): A read of TT_NS returns the nanoseconds and latches the fraction and seconds for the agent.
  -/
  | ttNsRead (a : Agent) (dt : Nat)
  /-- ROUTINE_DISPATCH (R180): The dispatcher places a packet on a free context, or queues it. -/
  | routineDispatch (pipe : Fin 8)
  /-- NEXT (R170): A microword with SEQ NEXT executes its nanoword and continues at PC + 1. -/
  | uwNext (pipe : Fin 8) (engine : Fin 64)
  /-- JUMP (R170): A microword with SEQ JUMP executes its nanoword and continues at TARGET. -/
  | uwJump (pipe : Fin 8) (engine : Fin 64)
  /-- BRT (R170): A microword with SEQ BRT branches to TARGET when its flag is 1. -/
  | uwBrt (pipe : Fin 8) (engine : Fin 64)
  /-- BRF (R170): A microword with SEQ BRF branches to TARGET when its flag is 0. -/
  | uwBrf (pipe : Fin 8) (engine : Fin 64)
  /-- CALL (R170): A microword with SEQ CALL pushes PC + 1 and continues at TARGET. -/
  | uwCall (pipe : Fin 8) (engine : Fin 64)
  /-- RET (R170): A microword with SEQ RET continues at the popped address. -/
  | uwRet (pipe : Fin 8) (engine : Fin 64)
  /-- WAIT (R179): A WAIT microword executes in the cycle its condition is first found true. -/
  | uwWait (pipe : Fin 8) (engine : Fin 64)
  /-- COMMIT (R186): END COMMIT ends the routine; the journal is committed and the packet follows the META verdict.
  -/
  | uwCommit (pipe : Fin 8) (engine : Fin 64)
  /-- DISCARD (R186): END DISCARD ends the routine; the journal is discarded and the packet follows the META
  verdict. -/
  | uwDiscard (pipe : Fin 8) (engine : Fin 64)
  /-- EXCEPT (R186): END EXCEPT discards the journal; the packet takes its default action with ROUTINE_EXCEPT. -/
  | uwExcept (pipe : Fin 8) (engine : Fin 64)
  /-- COMMIT_EXCEPT (R186): END COMMIT_EXCEPT commits the journal, follows the verdict and raises ROUTINE_EXCEPT. -/
  | uwCommitExcept (pipe : Fin 8) (engine : Fin 64)
  /-- FLOW_READY (R249): The FLOW_FIND reply binds a record (HIT or FETCHED) or reports ABSENT. -/
  | flowReady (ctx : Fin 4096) (upset : Fin 5)
  /-- LEARN_DONE (R251): The FLOW_LEARN reply binds an existing or newly learned record. -/
  | learnDone (ctx : Fin 4096) (upset : Fin 5)
  /-- TBL_REPLY (R213): A table lookup reply writes TBL_RESULT. -/
  | tblReply (ctx : Fin 4096) (upset : List Nat) (corrected : Bool)
  /-- HASH_DONE (R224): A hash reply writes HASH_RESULT. -/
  | hashDone (ctx : Fin 4096)
  /-- TIME_READY (R175): A TIME_READ reply writes TIME_RESULT. -/
  | timeReady (ctx : Fin 4096) (dt : Nat)
  /-- PARAM_READY (R209): A PARAM_READ reply writes PARAM_RESULT. -/
  | paramReady (ctx : Fin 4096)
  /-- ASSIST_DONE (R265): A THROTTLE or HISTO reply writes ASSIST_RESULT. -/
  | assistDone (ctx : Fin 4096)
  /-- CTR_READY (R262): A COUNTER_READ reply writes CTR_RESULT. -/
  | ctrReady (ctx : Fin 4096)
  /-- STATE_READY (R225): A QDEPTH or MEMBER_STATE reply writes STATE_RESULT. -/
  | stateReady (ctx : Fin 4096)
  /-- JOURNAL_COMMIT (R188): A commit takes its Deck slot and applies the journal and automatic updates atomically,
  freeing the context. -/
  | journalCommit (ctx : Fin 4096)
  /-- DEADLINE_EXPIRY (R183): A routine or queued packet reaches its deadline edge unfinished, and is aborted with
  DEADLINE_HIT or DEADLINE_MISS. -/
  | deadlineExpiry (frame : Nat)
  /-- STORE_WRITE (R194): STORE_CMD.WRITE writes STORE_DATA to the addressed word in all 8 pipelines, under R191. -/
  | storeWrite (a : Agent) (pipe : Fin 8) (cmd : Word)
  /-- STORE_READ (R194): STORE_CMD.READ reads this pipeline's addressed word into STORE_DATA. -/
  | storeRead (a : Agent) (pipe : Fin 8) (cmd : Word)
  /-- STORE_SCRUB (R193): A background slot scrubs a control store line, correcting or marking errors. -/
  | storeScrub (pipe : Fin 8) (nano : Bool) (line : Nat) (uncorrectable : Bool) (corrected : Bool)
  /-- STORE_REPAIR (R193): The Cruise copies a marked word from the next pipeline and clears the mark. -/
  | storeRepair (pipe : Fin 8) (nano : Bool) (line : Nat) (sourceOk : Bool)
  /-- PARSE (R197): The parse graph walks the frame's window into a header vector, waiting for bytes as needed. -/
  | parse (frame : Nat) (more : List Byte)
  /-- CLASSIFY (R213): The key is built and looked up, and the frame's action, generation and metering are resolved.
  -/
  | classify (frame : Nat) (more : List Byte) (upset : List Nat) (corrected : Bool)
  /-- PG_WRITE (R202): PG_CMD.WRITE writes a parse graph node or transition, refused while PARSE_EN = 1. -/
  | pgWrite (a : Agent) (pipe : Fin 8) (cmd : Word)
  /-- PG_READ (R236): PG_CMD.READ reads a node or transition into PG_DATA. -/
  | pgRead (a : Agent) (pipe : Fin 8) (cmd : Word)
  /-- TBL_INSERT (R210): TBL_CMD INSERT places an exact-match entry in a candidate bucket, or fails FULL. -/
  | tblInsert (a : Agent) (pipe : Fin 8) (cmd : Word)
  /-- TBL_DELETE (R214): TBL_CMD DELETE clears an entry's VALID at an edge. -/
  | tblDelete (a : Agent) (pipe : Fin 8) (cmd : Word)
  /-- TBL_MODIFY (R214): TBL_CMD MODIFY replaces an entry's result word at an edge. -/
  | tblModify (a : Agent) (pipe : Fin 8) (cmd : Word)
  /-- TBL_READ (R237): TBL_CMD READ returns an entry into the window. -/
  | tblRead (a : Agent) (pipe : Fin 8) (cmd : Word)
  /-- TBL_WRITE (R214): TBL_CMD WRITE writes an entry by index, taking hold at an edge. -/
  | tblWrite (a : Agent) (pipe : Fin 8) (cmd : Word)
  /-- TBL_CLEAR (R214): TBL_CMD CLEAR clears an entry by index at an edge. -/
  | tblClear (a : Agent) (pipe : Fin 8) (cmd : Word)
  /-- TABLE_CONFIG_WRITE (R607): A write to EM_CFG or TERN_CFG is checked for overlap and size, then accepted or
  refused. -/
  | tableConfigWrite (a : Agent) (pipe : Fin 8) (tern : Bool) (idx : Fin 8) (v : Word)
  /-- FLIP (R219): GEN_CTRL.FLIP increments ACTIVE_GEN at the next ply and starts retirement of the old bank. -/
  | flip (a : Agent) (pipe : Fin 8) (v : Word)
  /-- FRAG_ENTRY_EXPIRY (R226): A fragment entry's LIFE elapses and the entry is removed. -/
  | fragEntryExpiry (pipe : Fin 8)
  /-- FRAG_HOLD_RELEASE (R228): A held non-first fragment is released with the stored outcome once its entry exists.
  -/
  | fragHoldRelease (pipe : Fin 8)
  /-- FRAG_TIMEOUT (R228): A held fragment's HOLD elapses and it is dropped with FRAG_TIMEOUT. -/
  | fragTimeout (pipe : Fin 8)
  /-- DECK_INSTALL (R257): A fetched or learned record is installed into a Deck way, evicting a victim when needed.
  -/
  | deckInstall (pipe : Fin 8)
  /-- DECK_WRITEBACK (R255): A writeback slot reads a selected record, queues it for flow memory and marks it clean.
  -/
  | deckWriteback (pipe : Fin 8) (bank : Fin 16)
  /-- WRITEBACK_ACK (R257): Flow memory acknowledges a writeback or victim write and residency is cleared. -/
  | writebackAck (pipe : Fin 8)
  /-- INDEX_WRITE_ACK (R253): Flow memory acknowledges a learned index write and the pending entry is removed. -/
  | indexWriteAck
  /-- CRUISE_AGE_VISIT (R272): The Cruise visits a record or bucket in background slots to age or refresh it. -/
  | cruiseAgeVisit (target : CruiseTarget)
  /-- DORMANT_REFRESH_PASS (R267): Every 2^45 ply in DORMANT, the Cruise runs one throttle refresh pass. -/
  | dormantRefreshPass
  /-- FT_READ (R277): FT_CMD READ copies the current record into FT_DATA. -/
  | ftRead (a : Agent) (cmd : Word)
  /-- FT_WRITE (R277): FT_CMD WRITE replaces a record except GEN. -/
  | ftWrite (a : Agent) (cmd : Word)
  /-- FT_INSERT (R277): FT_CMD INSERT allocates and inserts a host record. -/
  | ftInsert (a : Agent) (cmd : Word)
  /-- FT_FIND (R277): FT_CMD FIND returns the flow index of a key. -/
  | ftFind (a : Agent) (cmd : Word)
  /-- FT_DELETE (R277): FT_CMD DELETE clears a record's index entry and frees its index. -/
  | ftDelete (a : Agent) (cmd : Word)
  /-- PIN (R259): FT_CMD PIN fetches a record into a pipeline's Deck and pins it. -/
  | pin (a : Agent) (cmd : Word)
  /-- UNPIN (R259): FT_CMD UNPIN clears a record's PIN. -/
  | unpin (a : Agent) (cmd : Word)
  /-- FLUSH (R277): FT_CMD FLUSH starts writing back every dirty record of every Deck. -/
  | flush (a : Agent) (cmd : Word)
  /-- FLUSH_COMPLETE (R277): The last flushed record is acknowledged and BUSY clears. -/
  | flushComplete
  /-- CLEAR_BAD (R277): FT_CMD CLEAR_BAD removes a record marked BAD and frees its index. -/
  | clearBad (a : Agent) (cmd : Word)
  /-- CTR_READ (R282): CTR_CMD.READ reads a bank counter into CTR_DATA. -/
  | ctrRead (a : Agent) (pipe : Fin 8) (cmd : Word)
  /-- CTR_WRITE (R263): CTR_CMD.WRITE writes CTR_DATA into a counter, winning over a same-cycle add. -/
  | ctrWrite (a : Agent) (pipe : Fin 8) (cmd : Word) (sameCycleAdd : Option Nat)
  /-- CLEAR_BANK (R282): CTR_CMD.CLEAR_BANK zeroes a whole bank atomically at the next ply. -/
  | clearBank (a : Agent) (pipe : Fin 8) (cmd : Word)
  /-- THROTTLE_RATE_WRITE (R266): A profile RATE write takes effect at the next ply and records OLD_RATE and the
  change ply. -/
  | throttleRateWrite (a : Agent) (profile : Fin 256) (v : Word)
  /-- HBM_REQUEST (R288): A requester port's request is accepted by a controller, with writes acknowledged at
  acceptance. -/
  | hbmRequest (port : Fin 21) (addr : Nat) (write : Option (List Byte))
  /-- HBM_READ_COMPLETE (R303): Read data returns, corrected or poisoned, to its requester. -/
  | hbmReadComplete (c : Fin 16) (errs : List (Nat × Nat))
  /-- REQUEST_LATE (R291): A queued request reaches urgency 3, counts LATE and raises LATE. -/
  | requestLate (c : Fin 16)
  /-- LIMIT_WINDOW_END (R293): A window of 1,024 command cycles ends and every port's LIMIT count restarts. -/
  | limitWindowEnd (c : Fin 16)
  /-- HBM_REFRESH (R299): A bank refresh falls due and is issued or postponed. -/
  | hbmRefresh (c : Fin 16) (pc : Fin 4) (bank : Fin 64)
  /-- HOT_REPORTED (R299): The stack reports the doubled-refresh temperature band and HOT is set. -/
  | hotReported (c : Fin 16) (temp : BitVec 8)
  /-- ROW_IDLE_CLOSE (R297): An open row closes after OPEN_IDLE command cycles without a hit. -/
  | rowIdleClose (c : Fin 16) (pc : Fin 4) (bank : Nat)
  /-- CORRECTIVE_WRITE (R303): A queued corrective write of a granule is issued in an odd background cycle. -/
  | correctiveWrite (c : Fin 16)
  /-- HBM_SCRUB_READ (R301): A background cycle scrubs the next granule. -/
  | hbmScrubRead (c : Fin 16) (errs : List (Nat × Nat))
  /-- RECENTRE_PROBE (R308): A lane is probed at ±h and its delay is moved or MARGIN_LOW raised. -/
  | recentreProbe (c : Fin 16) (q : Fin 4) (lane : Fin 5) (write : Bool) (low : Bool) (high : Bool)
  /-- DELAY_CHANGE_APPLY (R309): A changed delay takes effect in the next quiet background cycle. -/
  | delayChangeApply (c : Fin 16)
  /-- HBM_TRAINING_COMPLETE (R307): A lane sweep completes and its delay and eye are chosen, or TRAIN_FAIL is
  raised. -/
  | hbmTrainingComplete (c : Fin 16) (q : Fin 4) (lane : Fin 5) (write : Bool) (passes : BitVec 128)
  /-- SR_ENTER (R311): SR_CTRL.ENTER starts self-refresh entry. -/
  | srEnter (c : Fin 16)
  /-- SR_COMMIT (R311): Queued work is served and self-refresh entry is committed on all pseudo-channels. -/
  | srCommit (c : Fin 16)
  /-- SR_EXIT (R313): SR_CTRL.EXIT starts a self-refresh exit or stops an entry. -/
  | srExit (a : Agent) (c : Fin 16) (v : Word)
  /-- SR_EXIT_COMPLETE (R313): A self-refresh exit completes and held requests are served. -/
  | srExitComplete (c : Fin 16) (probeOk : Bool)
  /-- SR_IDLE_REENTER (R313): After an automatic exit in DORMANT, SR_IDLE passes with no request and self-refresh is
  re-entered. -/
  | srIdleReenter (c : Fin 16)
  /-- SWITCH_CORE_ADMISSION (R328): A frame or copy's first cell is written and it reserves cells of its account, or
  is dropped. -/
  | switchCoreAdmission (frame : Nat)
  /-- RESEQ_CELL_ARRIVAL (R323): A cell reaches its stream's resequencer and is held, passed on or discarded. -/
  | reseqCellArrival (stream : Fin 512) (seq : Fin 4096)
  /-- RESEQ_TIMEOUT (R324): A missing cell's timeout expires; it is declared lost and its frame marked bad. -/
  | reseqTimeout (stream : Fin 512)
  /-- PLANE_FAULT (R322): A crossbar plane reports an uncorrectable fault and becomes unusable from the next ply. -/
  | planeFault (plane : Fin 8)
  /-- LIMIT_WRITE (R331): A write of a buffer limit is checked against the whole partition and accepted or refused.
  -/
  | limitWrite (a : Agent) (addr : Nat) (v : Word)
  /-- MC_WRITE (R348): MC_CMD.WRITE writes a multicast group entry, taking hold at the next edge. -/
  | mcWrite (a : Agent) (cmd : Word)
  /-- MC_READ (R348): MC_CMD.READ reads a group entry into the window. -/
  | mcRead (a : Agent) (cmd : Word)
  /-- FREE_LIST_CHECK (R319): The Cruise finds unowned cells after a broken chain and frees them. -/
  | freeListCheck
  /-- EGRESS_GRANT (R368): The egress scheduler grants a frame from a port's release or class queues. -/
  | egressGrant (pipe : Fin 8)
  /-- FRAME_TRANSMITTED (R339): A frame's last byte passes the egress capture point and its outcome is reported. -/
  | frameTransmitted (port : Fin 265)
  /-- POL_WRITE (R362): POL_CMD.WRITE replaces a policer configuration at the next edge. -/
  | polWrite (a : Agent) (pipe : Fin 8) (cmd : Word)
  /-- POL_READ (R373): POL_CMD.READ fills the window with a policer's configuration, levels and counters. -/
  | polRead (a : Agent) (pipe : Fin 8) (cmd : Word)
  /-- POL_CLEAR_COUNTERS (R373): POL_CMD.CLEAR_COUNTERS zeroes a policer's counters at the next ply. -/
  | polClearCounters (a : Agent) (pipe : Fin 8) (cmd : Word)
  /-- POL_RESET_LEVELS (R362): RESET_LEVELS sets both buckets full at the edge of the write. -/
  | polResetLevels (a : Agent) (pipe : Fin 8) (cmd : Word)
  /-- SEQ_CFG_WRITE (R389): A SEQ_CFG write is checked against EN and port mapping and accepted or refused. -/
  | seqCfgWrite (a : Agent) (out : Fin 32) (v : Word)
  /-- ER_WRITE (R400): ER_CMD.WRITE writes a group's even-release profile at the next edge. -/
  | erWrite (a : Agent) (cmd : Word)
  /-- ER_READ (R400): ER_CMD.READ reads a group's even-release entry into ER_GROUP. -/
  | erRead (a : Agent) (cmd : Word)
  /-- COPY_LAUNCH (R394): A handed-off copy leaves the launch gate at A, or a late copy launches when its cause
  clears. -/
  | copyLaunch (port : Fin 256)
  /-- LATE_MAX_EXPIRY (R396): A late copy not begun within LATE_MAX ply is dropped as EXPIRED. -/
  | lateMaxExpiry (frame : Nat)
  /-- WITHHOLD_EXPIRY (R409): A withheld frame passes WITHHOLD_MAX ply without release and is dropped. -/
  | withholdExpiry (frame : Nat)
  /-- OUTCOME_MAX_EXPIRY (R414): A metered frame lacking an outcome after OUTCOME_MAX ply is recorded UNRESOLVED. -/
  | outcomeMaxExpiry (frame : Nat)
  /-- EPOCH_CLOSE (R421): An epoch ends, and its record is produced or lapses, or no record is due. -/
  | epochClose
  /-- EPOCH_RECORD_SIGNED (R423): A signature and its verification complete, and the epoch record enters the Book.
  -/
  | epochRecordSigned (firstOk : Bool) (secondOk : Bool)
  /-- EXPORT_FRAME_QUEUE (R427): An export frame of places, an epoch record or log entries is queued on the audit
  port when it fits. -/
  | exportFrameQueue
  /-- ACK_SEQ_WRITE (R429): The high-word write of ACK_SEQ frees places and Book slots up to that sequence. -/
  | ackSeqWrite (a : Agent) (hi : Word)
  /-- REWIND_SEQ_WRITE (R429): The high-word write of REWIND_SEQ restarts export from a sequence, or is refused. -/
  | rewindSeqWrite (a : Agent) (hi : Word)
  /-- SEAL_GO (R431): SEAL_CMD.GO starts verification of a seal or unseal request. -/
  | sealGo (a : Agent)
  /-- SEAL_VERIFY_COMPLETE (R431): Seal verification ends with a result, and on success the seal state changes at
  the edge. -/
  | sealVerifyComplete
  /-- SEALED_FIELD_WRITE (R432): While SEALED, a write to a sealed field is accepted within CAL_TOL or refused, and
  logged. -/
  | sealedFieldWrite (a : Agent) (addr : Nat) (v : Word)
  /-- TALLY_POWER_ON (R591): A power-on or TLY_RST_N of the Tally island clears its time and Book and reloads its
  key and firmware. -/
  | tallyPowerOn
  /-- TALLY_FIRMWARE_LOADED (R548): The Tally ROM finishes loading and verifying TALLY_FW, or stays in ROM. -/
  | tallyFirmwareLoaded (copy0 : List Byte) (copy1 : List Byte) (keyOk : Bool) (engine0Ok : Bool) (engine1Ok : Bool)
  /-- RNG_HEALTH_FAIL (R424): The random bit generator fails its health test and RNG_FAIL is raised. -/
  | rngHealthFail
  /-- CORE_INSTRUCTION (R441): A control core executes one RISC-V instruction. -/
  | coreInstruction (core : Fin 16) (upset : Fin 4) (onFetch : Bool)
  /-- TD_READY (R451): A ready operation moves a thread toward READY, coalesces or sets REARM. -/
  | tdReady (a : Agent) (thread : BitVec 32) (lapse : Bool)
  /-- TD_CANCEL (R451): A cancel operation returns a thread to IDLE or clears REARM. -/
  | tdCancel (a : Agent) (thread : BitVec 32)
  /-- TD_DELAY (R451): A delay operation places a thread on the delay list or records a pending delay. -/
  | tdDelay (a : Agent) (thread : BitVec 32) (ticks : BitVec 32) (lapse : Bool)
  /-- TD_NEXT (R453): A read of TD_NEXT takes the slotted thread to RUNNING and may preempt the running one. -/
  | tdNext (core : Fin 16)
  /-- TD_DONE (R452): TD_DONE ends the running thread into READY, DELAYED or IDLE. -/
  | tdDone (core : Fin 16) (ticks : BitVec 32)
  /-- TD_CFG_WRITE (R458): A TD_CFG write changes a thread's priority, affinity or enable and requeues it. -/
  | tdCfgWrite (a : Agent) (v : Word)
  /-- SLOT_FILL (R457): The dispatcher fills a core's work slot with the best eligible READY thread. -/
  | slotFill (core : Fin 16)
  /-- DELAY_EXPIRY (R456): A delayed thread's due tick comes and it enters its priority queue. -/
  | delayExpiry
  /-- EXCEPTION_DELIVERY (R463): A delivery engine writes an exception or notification entry into its ring and
  readies the bound thread. -/
  | exceptionDelivery (pipe : Fin 8)
  /-- RING_CONS_WRITE (R462): A write of CONS frees ring entries. -/
  | ringConsWrite (a : Agent) (ring : Fin 16) (v : Word)
  /-- DOORBELL (R460): A write of 1 to DOORBELL raises DOORBELL for the host. -/
  | doorbell (a : Agent) (v : Word)
  /-- CORE_RUN_WRITE (R442): A CORE_RUN write starts stopped cores at CORE_VEC. -/
  | coreRunWrite (a : Agent) (v : Word)
  /-- HOST_EXCEPTION_FRAME (R492): An exception bound for the host is built into a frame and queued on port 256. -/
  | hostExceptionFrame (pipe : Fin 8)
  /-- SKYLINE_FORWARD (R472): A node forwards a frame it neither consumes nor originates, buffering or dropping it
  as needed. -/
  | skylineForward (frame : List Byte) (waiting : Option Nat)
  /-- READ (R480): A Skyline READ request reads one register and replies. -/
  | skyRead (r : SkyReq)
  /-- WRITE (R480): A Skyline WRITE request writes one register and replies. -/
  | skyWrite (r : SkyReq)
  /-- MASKED_WRITE (R480): A Skyline MASKED_WRITE writes the masked bits of one register in one cycle. -/
  | skyMaskedWrite (r : SkyReq)
  /-- BURST_READ (R480): A Skyline BURST_READ reads up to 64 registers in ascending order. -/
  | skyBurstRead (r : SkyReq)
  /-- BURST_WRITE (R480): A Skyline BURST_WRITE writes up to 64 registers in ascending order. -/
  | skyBurstWrite (r : SkyReq)
  /-- WIN_READ (R481): A Skyline WIN_READ reads flow memory words through port 20. -/
  | skyWinRead (r : SkyReq)
  /-- WIN_WRITE (R481): A Skyline WIN_WRITE writes flow memory words through port 20. -/
  | skyWinWrite (r : SkyReq)
  /-- POLL (R489): A POLL frame passes and each addressed node writes its STATUS byte into the vector. -/
  | skyPoll (r : SkyReq)
  /-- ENUM (R475): An ENUM frame passes and each unaddressed node takes NEXT as its address. -/
  | skyEnum (r : SkyReq)
  /-- RETRY_DEADLINE (R485): An access not complete 760 ns after its request gets a RETRY reply and continues. -/
  | retryDeadline
  /-- SKYLINE_ACCESS_COMPLETE (R486): A Skyline access completes; its reply is sent or kept for retransmission. -/
  | skylineAccessComplete
  /-- SKYLINE_BYPASS_EXIT (R473): Node supplies are valid and reset is released, so the node leaves bypass without
  an address. -/
  | skylineBypassExit
  /-- EVT_STATUS_CLEAR (R506): A W1C of EVT_STATUS clears pulse events; level events with a live cause re-assert. -/
  | evtStatusClear (a : Agent) (page : Nat) (v : Word) (same : Word)
  /-- EVT_INJECT (R508): A write to EVT_INJECT makes an injected occurrence of each event selected. -/
  | evtInject (a : Agent) (page : Nat) (v : Word)
  /-- EVT_CLASS_WRITE (R501): An EVT_CLASS write takes effect at the next ply, except for FATAL defaults and sealed
  Tally pages. -/
  | evtClassWrite (a : Agent) (page : Nat) (hi : Bool) (v : Word)
  /-- LOG_CLEAR (R514): LOG_CTRL.CLEAR empties the fault log and unfreezes it. -/
  | logClear (a : Agent)
  /-- LOG_ENTRY_WRITE (R512): The log input queue writes one entry into the next slot, or counts it lost. -/
  | logEntryWrite
  /-- SNAP (R522): SNAP_CMD.SNAP requests a snapshot at the next edge. -/
  | snap (a : Agent)
  /-- PERIODIC_SNAPSHOT (R522): At each edge whose ply is a multiple of PERIOD, a snapshot is taken and may be
  appended to the buffer. -/
  | periodicSnapshot
  /-- PC_VALUE_WRITE (R528): A PC_VALUE_HI write stores both staged words of a performance counter at once. -/
  | pcValueWrite (a : Agent) (k : Fin 64) (hi : Word)
  /-- PC_CLEAR (R528): A PC_CLEAR high-word write zeroes the selected performance counters. -/
  | pcClear (a : Agent) (hi : Word)
  /-- MICROWORD_SAMPLE (R530): A pipeline's sample count reaches 0; the microword is sampled and the count restarts.
  -/
  | microwordSample (pipe : Fin 8)
  /-- INSTRUCTION_SAMPLE (R530): A core's sample count reaches 0; the instruction is sampled and the count restarts.
  -/
  | instructionSample (core : Fin 16)
  /-- SAMPLE_RECORD_WRITE (R532): A queued sample record is written to the ring, or is lost and stops sampling when
  the ring is full. -/
  | sampleRecordWrite
  /-- SAMP_CONS_WRITE (R532): A SAMP_CONS write frees sampling buffer slots. -/
  | sampConsWrite (a : Agent) (v : Word)
  /-- RESET_RELEASE (R561): Reset is released and the die enters BOOT and runs its boot sequence. -/
  | resetRelease (strap : Fin 4)
  /-- IMAGE_LOAD_COMPLETE (R538): An image read completes and is checked for authenticity, then loaded or rejected.
  -/
  | imageLoadComplete (kind : Fin 8) (copy1 : Bool) (image : List Byte) (readOk : Bool)
  /-- IMAGE_READ_TIMEOUT (R538): An image read not complete within 500 ms fails with SOURCE. -/
  | imageReadTimeout (kind : Fin 8) (copy1 : Bool)
  /-- BOOT_DATA_WRITE (R545): A BOOT_DATA write stores a word into the staging area while AWAIT_HOST reads 1. -/
  | bootDataWrite (a : Agent) (w : Fin 512) (v : Word)
  /-- BOOT_SUBMIT (R545): BOOT_CMD.SUBMIT verifies the staged image of the given kind. -/
  | bootSubmit (a : Agent) (kind : Fin 8)
  /-- BOOT_END (R545): BOOT_CMD.END tells the device that no further customer image is offered. -/
  | bootEnd (a : Agent)
  /-- PROVISION (R551): LC_CMD PROVISION fuses a staged item. -/
  | provision (a : Agent) (item : Fin 8)
  /-- COMMIT_FIELD (R550): LC_CMD COMMIT_FIELD moves PROVISIONED to FIELD. -/
  | commitField (a : Agent)
  /-- REVOKE_CUST (R551): LC_CMD REVOKE_CUST revokes a customer key slot. -/
  | revokeCust (a : Agent) (item : Fin 8)
  /-- ENTER_RETURN (R552): LC_CMD ENTER_RETURN blows the RETURN fuse, kills items, zeroes memories and requests
  RESET. -/
  | enterReturn (a : Agent)
  /-- VENDOR_UNLOCK (R553): LC_CMD VENDOR_UNLOCK verifies a vendor-signed request and opens vendor debug. -/
  | vendorUnlock (a : Agent)
  /-- RETIRE (R550): LC_CMD RETIRE moves the device to RETIRED. -/
  | retire (a : Agent)
  /-- REVOKE_VENDOR (R540): LC_CMD REVOKE_VENDOR revokes a vendor key slot at level 3. -/
  | revokeVendor (a : Agent) (item : Fin 8)
  /-- LC_OPERATION_COMPLETE (R550): A lifecycle operation's work ends and its state, items and result take effect at
  the next edge. -/
  | lcOperationComplete (fuseOk : Bool)
  /-- MODE_REQ_RESET (R570): A MODE_REQ with target RESET requests a die reset. -/
  | modeReqReset (a : Agent)
  /-- MODE_REQ_CALIBRATE (R561): A MODE_REQ with target CALIBRATE requests a cold or warm calibration pass. -/
  | modeReqCalibrate (a : Agent)
  /-- MODE_REQ_LIVE (R561): A MODE_REQ with target LIVE requests forwarding. -/
  | modeReqLive (a : Agent)
  /-- MODE_REQ_DRAIN (R565): A MODE_REQ with target DRAIN requests draining. -/
  | modeReqDrain (a : Agent)
  /-- MODE_REQ_DORMANT (R567): A MODE_REQ with target DORMANT requests the DORMANT procedure. -/
  | modeReqDormant (a : Agent) (force : Bool)
  /-- MODE_REQ_DIAGNOSTIC (R561): A MODE_REQ with target DIAGNOSTIC requests diagnostic mode. -/
  | modeReqDiagnostic (a : Agent)
  /-- CALIBRATE_COMPLETE (R563): Every item of the calibration pass is done and CAL_DONE reads 1. -/
  | calibrateComplete
  /-- DORMANT_COMPLETE (R568): The DORMANT steps complete and BUSY clears. -/
  | dormantComplete
  /-- SR_ENTER_RETRY (R568): After SR_ABORT, ENTER is written again at the next kernel tick, up to 1,000 times. -/
  | srEnterRetry (c : Fin 16)
  /-- DRAIN_TIMEOUT (R566): DRAIN_DONE has not read 1 within DRAIN_MAX µs and DRAIN_TIMEOUT is raised. -/
  | drainTimeout
  /-- AGEING_MEASUREMENT (R572): The once-per-second ring-oscillator and eye measurements update DEG_WORST and lane
  margins. -/
  | ageingMeasurement (degs : List Nat) (eyes : List (Nat × Nat × Nat))
  /-- CAPTURE_PATH_RECAL (R575): A lane's capture-path drift reaches RECAL_STEP, and the Tally writes a LANE_TRIM
  increment. -/
  | capturePathRecal (lane : Fin 256) (delta : Int)
  /-- AVS_ACK (R586): The core regulator acknowledges an AVSBus voltage request. -/
  | avsAck
  /-- AVS_TIMEOUT (R586): A voltage request is not acknowledged within 1 ms; AVS_FAIL is raised and the request
  retried each second. -/
  | avsTimeout
  /-- RST_N_ASSERT (R589): The RST_N ball is asserted, and the die enters RESET with its Skyline node in bypass. -/
  | rstNAssert
  /-- UNDER_VOLTAGE (R590): A die rail falls below its threshold and the die enters RESET with UV_SEEN set. -/
  | underVoltage (rail : Fin 10)
  /-- THERMAL_TRIP (R597): The die reaches 120 °C and enters RESET with TRIP_SEEN set. -/
  | thermalTrip
  /-- REFCLK_LOSS (R601): A reference clock input leaves its specification and REFCLK_LOSS is raised. -/
  | refclkLoss (input : Fin 8)
  /-- SOFT_RESET (R582): PAGE_CTRL.SOFT_RESET in DIAGNOSTIC empties a block's queues and counters, and is refused
  elsewhere. -/
  | softReset (a : Agent) (page : Nat) (v : Word)
  /-- DIE_POWER_ON (R588): The die rails ramp in sequence and become valid, which is the power-on of the die and
  clears the fault log, FIRST_FATAL, page 0x005 sticky fields and the kept event state. -/
  | diePowerOn
  /-- TALLY_RAIL_LOSS (R592): A Tally rail is lost, so the island stops keeping time, and in LIVE, DRAIN or
  DIAGNOSTIC the die raises the FATAL event TALLY_LOST. -/
  | tallyRailLoss (rail : Fin 10)
  /-- REFCLK_RESTORED (R601): A reference clock input returns within its specification, its REFCLK_STATUS bit reads
  1 and the cause of the REFCLK_LOSS level event falls. -/
  | refclkRestored (input : Fin 8)
  /-- HOT_CLEARED (R299): The HBM stack stops reporting the doubled-refresh temperature band, MC_STATUS.HOT clears
  and the fetch bound returns to 11 ply. -/
  | hotCleared (c : Fin 16) (temp : BitVec 8)
  /-- SKYLINE_LANE_LOCK (R471): The Skyline receive lanes gain block lock and are deskewed, so LANE_LOCK and ALIGNED
  read 1. -/
  | skylineLaneLock (lane : Fin 2) (lock : Bool) (aligned : Bool)
  /-- SKYLINE_LINK_LOSS (R494): The Skyline receive link loses block lock or alignment, and LINK_LOSS of page 0x008
  is raised. -/
  | skylineLinkLoss (lock : Fin 4)
  /-- LATCH_CAL_FAIL (R563): A Tally latch calibration in CALIBRATE cannot complete, CAL_FAIL is raised as FATAL and
  the device stays in CALIBRATE. -/
  | latchCalFail
deriving DecidableEq, Repr

end Sys2Proof
end

