-- ==== Sys2Proof/Decode.lean ====
section
/-! DEFINITION. The decoder over the rows of the opcode table that give bits. No row of this device's table gives any: its
commands are register accesses, bus operations and events, and none is spelled by a word of the table. -/

namespace Sys2Proof

/-- The command that a word of `nbits` bits spells by the table: none. -/
def decodeTableWord (_nbits _w : Nat) : Option Instr := none

end Sys2Proof
end

