-- ==== Sys2Proof/Machine/Crypto.lean ====
section
/-! DEFINITION. The published algorithms that R24 names, as far as the chapters use them: CRC-32 and CRC-32C, CRC-16
of Skyline, SHA-256 (FIPS 180-4), the Merkle tree hash of RFC 6962, RSASSA-PSS verification (RFC 8017), AES-256 and
GCM (FIPS 197, SP 800-38D). Their definitions are those of the named standards (log entry 19, PRESUMED). -/

namespace Sys2Proof.Machine

/-! Bytes and numbers, most significant byte first (R14). -/

/-- The `n` low bytes of `v`, before the bytes `acc`. -/
def cbytesOnto : Nat → Nat → List Byte → List Byte
  | 0, _, acc => acc
  | n + 1, v, acc => cbytesOnto n (v / 256) (BitVec.ofNat 8 v :: acc)

def cbytes (n v : Nat) : List Byte := cbytesOnto n v []

def cnum (bs : List Byte) : Nat := bs.foldl (fun a b => a * 256 + b.toNat) 0

/-! Cyclic redundancy checks. -/

def iter {α : Type} (f : α → α) : Nat → α → α
  | 0, x => x
  | n + 1, x => iter f n (f x)

/-- One reflected CRC-32 step over eight bits with the reflected polynomial. -/
def crc32Byte (poly : Word) (c : Word) (b : Byte) : Word :=
  iter (fun x => if x.getLsbD 0 then (x >>> 1) ^^^ poly else x >>> 1) 8 (c ^^^ b.setWidth 32)

/-- The Ethernet FCS over bytes (IEEE 802.3 CRC-32). -/
def crc32 (bs : List Byte) : Word := ~~~ (bs.foldl (crc32Byte 0xEDB88320) 0xFFFFFFFF)

/-- CRC-32C (Castagnoli polynomial). -/
def crc32c (bs : List Byte) : Word := ~~~ (bs.foldl (crc32Byte 0x82F63B78) 0xFFFFFFFF)

/-- The four FCS bytes in transmission order: the CRC-32's low byte first. -/
def fcsBytes (c : Word) : List Byte :=
  [c.setWidth 8, (c >>> 8).setWidth 8, (c >>> 16).setWidth 8, (c >>> 24).setWidth 8]

/-! SHA-256. -/

def shaK : List Word := [
  0x428a2f98, 0x71374491, 0xb5c0fbcf, 0xe9b5dba5, 0x3956c25b, 0x59f111f1, 0x923f82a4, 0xab1c5ed5,
  0xd807aa98, 0x12835b01, 0x243185be, 0x550c7dc3, 0x72be5d74, 0x80deb1fe, 0x9bdc06a7, 0xc19bf174,
  0xe49b69c1, 0xefbe4786, 0x0fc19dc6, 0x240ca1cc, 0x2de92c6f, 0x4a7484aa, 0x5cb0a9dc, 0x76f988da,
  0x983e5152, 0xa831c66d, 0xb00327c8, 0xbf597fc7, 0xc6e00bf3, 0xd5a79147, 0x06ca6351, 0x14292967] ++ [
  0x27b70a85, 0x2e1b2138, 0x4d2c6dfc, 0x53380d13, 0x650a7354, 0x766a0abb, 0x81c2c92e, 0x92722c85,
  0xa2bfe8a1, 0xa81a664b, 0xc24b8b70, 0xc76c51a3, 0xd192e819, 0xd6990624, 0xf40e3585, 0x106aa070,
  0x19a4c116, 0x1e376c08, 0x2748774c, 0x34b0bcb5, 0x391c0cb3, 0x4ed8aa4a, 0x5b9cca4f, 0x682e6ff3,
  0x748f82ee, 0x78a5636f, 0x84c87814, 0x8cc70208, 0x90befffa, 0xa4506ceb, 0xbef9a3f7, 0xc67178f2]

structure Sha where
  a : Word
  b : Word
  c : Word
  d : Word
  e : Word
  f : Word
  g : Word
  h : Word
deriving DecidableEq, Repr

def shaInit : Sha :=
  ⟨0x6a09e667, 0xbb67ae85, 0x3c6ef372, 0xa54ff53a, 0x510e527f, 0x9b05688c, 0x1f83d9ab, 0x5be0cd19⟩

def rotr (x : Word) (n : Nat) : Word := (x >>> n) ||| (x <<< (32 - n))

def shaRound (s : Sha) (kw : Word × Word) : Sha :=
  let s1 := rotr s.e 6 ^^^ rotr s.e 11 ^^^ rotr s.e 25
  let ch := (s.e &&& s.f) ^^^ (~~~ s.e &&& s.g)
  let t1 := s.h + s1 + ch + kw.1 + kw.2
  let s0 := rotr s.a 2 ^^^ rotr s.a 13 ^^^ rotr s.a 22
  let mj := (s.a &&& s.b) ^^^ (s.a &&& s.c) ^^^ (s.b &&& s.c)
  ⟨t1 + (s0 + mj), s.a, s.b, s.c, s.d + t1, s.e, s.f, s.g⟩

/-- The message schedule, newest word first. -/
def shaSched : Nat → List Word → List Word
  | 0, w => w
  | n + 1, w =>
    let w2 := w.getD 1 0
    let w7 := w.getD 6 0
    let w15 := w.getD 14 0
    let w16 := w.getD 15 0
    let g0 := rotr w15 7 ^^^ rotr w15 18 ^^^ (w15 >>> 3)
    let g1 := rotr w2 17 ^^^ rotr w2 19 ^^^ (w2 >>> 10)
    shaSched n ((w16 + g0 + w7 + g1) :: w)

def bytesToWords : Nat → List Byte → List Word
  | 0, _ => []
  | n + 1, bs => BitVec.ofNat 32 (cnum (bs.take 4)) :: bytesToWords n (bs.drop 4)

def shaBlock (s : Sha) (blk : List Byte) : Sha :=
  let w := (shaSched 48 (bytesToWords 16 blk).reverse).reverse
  let r := (shaK.zip w).foldl shaRound s
  ⟨s.a + r.a, s.b + r.b, s.c + r.c, s.d + r.d, s.e + r.e, s.f + r.f, s.g + r.g, s.h + r.h⟩

def shaBlocks : Nat → Sha → List Byte → Sha
  | 0, s, _ => s
  | n + 1, s, bs => shaBlocks n (shaBlock s (bs.take 64)) (bs.drop 64)

/-- Padding of FIPS 180-4 to whole 64-byte blocks. -/
def shaPad (bs : List Byte) : List Byte :=
  let z := (64 - (bs.length + 9) % 64) % 64
  bs ++ [0x80] ++ List.replicate z 0 ++ cbytes 8 (bs.length * 8)

/-- SHA-256. -/
def sha256 (bs : List Byte) : List Byte :=
  let p := shaPad bs
  let r := shaBlocks (p.length / 64) shaInit p
  [r.a, r.b, r.c, r.d, r.e, r.f, r.g, r.h].flatMap (fun w => cbytes 4 w.toNat)

/-! The Merkle tree hash of RFC 6962, section 2.1. -/

/-- The largest power of two below `n` (at least 1), searched among 2^k, k ≤ fuel. -/
def splitAt2 (n : Nat) : Nat → Nat
  | 0 => 1
  | k + 1 => if 2 ^ (k + 1) < n then 2 ^ (k + 1) else splitAt2 n k

/-- The tree hash over the leaf data `d i`, i in [lo, lo+n). -/
def merkle (d : Nat → List Byte) : Nat → Nat → Nat → List Byte
  | 0, _, _ => []
  | fuel + 1, lo, n =>
    if n = 0 then sha256 []
    else if n = 1 then sha256 (0x00 :: d lo)
    else
      let k := splitAt2 n 32
      sha256 (0x01 :: (merkle d fuel lo k ++ merkle d fuel (lo + k) (n - k)))

/-! RSASSA-PSS verification, SHA-256, MGF1 with SHA-256, salt of 32 bytes, 3,072-bit key, exponent 65,537 (R420). -/

def xorBytes : List Byte → List Byte → List Byte
  | a :: as, b :: bs => (a ^^^ b) :: xorBytes as bs
  | _, _ => []

def mgf1 (seed : List Byte) : Nat → Nat → List Byte
  | 0, _ => []
  | n + 1, i => sha256 (seed ++ cbytes 4 i) ++ mgf1 seed n (i + 1)

/-- m^65537 mod n: sixteen squarings and one multiplication. -/
def rsaPow (m n : Nat) : Nat := (iter (fun x => x * x % n) 16 (m % n) * m) % n

/-- EMSA-PSS verification for emBits = 3,071 (emLen 384). -/
def pssVerify (modulus : List Byte) (msg sig : List Byte) : Bool :=
  let n := cnum modulus
  let sg := cnum sig
  if n = 0 ∨ n ≤ sg then false else
  let em := cbytes 384 (rsaPow sg n)
  let mH := sha256 msg
  let masked := em.take 351
  let h := (em.drop 351).take 32
  let last := em.getD 383 0
  let top := em.getD 0 0
  if last ≠ 0xBC ∨ top.getLsbD 7 then false else
  let db0 := xorBytes masked ((mgf1 h 11 0).take 351)
  let db := (db0.getD 0 0 &&& 0x7F) :: db0.drop 1
  let ps := db.take 318
  let salt := db.drop 319
  ps.all (· == 0) && (db.getD 318 0 == 0x01) && (sha256 (List.replicate 8 0 ++ mH ++ salt) == h)

/-! AES-256 (FIPS 197). -/

/-- Multiplication by x in GF(2^8). -/
def xtime (b : Byte) : Byte := if b.getLsbD 7 then (b <<< 1) ^^^ 0x1B else b <<< 1

def gmul8 (a b : Byte) : Byte :=
  (List.range 8).foldl (fun acc i => if b.getLsbD i then acc ^^^ iter xtime i a else acc) 0

/-- The multiplicative inverse as the 254th power (0 maps to 0). -/
def ginv8 (a : Byte) : Byte :=
  let p2 := gmul8 a a
  let p4 := gmul8 p2 p2
  let p8 := gmul8 p4 p4
  let p16 := gmul8 p8 p8
  let p32 := gmul8 p16 p16
  let p64 := gmul8 p32 p32
  let p128 := gmul8 p64 p64
  gmul8 p128 (gmul8 p64 (gmul8 p32 (gmul8 p16 (gmul8 p8 (gmul8 p4 p2)))))

def rotl8 (b : Byte) (n : Nat) : Byte := (b <<< n) ||| (b >>> (8 - n))

/-- The S-box: inverse, then the affine map. -/
def sbox (b : Byte) : Byte :=
  let i := ginv8 b
  i ^^^ rotl8 i 1 ^^^ rotl8 i 2 ^^^ rotl8 i 3 ^^^ rotl8 i 4 ^^^ 0x63

def subWord (w : List Byte) : List Byte := w.map sbox

/-- AES-256 key expansion: the words so far, newest last; `i` counts from 8. -/
def aesExpand : Nat → Nat → Byte → List (List Byte) → List (List Byte)
  | 0, _, _, ws => ws
  | n + 1, i, rc, ws =>
    let t := ws.getD (i - 1) []
    let t2 := if i % 8 = 0 then xorBytes (subWord (t.drop 1 ++ t.take 1)) [rc, 0, 0, 0]
      else if i % 8 = 4 then subWord t else t
    let w := xorBytes (ws.getD (i - 8) []) t2
    aesExpand n (i + 1) (if i % 8 = 0 then xtime rc else rc) (ws ++ [w])

def chunk4 : Nat → List Byte → List (List Byte)
  | 0, _ => []
  | n + 1, bs => bs.take 4 :: chunk4 n (bs.drop 4)

def aesShift (s : List Byte) : List Byte :=
  (List.range 16).map (fun i => s.getD ((i + 4 * (i % 4)) % 16) 0)

def aesMixCol (c : List Byte) : List Byte :=
  let a := c.getD 0 0
  let b := c.getD 1 0
  let d := c.getD 2 0
  let e := c.getD 3 0
  [xtime a ^^^ (xtime b ^^^ b) ^^^ d ^^^ e, a ^^^ xtime b ^^^ (xtime d ^^^ d) ^^^ e,
   a ^^^ b ^^^ xtime d ^^^ (xtime e ^^^ e), (xtime a ^^^ a) ^^^ b ^^^ d ^^^ xtime e]

def aesMix (s : List Byte) : List Byte := (chunk4 4 s).flatMap aesMixCol

def aesRounds : List (List Byte) → List Byte → List Byte
  | [], s => s
  | [k], s => xorBytes (aesShift (s.map sbox)) k
  | k :: ks, s => aesRounds ks (xorBytes (aesMix (aesShift (s.map sbox))) k)

def roundKeys : Nat → List (List Byte) → List (List Byte)
  | 0, _ => []
  | n + 1, ws => (ws.take 4).flatten :: roundKeys n (ws.drop 4)

/-- AES-256 encryption of one block. -/
def aes256 (key blk : List Byte) : List Byte :=
  let rk := roundKeys 15 (aesExpand 52 8 0x01 (chunk4 8 key))
  aesRounds (rk.drop 1) (xorBytes blk (rk.getD 0 []))

/-! GCM (SP 800-38D). -/

/-- Multiplication in GF(2^128), bit 0 leftmost (BitVec bit 127). -/
def gmul128 (x y : BitVec 128) : BitVec 128 :=
  ((List.range 128).foldl (fun (zv : BitVec 128 × BitVec 128) i =>
    let z := if x.getLsbD (127 - i) then zv.1 ^^^ zv.2 else zv.1
    let v := if zv.2.getLsbD 0 then (zv.2 >>> 1) ^^^ (0xE1 <<< 120) else zv.2 >>> 1
    (z, v)) (0, y)).1

def ghash (h : BitVec 128) : Nat → BitVec 128 → List Byte → BitVec 128
  | 0, acc, _ => acc
  | n + 1, acc, bs =>
    let b := bs.take 16
    let b := b ++ List.replicate (16 - b.length) 0
    ghash h n (gmul128 (acc ^^^ BitVec.ofNat 128 (cnum b)) h) (bs.drop 16)

def pad16 (bs : List Byte) : List Byte := bs ++ List.replicate ((16 - bs.length % 16) % 16) 0

/-- GCTR from counter block (iv, c) on. -/
def gctr (key iv : List Byte) : Nat → Nat → List Byte → List Byte
  | 0, _, _ => []
  | n + 1, c, bs => xorBytes (bs.take 16) (aes256 key (iv ++ cbytes 4 c)) ++ gctr key iv n (c + 1) (bs.drop 16)

/-- The GCM tag of (aad, ciphertext) for a 12-byte iv. -/
def gcmTag (key iv aad ct : List Byte) : List Byte :=
  let h := BitVec.ofNat 128 (cnum (aes256 key (List.replicate 16 0)))
  let m := pad16 aad ++ pad16 ct ++ cbytes 8 (aad.length * 8) ++ cbytes 8 (ct.length * 8)
  let sgh := ghash h (m.length / 16) 0 m
  xorBytes (cbytes 16 sgh.toNat) (aes256 key (iv ++ cbytes 4 1))

/-- GCM decryption of the data alone (the tag is compared by `gcmTag`). -/
def gcmDecrypt (key iv ct : List Byte) : List Byte := gctr key iv ((ct.length + 15) / 16) 2 ct

end Sys2Proof.Machine
end

