-- ==== Sys2Proof/Config.lean ====
section
/-! DEFINITION. What the spec leaves open: free values. Each is a constant without a body, so that no proof can see
its value; `State.freeIx` numbers the successive uses (log entry 10). -/

namespace Sys2Proof

/-- The free values that the spec states no value for, numbered by the counter `State.freeIx` (log entry 10). -/
opaque Config.freeValue : Nat → Nat

/-- The next state of a 32-bit WRED or sampling LFSR: the spec gives the seed and no polynomial
(log entries 11, 12). -/
opaque Config.lfsrNext : Word → Word

/-- Byte of the boot ROM at an offset below 64 KiB (R443): the spec does not give its contents (log entry 21). -/
opaque Config.bootRom : Nat → Byte

/-- The boot ROM's reset vector (R442), an address the spec does not give (log entry 21). -/
opaque Config.resetVector : DWord

/-- First byte of the 16 MiB staging area within shared SRAM (R545), which the spec does not give (log entry 22). -/
opaque Config.stagingBase : Fin 16777217

/-- The value that boot firmware writes to a field whose Reset column reads "boot" and for which no chapter gives a
number, by word address × 32 + low bit (log entry 24). -/
opaque Config.bootValue : Nat → Nat

/-- Choices the published instruction set leaves to a core (log entry 8): 0 a misaligned access to memory completes,
1 mtval takes the instruction's bits, 2 mtval takes the faulting address, 3 TICK goes before WORK. -/
opaque Config.coreChoice : Nat → Bool

/-- The values of mvendorid, marchid and mimpid, which the spec does not give (log entry 8). -/
opaque Config.coreId : Nat → DWord

end Sys2Proof
end

