-- ==== Sys2Proof/Machine/RegMap.lean ====
section
/-! DEFINITION. The register map: every register of the spec's register tables (chapters 00-20) as data,
and a name for every register offset (`R.<page>_<register>`) and every field (`F.<page>_<register>_<field>`).
Offsets are within the page, or within the register's block where the table gives block-relative offsets. -/

namespace Sys2Proof.Machine

/-- The access codes of R17; `rwS` is the "RW, sealed" of the Tally pages (R432), `cnt` a read-only word of a
64-bit counter (R15, R16). Bits that no field covers are RSVD. -/
inductive Acc where
  | rw | rwS | ro | cnt | w1c | w1s | rc | wo
deriving DecidableEq, Repr

/-- One field of a register word: its low bit, width, access code and reset value. -/
structure FieldSpec where
  lo : Nat
  width : Nat
  acc : Acc
  reset : Nat
deriving DecidableEq, Repr

/-- One register of a page type: block base, block stride and block count (one block where the register is not in a
block), offset in the block, index stride and index count, and the fields of each of its words. -/
structure RegRow where
  base : Nat
  bStride : Nat
  bCount : Nat
  off : Nat
  stride : Nat
  count : Nat
  words : List (List FieldSpec)
deriving DecidableEq, Repr

/-- A named field: offset of its word in the page or block, low bit, width. -/
structure FRef where
  off : Nat
  lo : Nat
  width : Nat
deriving DecidableEq, Repr

/-! R6 (00_scope.md) -/
abbrev R.ID_DEVICE_ID : Nat := 0x040
abbrev F.ID_DEVICE_ID_PART : FRef := ⟨0x040, 16, 16⟩
abbrev F.ID_DEVICE_ID_STEP : FRef := ⟨0x040, 8, 8⟩
abbrev F.ID_DEVICE_ID_PKG : FRef := ⟨0x040, 0, 8⟩
abbrev R.ID_VARIANT : Nat := 0x044
abbrev F.ID_VARIANT_SEAL_CAP : FRef := ⟨0x044, 0, 1⟩
abbrev F.ID_VARIANT_HBM : FRef := ⟨0x044, 1, 1⟩
abbrev F.ID_VARIANT_LONG_HAUL : FRef := ⟨0x044, 2, 1⟩
abbrev F.ID_VARIANT_HBM_STACKS : FRef := ⟨0x044, 8, 8⟩
abbrev F.ID_VARIANT_FRAMERS : FRef := ⟨0x044, 16, 8⟩
/-! R41 (01_architecture.md) -/
abbrev R.CLK_PLY_COUNT_LO : Nat := 0x040
abbrev F.CLK_PLY_COUNT_LO_PLY_LO : FRef := ⟨0x040, 0, 32⟩
abbrev R.CLK_PLY_COUNT_HI : Nat := 0x044
abbrev F.CLK_PLY_COUNT_HI_PLY_HI : FRef := ⟨0x044, 0, 32⟩
abbrev R.CLK_PLY_STATUS : Nat := 0x048
abbrev F.CLK_PLY_STATUS_CORE_LOCK : FRef := ⟨0x048, 0, 1⟩
abbrev F.CLK_PLY_STATUS_LOCK_LOST : FRef := ⟨0x048, 1, 1⟩
/-! R91 (02_line_ports.md) -/
abbrev R.LANE_LANE_CTRL : Nat := 0x040
abbrev F.LANE_LANE_CTRL_TX_INVERT : FRef := ⟨0x040, 0, 1⟩
abbrev F.LANE_LANE_CTRL_RX_INVERT : FRef := ⟨0x040, 1, 1⟩
abbrev F.LANE_LANE_CTRL_LOOPBACK : FRef := ⟨0x040, 2, 2⟩
abbrev F.LANE_LANE_CTRL_IFTYPE : FRef := ⟨0x040, 4, 2⟩
abbrev F.LANE_LANE_CTRL_AN_EN : FRef := ⟨0x040, 6, 1⟩
abbrev F.LANE_LANE_CTRL_OWNER : FRef := ⟨0x040, 7, 1⟩
abbrev F.LANE_LANE_CTRL_TX_PRE : FRef := ⟨0x040, 8, 8⟩
abbrev F.LANE_LANE_CTRL_TX_POST : FRef := ⟨0x040, 16, 8⟩
abbrev R.LANE_LANE_STATUS : Nat := 0x044
abbrev F.LANE_LANE_STATUS_SIGNAL : FRef := ⟨0x044, 0, 1⟩
abbrev F.LANE_LANE_STATUS_CDR_LOCK : FRef := ⟨0x044, 1, 1⟩
abbrev F.LANE_LANE_STATUS_TRAIN_DONE : FRef := ⟨0x044, 2, 1⟩
abbrev F.LANE_LANE_STATUS_AM_LOCK : FRef := ⟨0x044, 3, 1⟩
abbrev F.LANE_LANE_STATUS_HIGH_SER : FRef := ⟨0x044, 4, 1⟩
abbrev F.LANE_LANE_STATUS_AM_LOST_SEEN : FRef := ⟨0x044, 5, 1⟩
abbrev R.LANE_RX_DELAY : Nat := 0x048
abbrev F.LANE_RX_DELAY_RX_PMA_DELAY : FRef := ⟨0x048, 0, 24⟩
abbrev F.LANE_RX_DELAY_DELAY_VALID : FRef := ⟨0x048, 31, 1⟩
abbrev R.LANE_TX_DELAY : Nat := 0x04C
abbrev F.LANE_TX_DELAY_TX_PMA_DELAY : FRef := ⟨0x04C, 0, 24⟩
abbrev R.LANE_RX_SKEW : Nat := 0x050
abbrev F.LANE_RX_SKEW_SKEW : FRef := ⟨0x050, 0, 20⟩
abbrev R.LANE_SER_CTRL : Nat := 0x054
abbrev F.LANE_SER_CTRL_SER_THRESH : FRef := ⟨0x054, 0, 16⟩
abbrev F.LANE_SER_CTRL_SER_WINDOW : FRef := ⟨0x054, 16, 16⟩
abbrev R.LANE_EYE : Nat := 0x058
abbrev F.LANE_EYE_EYE_HEIGHT : FRef := ⟨0x058, 0, 16⟩
abbrev F.LANE_EYE_EYE_WIDTH : FRef := ⟨0x058, 16, 16⟩
abbrev R.LANE_FEC_SYMBOLS : Nat := 0x060
/-! R92 (02_line_ports.md) -/
abbrev R.PG_PORT_MAP : Nat := 0x040
abbrev F.PG_PORT_MAP_W7 : FRef := ⟨0x040, 0, 24⟩
abbrev F.PG_PORT_MAP_QUAD0_RATE : FRef := ⟨0x040, 24, 1⟩
abbrev F.PG_PORT_MAP_QUAD1_RATE : FRef := ⟨0x040, 25, 1⟩
abbrev R.PG_MAP_STATUS : Nat := 0x044
abbrev F.PG_MAP_STATUS_MAP_REJECT : FRef := ⟨0x044, 0, 1⟩
abbrev F.PG_MAP_STATUS_LANES_ACTIVE : FRef := ⟨0x044, 8, 8⟩
/-! R93 (02_line_ports.md) -/
abbrev R.PORT_PORT_CTRL : Nat := 0x000
abbrev F.PORT_PORT_CTRL_ENABLE : FRef := ⟨0x000, 0, 1⟩
abbrev F.PORT_PORT_CTRL_PFC_RX_EN : FRef := ⟨0x000, 8, 8⟩
abbrev R.PORT_PORT_STATUS : Nat := 0x004
abbrev F.PORT_PORT_STATUS_LINK_STATE : FRef := ⟨0x004, 0, 3⟩
abbrev F.PORT_PORT_STATUS_LOCAL_FAULT : FRef := ⟨0x004, 3, 1⟩
abbrev F.PORT_PORT_STATUS_REMOTE_FAULT : FRef := ⟨0x004, 4, 1⟩
abbrev F.PORT_PORT_STATUS_DELAYS_VALID : FRef := ⟨0x004, 5, 1⟩
abbrev F.PORT_PORT_STATUS_PAUSED : FRef := ⟨0x004, 8, 8⟩
abbrev F.PORT_PORT_STATUS_LINK_DOWN_SEEN : FRef := ⟨0x004, 16, 1⟩
abbrev F.PORT_PORT_STATUS_WRAP : FRef := ⟨0x004, 17, 1⟩
abbrev F.PORT_PORT_STATUS_PFC_STORM : FRef := ⟨0x004, 18, 1⟩
abbrev R.PORT_PORT_FRAME : Nat := 0x008
abbrev F.PORT_PORT_FRAME_MAX_FRAME : FRef := ⟨0x008, 0, 14⟩
abbrev R.PORT_PFC_CTRL : Nat := 0x00C
abbrev F.PORT_PFC_CTRL_PRIO_A : FRef := ⟨0x00C, 0, 3⟩
abbrev F.PORT_PFC_CTRL_PRIO_A_EN : FRef := ⟨0x00C, 3, 1⟩
abbrev F.PORT_PFC_CTRL_PRIO_B : FRef := ⟨0x00C, 4, 3⟩
abbrev F.PORT_PFC_CTRL_PRIO_B_EN : FRef := ⟨0x00C, 7, 1⟩
abbrev F.PORT_PFC_CTRL_WD_DROP : FRef := ⟨0x00C, 8, 1⟩
abbrev R.PORT_PFC_TIMING : Nat := 0x010
abbrev F.PORT_PFC_TIMING_TX_QUANTA : FRef := ⟨0x010, 0, 16⟩
abbrev F.PORT_PFC_TIMING_REFRESH : FRef := ⟨0x010, 16, 16⟩
abbrev R.PORT_LINK_TIMING : Nat := 0x014
abbrev F.PORT_LINK_TIMING_UP_HOLD : FRef := ⟨0x014, 0, 16⟩
abbrev F.PORT_LINK_TIMING_PFC_WD : FRef := ⟨0x014, 16, 16⟩
abbrev R.PORT_RX_FRAMES : Nat := 0x020
abbrev R.PORT_RX_BYTES : Nat := 0x028
abbrev R.PORT_RX_FCS_ERR : Nat := 0x030
abbrev R.PORT_RX_RUNT : Nat := 0x038
abbrev R.PORT_RX_GIANT : Nat := 0x040
abbrev R.PORT_RX_FIFO_DROP : Nat := 0x048
abbrev R.PORT_RX_TRUNC : Nat := 0x050
abbrev R.PORT_TX_FRAMES : Nat := 0x058
abbrev R.PORT_TX_BYTES : Nat := 0x060
abbrev R.PORT_TX_ABORT : Nat := 0x068
abbrev R.PORT_LINK_DOWN_DISCARD : Nat := 0x070
abbrev R.PORT_FEC_CORRECTED : Nat := 0x078
abbrev R.PORT_FEC_UNCORRECTED : Nat := 0x080
abbrev R.PORT_RX_PFC : Nat := 0x088
abbrev R.PORT_TX_PFC : Nat := 0x090
abbrev R.PORT_RX_PAUSE_IGNORED : Nat := 0x098
/-! R115 (03_long_haul_framing.md) -/
abbrev R.FRM_FRAMER_CTRL : Nat := 0x040
abbrev F.FRM_FRAMER_CTRL_ENABLE : FRef := ⟨0x040, 0, 1⟩
abbrev F.FRM_FRAMER_CTRL_N : FRef := ⟨0x040, 1, 4⟩
abbrev F.FRM_FRAMER_CTRL_LANE_MODE : FRef := ⟨0x040, 5, 1⟩
abbrev F.FRM_FRAMER_CTRL_TIM_ACT : FRef := ⟨0x040, 6, 1⟩
abbrev F.FRM_FRAMER_CTRL_TTI_MODE : FRef := ⟨0x040, 7, 2⟩
abbrev F.FRM_FRAMER_CTRL_TIME_PATH : FRef := ⟨0x040, 9, 1⟩
abbrev F.FRM_FRAMER_CTRL_LCK_TX : FRef := ⟨0x040, 10, 1⟩
abbrev R.FRM_FRAMER_STATUS : Nat := 0x044
abbrev F.FRM_FRAMER_STATUS_DEFECTS : FRef := ⟨0x044, 0, 15⟩
abbrev F.FRM_FRAMER_STATUS_IN_FRAME : FRef := ⟨0x044, 16, 1⟩
abbrev F.FRM_FRAMER_STATUS_TTI_ACCEPTED : FRef := ⟨0x044, 17, 1⟩
abbrev F.FRM_FRAMER_STATUS_PATH_PROVEN : FRef := ⟨0x044, 18, 1⟩
abbrev R.FRM_DEFECTS_RAW : Nat := 0x048
abbrev F.FRM_DEFECTS_RAW_RAW : FRef := ⟨0x048, 0, 15⟩
abbrev R.FRM_CFG_STATUS : Nat := 0x04C
abbrev F.FRM_CFG_STATUS_CFG_REJECT : FRef := ⟨0x04C, 0, 1⟩
abbrev F.FRM_CFG_STATUS_AMBIG_COUNT : FRef := ⟨0x04C, 8, 8⟩
abbrev R.FRM_ALIGN_CTRL : Nat := 0x050
abbrev F.FRM_ALIGN_CTRL_AM_TOL : FRef := ⟨0x050, 0, 4⟩
abbrev R.FRM_DEG_CTRL : Nat := 0x054
abbrev F.FRM_DEG_CTRL_DEG_THR : FRef := ⟨0x054, 0, 24⟩
abbrev F.FRM_DEG_CTRL_DEG_M : FRef := ⟨0x054, 24, 4⟩
abbrev R.FRM_EXP_SAPI : Nat := 0x060
abbrev R.FRM_EXP_DAPI : Nat := 0x070
abbrev R.FRM_EXP_SAPI_PM : Nat := 0x080
abbrev R.FRM_EXP_DAPI_PM : Nat := 0x090
abbrev R.FRM_ACC_TTI_SM : Nat := 0x0C0
abbrev R.FRM_ACC_TTI_PM : Nat := 0x100
abbrev R.FRM_TX_TTI_SM : Nat := 0x140
abbrev R.FRM_BIP_SM : Nat := 0x180
abbrev R.FRM_BEI_SM : Nat := 0x188
abbrev R.FRM_BIP_PM : Nat := 0x190
abbrev R.FRM_BEI_PM : Nat := 0x198
abbrev R.FRM_FEC_CORRECTED : Nat := 0x1A0
abbrev R.FRM_FEC_UNCORRECTED : Nat := 0x1A8
abbrev R.FRM_TX_TTI_PM : Nat := 0x1C0
/-! R157 (04_tally_time.md) -/
abbrev R.TT_TT_NS : Nat := 0x040
abbrev F.TT_TT_NS_NS : FRef := ⟨0x040, 0, 30⟩
abbrev R.TT_TT_FRAC : Nat := 0x044
abbrev F.TT_TT_FRAC_FRAC : FRef := ⟨0x044, 0, 8⟩
abbrev R.TT_TT_SEC_LO : Nat := 0x048
abbrev F.TT_TT_SEC_LO_SEC_LO : FRef := ⟨0x048, 0, 32⟩
abbrev R.TT_TT_SEC_HI : Nat := 0x04C
abbrev F.TT_TT_SEC_HI_SEC_HI : FRef := ⟨0x04C, 0, 16⟩
abbrev R.TT_TIME_STATE : Nat := 0x050
abbrev F.TT_TIME_STATE_STATE : FRef := ⟨0x050, 0, 2⟩
abbrev F.TT_TIME_STATE_TIME_SET : FRef := ⟨0x050, 2, 1⟩
abbrev F.TT_TIME_STATE_TQ : FRef := ⟨0x050, 3, 2⟩
abbrev F.TT_TIME_STATE_TIME_SRC : FRef := ⟨0x050, 5, 3⟩
abbrev F.TT_TIME_STATE_FREQ_SRC : FRef := ⟨0x050, 8, 3⟩
abbrev R.TT_TE_LAST : Nat := 0x054
abbrev F.TT_TE_LAST_TE : FRef := ⟨0x054, 0, 32⟩
abbrev R.TT_FREQ_ADJ : Nat := 0x058
abbrev F.TT_FREQ_ADJ_ADJ : FRef := ⟨0x058, 0, 32⟩
abbrev R.TT_HOLDOVER_EST : Nat := 0x05C
abbrev F.TT_HOLDOVER_EST_EST : FRef := ⟨0x05C, 0, 32⟩
abbrev R.TT_UTC_OFFSET : Nat := 0x060
abbrev F.TT_UTC_OFFSET_TAI_UTC : FRef := ⟨0x060, 0, 8⟩
abbrev F.TT_UTC_OFFSET_LEAP61 : FRef := ⟨0x060, 8, 1⟩
abbrev F.TT_UTC_OFFSET_LEAP59 : FRef := ⟨0x060, 9, 1⟩
abbrev F.TT_UTC_OFFSET_VALID : FRef := ⟨0x060, 10, 1⟩
abbrev R.TT_LATCH_WORST : Nat := 0x064
abbrev F.TT_LATCH_WORST_LATCH : FRef := ⟨0x064, 0, 9⟩
abbrev F.TT_LATCH_WORST_DEV : FRef := ⟨0x064, 16, 16⟩
abbrev R.TT_BRAND_SKIP : Nat := 0x068
abbrev R.TT_BRAND_CTRL : Nat := 0x400
abbrev F.TT_BRAND_CTRL_PLACE : FRef := ⟨0x400, 0, 2⟩
abbrev F.TT_BRAND_CTRL_ALL : FRef := ⟨0x400, 2, 1⟩
abbrev F.TT_BRAND_CTRL_OVERSIZE_DROP : FRef := ⟨0x400, 3, 1⟩
/-! R158 (04_tally_time.md) -/
abbrev R.REF_REF_CTRL : Nat := 0x040
abbrev F.REF_REF_CTRL_PPS_EN : FRef := ⟨0x040, 0, 1⟩
abbrev F.REF_REF_CTRL_F10M_EN : FRef := ⟨0x040, 1, 1⟩
abbrev F.REF_REF_CTRL_SYNCE_EN : FRef := ⟨0x040, 2, 1⟩
abbrev F.REF_REF_CTRL_PTP_A_EN : FRef := ⟨0x040, 3, 1⟩
abbrev F.REF_REF_CTRL_PTP_B_EN : FRef := ⟨0x040, 4, 1⟩
abbrev F.REF_REF_CTRL_TIME_PREF : FRef := ⟨0x040, 5, 1⟩
abbrev F.REF_REF_CTRL_FREQ_PREF : FRef := ⟨0x040, 6, 2⟩
abbrev R.REF_REF_STATUS : Nat := 0x044
abbrev F.REF_REF_STATUS_PPS_OK : FRef := ⟨0x044, 0, 1⟩
abbrev F.REF_REF_STATUS_TOD_OK : FRef := ⟨0x044, 1, 1⟩
abbrev F.REF_REF_STATUS_F10M_OK : FRef := ⟨0x044, 2, 1⟩
abbrev F.REF_REF_STATUS_SYNCE_OK : FRef := ⟨0x044, 3, 1⟩
abbrev F.REF_REF_STATUS_PTP_A_OK : FRef := ⟨0x044, 4, 1⟩
abbrev F.REF_REF_STATUS_PTP_B_OK : FRef := ⟨0x044, 5, 1⟩
abbrev R.REF_PPS_WIN : Nat := 0x048
abbrev F.REF_PPS_WIN_PPS_WMIN : FRef := ⟨0x048, 0, 16⟩
abbrev F.REF_PPS_WIN_PPS_WMAX : FRef := ⟨0x048, 16, 16⟩
abbrev R.REF_PPS_QUAL : Nat := 0x04C
abbrev F.REF_PPS_QUAL_QUAL_N : FRef := ⟨0x04C, 0, 4⟩
abbrev R.REF_PPS_TE : Nat := 0x050
abbrev F.REF_PPS_TE_TE : FRef := ⟨0x050, 0, 32⟩
abbrev R.REF_PPS_SEC : Nat := 0x054
abbrev F.REF_PPS_SEC_SEC_LO : FRef := ⟨0x054, 0, 32⟩
abbrev R.REF_F10M_DEV : Nat := 0x058
abbrev F.REF_F10M_DEV_DEV : FRef := ⟨0x058, 0, 32⟩
abbrev R.REF_SYNCE_DEV : Nat := 0x05C
abbrev F.REF_SYNCE_DEV_DEV : FRef := ⟨0x05C, 0, 32⟩
abbrev R.REF_F10M_LIMIT : Nat := 0x060
abbrev F.REF_F10M_LIMIT_LIMIT : FRef := ⟨0x060, 0, 16⟩
abbrev R.REF_SYNCE_SRC : Nat := 0x064
abbrev F.REF_SYNCE_SRC_LANE : FRef := ⟨0x064, 0, 8⟩
abbrev F.REF_SYNCE_SRC_EEC_OPT : FRef := ⟨0x064, 8, 1⟩
/-! R159 (04_tally_time.md) -/
abbrev R.PTP_PTP_CTRL : Nat := 0x000
abbrev F.PTP_PTP_CTRL_PORT : FRef := ⟨0x000, 0, 8⟩
abbrev F.PTP_PTP_CTRL_TRANSPORT : FRef := ⟨0x000, 8, 2⟩
abbrev F.PTP_PTP_CTRL_DOMAIN : FRef := ⟨0x000, 10, 8⟩
abbrev F.PTP_PTP_CTRL_HA : FRef := ⟨0x000, 18, 1⟩
abbrev F.PTP_PTP_CTRL_VLAN_EN : FRef := ⟨0x000, 19, 1⟩
abbrev F.PTP_PTP_CTRL_VID : FRef := ⟨0x000, 20, 12⟩
abbrev R.PTP_PTP_STATUS : Nat := 0x004
abbrev F.PTP_PTP_STATUS_PORT_STATE : FRef := ⟨0x004, 0, 4⟩
abbrev F.PTP_PTP_STATUS_L1SYNC_UP : FRef := ⟨0x004, 4, 1⟩
abbrev R.PTP_PTP_OFFSET : Nat := 0x008
abbrev F.PTP_PTP_OFFSET_OFFSET : FRef := ⟨0x008, 0, 32⟩
abbrev R.PTP_PTP_MPD : Nat := 0x00C
abbrev F.PTP_PTP_MPD_MPD : FRef := ⟨0x00C, 0, 32⟩
abbrev R.PTP_PTP_ASYM : Nat := 0x010
abbrev F.PTP_PTP_ASYM_ASYM : FRef := ⟨0x010, 0, 32⟩
abbrev R.PTP_PTP_GM_ID : Nat := 0x014
abbrev R.PTP_PTP_RX : Nat := 0x020
abbrev R.PTP_PTP_TX : Nat := 0x028
abbrev R.PTP_LOCAL_MAC : Nat := 0x0C0
abbrev R.PTP_LOCAL_IP : Nat := 0x0C8
abbrev R.PTP_LOCAL_ID_SUFFIX : Nat := 0x0D8
abbrev F.PTP_LOCAL_ID_SUFFIX_PORT_NUM : FRef := ⟨0x0D8, 0, 16⟩
/-! R160 (04_tally_time.md) -/
abbrev R.CAL_TE_LIMIT : Nat := 0x040
abbrev F.CAL_TE_LIMIT_LIMIT : FRef := ⟨0x040, 0, 16⟩
abbrev R.CAL_LATCH_THRESH : Nat := 0x044
abbrev F.CAL_LATCH_THRESH_THRESH : FRef := ⟨0x044, 0, 8⟩
abbrev R.CAL_HO_LIMIT : Nat := 0x048
abbrev F.CAL_HO_LIMIT_LIMIT : FRef := ⟨0x048, 0, 24⟩
abbrev R.CAL_HO_DRIFT : Nat := 0x04C
abbrev F.CAL_HO_DRIFT_DRIFT : FRef := ⟨0x04C, 0, 24⟩
abbrev R.CAL_SLEW_MAX : Nat := 0x050
abbrev F.CAL_SLEW_MAX_SLEW : FRef := ⟨0x050, 0, 16⟩
abbrev R.CAL_SHIFT_LIMIT : Nat := 0x054
abbrev F.CAL_SHIFT_LIMIT_LIMIT : FRef := ⟨0x054, 0, 16⟩
abbrev R.CAL_PPS_IN_DELAY : Nat := 0x058
abbrev F.CAL_PPS_IN_DELAY_DELAY : FRef := ⟨0x058, 0, 28⟩
abbrev R.CAL_TRACE_CTRL : Nat := 0x05C
abbrev F.CAL_TRACE_CTRL_UNTRACE_ACT : FRef := ⟨0x05C, 0, 1⟩
abbrev R.CAL_CAL_STATE : Nat := 0x060
abbrev F.CAL_CAL_STATE_LATCH_CAL_DONE : FRef := ⟨0x060, 0, 1⟩
abbrev R.CAL_DEMARC_RX : Nat := 0x400
abbrev F.CAL_DEMARC_RX_DELAY : FRef := ⟨0x400, 0, 28⟩
abbrev R.CAL_DEMARC_TX : Nat := 0x800
abbrev F.CAL_DEMARC_TX_DELAY : FRef := ⟨0x800, 0, 28⟩
abbrev R.CAL_LANE_TRIM : Nat := 0xC00
abbrev F.CAL_LANE_TRIM_TRIM : FRef := ⟨0xC00, 0, 16⟩
/-! R194 (05_uhloz_microengines.md) -/
abbrev R.FS_FS_CTRL : Nat := 0x040
abbrev F.FS_FS_CTRL_DISPATCH_EN : FRef := ⟨0x040, 0, 1⟩
abbrev F.FS_FS_CTRL_UNDECODED_EXC : FRef := ⟨0x040, 1, 1⟩
abbrev R.FS_STORE_STATUS : Nat := 0x044
abbrev F.FS_STORE_STATUS_LOADED : FRef := ⟨0x044, 0, 1⟩
abbrev F.FS_STORE_STATUS_AUTH_VENDOR : FRef := ⟨0x044, 1, 1⟩
abbrev F.FS_STORE_STATUS_AUTH_CUSTOMER : FRef := ⟨0x044, 2, 1⟩
abbrev F.FS_STORE_STATUS_CUSTOMER_OFFERED : FRef := ⟨0x044, 3, 1⟩
abbrev F.FS_STORE_STATUS_REPAIR_PENDING : FRef := ⟨0x044, 4, 1⟩
abbrev R.FS_VENDOR_VER : Nat := 0x048
abbrev F.FS_VENDOR_VER_VER : FRef := ⟨0x048, 0, 32⟩
abbrev R.FS_CUSTOMER_VER : Nat := 0x04C
abbrev F.FS_CUSTOMER_VER_VER : FRef := ⟨0x04C, 0, 32⟩
abbrev R.FS_STORE_ADDR : Nat := 0x050
abbrev F.FS_STORE_ADDR_ADDR : FRef := ⟨0x050, 0, 15⟩
abbrev F.FS_STORE_ADDR_SPACE : FRef := ⟨0x050, 15, 1⟩
abbrev F.FS_STORE_ADDR_AUTO_INC : FRef := ⟨0x050, 16, 1⟩
abbrev R.FS_STORE_CMD : Nat := 0x054
abbrev F.FS_STORE_CMD_WRITE : FRef := ⟨0x054, 0, 1⟩
abbrev F.FS_STORE_CMD_READ : FRef := ⟨0x054, 1, 1⟩
abbrev R.FS_STORE_DATA : Nat := 0x060
abbrev R.FS_CTX_BUSY : Nat := 0x080
abbrev F.FS_CTX_BUSY_BUSY : FRef := ⟨0x080, 0, 10⟩
abbrev F.FS_CTX_BUSY_PEAK : FRef := ⟨0x080, 16, 10⟩
abbrev R.FS_DISPATCH_Q : Nat := 0x084
abbrev F.FS_DISPATCH_Q_DEPTH : FRef := ⟨0x084, 0, 9⟩
abbrev F.FS_DISPATCH_Q_PEAK : FRef := ⟨0x084, 16, 9⟩
abbrev R.FS_LAST_ABORT : Nat := 0x088
abbrev F.FS_LAST_ABORT_REASON : FRef := ⟨0x088, 0, 4⟩
abbrev F.FS_LAST_ABORT_ADDR : FRef := ⟨0x088, 4, 15⟩
abbrev F.FS_LAST_ABORT_ENGINE : FRef := ⟨0x088, 19, 6⟩
abbrev F.FS_LAST_ABORT_CONTEXT : FRef := ⟨0x088, 25, 3⟩
abbrev R.FS_LAST_ABORT_PLY : Nat := 0x090
abbrev R.FS_CUSTOMER_DIGEST : Nat := 0x0A0
abbrev R.FS_VENDOR_DIGEST : Nat := 0x0C0
abbrev R.FS_ABORT_COUNT : Nat := 0x100
abbrev R.FS_ROUTINES : Nat := 0x180
abbrev R.FS_COMMITS : Nat := 0x188
abbrev R.FS_DISCARDS : Nat := 0x190
abbrev R.FS_UNDECODED : Nat := 0x198
abbrev R.FS_ENTRY : Nat := 0x400
abbrev F.FS_ENTRY_ADDR : FRef := ⟨0x400, 0, 15⟩
abbrev F.FS_ENTRY_VALID : FRef := ⟨0x400, 15, 1⟩
abbrev F.FS_ENTRY_CUSTOMER : FRef := ⟨0x400, 16, 1⟩
/-! R236 (06_parse_classify.md) -/
abbrev R.PRS_PG_CTRL : Nat := 0x040
abbrev F.PRS_PG_CTRL_PARSE_EN : FRef := ⟨0x040, 0, 1⟩
abbrev F.PRS_PG_CTRL_START_NODE : FRef := ⟨0x040, 1, 8⟩
abbrev F.PRS_PG_CTRL_TRAIL_ACCEPT : FRef := ⟨0x040, 9, 1⟩
abbrev F.PRS_PG_CTRL_UDP_SHORT_ACCEPT : FRef := ⟨0x040, 10, 1⟩
abbrev F.PRS_PG_CTRL_EXC_METER : FRef := ⟨0x040, 11, 4⟩
abbrev R.PRS_PG_ADDR : Nat := 0x044
abbrev F.PRS_PG_ADDR_INDEX : FRef := ⟨0x044, 0, 10⟩
abbrev F.PRS_PG_ADDR_KIND : FRef := ⟨0x044, 10, 1⟩
abbrev F.PRS_PG_ADDR_AUTO_INC : FRef := ⟨0x044, 11, 1⟩
abbrev R.PRS_PG_CMD : Nat := 0x048
abbrev F.PRS_PG_CMD_WRITE : FRef := ⟨0x048, 0, 1⟩
abbrev F.PRS_PG_CMD_READ : FRef := ⟨0x048, 1, 1⟩
abbrev R.PRS_PG_DATA : Nat := 0x050
abbrev R.PRS_PARSED : Nat := 0x080
abbrev R.PRS_PARSE_EXC_COUNT : Nat := 0x088
abbrev R.PRS_PARSE_OFF_DROP : Nat := 0x0C0
/-! R237 (06_parse_classify.md) -/
abbrev R.CLS_GEN_CTRL : Nat := 0x040
abbrev F.CLS_GEN_CTRL_FLIP : FRef := ⟨0x040, 0, 1⟩
abbrev R.CLS_GEN_STATUS : Nat := 0x044
abbrev F.CLS_GEN_STATUS_ACTIVE_GEN : FRef := ⟨0x044, 0, 8⟩
abbrev F.CLS_GEN_STATUS_RETIRING : FRef := ⟨0x044, 8, 1⟩
abbrev F.CLS_GEN_STATUS_INFLIGHT_OLD : FRef := ⟨0x044, 12, 20⟩
abbrev R.CLS_TBL_CMD : Nat := 0x050
abbrev F.CLS_TBL_CMD_OP : FRef := ⟨0x050, 0, 3⟩
abbrev F.CLS_TBL_CMD_SPACE : FRef := ⟨0x050, 4, 3⟩
abbrev F.CLS_TBL_CMD_TABLE : FRef := ⟨0x050, 8, 8⟩
abbrev F.CLS_TBL_CMD_BANK : FRef := ⟨0x050, 16, 1⟩
abbrev F.CLS_TBL_CMD_BCAST : FRef := ⟨0x050, 17, 1⟩
abbrev R.CLS_TBL_INDEX : Nat := 0x054
abbrev F.CLS_TBL_INDEX_INDEX : FRef := ⟨0x054, 0, 17⟩
abbrev R.CLS_TBL_STATUS : Nat := 0x058
abbrev F.CLS_TBL_STATUS_BUSY : FRef := ⟨0x058, 0, 1⟩
abbrev F.CLS_TBL_STATUS_RESULT : FRef := ⟨0x058, 1, 3⟩
abbrev R.CLS_TBL_KEY : Nat := 0x060
abbrev R.CLS_TBL_MASK : Nat := 0x0A0
abbrev R.CLS_TBL_RES : Nat := 0x0C8
abbrev R.CLS_EM_CFG : Nat := 0x100
abbrev F.CLS_EM_CFG_KEYW : FRef := ⟨0x100, 0, 2⟩
abbrev F.CLS_EM_CFG_BASE : FRef := ⟨0x100, 2, 8⟩
abbrev F.CLS_EM_CFG_SIZE : FRef := ⟨0x100, 10, 8⟩
abbrev R.CLS_TERN_CFG : Nat := 0x120
abbrev F.CLS_TERN_CFG_BASE : FRef := ⟨0x120, 0, 6⟩
abbrev F.CLS_TERN_CFG_SIZE : FRef := ⟨0x120, 6, 7⟩
abbrev R.CLS_LOOKUPS : Nat := 0x180
abbrev R.CLS_EM_HITS : Nat := 0x188
abbrev R.CLS_TERN_HITS : Nat := 0x190
abbrev R.CLS_MISSES : Nat := 0x198
/-! R238 (06_parse_classify.md) -/
abbrev R.FRG_FRAG_CTRL : Nat := 0x040
abbrev F.FRG_FRAG_CTRL_EN : FRef := ⟨0x040, 0, 1⟩
abbrev F.FRG_FRAG_CTRL_HOLD : FRef := ⟨0x040, 1, 10⟩
abbrev F.FRG_FRAG_CTRL_LIFE : FRef := ⟨0x040, 11, 11⟩
abbrev R.FRG_FRAG_STATUS : Nat := 0x044
abbrev F.FRG_FRAG_STATUS_USED : FRef := ⟨0x044, 0, 13⟩
abbrev F.FRG_FRAG_STATUS_HELD : FRef := ⟨0x044, 16, 7⟩
abbrev R.FRG_FRAG_COUNT : Nat := 0x080
abbrev R.FRG_EXC_CFG : Nat := 0x400
abbrev F.FRG_EXC_CFG_RATE : FRef := ⟨0x400, 0, 16⟩
abbrev F.FRG_EXC_CFG_BURST : FRef := ⟨0x400, 16, 12⟩
abbrev R.FRG_EXC_CFG2 : Nat := 0x404
abbrev F.FRG_EXC_CFG2_DEST : FRef := ⟨0x404, 0, 2⟩
abbrev F.FRG_EXC_CFG2_QUEUE : FRef := ⟨0x404, 2, 4⟩
abbrev R.FRG_EXC_RAISED : Nat := 0x800
abbrev R.FRG_EXC_LIMITED : Nat := 0x808
/-! R280 (07_flow_state.md) -/
abbrev R.FT_FT_CTRL : Nat := 0x040
abbrev F.FT_FT_CTRL_AGE_EN : FRef := ⟨0x040, 0, 1⟩
abbrev R.FT_FT_CMD : Nat := 0x044
abbrev F.FT_FT_CMD_OP : FRef := ⟨0x044, 0, 4⟩
abbrev F.FT_FT_CMD_PIPE : FRef := ⟨0x044, 4, 3⟩
abbrev R.FT_FT_ADDR : Nat := 0x048
abbrev F.FT_FT_ADDR_INDEX : FRef := ⟨0x048, 0, 26⟩
abbrev R.FT_FT_STATUS : Nat := 0x04C
abbrev F.FT_FT_STATUS_BUSY : FRef := ⟨0x04C, 0, 1⟩
abbrev F.FT_FT_STATUS_RESULT : FRef := ⟨0x04C, 1, 3⟩
abbrev R.FT_FREE_COUNT : Nat := 0x050
abbrev F.FT_FREE_COUNT_COUNT : FRef := ⟨0x050, 0, 27⟩
abbrev R.FT_PENDING : Nat := 0x054
abbrev F.FT_PENDING_COUNT : FRef := ⟨0x054, 0, 13⟩
abbrev F.FT_PENDING_PEAK : FRef := ⟨0x054, 16, 13⟩
abbrev R.FT_AGE_STATUS : Nat := 0x058
abbrev F.FT_AGE_STATUS_PASS_ACTIVE : FRef := ⟨0x058, 0, 1⟩
abbrev R.FT_LEARNS : Nat := 0x060
abbrev R.FT_LEARN_FAILS : Nat := 0x068
abbrev R.FT_AGED : Nat := 0x070
abbrev R.FT_FLOW_WRAPS : Nat := 0x078
abbrev R.FT_FT_DATA : Nat := 0x080
abbrev R.FT_FT_CFG : Nat := 0x100
abbrev F.FT_FT_CFG_EN : FRef := ⟨0x100, 0, 1⟩
abbrev F.FT_FT_CFG_KEYW : FRef := ⟨0x100, 1, 6⟩
abbrev F.FT_FT_CFG_LEARN_EN : FRef := ⟨0x100, 7, 1⟩
abbrev F.FT_FT_CFG_LEARN_NOTIFY : FRef := ⟨0x100, 8, 1⟩
abbrev F.FT_FT_CFG_AGE_NOTIFY : FRef := ⟨0x100, 9, 1⟩
abbrev F.FT_FT_CFG_AGE_UNIT : FRef := ⟨0x100, 10, 1⟩
abbrev F.FT_FT_CFG_AUTO_COUNT : FRef := ⟨0x100, 11, 1⟩
abbrev F.FT_FT_CFG_LEARN_FAIL_EXC : FRef := ⟨0x100, 12, 1⟩
abbrev R.FT_FT_CFG2 : Nat := 0x104
abbrev F.FT_FT_CFG2_DEFAULT_TIMEOUT : FRef := ⟨0x104, 0, 16⟩
abbrev F.FT_FT_CFG2_DEFAULT_THR : FRef := ⟨0x104, 16, 8⟩
abbrev F.FT_FT_CFG2_DEFAULT_HSHIFT : FRef := ⟨0x104, 24, 5⟩
abbrev R.FT_LB_PARAM : Nat := 0x180
abbrev F.FT_LB_PARAM_TABLE : FRef := ⟨0x180, 0, 4⟩
/-! R281 (07_flow_state.md) -/
abbrev R.THR_RATE : Nat := 0x000
abbrev F.THR_RATE_RATE : FRef := ⟨0x000, 0, 32⟩
abbrev R.THR_BURST : Nat := 0x004
abbrev F.THR_BURST_BURST : FRef := ⟨0x004, 0, 32⟩
abbrev R.THR_DEBT_MAX : Nat := 0x008
abbrev F.THR_DEBT_MAX_DEBT : FRef := ⟨0x008, 0, 32⟩
abbrev R.THR_OLD_RATE : Nat := 0x00C
abbrev F.THR_OLD_RATE_OLD : FRef := ⟨0x00C, 0, 32⟩
/-! R282 (07_flow_state.md) -/
abbrev R.DECK_DECK_RESIDENT : Nat := 0x040
abbrev F.DECK_DECK_RESIDENT_COUNT : FRef := ⟨0x040, 0, 17⟩
abbrev R.DECK_DECK_DIRTY : Nat := 0x044
abbrev F.DECK_DECK_DIRTY_COUNT : FRef := ⟨0x044, 0, 17⟩
abbrev R.DECK_DECK_PINNED : Nat := 0x048
abbrev F.DECK_DECK_PINNED_COUNT : FRef := ⟨0x048, 0, 17⟩
abbrev R.DECK_WB_BUF : Nat := 0x04C
abbrev F.DECK_WB_BUF_DEPTH : FRef := ⟨0x04C, 0, 7⟩
abbrev F.DECK_WB_BUF_PEAK : FRef := ⟨0x04C, 16, 7⟩
abbrev R.DECK_CTR_ADDR : Nat := 0x050
abbrev F.DECK_CTR_ADDR_INDEX : FRef := ⟨0x050, 0, 13⟩
abbrev F.DECK_CTR_ADDR_BANK : FRef := ⟨0x050, 16, 4⟩
abbrev R.DECK_CTR_CMD : Nat := 0x054
abbrev F.DECK_CTR_CMD_READ : FRef := ⟨0x054, 0, 1⟩
abbrev F.DECK_CTR_CMD_WRITE : FRef := ⟨0x054, 1, 1⟩
abbrev F.DECK_CTR_CMD_CLEAR_BANK : FRef := ⟨0x054, 2, 1⟩
abbrev R.DECK_CTR_DATA : Nat := 0x058
abbrev R.DECK_CTR_WRAP : Nat := 0x060
abbrev F.DECK_CTR_WRAP_WRAP : FRef := ⟨0x060, 0, 16⟩
abbrev R.DECK_HITS : Nat := 0x080
abbrev R.DECK_MISSES : Nat := 0x088
abbrev R.DECK_MIGRATIONS_IN : Nat := 0x090
abbrev R.DECK_EVICTIONS : Nat := 0x098
abbrev R.DECK_WRITEBACKS : Nat := 0x0A0
abbrev R.DECK_EDIT_BAD : Nat := 0x0A8
abbrev R.DECK_EDIT_TTL_DROP : Nat := 0x0B0
/-! R315 (08_flow_memory.md) -/
abbrev R.HBM_MC_CTRL : Nat := 0x040
abbrev F.HBM_MC_CTRL_SCRUB_EN : FRef := ⟨0x040, 0, 1⟩
abbrev F.HBM_MC_CTRL_RECENTRE_EN : FRef := ⟨0x040, 1, 1⟩
abbrev F.HBM_MC_CTRL_AUTO_REENTER : FRef := ⟨0x040, 2, 1⟩
abbrev R.HBM_MC_STATUS : Nat := 0x044
abbrev F.HBM_MC_STATUS_TRAINED : FRef := ⟨0x044, 0, 1⟩
abbrev F.HBM_MC_STATUS_SR_STATE : FRef := ⟨0x044, 1, 2⟩
abbrev F.HBM_MC_STATUS_HOT : FRef := ⟨0x044, 3, 1⟩
abbrev F.HBM_MC_STATUS_PRESERVED : FRef := ⟨0x044, 4, 1⟩
abbrev F.HBM_MC_STATUS_TEMP : FRef := ⟨0x044, 8, 8⟩
abbrev R.HBM_SR_CTRL : Nat := 0x048
abbrev F.HBM_SR_CTRL_ENTER : FRef := ⟨0x048, 0, 1⟩
abbrev F.HBM_SR_CTRL_EXIT : FRef := ⟨0x048, 1, 1⟩
abbrev F.HBM_SR_CTRL_SR_IDLE : FRef := ⟨0x048, 16, 16⟩
abbrev R.HBM_PAGE_CFG : Nat := 0x04C
abbrev F.HBM_PAGE_CFG_OPEN_IDLE : FRef := ⟨0x04C, 0, 8⟩
abbrev F.HBM_PAGE_CFG_WR_HIGH : FRef := ⟨0x04C, 8, 6⟩
abbrev F.HBM_PAGE_CFG_WR_LOW : FRef := ⟨0x04C, 14, 6⟩
abbrev R.HBM_TRAIN_CFG : Nat := 0x050
abbrev F.HBM_TRAIN_CFG_MIN_EYE : FRef := ⟨0x050, 0, 7⟩
abbrev F.HBM_TRAIN_CFG_DRIFT_LIMIT : FRef := ⟨0x050, 8, 7⟩
abbrev R.HBM_DIR_COUNT : Nat := 0x054
abbrev F.HBM_DIR_COUNT_COUNT : FRef := ⟨0x054, 0, 20⟩
abbrev R.HBM_ECC_LOG_ADDR : Nat := 0x060
abbrev F.HBM_ECC_LOG_ADDR_L : FRef := ⟨0x060, 0, 31⟩
abbrev F.HBM_ECC_LOG_ADDR_VALID : FRef := ⟨0x060, 31, 1⟩
abbrev R.HBM_ECC_LOG_INFO : Nat := 0x064
abbrev F.HBM_ECC_LOG_INFO_SYNDROME : FRef := ⟨0x064, 0, 16⟩
abbrev F.HBM_ECC_LOG_INFO_CODEWORD : FRef := ⟨0x064, 16, 2⟩
abbrev F.HBM_ECC_LOG_INFO_PORT : FRef := ⟨0x064, 18, 5⟩
abbrev F.HBM_ECC_LOG_INFO_UE : FRef := ⟨0x064, 23, 1⟩
abbrev F.HBM_ECC_LOG_INFO_MORE : FRef := ⟨0x064, 24, 7⟩
abbrev R.HBM_PORT_CFG : Nat := 0x080
abbrev F.HBM_PORT_CFG_LAT_TARGET : FRef := ⟨0x080, 0, 16⟩
abbrev F.HBM_PORT_CFG_PRIO : FRef := ⟨0x080, 16, 3⟩
abbrev F.HBM_PORT_CFG_HINT_MODE : FRef := ⟨0x080, 19, 2⟩
abbrev F.HBM_PORT_CFG_LIMIT : FRef := ⟨0x080, 21, 11⟩
abbrev R.HBM_READS : Nat := 0x100
abbrev R.HBM_WRITES : Nat := 0x108
abbrev R.HBM_ECC_CE_COUNT : Nat := 0x110
abbrev R.HBM_ECC_UE_COUNT : Nat := 0x118
abbrev R.HBM_SCRUB_PASSES : Nat := 0x120
abbrev R.HBM_SR_ENTRIES : Nat := 0x128
abbrev R.HBM_LATE : Nat := 0x200
abbrev R.HBM_LANE_TRAIN : Nat := 0x400
abbrev F.HBM_LANE_TRAIN_RD_DELAY : FRef := ⟨0x400, 0, 7⟩
abbrev F.HBM_LANE_TRAIN_WR_DELAY : FRef := ⟨0x400, 8, 7⟩
abbrev F.HBM_LANE_TRAIN_RD_EYE : FRef := ⟨0x400, 16, 7⟩
abbrev F.HBM_LANE_TRAIN_WR_EYE : FRef := ⟨0x400, 24, 7⟩
abbrev R.HBM_LANE_DRIFT : Nat := 0x480
abbrev F.HBM_LANE_DRIFT_RD_DRIFT : FRef := ⟨0x480, 0, 8⟩
abbrev F.HBM_LANE_DRIFT_WR_DRIFT : FRef := ⟨0x480, 8, 8⟩
/-! R347 (09_switch_core.md) -/
abbrev R.SC_SC_CLASS : Nat := 0x040
abbrev F.SC_SC_CLASS_LL_A_CLASS : FRef := ⟨0x040, 0, 3⟩
abbrev F.SC_SC_CLASS_LL_A_EN : FRef := ⟨0x040, 3, 1⟩
abbrev F.SC_SC_CLASS_LL_B_CLASS : FRef := ⟨0x040, 4, 3⟩
abbrev F.SC_SC_CLASS_LL_B_EN : FRef := ⟨0x040, 7, 1⟩
abbrev R.SC_PLANE_CTRL : Nat := 0x044
abbrev F.SC_PLANE_CTRL_PLANE_EN : FRef := ⟨0x044, 0, 8⟩
abbrev R.SC_PLANE_STATUS : Nat := 0x048
abbrev F.SC_PLANE_STATUS_USABLE : FRef := ⟨0x048, 0, 8⟩
abbrev F.SC_PLANE_STATUS_FAULT : FRef := ⟨0x048, 8, 8⟩
abbrev R.SC_RESEQ_CFG : Nat := 0x04C
abbrev F.SC_RESEQ_CFG_TIMEOUT : FRef := ⟨0x04C, 0, 8⟩
abbrev R.SC_PARTITION : Nat := 0x050
abbrev F.SC_PARTITION_SUM : FRef := ⟨0x050, 0, 20⟩
abbrev F.SC_PARTITION_SCALED : FRef := ⟨0x050, 20, 1⟩
abbrev R.SC_POOL_MIRROR : Nat := 0x054
abbrev F.SC_POOL_MIRROR_LIMIT : FRef := ⟨0x054, 0, 20⟩
abbrev R.SC_POOL_HOST : Nat := 0x058
abbrev F.SC_POOL_HOST_LIMIT : FRef := ⟨0x058, 0, 20⟩
abbrev R.SC_WRED_SEED : Nat := 0x05C
abbrev F.SC_WRED_SEED_SEED : FRef := ⟨0x05C, 0, 32⟩
abbrev R.SC_POOL_RECIRC : Nat := 0x060
abbrev F.SC_POOL_RECIRC_LIMIT : FRef := ⟨0x060, 0, 20⟩
abbrev R.SC_FREE_CELLS : Nat := 0x080
abbrev F.SC_FREE_CELLS_COUNT : FRef := ⟨0x080, 0, 20⟩
abbrev R.SC_GREEN_MIN : Nat := 0x000
abbrev F.SC_GREEN_MIN_MIN_TH : FRef := ⟨0x000, 0, 20⟩
abbrev F.SC_GREEN_MIN_P_MAX : FRef := ⟨0x000, 20, 8⟩
abbrev R.SC_GREEN_MAX : Nat := 0x004
abbrev F.SC_GREEN_MAX_MAX_TH : FRef := ⟨0x004, 0, 20⟩
abbrev R.SC_YELLOW_MIN : Nat := 0x008
abbrev F.SC_YELLOW_MIN_MIN_TH : FRef := ⟨0x008, 0, 20⟩
abbrev F.SC_YELLOW_MIN_P_MAX : FRef := ⟨0x008, 20, 8⟩
abbrev R.SC_YELLOW_MAX : Nat := 0x00C
abbrev F.SC_YELLOW_MAX_MAX_TH : FRef := ⟨0x00C, 0, 20⟩
abbrev R.SC_RED_MIN : Nat := 0x010
abbrev F.SC_RED_MIN_MIN_TH : FRef := ⟨0x010, 0, 20⟩
abbrev F.SC_RED_MIN_P_MAX : FRef := ⟨0x010, 20, 8⟩
abbrev R.SC_RED_MAX : Nat := 0x014
abbrev F.SC_RED_MAX_MAX_TH : FRef := ⟨0x014, 0, 20⟩
abbrev R.SC_WRED_AVG : Nat := 0x018
abbrev F.SC_WRED_AVG_W : FRef := ⟨0x018, 0, 4⟩
abbrev R.SC_CELL_CE_COUNT : Nat := 0x300
abbrev R.SC_CELL_UE_COUNT : Nat := 0x308
abbrev R.SC_MIRROR_DROP : Nat := 0x310
abbrev R.SC_HOST_POOL_DROP : Nat := 0x318
abbrev R.SC_RECIRC_POOL_DROP : Nat := 0x320
/-! R348 (09_switch_core.md) -/
abbrev R.MCM_MC_INDEX : Nat := 0x040
abbrev F.MCM_MC_INDEX_GROUP : FRef := ⟨0x040, 0, 16⟩
abbrev R.MCM_MC_CMD : Nat := 0x044
abbrev F.MCM_MC_CMD_WRITE : FRef := ⟨0x044, 0, 1⟩
abbrev F.MCM_MC_CMD_READ : FRef := ⟨0x044, 1, 1⟩
abbrev R.MCM_MC_STATUS : Nat := 0x048
abbrev F.MCM_MC_STATUS_BUSY : FRef := ⟨0x048, 0, 1⟩
abbrev R.MCM_MC_MEMBERS : Nat := 0x060
abbrev R.MCM_MC_FLAGS : Nat := 0x080
abbrev F.MCM_MC_FLAGS_VALID : FRef := ⟨0x080, 0, 1⟩
abbrev F.MCM_MC_FLAGS_SRC_PRUNE : FRef := ⟨0x080, 1, 1⟩
abbrev F.MCM_MC_FLAGS_EVEN_RELEASE : FRef := ⟨0x080, 2, 1⟩
abbrev R.MCM_MIRROR_CFG : Nat := 0x400
abbrev F.MCM_MIRROR_CFG_DEST : FRef := ⟨0x400, 0, 9⟩
abbrev F.MCM_MIRROR_CFG_EN : FRef := ⟨0x400, 9, 1⟩
abbrev F.MCM_MIRROR_CFG_CLASS : FRef := ⟨0x400, 10, 3⟩
abbrev F.MCM_MIRROR_CFG_TRUNC : FRef := ⟨0x400, 13, 8⟩
/-! R349 (09_switch_core.md) -/
abbrev R.EGP_RESEQ_WAIT : Nat := 0x040
abbrev F.EGP_RESEQ_WAIT_PEAK : FRef := ⟨0x040, 0, 8⟩
abbrev R.EGP_REPL_QUEUE : Nat := 0x044
abbrev F.EGP_REPL_QUEUE_DEPTH : FRef := ⟨0x044, 0, 13⟩
abbrev F.EGP_REPL_QUEUE_PEAK : FRef := ⟨0x044, 16, 13⟩
abbrev R.EGP_RESEQ_LOSS : Nat := 0x080
abbrev R.EGP_RESEQ_STALE : Nat := 0x088
abbrev R.EGP_REPL_DROP : Nat := 0x090
abbrev R.EGP_BANK_FULL_DROP : Nat := 0x098
abbrev R.EGP_CELLS_IN : Nat := 0x0A0
abbrev R.EGP_COPIES : Nat := 0x0A8
/-! R350 (09_switch_core.md) -/
abbrev R.ACC_QCFG : Nat := 0x000
abbrev F.ACC_QCFG_QLIMIT : FRef := ⟨0x000, 0, 20⟩
abbrev F.ACC_QCFG_WRED_PROFILE : FRef := ⟨0x000, 20, 4⟩
abbrev F.ACC_QCFG_ECN_EN : FRef := ⟨0x000, 24, 1⟩
abbrev R.ACC_QUSE : Nat := 0x020
abbrev F.ACC_QUSE_CELLS : FRef := ⟨0x020, 0, 20⟩
abbrev R.ACC_LL_A_LIMIT : Nat := 0x040
abbrev F.ACC_LL_A_LIMIT_ING_LIMIT : FRef := ⟨0x040, 0, 20⟩
abbrev R.ACC_LL_A_HEADROOM : Nat := 0x044
abbrev F.ACC_LL_A_HEADROOM_HEADROOM : FRef := ⟨0x044, 0, 20⟩
abbrev R.ACC_LL_B_LIMIT : Nat := 0x048
abbrev F.ACC_LL_B_LIMIT_ING_LIMIT : FRef := ⟨0x048, 0, 20⟩
abbrev R.ACC_LL_B_HEADROOM : Nat := 0x04C
abbrev F.ACC_LL_B_HEADROOM_HEADROOM : FRef := ⟨0x04C, 0, 20⟩
abbrev R.ACC_XON_DELTA : Nat := 0x050
abbrev F.ACC_XON_DELTA_DELTA_A : FRef := ⟨0x050, 0, 10⟩
abbrev F.ACC_XON_DELTA_DELTA_B : FRef := ⟨0x050, 16, 10⟩
abbrev R.ACC_LL_USE_A : Nat := 0x054
abbrev F.ACC_LL_USE_A_CELLS : FRef := ⟨0x054, 0, 20⟩
abbrev R.ACC_LL_USE_B : Nat := 0x058
abbrev F.ACC_LL_USE_B_CELLS : FRef := ⟨0x058, 0, 20⟩
abbrev R.ACC_LL_STATUS : Nat := 0x05C
abbrev F.ACC_LL_STATUS_XOFF_A : FRef := ⟨0x05C, 0, 1⟩
abbrev F.ACC_LL_STATUS_XOFF_B : FRef := ⟨0x05C, 1, 1⟩
abbrev F.ACC_LL_STATUS_OVERRUN : FRef := ⟨0x05C, 2, 1⟩
abbrev R.ACC_LIMIT_DROP : Nat := 0x060
abbrev R.ACC_WRED_DROP : Nat := 0x068
abbrev R.ACC_ECN_MARKED : Nat := 0x070
abbrev R.ACC_HEADROOM_DROP : Nat := 0x078
abbrev R.ACC_COPY_DROP : Nat := 0x080
abbrev R.ACC_STOMPED : Nat := 0x088
abbrev R.ACC_BAD_DISCARD : Nat := 0x090
abbrev R.ACC_RX_STOMPED : Nat := 0x098
abbrev R.ACC_CT_FRAMES : Nat := 0x0A0
/-! R373 (10_traffic_manager.md) -/
abbrev R.POL_POL_INDEX : Nat := 0x040
abbrev F.POL_POL_INDEX_INDEX : FRef := ⟨0x040, 0, 10⟩
abbrev R.POL_POL_CMD : Nat := 0x044
abbrev F.POL_POL_CMD_WRITE : FRef := ⟨0x044, 0, 1⟩
abbrev F.POL_POL_CMD_READ : FRef := ⟨0x044, 1, 1⟩
abbrev F.POL_POL_CMD_CLEAR_COUNTERS : FRef := ⟨0x044, 2, 1⟩
abbrev F.POL_POL_CMD_RESET_LEVELS : FRef := ⟨0x044, 3, 1⟩
abbrev F.POL_POL_CMD_BCAST : FRef := ⟨0x044, 4, 1⟩
abbrev R.POL_POL_STATUS : Nat := 0x048
abbrev F.POL_POL_STATUS_BUSY : FRef := ⟨0x048, 0, 1⟩
abbrev R.POL_POL_CTRL : Nat := 0x050
abbrev F.POL_POL_CTRL_MODE : FRef := ⟨0x050, 0, 2⟩
abbrev F.POL_POL_CTRL_AWARE : FRef := ⟨0x050, 2, 1⟩
abbrev F.POL_POL_CTRL_PRECOLOR_SRC : FRef := ⟨0x050, 3, 1⟩
abbrev F.POL_POL_CTRL_UNIT : FRef := ⟨0x050, 4, 1⟩
abbrev F.POL_POL_CTRL_RED_DROP : FRef := ⟨0x050, 5, 1⟩
abbrev F.POL_POL_CTRL_COUPLE : FRef := ⟨0x050, 6, 1⟩
abbrev F.POL_POL_CTRL_OVERHEAD : FRef := ⟨0x050, 8, 7⟩
abbrev R.POL_CIR : Nat := 0x054
abbrev F.POL_CIR_RATE : FRef := ⟨0x054, 0, 32⟩
abbrev R.POL_CBS : Nat := 0x058
abbrev F.POL_CBS_BURST : FRef := ⟨0x058, 0, 24⟩
abbrev R.POL_PIR_EIR : Nat := 0x05C
abbrev F.POL_PIR_EIR_RATE : FRef := ⟨0x05C, 0, 32⟩
abbrev R.POL_PBS_EBS : Nat := 0x060
abbrev F.POL_PBS_EBS_BURST : FRef := ⟨0x060, 0, 24⟩
abbrev R.POL_LEVEL_1 : Nat := 0x064
abbrev F.POL_LEVEL_1_LEVEL : FRef := ⟨0x064, 0, 32⟩
abbrev R.POL_LEVEL_2 : Nat := 0x068
abbrev F.POL_LEVEL_2_LEVEL : FRef := ⟨0x068, 0, 32⟩
abbrev R.POL_GREEN : Nat := 0x070
abbrev R.POL_YELLOW : Nat := 0x078
abbrev R.POL_RED : Nat := 0x080
abbrev R.POL_RED_DROPPED : Nat := 0x088
abbrev R.POL_DSCP_COLOUR : Nat := 0x100
abbrev F.POL_DSCP_COLOUR_COLOUR : FRef := ⟨0x100, 0, 32⟩
/-! R374 (10_traffic_manager.md) -/
abbrev R.SCH_PORT_SHAPE_RATE : Nat := 0x000
abbrev F.SCH_PORT_SHAPE_RATE_RATE : FRef := ⟨0x000, 0, 32⟩
abbrev R.SCH_PORT_SHAPE_BURST : Nat := 0x004
abbrev F.SCH_PORT_SHAPE_BURST_BURST : FRef := ⟨0x004, 0, 24⟩
abbrev R.SCH_PORT_SHAPE_CTRL : Nat := 0x008
abbrev F.SCH_PORT_SHAPE_CTRL_SHAPE_EN : FRef := ⟨0x008, 0, 1⟩
abbrev F.SCH_PORT_SHAPE_CTRL_OVERHEAD : FRef := ⟨0x008, 1, 7⟩
abbrev R.SCH_PFC_MAP_LO : Nat := 0x00C
abbrev F.SCH_PFC_MAP_LO_MAP : FRef := ⟨0x00C, 0, 32⟩
abbrev R.SCH_PFC_MAP_HI : Nat := 0x010
abbrev F.SCH_PFC_MAP_HI_MAP : FRef := ⟨0x010, 0, 32⟩
abbrev R.SCH_PORT_LEVEL : Nat := 0x014
abbrev F.SCH_PORT_LEVEL_LEVEL : FRef := ⟨0x014, 0, 32⟩
abbrev R.SCH_Q_RATE : Nat := 0x018
abbrev F.SCH_Q_RATE_RATE : FRef := ⟨0x018, 0, 32⟩
abbrev R.SCH_Q_BURST : Nat := 0x01C
abbrev F.SCH_Q_BURST_BURST : FRef := ⟨0x01C, 0, 24⟩
abbrev R.SCH_Q_SCHED : Nat := 0x020
abbrev F.SCH_Q_SCHED_LEVEL : FRef := ⟨0x020, 0, 3⟩
abbrev F.SCH_Q_SCHED_WEIGHT : FRef := ⟨0x020, 3, 8⟩
abbrev F.SCH_Q_SCHED_SHAPE_EN : FRef := ⟨0x020, 11, 1⟩
abbrev R.SCH_Q_LEVEL : Nat := 0x078
abbrev F.SCH_Q_LEVEL_LEVEL : FRef := ⟨0x078, 0, 32⟩
abbrev R.SCH_DEQ_FRAMES : Nat := 0x098
/-! R400 (11_arbiter.md) -/
abbrev R.ARB_ER_INDEX : Nat := 0x040
abbrev F.ARB_ER_INDEX_GROUP : FRef := ⟨0x040, 0, 16⟩
abbrev R.ARB_ER_CMD : Nat := 0x044
abbrev F.ARB_ER_CMD_WRITE : FRef := ⟨0x044, 0, 1⟩
abbrev F.ARB_ER_CMD_READ : FRef := ⟨0x044, 1, 1⟩
abbrev R.ARB_ER_STATUS : Nat := 0x048
abbrev F.ARB_ER_STATUS_BUSY : FRef := ⟨0x048, 0, 1⟩
abbrev R.ARB_ER_GROUP : Nat := 0x04C
abbrev F.ARB_ER_GROUP_PROFILE : FRef := ⟨0x04C, 0, 6⟩
abbrev R.ARB_ER_STORE : Nat := 0x050
abbrev F.ARB_ER_STORE_USED : FRef := ⟨0x050, 0, 17⟩
abbrev R.ARB_ER_STORE_PEAK : Nat := 0x054
abbrev F.ARB_ER_STORE_PEAK_PEAK : FRef := ⟨0x054, 0, 17⟩
abbrev R.ARB_ER_INSERTED : Nat := 0x080
abbrev R.ARB_ER_ON_TIME : Nat := 0x088
abbrev R.ARB_ER_LATE : Nat := 0x090
abbrev R.ARB_ER_DROPPED : Nat := 0x098
abbrev R.ARB_SEQ_BAD_OUTPUT : Nat := 0x0A0
abbrev R.ARB_ER_OFFSET : Nat := 0x100
abbrev F.ARB_ER_OFFSET_D : FRef := ⟨0x100, 0, 32⟩
abbrev R.ARB_ER_CTRL : Nat := 0x104
abbrev F.ARB_ER_CTRL_CLASS : FRef := ⟨0x104, 0, 3⟩
abbrev F.ARB_ER_CTRL_LATE_POLICY : FRef := ⟨0x104, 3, 1⟩
abbrev F.ARB_ER_CTRL_LATE_MAX : FRef := ⟨0x104, 16, 12⟩
abbrev R.ARB_ER_MISS : Nat := 0x800
/-! R402 (11_arbiter.md) -/
abbrev R.SEQ_SEQ_CFG : Nat := 0x000
abbrev F.SEQ_SEQ_CFG_EN : FRef := ⟨0x000, 0, 1⟩
abbrev F.SEQ_SEQ_CFG_LATE_POLICY : FRef := ⟨0x000, 1, 1⟩
abbrev F.SEQ_SEQ_CFG_CLASS : FRef := ⟨0x000, 2, 3⟩
abbrev F.SEQ_SEQ_CFG_PORT : FRef := ⟨0x000, 16, 8⟩
abbrev R.SEQ_SEQ_HOLD : Nat := 0x004
abbrev F.SEQ_SEQ_HOLD_HOLD : FRef := ⟨0x004, 0, 12⟩
abbrev R.SEQ_SEQ_STATUS : Nat := 0x008
abbrev F.SEQ_SEQ_STATUS_USED : FRef := ⟨0x008, 0, 15⟩
abbrev F.SEQ_SEQ_STATUS_CFG_REJECT : FRef := ⟨0x008, 15, 1⟩
abbrev F.SEQ_SEQ_STATUS_PEAK : FRef := ⟨0x008, 16, 15⟩
abbrev R.SEQ_LAST_TT : Nat := 0x010
abbrev R.SEQ_INSERTED : Nat := 0x020
abbrev R.SEQ_ON_TIME : Nat := 0x028
abbrev R.SEQ_LATE_SENT : Nat := 0x030
abbrev R.SEQ_LATE_DROPPED : Nat := 0x038
abbrev R.SEQ_TIES : Nat := 0x040
abbrev R.SEQ_STORE_FULL_DROP : Nat := 0x048
abbrev R.SEQ_LINK_DROP : Nat := 0x050
abbrev R.SEQ_DISABLED_DROP : Nat := 0x058
abbrev R.SEQ_DEFERRED : Nat := 0x060
/-! R436 (12_tally_evidence.md) -/
abbrev R.EV_EVID_CTRL : Nat := 0x040
abbrev F.EV_EVID_CTRL_ON_FULL : FRef := ⟨0x040, 0, 1⟩
abbrev F.EV_EVID_CTRL_ACK_MODE : FRef := ⟨0x040, 1, 1⟩
abbrev R.EV_METER_POLICY : Nat := 0x044
abbrev F.EV_METER_POLICY_CLASS_EN : FRef := ⟨0x044, 1, 15⟩
abbrev R.EV_WITHHOLD_MAX : Nat := 0x048
abbrev F.EV_WITHHOLD_MAX_PLY : FRef := ⟨0x048, 0, 12⟩
abbrev R.EV_OUTCOME_MAX : Nat := 0x04C
abbrev F.EV_OUTCOME_MAX_PLY : FRef := ⟨0x04C, 0, 20⟩
abbrev R.EV_HEARTBEAT : Nat := 0x050
abbrev F.EV_HEARTBEAT_EPOCHS : FRef := ⟨0x050, 0, 16⟩
abbrev R.EV_EVID_STATUS : Nat := 0x054
abbrev F.EV_EVID_STATUS_FULL : FRef := ⟨0x054, 0, 1⟩
abbrev F.EV_EVID_STATUS_WITHHOLDING : FRef := ⟨0x054, 1, 1⟩
abbrev F.EV_EVID_STATUS_RECORDING : FRef := ⟨0x054, 2, 1⟩
abbrev R.EV_BOOK_STATE : Nat := 0x058
abbrev F.EV_BOOK_STATE_FREE : FRef := ⟨0x058, 0, 15⟩
abbrev F.EV_BOOK_STATE_HEAD : FRef := ⟨0x058, 16, 14⟩
abbrev R.EV_TIER_FREE : Nat := 0x05C
abbrev F.EV_TIER_FREE_PLACES : FRef := ⟨0x05C, 0, 28⟩
abbrev R.EV_LAST_EPOCH : Nat := 0x060
abbrev R.EV_PENDING : Nat := 0x068
abbrev F.EV_PENDING_COUNT : FRef := ⟨0x068, 0, 21⟩
abbrev R.EV_BOOK_INDEX : Nat := 0x06C
abbrev F.EV_BOOK_INDEX_SLOT : FRef := ⟨0x06C, 0, 14⟩
abbrev R.EV_EPOCH_BASE : Nat := 0x070
abbrev R.EV_RECORDS_WRITTEN : Nat := 0x080
abbrev R.EV_UNRECORDED : Nat := 0x088
abbrev R.EV_LATE_OUTCOMES : Nat := 0x090
abbrev R.EV_UNRESOLVED_COUNT : Nat := 0x098
abbrev R.EV_LAPSED : Nat := 0x0A0
abbrev R.EV_LOST_RECORDS : Nat := 0x0A8
abbrev R.EV_BOOK_RECORD : Nat := 0x200
abbrev R.EV_BOOK_ROOTS : Nat := 0x400
abbrev R.EV_PORT_METER : Nat := 0x800
abbrev F.EV_PORT_METER_CLASS : FRef := ⟨0x800, 0, 4⟩
/-! R437 (12_tally_evidence.md) -/
abbrev R.SGN_SIGN_STATUS : Nat := 0x040
abbrev F.SGN_SIGN_STATUS_KEY_READY : FRef := ⟨0x040, 0, 1⟩
abbrev F.SGN_SIGN_STATUS_ENGINE0_OK : FRef := ⟨0x040, 1, 1⟩
abbrev F.SGN_SIGN_STATUS_ENGINE1_OK : FRef := ⟨0x040, 2, 1⟩
abbrev F.SGN_SIGN_STATUS_RNG_OK : FRef := ⟨0x040, 3, 1⟩
abbrev R.SGN_SW_VERSION : Nat := 0x044
abbrev F.SGN_SW_VERSION_VER : FRef := ⟨0x044, 0, 32⟩
abbrev R.SGN_SW_DIGEST : Nat := 0x060
abbrev R.SGN_SIGNATURES : Nat := 0x080
abbrev R.SGN_RESIGNS : Nat := 0x088
abbrev R.SGN_PUBKEY_N : Nat := 0x100
abbrev R.SGN_TALLY_CERT : Nat := 0x400
/-! R438 (12_tally_evidence.md) -/
abbrev R.SEAL_SEAL_STATE : Nat := 0x040
abbrev F.SEAL_SEAL_STATE_SEALED : FRef := ⟨0x040, 0, 1⟩
abbrev F.SEAL_SEAL_STATE_OFFICER_FUSED : FRef := ⟨0x040, 1, 1⟩
abbrev R.SEAL_EVENT_COUNT : Nat := 0x044
abbrev F.SEAL_EVENT_COUNT_COUNT : FRef := ⟨0x044, 0, 32⟩
abbrev R.SEAL_SEAL_CMD : Nat := 0x048
abbrev F.SEAL_SEAL_CMD_GO : FRef := ⟨0x048, 0, 1⟩
abbrev R.SEAL_SEAL_RESULT : Nat := 0x04C
abbrev F.SEAL_SEAL_RESULT_RESULT : FRef := ⟨0x04C, 0, 3⟩
abbrev F.SEAL_SEAL_RESULT_BUSY : FRef := ⟨0x04C, 3, 1⟩
abbrev R.SEAL_CAL_TOL : Nat := 0x050
abbrev F.SEAL_CAL_TOL_TOL : FRef := ⟨0x050, 0, 16⟩
abbrev R.SEAL_LOG_INDEX : Nat := 0x054
abbrev F.SEAL_LOG_INDEX_ENTRY : FRef := ⟨0x054, 0, 10⟩
abbrev F.SEAL_LOG_INDEX_HEAD : FRef := ⟨0x054, 12, 10⟩
abbrev R.SEAL_NONCE : Nat := 0x060
abbrev R.SEAL_PARAM_DIGEST : Nat := 0x080
abbrev R.SEAL_SEALED_DIGEST : Nat := 0x0A0
abbrev R.SEAL_LOG_ENTRY : Nat := 0x0E0
abbrev R.SEAL_SEAL_REQ : Nat := 0x100
abbrev R.SEAL_SEAL_SIG : Nat := 0x200
abbrev R.SEAL_OFFICER_N : Nat := 0x400
/-! R439 (12_tally_evidence.md) -/
abbrev R.AUD_AUDIT_CTRL : Nat := 0x040
abbrev F.AUD_AUDIT_CTRL_EN : FRef := ⟨0x040, 0, 1⟩
abbrev F.AUD_AUDIT_CTRL_PORT : FRef := ⟨0x040, 1, 8⟩
abbrev F.AUD_AUDIT_CTRL_CLASS : FRef := ⟨0x040, 9, 3⟩
abbrev R.AUD_AUDIT_DA : Nat := 0x044
abbrev R.AUD_EXPORT_SEQ : Nat := 0x050
abbrev R.AUD_ACK_SEQ : Nat := 0x058
abbrev R.AUD_REWIND_SEQ : Nat := 0x060
abbrev R.AUD_FRAMES_SENT : Nat := 0x080
abbrev R.AUD_PLACES_SENT : Nat := 0x088
abbrev R.AUD_EPOCHS_SENT : Nat := 0x090
abbrev R.AUD_EVENTS_SENT : Nat := 0x098
/-! R467 (13_control_cores.md) -/
abbrev R.DSP_DSP_CTRL : Nat := 0x040
abbrev F.DSP_DSP_CTRL_EN : FRef := ⟨0x040, 0, 1⟩
abbrev F.DSP_DSP_CTRL_DEPTH_LIMIT : FRef := ⟨0x040, 1, 11⟩
abbrev R.DSP_WAIT_LIMIT : Nat := 0x044
abbrev F.DSP_WAIT_LIMIT_CYCLES : FRef := ⟨0x044, 0, 32⟩
abbrev R.DSP_CORE_RUN : Nat := 0x048
abbrev F.DSP_CORE_RUN_RUN : FRef := ⟨0x048, 0, 16⟩
abbrev R.DSP_DOORBELL : Nat := 0x04C
abbrev F.DSP_DOORBELL_RING : FRef := ⟨0x04C, 0, 1⟩
abbrev R.DSP_CORE_VEC : Nat := 0x050
abbrev R.DSP_READIES : Nat := 0x060
abbrev R.DSP_COALESCED : Nat := 0x068
abbrev R.DSP_LAPSED : Nat := 0x070
abbrev R.DSP_PREEMPTS : Nat := 0x078
abbrev R.DSP_PRIO_DEPTH : Nat := 0x100
abbrev F.DSP_PRIO_DEPTH_DEPTH : FRef := ⟨0x100, 0, 11⟩
abbrev F.DSP_PRIO_DEPTH_PEAK : FRef := ⟨0x100, 16, 11⟩
abbrev R.DSP_WAIT_MAX : Nat := 0x200
abbrev F.DSP_WAIT_MAX_CYCLES : FRef := ⟨0x200, 0, 32⟩
abbrev R.DSP_WAIT_SUM : Nat := 0x208
abbrev R.DSP_TAKES : Nat := 0x400
abbrev R.DSP_CORE_STATE : Nat := 0x600
abbrev F.DSP_CORE_STATE_THREAD : FRef := ⟨0x600, 0, 10⟩
abbrev F.DSP_CORE_STATE_PRIO : FRef := ⟨0x600, 10, 5⟩
abbrev F.DSP_CORE_STATE_RUNNING : FRef := ⟨0x600, 15, 1⟩
abbrev F.DSP_CORE_STATE_SLOT : FRef := ⟨0x600, 16, 10⟩
abbrev F.DSP_CORE_STATE_SLOT_VALID : FRef := ⟨0x600, 26, 1⟩
abbrev F.DSP_CORE_STATE_HALTED : FRef := ⟨0x600, 27, 1⟩
abbrev R.DSP_BUSY_PLY : Nat := 0x608
/-! R468 (13_control_cores.md) -/
abbrev R.TD_TD_INDEX : Nat := 0x040
abbrev F.TD_TD_INDEX_THREAD : FRef := ⟨0x040, 0, 10⟩
abbrev R.TD_TD_CFG : Nat := 0x044
abbrev F.TD_TD_CFG_PRIO : FRef := ⟨0x044, 0, 5⟩
abbrev F.TD_TD_CFG_ENABLE : FRef := ⟨0x044, 5, 1⟩
abbrev F.TD_TD_CFG_AFFINITY : FRef := ⟨0x044, 16, 16⟩
abbrev R.TD_TD_STATE : Nat := 0x048
abbrev F.TD_TD_STATE_STATE : FRef := ⟨0x048, 0, 3⟩
abbrev F.TD_TD_STATE_CORE : FRef := ⟨0x048, 3, 4⟩
abbrev F.TD_TD_STATE_REARM : FRef := ⟨0x048, 7, 1⟩
abbrev F.TD_TD_STATE_DELAY_PENDING : FRef := ⟨0x048, 8, 1⟩
abbrev R.TD_TD_DUE : Nat := 0x050
abbrev R.TD_TD_WAIT_LAST : Nat := 0x058
abbrev F.TD_TD_WAIT_LAST_CYCLES : FRef := ⟨0x058, 0, 32⟩
abbrev R.TD_TD_OP : Nat := 0x060
abbrev F.TD_TD_OP_THREAD : FRef := ⟨0x060, 0, 10⟩
abbrev F.TD_TD_OP_OP : FRef := ⟨0x060, 10, 2⟩
abbrev F.TD_TD_OP_TICKS : FRef := ⟨0x060, 12, 20⟩
abbrev R.TD_TD_RESULT : Nat := 0x064
abbrev F.TD_TD_RESULT_RESULT : FRef := ⟨0x064, 0, 3⟩
abbrev F.TD_TD_RESULT_BUSY : FRef := ⟨0x064, 3, 1⟩
/-! R469 (13_control_cores.md) -/
abbrev R.RNG_RING_BASE : Nat := 0x000
abbrev R.RNG_RING_CFG : Nat := 0x008
abbrev F.RNG_RING_CFG_EN : FRef := ⟨0x008, 0, 1⟩
abbrev F.RNG_RING_CFG_ORDER : FRef := ⟨0x008, 1, 4⟩
abbrev F.RNG_RING_CFG_BUF : FRef := ⟨0x008, 5, 3⟩
abbrev F.RNG_RING_CFG_THREAD : FRef := ⟨0x008, 8, 10⟩
abbrev R.RNG_PROD : Nat := 0x00C
abbrev F.RNG_PROD_PROD : FRef := ⟨0x00C, 0, 32⟩
abbrev R.RNG_CONS : Nat := 0x010
abbrev F.RNG_CONS_CONS : FRef := ⟨0x010, 0, 32⟩
abbrev R.RNG_RING_DROP : Nat := 0x018
abbrev R.RNG_DELIVERED : Nat := 0x400
abbrev R.RNG_DELIVER_DROP : Nat := 0x480
/-! R494 (14_skyline_host.md) -/
abbrev R.SKY_SKY_STATUS : Nat := 0x040
abbrev F.SKY_SKY_STATUS_ADDR : FRef := ⟨0x040, 0, 6⟩
abbrev F.SKY_SKY_STATUS_ASSIGNED : FRef := ⟨0x040, 6, 1⟩
abbrev F.SKY_SKY_STATUS_LANE_LOCK : FRef := ⟨0x040, 8, 2⟩
abbrev F.SKY_SKY_STATUS_ALIGNED : FRef := ⟨0x040, 10, 1⟩
abbrev F.SKY_SKY_STATUS_KEY_PRESENT : FRef := ⟨0x040, 11, 3⟩
abbrev R.SKY_STATUS_MASK : Nat := 0x044
abbrev F.SKY_STATUS_MASK_MASK : FRef := ⟨0x044, 1, 5⟩
abbrev R.SKY_IN_PROGRESS : Nat := 0x048
abbrev F.SKY_IN_PROGRESS_COUNT : FRef := ⟨0x048, 0, 2⟩
abbrev R.SKY_LAST_NONCE : Nat := 0x050
abbrev R.SKY_REQUESTS : Nat := 0x080
abbrev R.SKY_REPLIES : Nat := 0x088
abbrev R.SKY_RETRIES : Nat := 0x090
abbrev R.SKY_CRC_ERR : Nat := 0x098
abbrev R.SKY_AUTH_FAIL : Nat := 0x0A0
abbrev R.SKY_DENIED : Nat := 0x0A8
abbrev R.SKY_FWD_DROP : Nat := 0x0B0
/-! R495 (14_skyline_host.md) -/
abbrev R.HP_HP_CTRL : Nat := 0x040
abbrev F.HP_HP_CTRL_ENABLE : FRef := ⟨0x040, 0, 1⟩
abbrev F.HP_HP_CTRL_IFTYPE : FRef := ⟨0x040, 1, 2⟩
abbrev F.HP_HP_CTRL_INJECT_EN : FRef := ⟨0x040, 3, 1⟩
abbrev F.HP_HP_CTRL_EXC_CLASS : FRef := ⟨0x040, 4, 3⟩
abbrev R.HP_HP_STATUS : Nat := 0x044
abbrev F.HP_HP_STATUS_LINK_STATE : FRef := ⟨0x044, 0, 3⟩
abbrev F.HP_HP_STATUS_DELAYS_VALID : FRef := ⟨0x044, 3, 1⟩
abbrev F.HP_HP_STATUS_LINK_DOWN_SEEN : FRef := ⟨0x044, 4, 1⟩
abbrev R.HP_HP_RX_DELAY : Nat := 0x048
abbrev F.HP_HP_RX_DELAY_RX_PMA_DELAY : FRef := ⟨0x048, 0, 24⟩
abbrev R.HP_HP_TX_DELAY : Nat := 0x04C
abbrev F.HP_HP_TX_DELAY_TX_PMA_DELAY : FRef := ⟨0x04C, 0, 24⟩
abbrev R.HP_HP_DA : Nat := 0x060
abbrev R.HP_HP_SA : Nat := 0x068
abbrev R.HP_HP_SNAP : Nat := 0x070
abbrev F.HP_HP_SNAP_SNAP : FRef := ⟨0x070, 0, 8⟩
abbrev R.HP_RX_FRAMES : Nat := 0x080
abbrev R.HP_RX_FCS_ERR : Nat := 0x088
abbrev R.HP_RX_INJECT : Nat := 0x090
abbrev R.HP_INJECT_BAD : Nat := 0x098
abbrev R.HP_TX_FRAMES : Nat := 0x0A0
abbrev R.HP_EXC_SENT : Nat := 0x0A8
abbrev R.HP_TX_ABORT : Nat := 0x0B0
abbrev R.HP_LINK_DOWN_DISCARD : Nat := 0x0B8
/-! R518 (15_faults.md) -/
abbrev R.FA_FA_CTRL : Nat := 0x040
abbrev F.FA_FA_CTRL_INJ_CONTAIN : FRef := ⟨0x040, 0, 1⟩
abbrev F.FA_FA_CTRL_CORE_INJECT : FRef := ⟨0x040, 1, 1⟩
abbrev R.FA_FA_STATUS : Nat := 0x044
abbrev F.FA_FA_STATUS_FATAL_HELD : FRef := ⟨0x044, 0, 1⟩
abbrev F.FA_FA_STATUS_UCC_HELD : FRef := ⟨0x044, 1, 1⟩
abbrev F.FA_FA_STATUS_CE_HELD : FRef := ⟨0x044, 2, 1⟩
abbrev F.FA_FA_STATUS_CONTAINED : FRef := ⟨0x044, 3, 1⟩
abbrev F.FA_FA_STATUS_LOG_FROZEN : FRef := ⟨0x044, 4, 1⟩
abbrev R.FA_FIRST_FATAL : Nat := 0x048
abbrev F.FA_FIRST_FATAL_SOURCE : FRef := ⟨0x048, 0, 10⟩
abbrev F.FA_FIRST_FATAL_EVENT : FRef := ⟨0x048, 10, 5⟩
abbrev F.FA_FIRST_FATAL_INJECTED : FRef := ⟨0x048, 15, 1⟩
abbrev F.FA_FIRST_FATAL_ESCALATED : FRef := ⟨0x048, 16, 1⟩
abbrev F.FA_FIRST_FATAL_VALID : FRef := ⟨0x048, 31, 1⟩
abbrev R.FA_FIRST_FATAL_PLY : Nat := 0x050
abbrev R.FA_LOG_STATE : Nat := 0x060
abbrev F.FA_LOG_STATE_COUNT : FRef := ⟨0x060, 0, 9⟩
abbrev F.FA_LOG_STATE_FATAL_USED : FRef := ⟨0x060, 16, 4⟩
abbrev R.FA_LOG_CTRL : Nat := 0x064
abbrev F.FA_LOG_CTRL_CLEAR : FRef := ⟨0x064, 0, 1⟩
abbrev R.FA_LOG_INDEX : Nat := 0x068
abbrev F.FA_LOG_INDEX_SLOT : FRef := ⟨0x068, 0, 8⟩
abbrev R.FA_LOG_ENTRY : Nat := 0x080
abbrev R.FA_LOG_LOST : Nat := 0x0A0
abbrev R.FA_ESCALATIONS : Nat := 0x0A8
abbrev R.FA_INJECTIONS : Nat := 0x0B0
abbrev R.FA_CONTAINMENTS : Nat := 0x0B8
abbrev R.FA_SUM_FATAL : Nat := 0x100
abbrev F.FA_SUM_FATAL_SRC : FRef := ⟨0x100, 0, 32⟩
abbrev R.FA_SUM_UCC : Nat := 0x180
abbrev F.FA_SUM_UCC_SRC : FRef := ⟨0x180, 0, 32⟩
abbrev R.FA_SUM_CE : Nat := 0x200
abbrev F.FA_SUM_CE_SRC : FRef := ⟨0x200, 0, 32⟩
abbrev R.FA_SUM_INFO : Nat := 0x280
abbrev F.FA_SUM_INFO_SRC : FRef := ⟨0x280, 0, 32⟩
abbrev R.FA_CONTAINED_DISCARD : Nat := 0x300
/-! R534 (16_counters_sampling.md) -/
abbrev R.CR_CR_CTRL : Nat := 0x040
abbrev F.CR_CR_CTRL_CORE_EN : FRef := ⟨0x040, 0, 1⟩
abbrev F.CR_CR_CTRL_PERIODIC_EN : FRef := ⟨0x040, 1, 1⟩
abbrev F.CR_CR_CTRL_PERIOD : FRef := ⟨0x040, 2, 16⟩
abbrev R.CR_SNAP_CMD : Nat := 0x044
abbrev F.CR_SNAP_CMD_SNAP : FRef := ⟨0x044, 0, 1⟩
abbrev R.CR_SNAP_STATUS : Nat := 0x048
abbrev F.CR_SNAP_STATUS_BUSY : FRef := ⟨0x048, 0, 1⟩
abbrev R.CR_SNAP_PLY : Nat := 0x050
abbrev R.CR_LIST_INDEX : Nat := 0x060
abbrev F.CR_LIST_INDEX_ENTRY : FRef := ⟨0x060, 0, 8⟩
abbrev R.CR_LIST_ENTRY : Nat := 0x064
abbrev F.CR_LIST_ENTRY_ADDR : FRef := ⟨0x064, 0, 24⟩
abbrev F.CR_LIST_ENTRY_PERF : FRef := ⟨0x064, 30, 1⟩
abbrev F.CR_LIST_ENTRY_VALID : FRef := ⟨0x064, 31, 1⟩
abbrev R.CR_PC_SEL : Nat := 0x100
abbrev F.CR_PC_SEL_SOURCE : FRef := ⟨0x100, 0, 12⟩
abbrev F.CR_PC_SEL_EVENT : FRef := ⟨0x100, 12, 8⟩
abbrev F.CR_PC_SEL_EN : FRef := ⟨0x100, 20, 1⟩
abbrev R.CR_PC_VALUE_LO : Nat := 0x104
abbrev F.CR_PC_VALUE_LO_VALUE : FRef := ⟨0x104, 0, 32⟩
abbrev R.CR_PC_VALUE_HI : Nat := 0x108
abbrev F.CR_PC_VALUE_HI_VALUE : FRef := ⟨0x108, 0, 16⟩
abbrev R.CR_PC_OVF : Nat := 0x500
abbrev R.CR_PC_CLEAR : Nat := 0x508
abbrev R.CR_SAMP_CTRL : Nat := 0x600
abbrev F.CR_SAMP_CTRL_UW_EN : FRef := ⟨0x600, 0, 1⟩
abbrev F.CR_SAMP_CTRL_PIPE_MASK : FRef := ⟨0x600, 1, 8⟩
abbrev F.CR_SAMP_CTRL_INSN_EN : FRef := ⟨0x600, 9, 1⟩
abbrev F.CR_SAMP_CTRL_CORE_MASK : FRef := ⟨0x600, 16, 16⟩
abbrev R.CR_UW_INTERVAL : Nat := 0x604
abbrev F.CR_UW_INTERVAL_I : FRef := ⟨0x604, 0, 24⟩
abbrev F.CR_UW_INTERVAL_JITTER : FRef := ⟨0x604, 24, 5⟩
abbrev R.CR_INSN_INTERVAL : Nat := 0x608
abbrev F.CR_INSN_INTERVAL_I : FRef := ⟨0x608, 0, 24⟩
abbrev F.CR_INSN_INTERVAL_JITTER : FRef := ⟨0x608, 24, 5⟩
abbrev R.CR_SAMP_BASE : Nat := 0x610
abbrev R.CR_SAMP_SIZE : Nat := 0x618
abbrev F.CR_SAMP_SIZE_SIZE : FRef := ⟨0x618, 0, 5⟩
abbrev R.CR_SAMP_PROD : Nat := 0x61C
abbrev F.CR_SAMP_PROD_PROD : FRef := ⟨0x61C, 0, 32⟩
abbrev R.CR_SAMP_CONS : Nat := 0x620
abbrev F.CR_SAMP_CONS_CONS : FRef := ⟨0x620, 0, 32⟩
abbrev R.CR_SAMP_STATUS : Nat := 0x624
abbrev F.CR_SAMP_STATUS_FULL : FRef := ⟨0x624, 0, 1⟩
abbrev F.CR_SAMP_STATUS_ACTIVE : FRef := ⟨0x624, 1, 1⟩
abbrev R.CR_SAMP_LOST : Nat := 0x628
abbrev R.CR_SAMPLES : Nat := 0x630
abbrev R.CR_SNAP_DATA : Nat := 0x800
/-! R556 (17_boot_lifecycle.md) -/
abbrev R.LC_LC_STATE : Nat := 0x040
abbrev F.LC_LC_STATE_STATE : FRef := ⟨0x040, 0, 3⟩
abbrev F.LC_LC_STATE_VENDOR_UNLOCKED : FRef := ⟨0x040, 3, 1⟩
abbrev F.LC_LC_STATE_ITEMS : FRef := ⟨0x040, 4, 5⟩
abbrev F.LC_LC_STATE_CUST_REVOKED : FRef := ⟨0x040, 9, 2⟩
abbrev F.LC_LC_STATE_VENDOR_REVOKED : FRef := ⟨0x040, 11, 4⟩
abbrev R.LC_DEVICE_UID : Nat := 0x048
abbrev R.LC_LC_CMD : Nat := 0x050
abbrev F.LC_LC_CMD_OP : FRef := ⟨0x050, 0, 4⟩
abbrev F.LC_LC_CMD_ITEM : FRef := ⟨0x050, 4, 3⟩
abbrev R.LC_LC_RESULT : Nat := 0x054
abbrev F.LC_LC_RESULT_RESULT : FRef := ⟨0x054, 0, 3⟩
abbrev F.LC_LC_RESULT_BUSY : FRef := ⟨0x054, 3, 1⟩
abbrev R.LC_LC_NONCE : Nat := 0x060
abbrev R.LC_LC_STAGE : Nat := 0x100
abbrev R.LC_LC_SIG : Nat := 0x200
abbrev R.LC_LC_PUBKEY : Nat := 0x400
/-! R557 (17_boot_lifecycle.md) -/
abbrev R.BOOT_BOOT_CTRL : Nat := 0x040
abbrev F.BOOT_BOOT_CTRL_SRC_OVERRIDE : FRef := ⟨0x040, 0, 2⟩
abbrev R.BOOT_BOOT_STATUS : Nat := 0x044
abbrev F.BOOT_BOOT_STATUS_STEP : FRef := ⟨0x044, 0, 4⟩
abbrev F.BOOT_BOOT_STATUS_SRC_USED : FRef := ⟨0x044, 4, 2⟩
abbrev F.BOOT_BOOT_STATUS_AWAIT_HOST : FRef := ⟨0x044, 6, 1⟩
abbrev F.BOOT_BOOT_STATUS_KIND_OK : FRef := ⟨0x044, 7, 5⟩
abbrev F.BOOT_BOOT_STATUS_COPY1_USED : FRef := ⟨0x044, 12, 5⟩
abbrev F.BOOT_BOOT_STATUS_LAST_FAIL_KIND : FRef := ⟨0x044, 17, 3⟩
abbrev F.BOOT_BOOT_STATUS_LAST_FAIL : FRef := ⟨0x044, 20, 3⟩
abbrev R.BOOT_BOOT_CMD : Nat := 0x048
abbrev F.BOOT_BOOT_CMD_SUBMIT : FRef := ⟨0x048, 0, 1⟩
abbrev F.BOOT_BOOT_CMD_KIND : FRef := ⟨0x048, 1, 3⟩
abbrev F.BOOT_BOOT_CMD_END : FRef := ⟨0x048, 4, 1⟩
abbrev R.BOOT_BOOT_ADDR : Nat := 0x04C
abbrev F.BOOT_BOOT_ADDR_ADDR : FRef := ⟨0x04C, 0, 24⟩
abbrev R.BOOT_STRAP : Nat := 0x050
abbrev F.BOOT_STRAP_BOOT_SRC : FRef := ⟨0x050, 0, 2⟩
abbrev R.BOOT_SVN_MIN : Nat := 0x060
abbrev F.BOOT_SVN_MIN_MIN : FRef := ⟨0x060, 0, 6⟩
abbrev R.BOOT_BOOT_DATA : Nat := 0x800
/-! R576 (18_modes_power_ageing.md) -/
abbrev R.MOD_MODE_REQ : Nat := 0x040
abbrev F.MOD_MODE_REQ_TARGET : FRef := ⟨0x040, 0, 3⟩
abbrev F.MOD_MODE_REQ_FORCE : FRef := ⟨0x040, 3, 1⟩
abbrev R.MOD_MODE_STATUS : Nat := 0x044
abbrev F.MOD_MODE_STATUS_MODE : FRef := ⟨0x044, 0, 3⟩
abbrev F.MOD_MODE_STATUS_BUSY : FRef := ⟨0x044, 3, 1⟩
abbrev F.MOD_MODE_STATUS_RESULT : FRef := ⟨0x044, 4, 3⟩
abbrev F.MOD_MODE_STATUS_STEP : FRef := ⟨0x044, 7, 4⟩
abbrev F.MOD_MODE_STATUS_DRAIN_DONE : FRef := ⟨0x044, 11, 1⟩
abbrev F.MOD_MODE_STATUS_CAL_DONE : FRef := ⟨0x044, 12, 1⟩
abbrev F.MOD_MODE_STATUS_WARM : FRef := ⟨0x044, 13, 1⟩
abbrev R.MOD_DRAIN_CTRL : Nat := 0x048
abbrev F.MOD_DRAIN_CTRL_WAIT_EXPORT : FRef := ⟨0x048, 0, 1⟩
abbrev F.MOD_DRAIN_CTRL_HOST_OPEN : FRef := ⟨0x048, 1, 1⟩
abbrev F.MOD_DRAIN_CTRL_DRAIN_MAX : FRef := ⟨0x048, 16, 16⟩
abbrev R.MOD_MODE_PLY : Nat := 0x050
abbrev R.MOD_DRAIN_DISCARD : Nat := 0x060
abbrev R.MOD_SR_RETRIES : Nat := 0x068
/-! R577 (18_modes_power_ageing.md) -/
abbrev R.AGE_AGE_CTRL : Nat := 0x040
abbrev F.AGE_AGE_CTRL_AVS_EN : FRef := ⟨0x040, 0, 1⟩
abbrev F.AGE_AGE_CTRL_RECAL_EN : FRef := ⟨0x040, 1, 1⟩
abbrev F.AGE_AGE_CTRL_EQ_ADAPT_EN : FRef := ⟨0x040, 2, 1⟩
abbrev F.AGE_AGE_CTRL_RECAL_STEP : FRef := ⟨0x040, 8, 8⟩
abbrev F.AGE_AGE_CTRL_RECAL_MIN : FRef := ⟨0x040, 16, 16⟩
abbrev R.AGE_AVS_CFG : Nat := 0x044
abbrev F.AGE_AVS_CFG_GB_BASE : FRef := ⟨0x044, 0, 8⟩
abbrev F.AGE_AVS_CFG_GB_SLOPE : FRef := ⟨0x044, 8, 8⟩
abbrev F.AGE_AVS_CFG_GB_MAX : FRef := ⟨0x044, 16, 8⟩
abbrev R.AGE_AVS_STATUS : Nat := 0x048
abbrev F.AGE_AVS_STATUS_VREQ : FRef := ⟨0x048, 0, 12⟩
abbrev F.AGE_AVS_STATUS_GB : FRef := ⟨0x048, 12, 8⟩
abbrev R.AGE_DEG_WORST : Nat := 0x04C
abbrev F.AGE_DEG_WORST_PAIR : FRef := ⟨0x04C, 0, 6⟩
abbrev F.AGE_DEG_WORST_DEG : FRef := ⟨0x04C, 16, 16⟩
abbrev R.AGE_DEG_WARN : Nat := 0x050
abbrev F.AGE_DEG_WARN_DEG : FRef := ⟨0x050, 0, 16⟩
abbrev R.AGE_EYE_MIN : Nat := 0x054
abbrev F.AGE_EYE_MIN_EYE_MIN_H : FRef := ⟨0x054, 0, 16⟩
abbrev F.AGE_EYE_MIN_EYE_MIN_W : FRef := ⟨0x054, 16, 16⟩
abbrev R.AGE_RETRAIN_DUE : Nat := 0x058
abbrev F.AGE_RETRAIN_DUE_DUE : FRef := ⟨0x058, 0, 16⟩
abbrev R.AGE_RO_DEG : Nat := 0x100
abbrev F.AGE_RO_DEG_DEG : FRef := ⟨0x100, 0, 16⟩
abbrev R.AGE_LANE_MARGIN : Nat := 0x200
abbrev R.AGE_RECAL_TOTAL : Nat := 0x400
abbrev F.AGE_RECAL_TOTAL_TOTAL : FRef := ⟨0x400, 0, 16⟩
/-! R584 (19_register_pages.md) -/
abbrev R.PIPE_RECIRC_FRAMES : Nat := 0x040
abbrev R.PIPE_RECIRC_BYTES : Nat := 0x048
abbrev R.PIPE_RECIRC_SLOTS : Nat := 0x050
/-! R601 (20_electrical_package.md) -/
abbrev R.CLK_SUPPLY_STATUS : Nat := 0x060
abbrev F.CLK_SUPPLY_STATUS_PGOOD : FRef := ⟨0x060, 0, 10⟩
abbrev F.CLK_SUPPLY_STATUS_UV_SEEN : FRef := ⟨0x060, 10, 10⟩
abbrev R.CLK_TEMP_STATUS : Nat := 0x064
abbrev F.CLK_TEMP_STATUS_TEMP_MAX : FRef := ⟨0x064, 0, 8⟩
abbrev F.CLK_TEMP_STATUS_TLY_TEMP : FRef := ⟨0x064, 8, 8⟩
abbrev F.CLK_TEMP_STATUS_HOT_SENSOR : FRef := ⟨0x064, 16, 5⟩
abbrev F.CLK_TEMP_STATUS_TRIP_SEEN : FRef := ⟨0x064, 21, 1⟩
abbrev R.CLK_TEMP_CTRL : Nat := 0x068
abbrev F.CLK_TEMP_CTRL_ALERT : FRef := ⟨0x068, 0, 8⟩
abbrev R.CLK_REFCLK_STATUS : Nat := 0x06C
abbrev F.CLK_REFCLK_STATUS_CORE_REF_OK : FRef := ⟨0x06C, 0, 1⟩
abbrev F.CLK_REFCLK_STATUS_SDS_REF_OK : FRef := ⟨0x06C, 1, 4⟩
abbrev F.CLK_REFCLK_STATUS_SKY_REF_OK : FRef := ⟨0x06C, 5, 1⟩
abbrev F.CLK_REFCLK_STATUS_TLY_OSC_OK : FRef := ⟨0x06C, 6, 1⟩
abbrev F.CLK_REFCLK_STATUS_AVS_ACK : FRef := ⟨0x06C, 7, 1⟩

def rows01 : List RegRow := [
  ⟨0x0, 0x0, 1, 0x40, 0, 1, [[⟨16, 16, .ro, 20768⟩, ⟨8, 8, .ro, 0⟩, ⟨0, 8, .ro, 1⟩]]⟩,
  ⟨0x0, 0x0, 1, 0x44, 0, 1, [[⟨0, 1, .ro, 0⟩, ⟨1, 1, .ro, 0⟩, ⟨2, 1, .ro, 0⟩, ⟨8, 8, .ro, 0⟩, ⟨16, 8, .ro, 0⟩]]⟩]

def rows02 : List RegRow := [
  ⟨0x0, 0x0, 1, 0x40, 0, 1, [[⟨0, 3, .wo, 0⟩, ⟨3, 1, .wo, 0⟩]]⟩,
  ⟨0x0, 0x0, 1, 0x44, 0, 1, [[⟨0, 3, .ro, 0⟩, ⟨3, 1, .ro, 0⟩, ⟨4, 3, .ro, 0⟩, ⟨7, 4, .ro, 0⟩, ⟨11, 1, .ro, 0⟩, ⟨12, 1, .ro, 0⟩, ⟨13, 1, .ro, 0⟩]]⟩,
  ⟨0x0, 0x0, 1, 0x48, 0, 1, [[⟨0, 1, .rw, 1⟩, ⟨1, 1, .rw, 1⟩, ⟨16, 16, .rw, 10000⟩]]⟩,
  ⟨0x0, 0x0, 1, 0x50, 0, 1, [[⟨0, 32, .ro, 0⟩], [⟨0, 32, .ro, 0⟩]]⟩,
  ⟨0x0, 0x0, 1, 0x60, 0, 1, [[⟨0, 32, .cnt, 0⟩], [⟨0, 32, .cnt, 0⟩]]⟩,
  ⟨0x0, 0x0, 1, 0x68, 0, 1, [[⟨0, 32, .cnt, 0⟩], [⟨0, 32, .cnt, 0⟩]]⟩]

def rows03 : List RegRow := [
  ⟨0x0, 0x0, 1, 0x40, 0, 1, [[⟨0, 3, .ro, 0⟩, ⟨3, 1, .ro, 0⟩, ⟨4, 5, .ro, 0⟩, ⟨9, 2, .ro, 0⟩, ⟨11, 4, .ro, 0⟩]]⟩,
  ⟨0x0, 0x0, 1, 0x48, 0, 1, [[⟨0, 32, .ro, 0⟩], [⟨0, 32, .ro, 0⟩]]⟩,
  ⟨0x0, 0x0, 1, 0x50, 0, 1, [[⟨0, 4, .wo, 0⟩, ⟨4, 3, .wo, 0⟩]]⟩,
  ⟨0x0, 0x0, 1, 0x54, 0, 1, [[⟨0, 3, .ro, 0⟩, ⟨3, 1, .ro, 0⟩]]⟩,
  ⟨0x0, 0x0, 1, 0x60, 0, 1, [[⟨0, 32, .ro, 0⟩], [⟨0, 32, .ro, 0⟩], [⟨0, 32, .ro, 0⟩], [⟨0, 32, .ro, 0⟩]]⟩,
  ⟨0x0, 0x0, 1, 0x100, 4, 16, [[⟨0, 32, .rw, 0⟩]]⟩,
  ⟨0x0, 0x0, 1, 0x200, 4, 96, [[⟨0, 32, .rw, 0⟩]]⟩,
  ⟨0x0, 0x0, 1, 0x400, 4, 96, [[⟨0, 32, .rw, 0⟩]]⟩]

def rows04 : List RegRow := [
  ⟨0x0, 0x0, 1, 0x40, 0, 1, [[⟨0, 2, .rw, 0⟩]]⟩,
  ⟨0x0, 0x0, 1, 0x44, 0, 1, [[⟨0, 4, .ro, 0⟩, ⟨4, 2, .ro, 0⟩, ⟨6, 1, .ro, 0⟩, ⟨7, 5, .ro, 0⟩, ⟨12, 5, .ro, 0⟩, ⟨17, 3, .ro, 0⟩, ⟨20, 3, .ro, 0⟩]]⟩,
  ⟨0x0, 0x0, 1, 0x48, 0, 1, [[⟨0, 1, .wo, 0⟩, ⟨1, 3, .wo, 0⟩, ⟨4, 1, .wo, 0⟩]]⟩,
  ⟨0x0, 0x0, 1, 0x4C, 0, 1, [[⟨0, 24, .rw, 0⟩]]⟩,
  ⟨0x0, 0x0, 1, 0x50, 0, 1, [[⟨0, 2, .ro, 0⟩]]⟩,
  ⟨0x0, 0x0, 1, 0x64, 4, 5, [[⟨0, 6, .ro, 0⟩]]⟩,
  ⟨0x0, 0x0, 1, 0x800, 4, 512, [[⟨0, 32, .wo, 0⟩]]⟩]

def rows05 : List RegRow := [
  ⟨0x0, 0x0, 1, 0x40, 0, 1, [[⟨0, 1, .rw, 1⟩, ⟨1, 1, .rw, 0⟩, ⟨2, 1, .rw, 1⟩, ⟨8, 8, .rw, 32⟩, ⟨16, 16, .rw, 3600⟩]]⟩,
  ⟨0x0, 0x0, 1, 0x44, 0, 1, [[⟨0, 8, .rw, 15⟩, ⟨8, 8, .rw, 18⟩, ⟨16, 8, .rw, 60⟩]]⟩,
  ⟨0x0, 0x0, 1, 0x48, 0, 1, [[⟨0, 12, .ro, 0⟩, ⟨12, 8, .ro, 0⟩]]⟩,
  ⟨0x0, 0x0, 1, 0x4C, 0, 1, [[⟨0, 6, .ro, 0⟩, ⟨16, 16, .ro, 0⟩]]⟩,
  ⟨0x0, 0x0, 1, 0x50, 0, 1, [[⟨0, 16, .rw, 40000⟩]]⟩,
  ⟨0x0, 0x0, 1, 0x54, 0, 1, [[⟨0, 16, .rw, 20⟩, ⟨16, 16, .rw, 150⟩]]⟩,
  ⟨0x0, 0x0, 1, 0x58, 0, 1, [[⟨0, 16, .ro, 0⟩]]⟩,
  ⟨0x0, 0x0, 1, 0x100, 4, 64, [[⟨0, 16, .ro, 0⟩]]⟩,
  ⟨0x0, 0x0, 1, 0x200, 4, 8, [[⟨0, 32, .w1c, 0⟩]]⟩,
  ⟨0x0, 0x0, 1, 0x400, 4, 256, [[⟨0, 16, .ro, 0⟩]]⟩]

def rows06 : List RegRow := [
  ⟨0x0, 0x0, 1, 0x40, 0, 1, [[⟨0, 32, .ro, 0⟩]]⟩,
  ⟨0x0, 0x0, 1, 0x44, 0, 1, [[⟨0, 32, .ro, 0⟩]]⟩,
  ⟨0x0, 0x0, 1, 0x48, 0, 1, [[⟨0, 1, .ro, 0⟩, ⟨1, 1, .w1c, 0⟩]]⟩,
  ⟨0x0, 0x0, 1, 0x60, 0, 1, [[⟨0, 10, .ro, 0⟩, ⟨10, 10, .w1c, 0⟩]]⟩,
  ⟨0x0, 0x0, 1, 0x64, 0, 1, [[⟨0, 8, .ro, 0⟩, ⟨8, 8, .ro, 0⟩, ⟨16, 5, .ro, 0⟩, ⟨21, 1, .w1c, 0⟩]]⟩,
  ⟨0x0, 0x0, 1, 0x68, 0, 1, [[⟨0, 8, .rw, 110⟩]]⟩,
  ⟨0x0, 0x0, 1, 0x6C, 0, 1, [[⟨0, 1, .ro, 0⟩, ⟨1, 4, .ro, 0⟩, ⟨5, 1, .ro, 0⟩, ⟨6, 1, .ro, 0⟩, ⟨7, 1, .ro, 0⟩]]⟩]

def rows07 : List RegRow := [
  ⟨0x0, 0x0, 1, 0x40, 0, 1, [[⟨0, 1, .rw, 0⟩, ⟨1, 1, .rw, 0⟩]]⟩,
  ⟨0x0, 0x0, 1, 0x44, 0, 1, [[⟨0, 1, .ro, 0⟩, ⟨1, 1, .ro, 0⟩, ⟨2, 1, .ro, 0⟩, ⟨3, 1, .ro, 0⟩, ⟨4, 1, .ro, 0⟩]]⟩,
  ⟨0x0, 0x0, 1, 0x48, 0, 1, [[⟨0, 10, .ro, 0⟩, ⟨10, 5, .ro, 0⟩, ⟨15, 1, .ro, 0⟩, ⟨16, 1, .ro, 0⟩, ⟨31, 1, .w1c, 0⟩]]⟩,
  ⟨0x0, 0x0, 1, 0x50, 0, 1, [[⟨0, 32, .ro, 0⟩], [⟨0, 32, .ro, 0⟩]]⟩,
  ⟨0x0, 0x0, 1, 0x60, 0, 1, [[⟨0, 9, .ro, 0⟩, ⟨16, 4, .ro, 0⟩]]⟩,
  ⟨0x0, 0x0, 1, 0x64, 0, 1, [[⟨0, 1, .wo, 0⟩]]⟩,
  ⟨0x0, 0x0, 1, 0x68, 0, 1, [[⟨0, 8, .rw, 0⟩]]⟩,
  ⟨0x0, 0x0, 1, 0x80, 4, 8, [[⟨0, 32, .ro, 0⟩]]⟩,
  ⟨0x0, 0x0, 1, 0xA0, 0, 1, [[⟨0, 32, .cnt, 0⟩], [⟨0, 32, .cnt, 0⟩]]⟩,
  ⟨0x0, 0x0, 1, 0xA8, 0, 1, [[⟨0, 32, .cnt, 0⟩], [⟨0, 32, .cnt, 0⟩]]⟩,
  ⟨0x0, 0x0, 1, 0xB0, 0, 1, [[⟨0, 32, .cnt, 0⟩], [⟨0, 32, .cnt, 0⟩]]⟩,
  ⟨0x0, 0x0, 1, 0xB8, 0, 1, [[⟨0, 32, .cnt, 0⟩], [⟨0, 32, .cnt, 0⟩]]⟩,
  ⟨0x0, 0x0, 1, 0x100, 4, 24, [[⟨0, 32, .ro, 0⟩]]⟩,
  ⟨0x0, 0x0, 1, 0x180, 4, 24, [[⟨0, 32, .ro, 0⟩]]⟩,
  ⟨0x0, 0x0, 1, 0x200, 4, 24, [[⟨0, 32, .ro, 0⟩]]⟩,
  ⟨0x0, 0x0, 1, 0x280, 4, 24, [[⟨0, 32, .ro, 0⟩]]⟩,
  ⟨0x0, 0x0, 1, 0x300, 8, 8, [[⟨0, 32, .cnt, 0⟩], [⟨0, 32, .cnt, 0⟩]]⟩]

def rows08 : List RegRow := [
  ⟨0x0, 0x0, 1, 0x40, 0, 1, [[⟨0, 1, .rw, 0⟩, ⟨1, 1, .rw, 0⟩, ⟨2, 16, .rw, 25600⟩]]⟩,
  ⟨0x0, 0x0, 1, 0x44, 0, 1, [[⟨0, 1, .wo, 0⟩]]⟩,
  ⟨0x0, 0x0, 1, 0x48, 0, 1, [[⟨0, 1, .ro, 0⟩]]⟩,
  ⟨0x0, 0x0, 1, 0x50, 0, 1, [[⟨0, 32, .ro, 0⟩], [⟨0, 32, .ro, 0⟩]]⟩,
  ⟨0x0, 0x0, 1, 0x60, 0, 1, [[⟨0, 8, .rw, 0⟩]]⟩,
  ⟨0x0, 0x0, 1, 0x64, 0, 1, [[⟨0, 24, .rw, 0⟩, ⟨30, 1, .rw, 0⟩, ⟨31, 1, .rw, 0⟩]]⟩,
  ⟨0x0, 0x0, 1, 0x100, 16, 64, [[⟨0, 12, .rw, 0⟩, ⟨12, 8, .rw, 0⟩, ⟨20, 1, .rw, 0⟩]]⟩,
  ⟨0x0, 0x0, 1, 0x104, 16, 64, [[⟨0, 32, .rw, 0⟩]]⟩,
  ⟨0x0, 0x0, 1, 0x108, 16, 64, [[⟨0, 16, .rw, 0⟩]]⟩,
  ⟨0x0, 0x0, 1, 0x500, 0, 1, [[⟨0, 32, .w1c, 0⟩], [⟨0, 32, .w1c, 0⟩]]⟩,
  ⟨0x0, 0x0, 1, 0x508, 0, 1, [[⟨0, 32, .wo, 0⟩], [⟨0, 32, .wo, 0⟩]]⟩,
  ⟨0x0, 0x0, 1, 0x600, 0, 1, [[⟨0, 1, .rw, 0⟩, ⟨1, 8, .rw, 0⟩, ⟨9, 1, .rw, 0⟩, ⟨16, 16, .rw, 0⟩]]⟩,
  ⟨0x0, 0x0, 1, 0x604, 0, 1, [[⟨0, 24, .rw, 65536⟩, ⟨24, 5, .rw, 0⟩]]⟩,
  ⟨0x0, 0x0, 1, 0x608, 0, 1, [[⟨0, 24, .rw, 65536⟩, ⟨24, 5, .rw, 0⟩]]⟩,
  ⟨0x0, 0x0, 1, 0x610, 0, 1, [[⟨0, 32, .rw, 0⟩], [⟨0, 3, .rw, 4⟩]]⟩,
  ⟨0x0, 0x0, 1, 0x618, 0, 1, [[⟨0, 5, .rw, 20⟩]]⟩,
  ⟨0x0, 0x0, 1, 0x61C, 0, 1, [[⟨0, 32, .ro, 0⟩]]⟩,
  ⟨0x0, 0x0, 1, 0x620, 0, 1, [[⟨0, 32, .rw, 0⟩]]⟩,
  ⟨0x0, 0x0, 1, 0x624, 0, 1, [[⟨0, 1, .w1c, 0⟩, ⟨1, 1, .ro, 0⟩]]⟩,
  ⟨0x0, 0x0, 1, 0x628, 0, 1, [[⟨0, 32, .cnt, 0⟩], [⟨0, 32, .cnt, 0⟩]]⟩,
  ⟨0x0, 0x0, 1, 0x630, 0, 1, [[⟨0, 32, .cnt, 0⟩], [⟨0, 32, .cnt, 0⟩]]⟩,
  ⟨0x0, 0x0, 1, 0x800, 4, 512, [[⟨0, 32, .ro, 0⟩]]⟩]

def rows09 : List RegRow := [
  ⟨0x0, 0x0, 1, 0x40, 0, 1, [[⟨0, 6, .ro, 0⟩, ⟨6, 1, .ro, 0⟩, ⟨8, 2, .ro, 0⟩, ⟨10, 1, .ro, 0⟩, ⟨11, 3, .ro, 0⟩]]⟩,
  ⟨0x0, 0x0, 1, 0x44, 0, 1, [[⟨1, 5, .rw, 0⟩]]⟩,
  ⟨0x0, 0x0, 1, 0x48, 0, 1, [[⟨0, 2, .ro, 0⟩]]⟩,
  ⟨0x0, 0x0, 1, 0x58, 8, 3, [[⟨0, 32, .ro, 0⟩], [⟨0, 32, .ro, 0⟩]]⟩,
  ⟨0x0, 0x0, 1, 0x80, 0, 1, [[⟨0, 32, .cnt, 0⟩], [⟨0, 32, .cnt, 0⟩]]⟩,
  ⟨0x0, 0x0, 1, 0x88, 0, 1, [[⟨0, 32, .cnt, 0⟩], [⟨0, 32, .cnt, 0⟩]]⟩,
  ⟨0x0, 0x0, 1, 0x90, 0, 1, [[⟨0, 32, .cnt, 0⟩], [⟨0, 32, .cnt, 0⟩]]⟩,
  ⟨0x0, 0x0, 1, 0x98, 0, 1, [[⟨0, 32, .cnt, 0⟩], [⟨0, 32, .cnt, 0⟩]]⟩,
  ⟨0x0, 0x0, 1, 0xA0, 0, 1, [[⟨0, 32, .cnt, 0⟩], [⟨0, 32, .cnt, 0⟩]]⟩,
  ⟨0x0, 0x0, 1, 0xA8, 0, 1, [[⟨0, 32, .cnt, 0⟩], [⟨0, 32, .cnt, 0⟩]]⟩,
  ⟨0x0, 0x0, 1, 0xB0, 0, 1, [[⟨0, 32, .cnt, 0⟩], [⟨0, 32, .cnt, 0⟩]]⟩]

def rows0A : List RegRow := [
  ⟨0x0, 0x0, 1, 0x40, 0, 1, [[⟨0, 1, .rw, 0⟩, ⟨1, 2, .rw, 0⟩, ⟨3, 1, .rw, 0⟩, ⟨4, 3, .rw, 7⟩]]⟩,
  ⟨0x0, 0x0, 1, 0x44, 0, 1, [[⟨0, 3, .ro, 0⟩, ⟨3, 1, .ro, 0⟩, ⟨4, 1, .w1c, 0⟩]]⟩,
  ⟨0x0, 0x0, 1, 0x48, 8, 2, [[⟨0, 24, .ro, 0⟩]]⟩,
  ⟨0x0, 0x0, 1, 0x4C, 8, 2, [[⟨0, 24, .ro, 0⟩]]⟩,
  ⟨0x0, 0x0, 1, 0x60, 0, 1, [[⟨0, 32, .rw, 0⟩], [⟨0, 16, .rw, 0⟩]]⟩,
  ⟨0x0, 0x0, 1, 0x68, 0, 1, [[⟨0, 32, .rw, 0⟩], [⟨0, 16, .rw, 0⟩]]⟩,
  ⟨0x0, 0x0, 1, 0x70, 0, 1, [[⟨0, 8, .rw, 4⟩]]⟩,
  ⟨0x0, 0x0, 1, 0x80, 0, 1, [[⟨0, 32, .cnt, 0⟩], [⟨0, 32, .cnt, 0⟩]]⟩,
  ⟨0x0, 0x0, 1, 0x88, 0, 1, [[⟨0, 32, .cnt, 0⟩], [⟨0, 32, .cnt, 0⟩]]⟩,
  ⟨0x0, 0x0, 1, 0x90, 0, 1, [[⟨0, 32, .cnt, 0⟩], [⟨0, 32, .cnt, 0⟩]]⟩,
  ⟨0x0, 0x0, 1, 0x98, 0, 1, [[⟨0, 32, .cnt, 0⟩], [⟨0, 32, .cnt, 0⟩]]⟩,
  ⟨0x0, 0x0, 1, 0xA0, 0, 1, [[⟨0, 32, .cnt, 0⟩], [⟨0, 32, .cnt, 0⟩]]⟩,
  ⟨0x0, 0x0, 1, 0xA8, 0, 1, [[⟨0, 32, .cnt, 0⟩], [⟨0, 32, .cnt, 0⟩]]⟩,
  ⟨0x0, 0x0, 1, 0xB0, 0, 1, [[⟨0, 32, .cnt, 0⟩], [⟨0, 32, .cnt, 0⟩]]⟩,
  ⟨0x0, 0x0, 1, 0xB8, 0, 1, [[⟨0, 32, .cnt, 0⟩], [⟨0, 32, .cnt, 0⟩]]⟩]

def rows10 : List RegRow := [
  ⟨0x0, 0x0, 1, 0x40, 0, 1, [[⟨0, 30, .ro, 0⟩]]⟩,
  ⟨0x0, 0x0, 1, 0x44, 0, 1, [[⟨0, 8, .ro, 0⟩]]⟩,
  ⟨0x0, 0x0, 1, 0x48, 0, 1, [[⟨0, 32, .ro, 0⟩]]⟩,
  ⟨0x0, 0x0, 1, 0x4C, 0, 1, [[⟨0, 16, .ro, 0⟩]]⟩,
  ⟨0x0, 0x0, 1, 0x50, 0, 1, [[⟨0, 2, .ro, 0⟩, ⟨2, 1, .ro, 0⟩, ⟨3, 2, .ro, 2⟩, ⟨5, 3, .ro, 0⟩, ⟨8, 3, .ro, 0⟩]]⟩,
  ⟨0x0, 0x0, 1, 0x54, 0, 1, [[⟨0, 32, .ro, 0⟩]]⟩,
  ⟨0x0, 0x0, 1, 0x58, 0, 1, [[⟨0, 32, .ro, 0⟩]]⟩,
  ⟨0x0, 0x0, 1, 0x5C, 0, 1, [[⟨0, 32, .ro, 0⟩]]⟩,
  ⟨0x0, 0x0, 1, 0x60, 0, 1, [[⟨0, 8, .ro, 0⟩, ⟨8, 1, .ro, 0⟩, ⟨9, 1, .ro, 0⟩, ⟨10, 1, .ro, 0⟩]]⟩,
  ⟨0x0, 0x0, 1, 0x64, 0, 1, [[⟨0, 9, .rc, 0⟩, ⟨16, 16, .rc, 0⟩]]⟩,
  ⟨0x0, 0x0, 1, 0x68, 0, 1, [[⟨0, 32, .cnt, 0⟩], [⟨0, 32, .cnt, 0⟩]]⟩,
  ⟨0x0, 0x0, 1, 0x400, 4, 257, [[⟨0, 2, .rw, 0⟩, ⟨2, 1, .rw, 0⟩, ⟨3, 1, .rw, 0⟩]]⟩]

def rows11 : List RegRow := [
  ⟨0x0, 0x0, 1, 0x40, 0, 1, [[⟨0, 1, .rwS, 0⟩, ⟨1, 1, .rwS, 0⟩, ⟨2, 1, .rwS, 0⟩, ⟨3, 1, .rwS, 0⟩, ⟨4, 1, .rwS, 0⟩, ⟨5, 1, .rwS, 0⟩, ⟨6, 2, .rwS, 0⟩]]⟩,
  ⟨0x0, 0x0, 1, 0x44, 0, 1, [[⟨0, 1, .ro, 0⟩, ⟨1, 1, .ro, 0⟩, ⟨2, 1, .ro, 0⟩, ⟨3, 1, .ro, 0⟩, ⟨4, 1, .ro, 0⟩, ⟨5, 1, .ro, 0⟩]]⟩,
  ⟨0x0, 0x0, 1, 0x48, 0, 1, [[⟨0, 16, .rwS, 100⟩, ⟨16, 16, .rwS, 50000⟩]]⟩,
  ⟨0x0, 0x0, 1, 0x4C, 0, 1, [[⟨0, 4, .rwS, 4⟩]]⟩,
  ⟨0x0, 0x0, 1, 0x50, 0, 1, [[⟨0, 32, .ro, 0⟩]]⟩,
  ⟨0x0, 0x0, 1, 0x54, 0, 1, [[⟨0, 32, .ro, 0⟩]]⟩,
  ⟨0x0, 0x0, 1, 0x58, 0, 1, [[⟨0, 32, .ro, 0⟩]]⟩,
  ⟨0x0, 0x0, 1, 0x5C, 0, 1, [[⟨0, 32, .ro, 0⟩]]⟩,
  ⟨0x0, 0x0, 1, 0x60, 0, 1, [[⟨0, 16, .rwS, 2000⟩]]⟩,
  ⟨0x0, 0x0, 1, 0x64, 0, 1, [[⟨0, 8, .rwS, 0⟩, ⟨8, 1, .rwS, 0⟩]]⟩]

def rows12 : List RegRow := [
  ⟨0x40, 0x40, 2, 0x0, 0, 1, [[⟨0, 8, .rwS, 0⟩, ⟨8, 2, .rwS, 0⟩, ⟨10, 8, .rwS, 0⟩, ⟨18, 1, .rwS, 0⟩, ⟨19, 1, .rwS, 0⟩, ⟨20, 12, .rwS, 0⟩]]⟩,
  ⟨0x40, 0x40, 2, 0x4, 0, 1, [[⟨0, 4, .ro, 1⟩, ⟨4, 1, .ro, 0⟩]]⟩,
  ⟨0x40, 0x40, 2, 0x8, 0, 1, [[⟨0, 32, .ro, 0⟩]]⟩,
  ⟨0x40, 0x40, 2, 0xC, 0, 1, [[⟨0, 32, .ro, 0⟩]]⟩,
  ⟨0x40, 0x40, 2, 0x10, 0, 1, [[⟨0, 32, .rwS, 0⟩]]⟩,
  ⟨0x40, 0x40, 2, 0x14, 0, 1, [[⟨0, 32, .ro, 0⟩], [⟨0, 32, .ro, 0⟩]]⟩,
  ⟨0x40, 0x40, 2, 0x20, 0, 1, [[⟨0, 32, .cnt, 0⟩], [⟨0, 32, .cnt, 0⟩]]⟩,
  ⟨0x40, 0x40, 2, 0x28, 0, 1, [[⟨0, 32, .cnt, 0⟩], [⟨0, 32, .cnt, 0⟩]]⟩,
  ⟨0x0, 0x0, 1, 0xC0, 0, 1, [[⟨0, 32, .rw, 0⟩], [⟨0, 16, .rw, 0⟩]]⟩,
  ⟨0x0, 0x0, 1, 0xC8, 0, 1, [[⟨0, 32, .rw, 0⟩], [⟨0, 32, .rw, 0⟩], [⟨0, 32, .rw, 0⟩], [⟨0, 32, .rw, 0⟩]]⟩,
  ⟨0x0, 0x0, 1, 0xD8, 0, 1, [[⟨0, 16, .rw, 1⟩]]⟩]

def rows13 : List RegRow := [
  ⟨0x0, 0x0, 1, 0x40, 0, 1, [[⟨0, 16, .rwS, 40⟩]]⟩,
  ⟨0x0, 0x0, 1, 0x44, 0, 1, [[⟨0, 8, .rwS, 128⟩]]⟩,
  ⟨0x0, 0x0, 1, 0x48, 0, 1, [[⟨0, 24, .rwS, 50000⟩]]⟩,
  ⟨0x0, 0x0, 1, 0x4C, 0, 1, [[⟨0, 24, .rwS, 500⟩]]⟩,
  ⟨0x0, 0x0, 1, 0x50, 0, 1, [[⟨0, 16, .rwS, 50000⟩]]⟩,
  ⟨0x0, 0x0, 1, 0x54, 0, 1, [[⟨0, 16, .rwS, 256⟩]]⟩,
  ⟨0x0, 0x0, 1, 0x58, 0, 1, [[⟨0, 28, .rwS, 0⟩]]⟩,
  ⟨0x0, 0x0, 1, 0x5C, 0, 1, [[⟨0, 1, .rwS, 0⟩]]⟩,
  ⟨0x0, 0x0, 1, 0x60, 0, 1, [[⟨0, 1, .ro, 0⟩]]⟩,
  ⟨0x0, 0x0, 1, 0x400, 4, 256, [[⟨0, 28, .rwS, 0⟩]]⟩,
  ⟨0x0, 0x0, 1, 0x800, 4, 256, [[⟨0, 28, .rwS, 0⟩]]⟩,
  ⟨0x0, 0x0, 1, 0xC00, 4, 256, [[⟨0, 16, .rwS, 0⟩]]⟩]

def rows14 : List RegRow := [
  ⟨0x0, 0x0, 1, 0x40, 0, 1, [[⟨0, 1, .rwS, 0⟩, ⟨1, 1, .rwS, 0⟩]]⟩,
  ⟨0x0, 0x0, 1, 0x44, 0, 1, [[⟨1, 15, .rwS, 0⟩]]⟩,
  ⟨0x0, 0x0, 1, 0x48, 0, 1, [[⟨0, 12, .rwS, 2500⟩]]⟩,
  ⟨0x0, 0x0, 1, 0x4C, 0, 1, [[⟨0, 20, .rwS, 25600⟩]]⟩,
  ⟨0x0, 0x0, 1, 0x50, 0, 1, [[⟨0, 16, .rwS, 1024⟩]]⟩,
  ⟨0x0, 0x0, 1, 0x54, 0, 1, [[⟨0, 1, .ro, 0⟩, ⟨1, 1, .ro, 0⟩, ⟨2, 1, .ro, 0⟩]]⟩,
  ⟨0x0, 0x0, 1, 0x58, 0, 1, [[⟨0, 15, .ro, 16384⟩, ⟨16, 14, .ro, 0⟩]]⟩,
  ⟨0x0, 0x0, 1, 0x5C, 0, 1, [[⟨0, 28, .ro, 0⟩]]⟩,
  ⟨0x0, 0x0, 1, 0x60, 0, 1, [[⟨0, 32, .ro, 0⟩], [⟨0, 32, .ro, 0⟩]]⟩,
  ⟨0x0, 0x0, 1, 0x68, 0, 1, [[⟨0, 21, .ro, 0⟩]]⟩,
  ⟨0x0, 0x0, 1, 0x6C, 0, 1, [[⟨0, 14, .rw, 0⟩]]⟩,
  ⟨0x0, 0x0, 1, 0x70, 0, 1, [[⟨0, 32, .ro, 0⟩], [⟨0, 32, .ro, 0⟩]]⟩,
  ⟨0x0, 0x0, 1, 0x80, 0, 1, [[⟨0, 32, .cnt, 0⟩], [⟨0, 32, .cnt, 0⟩]]⟩,
  ⟨0x0, 0x0, 1, 0x88, 0, 1, [[⟨0, 32, .cnt, 0⟩], [⟨0, 32, .cnt, 0⟩]]⟩,
  ⟨0x0, 0x0, 1, 0x90, 0, 1, [[⟨0, 32, .cnt, 0⟩], [⟨0, 32, .cnt, 0⟩]]⟩,
  ⟨0x0, 0x0, 1, 0x98, 0, 1, [[⟨0, 32, .cnt, 0⟩], [⟨0, 32, .cnt, 0⟩]]⟩,
  ⟨0x0, 0x0, 1, 0xA0, 0, 1, [[⟨0, 32, .cnt, 0⟩], [⟨0, 32, .cnt, 0⟩]]⟩,
  ⟨0x0, 0x0, 1, 0xA8, 0, 1, [[⟨0, 32, .cnt, 0⟩], [⟨0, 32, .cnt, 0⟩]]⟩,
  ⟨0x0, 0x0, 1, 0x200, 4, 128, [[⟨0, 32, .ro, 0⟩]]⟩,
  ⟨0x0, 0x0, 1, 0x400, 4, 64, [[⟨0, 32, .ro, 0⟩]]⟩,
  ⟨0x0, 0x0, 1, 0x800, 4, 256, [[⟨0, 4, .rwS, 0⟩]]⟩]

def rows15 : List RegRow := [
  ⟨0x0, 0x0, 1, 0x40, 0, 1, [[⟨0, 1, .ro, 0⟩, ⟨1, 1, .ro, 0⟩, ⟨2, 1, .ro, 0⟩, ⟨3, 1, .ro, 0⟩]]⟩,
  ⟨0x0, 0x0, 1, 0x44, 0, 1, [[⟨0, 32, .ro, 0⟩]]⟩,
  ⟨0x0, 0x0, 1, 0x60, 4, 8, [[⟨0, 32, .ro, 0⟩]]⟩,
  ⟨0x0, 0x0, 1, 0x80, 0, 1, [[⟨0, 32, .cnt, 0⟩], [⟨0, 32, .cnt, 0⟩]]⟩,
  ⟨0x0, 0x0, 1, 0x88, 0, 1, [[⟨0, 32, .cnt, 0⟩], [⟨0, 32, .cnt, 0⟩]]⟩,
  ⟨0x0, 0x0, 1, 0x100, 4, 96, [[⟨0, 32, .ro, 0⟩]]⟩,
  ⟨0x0, 0x0, 1, 0x400, 4, 292, [[⟨0, 32, .ro, 0⟩]]⟩]

def rows16 : List RegRow := [
  ⟨0x0, 0x0, 1, 0x40, 0, 1, [[⟨0, 1, .ro, 0⟩, ⟨1, 1, .ro, 0⟩]]⟩,
  ⟨0x0, 0x0, 1, 0x44, 0, 1, [[⟨0, 32, .ro, 0⟩]]⟩,
  ⟨0x0, 0x0, 1, 0x48, 0, 1, [[⟨0, 1, .wo, 0⟩]]⟩,
  ⟨0x0, 0x0, 1, 0x4C, 0, 1, [[⟨0, 3, .ro, 0⟩, ⟨3, 1, .ro, 0⟩]]⟩,
  ⟨0x0, 0x0, 1, 0x50, 0, 1, [[⟨0, 16, .ro, 0⟩]]⟩,
  ⟨0x0, 0x0, 1, 0x54, 0, 1, [[⟨0, 10, .rw, 0⟩, ⟨12, 10, .ro, 0⟩]]⟩,
  ⟨0x0, 0x0, 1, 0x60, 0, 1, [[⟨0, 32, .ro, 0⟩], [⟨0, 32, .ro, 0⟩], [⟨0, 32, .ro, 0⟩], [⟨0, 32, .ro, 0⟩]]⟩,
  ⟨0x0, 0x0, 1, 0x80, 4, 8, [[⟨0, 32, .ro, 0⟩]]⟩,
  ⟨0x0, 0x0, 1, 0xA0, 4, 8, [[⟨0, 32, .ro, 0⟩]]⟩,
  ⟨0x0, 0x0, 1, 0xE0, 4, 8, [[⟨0, 32, .ro, 0⟩]]⟩,
  ⟨0x0, 0x0, 1, 0x100, 4, 16, [[⟨0, 32, .rw, 0⟩]]⟩,
  ⟨0x0, 0x0, 1, 0x200, 4, 96, [[⟨0, 32, .rw, 0⟩]]⟩,
  ⟨0x0, 0x0, 1, 0x400, 4, 96, [[⟨0, 32, .rw, 0⟩]]⟩]

def rows17 : List RegRow := [
  ⟨0x0, 0x0, 1, 0x40, 0, 1, [[⟨0, 1, .rwS, 0⟩, ⟨1, 8, .rwS, 0⟩, ⟨9, 3, .rwS, 0⟩]]⟩,
  ⟨0x0, 0x0, 1, 0x44, 0, 1, [[⟨0, 32, .rw, 0⟩], [⟨0, 16, .rw, 0⟩]]⟩,
  ⟨0x0, 0x0, 1, 0x50, 0, 1, [[⟨0, 32, .ro, 0⟩], [⟨0, 32, .ro, 0⟩]]⟩,
  ⟨0x0, 0x0, 1, 0x58, 0, 1, [[⟨0, 32, .rw, 0⟩], [⟨0, 32, .rw, 0⟩]]⟩,
  ⟨0x0, 0x0, 1, 0x60, 0, 1, [[⟨0, 32, .wo, 0⟩], [⟨0, 32, .wo, 0⟩]]⟩,
  ⟨0x0, 0x0, 1, 0x80, 0, 1, [[⟨0, 32, .cnt, 0⟩], [⟨0, 32, .cnt, 0⟩]]⟩,
  ⟨0x0, 0x0, 1, 0x88, 0, 1, [[⟨0, 32, .cnt, 0⟩], [⟨0, 32, .cnt, 0⟩]]⟩,
  ⟨0x0, 0x0, 1, 0x90, 0, 1, [[⟨0, 32, .cnt, 0⟩], [⟨0, 32, .cnt, 0⟩]]⟩,
  ⟨0x0, 0x0, 1, 0x98, 0, 1, [[⟨0, 32, .cnt, 0⟩], [⟨0, 32, .cnt, 0⟩]]⟩]

def rows20 : List RegRow := [
  ⟨0x0, 0x0, 1, 0x40, 0, 1, [[⟨0, 24, .rw, 0⟩, ⟨24, 1, .rw, 0⟩, ⟨25, 1, .rw, 0⟩]]⟩,
  ⟨0x0, 0x0, 1, 0x44, 0, 1, [[⟨0, 1, .w1c, 0⟩, ⟨8, 8, .ro, 0⟩]]⟩,
  ⟨0x100, 0x100, 8, 0x0, 0, 1, [[⟨0, 1, .rw, 0⟩, ⟨8, 8, .rw, 0⟩]]⟩,
  ⟨0x100, 0x100, 8, 0x4, 0, 1, [[⟨0, 3, .ro, 0⟩, ⟨3, 1, .ro, 0⟩, ⟨4, 1, .ro, 0⟩, ⟨5, 1, .ro, 0⟩, ⟨8, 8, .ro, 0⟩, ⟨16, 1, .w1c, 0⟩, ⟨17, 1, .w1c, 0⟩, ⟨18, 1, .w1c, 0⟩]]⟩,
  ⟨0x100, 0x100, 8, 0x8, 0, 1, [[⟨0, 14, .rw, 1522⟩]]⟩,
  ⟨0x100, 0x100, 8, 0xC, 0, 1, [[⟨0, 3, .rw, 0⟩, ⟨3, 1, .rw, 0⟩, ⟨4, 3, .rw, 0⟩, ⟨7, 1, .rw, 0⟩, ⟨8, 1, .rw, 0⟩]]⟩,
  ⟨0x100, 0x100, 8, 0x10, 0, 1, [[⟨0, 16, .rw, 65535⟩, ⟨16, 16, .rw, 0⟩]]⟩,
  ⟨0x100, 0x100, 8, 0x14, 0, 1, [[⟨0, 16, .rw, 10⟩, ⟨16, 16, .rw, 0⟩]]⟩,
  ⟨0x100, 0x100, 8, 0x20, 0, 1, [[⟨0, 32, .cnt, 0⟩], [⟨0, 32, .cnt, 0⟩]]⟩,
  ⟨0x100, 0x100, 8, 0x28, 0, 1, [[⟨0, 32, .cnt, 0⟩], [⟨0, 32, .cnt, 0⟩]]⟩,
  ⟨0x100, 0x100, 8, 0x30, 0, 1, [[⟨0, 32, .cnt, 0⟩], [⟨0, 32, .cnt, 0⟩]]⟩,
  ⟨0x100, 0x100, 8, 0x38, 0, 1, [[⟨0, 32, .cnt, 0⟩], [⟨0, 32, .cnt, 0⟩]]⟩,
  ⟨0x100, 0x100, 8, 0x40, 0, 1, [[⟨0, 32, .cnt, 0⟩], [⟨0, 32, .cnt, 0⟩]]⟩,
  ⟨0x100, 0x100, 8, 0x48, 0, 1, [[⟨0, 32, .cnt, 0⟩], [⟨0, 32, .cnt, 0⟩]]⟩,
  ⟨0x100, 0x100, 8, 0x50, 0, 1, [[⟨0, 32, .cnt, 0⟩], [⟨0, 32, .cnt, 0⟩]]⟩,
  ⟨0x100, 0x100, 8, 0x58, 0, 1, [[⟨0, 32, .cnt, 0⟩], [⟨0, 32, .cnt, 0⟩]]⟩,
  ⟨0x100, 0x100, 8, 0x60, 0, 1, [[⟨0, 32, .cnt, 0⟩], [⟨0, 32, .cnt, 0⟩]]⟩,
  ⟨0x100, 0x100, 8, 0x68, 0, 1, [[⟨0, 32, .cnt, 0⟩], [⟨0, 32, .cnt, 0⟩]]⟩,
  ⟨0x100, 0x100, 8, 0x70, 0, 1, [[⟨0, 32, .cnt, 0⟩], [⟨0, 32, .cnt, 0⟩]]⟩,
  ⟨0x100, 0x100, 8, 0x78, 0, 1, [[⟨0, 32, .cnt, 0⟩], [⟨0, 32, .cnt, 0⟩]]⟩,
  ⟨0x100, 0x100, 8, 0x80, 0, 1, [[⟨0, 32, .cnt, 0⟩], [⟨0, 32, .cnt, 0⟩]]⟩,
  ⟨0x100, 0x100, 8, 0x88, 0, 1, [[⟨0, 32, .cnt, 0⟩], [⟨0, 32, .cnt, 0⟩]]⟩,
  ⟨0x100, 0x100, 8, 0x90, 0, 1, [[⟨0, 32, .cnt, 0⟩], [⟨0, 32, .cnt, 0⟩]]⟩,
  ⟨0x100, 0x100, 8, 0x98, 0, 1, [[⟨0, 32, .cnt, 0⟩], [⟨0, 32, .cnt, 0⟩]]⟩]

def rows21 : List RegRow := [
  ⟨0x0, 0x0, 1, 0x40, 0, 1, [[⟨0, 1, .rw, 0⟩, ⟨1, 1, .rw, 0⟩, ⟨2, 2, .rw, 0⟩, ⟨4, 2, .rw, 0⟩, ⟨6, 1, .rw, 1⟩, ⟨7, 1, .ro, 0⟩, ⟨8, 8, .rw, 0⟩, ⟨16, 8, .rw, 0⟩]]⟩,
  ⟨0x0, 0x0, 1, 0x44, 0, 1, [[⟨0, 1, .ro, 0⟩, ⟨1, 1, .ro, 0⟩, ⟨2, 1, .ro, 0⟩, ⟨3, 1, .ro, 0⟩, ⟨4, 1, .ro, 0⟩, ⟨5, 1, .w1c, 0⟩]]⟩,
  ⟨0x0, 0x0, 1, 0x48, 0, 1, [[⟨0, 24, .ro, 0⟩, ⟨31, 1, .ro, 0⟩]]⟩,
  ⟨0x0, 0x0, 1, 0x4C, 0, 1, [[⟨0, 24, .ro, 0⟩]]⟩,
  ⟨0x0, 0x0, 1, 0x50, 0, 1, [[⟨0, 20, .ro, 0⟩]]⟩,
  ⟨0x0, 0x0, 1, 0x54, 0, 1, [[⟨0, 16, .rw, 0⟩, ⟨16, 16, .rw, 8192⟩]]⟩,
  ⟨0x0, 0x0, 1, 0x58, 0, 1, [[⟨0, 16, .ro, 0⟩, ⟨16, 16, .ro, 0⟩]]⟩,
  ⟨0x0, 0x0, 1, 0x60, 0, 1, [[⟨0, 32, .cnt, 0⟩], [⟨0, 32, .cnt, 0⟩]]⟩]

def rows22 : List RegRow := [
  ⟨0x0, 0x0, 1, 0x40, 0, 1, [[⟨0, 1, .rw, 0⟩, ⟨1, 4, .rw, 1⟩, ⟨5, 1, .rw, 0⟩, ⟨6, 1, .rw, 1⟩, ⟨7, 2, .rw, 0⟩, ⟨9, 1, .rw, 0⟩, ⟨10, 1, .rw, 0⟩]]⟩,
  ⟨0x0, 0x0, 1, 0x44, 0, 1, [[⟨0, 15, .ro, 0⟩, ⟨16, 1, .ro, 0⟩, ⟨17, 1, .ro, 0⟩, ⟨18, 1, .ro, 0⟩]]⟩,
  ⟨0x0, 0x0, 1, 0x48, 0, 1, [[⟨0, 15, .ro, 0⟩]]⟩,
  ⟨0x0, 0x0, 1, 0x4C, 0, 1, [[⟨0, 1, .w1c, 0⟩, ⟨8, 8, .ro, 0⟩]]⟩,
  ⟨0x0, 0x0, 1, 0x50, 0, 1, [[⟨0, 4, .rw, 2⟩]]⟩,
  ⟨0x0, 0x0, 1, 0x54, 0, 1, [[⟨0, 24, .rw, 0⟩, ⟨24, 4, .rw, 7⟩]]⟩,
  ⟨0x0, 0x0, 1, 0x60, 0, 1, [[⟨0, 32, .rw, 0⟩], [⟨0, 32, .rw, 0⟩], [⟨0, 32, .rw, 0⟩], [⟨0, 32, .rw, 0⟩]]⟩,
  ⟨0x0, 0x0, 1, 0x70, 0, 1, [[⟨0, 32, .rw, 0⟩], [⟨0, 32, .rw, 0⟩], [⟨0, 32, .rw, 0⟩], [⟨0, 32, .rw, 0⟩]]⟩,
  ⟨0x0, 0x0, 1, 0x80, 0, 1, [[⟨0, 32, .rw, 0⟩], [⟨0, 32, .rw, 0⟩], [⟨0, 32, .rw, 0⟩], [⟨0, 32, .rw, 0⟩]]⟩,
  ⟨0x0, 0x0, 1, 0x90, 0, 1, [[⟨0, 32, .rw, 0⟩], [⟨0, 32, .rw, 0⟩], [⟨0, 32, .rw, 0⟩], [⟨0, 32, .rw, 0⟩]]⟩,
  ⟨0x0, 0x0, 1, 0xC0, 4, 16, [[⟨0, 32, .ro, 0⟩]]⟩,
  ⟨0x0, 0x0, 1, 0x100, 4, 16, [[⟨0, 32, .ro, 0⟩]]⟩,
  ⟨0x0, 0x0, 1, 0x140, 4, 16, [[⟨0, 32, .rw, 0⟩]]⟩,
  ⟨0x0, 0x0, 1, 0x180, 0, 1, [[⟨0, 32, .cnt, 0⟩], [⟨0, 32, .cnt, 0⟩]]⟩,
  ⟨0x0, 0x0, 1, 0x188, 0, 1, [[⟨0, 32, .cnt, 0⟩], [⟨0, 32, .cnt, 0⟩]]⟩,
  ⟨0x0, 0x0, 1, 0x190, 0, 1, [[⟨0, 32, .cnt, 0⟩], [⟨0, 32, .cnt, 0⟩]]⟩,
  ⟨0x0, 0x0, 1, 0x198, 0, 1, [[⟨0, 32, .cnt, 0⟩], [⟨0, 32, .cnt, 0⟩]]⟩,
  ⟨0x0, 0x0, 1, 0x1A0, 0, 1, [[⟨0, 32, .cnt, 0⟩], [⟨0, 32, .cnt, 0⟩]]⟩,
  ⟨0x0, 0x0, 1, 0x1A8, 0, 1, [[⟨0, 32, .cnt, 0⟩], [⟨0, 32, .cnt, 0⟩]]⟩,
  ⟨0x0, 0x0, 1, 0x1C0, 4, 16, [[⟨0, 32, .rw, 0⟩]]⟩]

def rows30 : List RegRow := [
  ⟨0x0, 0x0, 1, 0x40, 0, 1, [[⟨0, 32, .cnt, 0⟩], [⟨0, 32, .cnt, 0⟩]]⟩,
  ⟨0x0, 0x0, 1, 0x48, 0, 1, [[⟨0, 32, .cnt, 0⟩], [⟨0, 32, .cnt, 0⟩]]⟩,
  ⟨0x0, 0x0, 1, 0x50, 0, 1, [[⟨0, 32, .cnt, 0⟩], [⟨0, 32, .cnt, 0⟩]]⟩]

def rows31 : List RegRow := [
  ⟨0x0, 0x0, 1, 0x40, 0, 1, [[⟨0, 1, .rw, 0⟩, ⟨1, 8, .rw, 1⟩, ⟨9, 1, .rw, 1⟩, ⟨10, 1, .rw, 0⟩, ⟨11, 4, .rw, 0⟩]]⟩,
  ⟨0x0, 0x0, 1, 0x44, 0, 1, [[⟨0, 10, .rw, 0⟩, ⟨10, 1, .rw, 0⟩, ⟨11, 1, .rw, 0⟩]]⟩,
  ⟨0x0, 0x0, 1, 0x48, 0, 1, [[⟨0, 1, .wo, 0⟩, ⟨1, 1, .wo, 0⟩]]⟩,
  ⟨0x0, 0x0, 1, 0x50, 0, 1, [[⟨0, 32, .rw, 0⟩], [⟨0, 32, .rw, 0⟩], [⟨0, 32, .rw, 0⟩], [⟨0, 32, .rw, 0⟩]]⟩,
  ⟨0x0, 0x0, 1, 0x80, 0, 1, [[⟨0, 32, .cnt, 0⟩], [⟨0, 32, .cnt, 0⟩]]⟩,
  ⟨0x0, 0x0, 1, 0x88, 8, 7, [[⟨0, 32, .cnt, 0⟩], [⟨0, 32, .cnt, 0⟩]]⟩,
  ⟨0x0, 0x0, 1, 0xC0, 0, 1, [[⟨0, 32, .cnt, 0⟩], [⟨0, 32, .cnt, 0⟩]]⟩]

def rows32 : List RegRow := [
  ⟨0x0, 0x0, 1, 0x40, 0, 1, [[⟨0, 1, .wo, 0⟩]]⟩,
  ⟨0x0, 0x0, 1, 0x44, 0, 1, [[⟨0, 8, .ro, 0⟩, ⟨8, 1, .ro, 0⟩, ⟨12, 20, .ro, 0⟩]]⟩,
  ⟨0x0, 0x0, 1, 0x50, 0, 1, [[⟨0, 3, .wo, 0⟩, ⟨4, 3, .wo, 0⟩, ⟨8, 8, .wo, 0⟩, ⟨16, 1, .wo, 0⟩, ⟨17, 1, .wo, 0⟩]]⟩,
  ⟨0x0, 0x0, 1, 0x54, 0, 1, [[⟨0, 17, .rw, 0⟩]]⟩,
  ⟨0x0, 0x0, 1, 0x58, 0, 1, [[⟨0, 1, .ro, 0⟩, ⟨1, 3, .ro, 0⟩]]⟩,
  ⟨0x0, 0x0, 1, 0x60, 4, 16, [[⟨0, 32, .rw, 0⟩]]⟩,
  ⟨0x0, 0x0, 1, 0xA0, 4, 10, [[⟨0, 32, .rw, 0⟩]]⟩,
  ⟨0x0, 0x0, 1, 0xC8, 0, 1, [[⟨0, 32, .rw, 0⟩], [⟨0, 32, .rw, 0⟩]]⟩,
  ⟨0x0, 0x0, 1, 0x100, 4, 8, [[⟨0, 2, .rw, 0⟩, ⟨2, 8, .rw, 0⟩, ⟨10, 8, .rw, 0⟩]]⟩,
  ⟨0x0, 0x0, 1, 0x120, 4, 8, [[⟨0, 6, .rw, 0⟩, ⟨6, 7, .rw, 0⟩]]⟩,
  ⟨0x0, 0x0, 1, 0x180, 0, 1, [[⟨0, 32, .cnt, 0⟩], [⟨0, 32, .cnt, 0⟩]]⟩,
  ⟨0x0, 0x0, 1, 0x188, 0, 1, [[⟨0, 32, .cnt, 0⟩], [⟨0, 32, .cnt, 0⟩]]⟩,
  ⟨0x0, 0x0, 1, 0x190, 0, 1, [[⟨0, 32, .cnt, 0⟩], [⟨0, 32, .cnt, 0⟩]]⟩,
  ⟨0x0, 0x0, 1, 0x198, 0, 1, [[⟨0, 32, .cnt, 0⟩], [⟨0, 32, .cnt, 0⟩]]⟩]

def rows33 : List RegRow := [
  ⟨0x0, 0x0, 1, 0x40, 0, 1, [[⟨0, 1, .rw, 1⟩, ⟨1, 10, .rw, 200⟩, ⟨11, 11, .rw, 1500⟩]]⟩,
  ⟨0x0, 0x0, 1, 0x44, 0, 1, [[⟨0, 13, .ro, 0⟩, ⟨16, 7, .ro, 0⟩]]⟩,
  ⟨0x0, 0x0, 1, 0x80, 8, 5, [[⟨0, 32, .cnt, 0⟩], [⟨0, 32, .cnt, 0⟩]]⟩,
  ⟨0x0, 0x0, 1, 0x400, 8, 64, [[⟨0, 16, .rw, 0⟩, ⟨16, 12, .rw, 0⟩]]⟩,
  ⟨0x0, 0x0, 1, 0x404, 8, 64, [[⟨0, 2, .rw, 0⟩, ⟨2, 4, .rw, 0⟩]]⟩,
  ⟨0x0, 0x0, 1, 0x800, 16, 64, [[⟨0, 32, .cnt, 0⟩], [⟨0, 32, .cnt, 0⟩]]⟩,
  ⟨0x0, 0x0, 1, 0x808, 16, 64, [[⟨0, 32, .cnt, 0⟩], [⟨0, 32, .cnt, 0⟩]]⟩]

def rows34 : List RegRow := [
  ⟨0x0, 0x0, 1, 0x40, 0, 1, [[⟨0, 1, .rw, 0⟩, ⟨1, 1, .rw, 0⟩]]⟩,
  ⟨0x0, 0x0, 1, 0x44, 0, 1, [[⟨0, 1, .ro, 0⟩, ⟨1, 1, .ro, 0⟩, ⟨2, 1, .ro, 0⟩, ⟨3, 1, .ro, 0⟩, ⟨4, 1, .ro, 0⟩]]⟩,
  ⟨0x0, 0x0, 1, 0x48, 0, 1, [[⟨0, 32, .ro, 0⟩]]⟩,
  ⟨0x0, 0x0, 1, 0x4C, 0, 1, [[⟨0, 32, .ro, 0⟩]]⟩,
  ⟨0x0, 0x0, 1, 0x50, 0, 1, [[⟨0, 15, .rw, 0⟩, ⟨15, 1, .rw, 0⟩, ⟨16, 1, .rw, 0⟩]]⟩,
  ⟨0x0, 0x0, 1, 0x54, 0, 1, [[⟨0, 1, .wo, 0⟩, ⟨1, 1, .wo, 0⟩]]⟩,
  ⟨0x0, 0x0, 1, 0x60, 4, 8, [[⟨0, 32, .rw, 0⟩]]⟩,
  ⟨0x0, 0x0, 1, 0x80, 0, 1, [[⟨0, 10, .ro, 0⟩, ⟨16, 10, .rc, 0⟩]]⟩,
  ⟨0x0, 0x0, 1, 0x84, 0, 1, [[⟨0, 9, .ro, 0⟩, ⟨16, 9, .rc, 0⟩]]⟩,
  ⟨0x0, 0x0, 1, 0x88, 0, 1, [[⟨0, 4, .ro, 0⟩, ⟨4, 15, .ro, 0⟩, ⟨19, 6, .ro, 0⟩, ⟨25, 3, .ro, 0⟩]]⟩,
  ⟨0x0, 0x0, 1, 0x90, 0, 1, [[⟨0, 32, .ro, 0⟩], [⟨0, 32, .ro, 0⟩]]⟩,
  ⟨0x0, 0x0, 1, 0xA0, 4, 8, [[⟨0, 32, .ro, 0⟩]]⟩,
  ⟨0x0, 0x0, 1, 0xC0, 4, 8, [[⟨0, 32, .ro, 0⟩]]⟩,
  ⟨0x0, 0x0, 1, 0x108, 8, 14, [[⟨0, 32, .cnt, 0⟩], [⟨0, 32, .cnt, 0⟩]]⟩,
  ⟨0x0, 0x0, 1, 0x180, 0, 1, [[⟨0, 32, .cnt, 0⟩], [⟨0, 32, .cnt, 0⟩]]⟩,
  ⟨0x0, 0x0, 1, 0x188, 0, 1, [[⟨0, 32, .cnt, 0⟩], [⟨0, 32, .cnt, 0⟩]]⟩,
  ⟨0x0, 0x0, 1, 0x190, 0, 1, [[⟨0, 32, .cnt, 0⟩], [⟨0, 32, .cnt, 0⟩]]⟩,
  ⟨0x0, 0x0, 1, 0x198, 0, 1, [[⟨0, 32, .cnt, 0⟩], [⟨0, 32, .cnt, 0⟩]]⟩,
  ⟨0x0, 0x0, 1, 0x400, 4, 256, [[⟨0, 15, .ro, 0⟩, ⟨15, 1, .ro, 0⟩, ⟨16, 1, .ro, 0⟩]]⟩]

def rows35 : List RegRow := [
  ⟨0x0, 0x0, 1, 0x40, 0, 1, [[⟨0, 17, .ro, 0⟩]]⟩,
  ⟨0x0, 0x0, 1, 0x44, 0, 1, [[⟨0, 17, .ro, 0⟩]]⟩,
  ⟨0x0, 0x0, 1, 0x48, 0, 1, [[⟨0, 17, .ro, 0⟩]]⟩,
  ⟨0x0, 0x0, 1, 0x4C, 0, 1, [[⟨0, 7, .ro, 0⟩, ⟨16, 7, .rc, 0⟩]]⟩,
  ⟨0x0, 0x0, 1, 0x50, 0, 1, [[⟨0, 13, .rw, 0⟩, ⟨16, 4, .rw, 0⟩]]⟩,
  ⟨0x0, 0x0, 1, 0x54, 0, 1, [[⟨0, 1, .wo, 0⟩, ⟨1, 1, .wo, 0⟩, ⟨2, 1, .wo, 0⟩]]⟩,
  ⟨0x0, 0x0, 1, 0x58, 0, 1, [[⟨0, 32, .rw, 0⟩], [⟨0, 32, .rw, 0⟩]]⟩,
  ⟨0x0, 0x0, 1, 0x60, 0, 1, [[⟨0, 16, .w1c, 0⟩]]⟩,
  ⟨0x0, 0x0, 1, 0x80, 0, 1, [[⟨0, 32, .cnt, 0⟩], [⟨0, 32, .cnt, 0⟩]]⟩,
  ⟨0x0, 0x0, 1, 0x88, 0, 1, [[⟨0, 32, .cnt, 0⟩], [⟨0, 32, .cnt, 0⟩]]⟩,
  ⟨0x0, 0x0, 1, 0x90, 0, 1, [[⟨0, 32, .cnt, 0⟩], [⟨0, 32, .cnt, 0⟩]]⟩,
  ⟨0x0, 0x0, 1, 0x98, 0, 1, [[⟨0, 32, .cnt, 0⟩], [⟨0, 32, .cnt, 0⟩]]⟩,
  ⟨0x0, 0x0, 1, 0xA0, 0, 1, [[⟨0, 32, .cnt, 0⟩], [⟨0, 32, .cnt, 0⟩]]⟩,
  ⟨0x0, 0x0, 1, 0xA8, 0, 1, [[⟨0, 32, .cnt, 0⟩], [⟨0, 32, .cnt, 0⟩]]⟩,
  ⟨0x0, 0x0, 1, 0xB0, 0, 1, [[⟨0, 32, .cnt, 0⟩], [⟨0, 32, .cnt, 0⟩]]⟩]

def rows40 : List RegRow := [
  ⟨0x0, 0x0, 1, 0x40, 0, 1, [[⟨0, 1, .rw, 1⟩, ⟨1, 1, .rw, 1⟩, ⟨2, 1, .rw, 1⟩]]⟩,
  ⟨0x0, 0x0, 1, 0x44, 0, 1, [[⟨0, 1, .ro, 0⟩, ⟨1, 2, .ro, 0⟩, ⟨3, 1, .ro, 0⟩, ⟨4, 1, .ro, 0⟩, ⟨8, 8, .ro, 0⟩]]⟩,
  ⟨0x0, 0x0, 1, 0x48, 0, 1, [[⟨0, 1, .wo, 0⟩, ⟨1, 1, .wo, 0⟩, ⟨16, 16, .rw, 10⟩]]⟩,
  ⟨0x0, 0x0, 1, 0x4C, 0, 1, [[⟨0, 8, .rw, 64⟩, ⟨8, 6, .rw, 32⟩, ⟨14, 6, .rw, 8⟩]]⟩,
  ⟨0x0, 0x0, 1, 0x50, 0, 1, [[⟨0, 7, .rw, 24⟩, ⟨8, 7, .rw, 8⟩]]⟩,
  ⟨0x0, 0x0, 1, 0x54, 0, 1, [[⟨0, 20, .ro, 0⟩]]⟩,
  ⟨0x0, 0x0, 1, 0x60, 0, 1, [[⟨0, 31, .ro, 0⟩, ⟨31, 1, .w1c, 0⟩]]⟩,
  ⟨0x0, 0x0, 1, 0x64, 0, 1, [[⟨0, 16, .ro, 0⟩, ⟨16, 2, .ro, 0⟩, ⟨18, 5, .ro, 0⟩, ⟨23, 1, .ro, 0⟩, ⟨24, 7, .ro, 0⟩]]⟩,
  ⟨0x0, 0x0, 1, 0x80, 4, 21, [[⟨0, 16, .rw, 0⟩, ⟨16, 3, .rw, 0⟩, ⟨19, 2, .rw, 0⟩, ⟨21, 11, .rw, 0⟩]]⟩,
  ⟨0x0, 0x0, 1, 0x100, 0, 1, [[⟨0, 32, .cnt, 0⟩], [⟨0, 32, .cnt, 0⟩]]⟩,
  ⟨0x0, 0x0, 1, 0x108, 0, 1, [[⟨0, 32, .cnt, 0⟩], [⟨0, 32, .cnt, 0⟩]]⟩,
  ⟨0x0, 0x0, 1, 0x110, 0, 1, [[⟨0, 32, .cnt, 0⟩], [⟨0, 32, .cnt, 0⟩]]⟩,
  ⟨0x0, 0x0, 1, 0x118, 0, 1, [[⟨0, 32, .cnt, 0⟩], [⟨0, 32, .cnt, 0⟩]]⟩,
  ⟨0x0, 0x0, 1, 0x120, 0, 1, [[⟨0, 32, .cnt, 0⟩], [⟨0, 32, .cnt, 0⟩]]⟩,
  ⟨0x0, 0x0, 1, 0x128, 0, 1, [[⟨0, 32, .cnt, 0⟩], [⟨0, 32, .cnt, 0⟩]]⟩,
  ⟨0x0, 0x0, 1, 0x200, 8, 21, [[⟨0, 32, .cnt, 0⟩], [⟨0, 32, .cnt, 0⟩]]⟩,
  ⟨0x0, 0x0, 1, 0x400, 4, 20, [[⟨0, 7, .ro, 0⟩, ⟨8, 7, .ro, 0⟩, ⟨16, 7, .ro, 0⟩, ⟨24, 7, .ro, 0⟩]]⟩,
  ⟨0x0, 0x0, 1, 0x480, 4, 20, [[⟨0, 8, .ro, 0⟩, ⟨8, 8, .ro, 0⟩]]⟩]

def rows41 : List RegRow := [
  ⟨0x0, 0x0, 1, 0x40, 0, 1, [[⟨0, 1, .rw, 0⟩]]⟩,
  ⟨0x0, 0x0, 1, 0x44, 0, 1, [[⟨0, 4, .wo, 0⟩, ⟨4, 3, .wo, 0⟩]]⟩,
  ⟨0x0, 0x0, 1, 0x48, 0, 1, [[⟨0, 26, .rw, 0⟩]]⟩,
  ⟨0x0, 0x0, 1, 0x4C, 0, 1, [[⟨0, 1, .ro, 0⟩, ⟨1, 3, .ro, 0⟩]]⟩,
  ⟨0x0, 0x0, 1, 0x50, 0, 1, [[⟨0, 27, .ro, 67108864⟩]]⟩,
  ⟨0x0, 0x0, 1, 0x54, 0, 1, [[⟨0, 13, .ro, 0⟩, ⟨16, 13, .rc, 0⟩]]⟩,
  ⟨0x0, 0x0, 1, 0x58, 0, 1, [[⟨0, 1, .ro, 0⟩]]⟩,
  ⟨0x0, 0x0, 1, 0x60, 0, 1, [[⟨0, 32, .cnt, 0⟩], [⟨0, 32, .cnt, 0⟩]]⟩,
  ⟨0x0, 0x0, 1, 0x68, 0, 1, [[⟨0, 32, .cnt, 0⟩], [⟨0, 32, .cnt, 0⟩]]⟩,
  ⟨0x0, 0x0, 1, 0x70, 0, 1, [[⟨0, 32, .cnt, 0⟩], [⟨0, 32, .cnt, 0⟩]]⟩,
  ⟨0x0, 0x0, 1, 0x78, 0, 1, [[⟨0, 32, .cnt, 0⟩], [⟨0, 32, .cnt, 0⟩]]⟩,
  ⟨0x0, 0x0, 1, 0x80, 4, 32, [[⟨0, 32, .rw, 0⟩]]⟩,
  ⟨0x0, 0x0, 1, 0x100, 8, 16, [[⟨0, 1, .rw, 0⟩, ⟨1, 6, .rw, 0⟩, ⟨7, 1, .rw, 0⟩, ⟨8, 1, .rw, 0⟩, ⟨9, 1, .rw, 0⟩, ⟨10, 1, .rw, 0⟩, ⟨11, 1, .rw, 1⟩, ⟨12, 1, .rw, 0⟩]]⟩,
  ⟨0x0, 0x0, 1, 0x104, 8, 16, [[⟨0, 16, .rw, 0⟩, ⟨16, 8, .rw, 0⟩, ⟨24, 5, .rw, 10⟩]]⟩,
  ⟨0x0, 0x0, 1, 0x180, 0, 1, [[⟨0, 4, .rw, 0⟩]]⟩]

def rows42 : List RegRow := [
  ⟨0x400, 0x10, 128, 0x0, 0, 1, [[⟨0, 32, .rw, 0⟩]]⟩,
  ⟨0x400, 0x10, 128, 0x4, 0, 1, [[⟨0, 32, .rw, 0⟩]]⟩,
  ⟨0x400, 0x10, 128, 0x8, 0, 1, [[⟨0, 32, .rw, 0⟩]]⟩,
  ⟨0x400, 0x10, 128, 0xC, 0, 1, [[⟨0, 32, .ro, 0⟩]]⟩]

def rows50 : List RegRow := [
  ⟨0x0, 0x0, 1, 0x40, 0, 1, [[⟨0, 3, .rw, 0⟩, ⟨3, 1, .rw, 0⟩, ⟨4, 3, .rw, 0⟩, ⟨7, 1, .rw, 0⟩]]⟩,
  ⟨0x0, 0x0, 1, 0x44, 0, 1, [[⟨0, 8, .rw, 255⟩]]⟩,
  ⟨0x0, 0x0, 1, 0x48, 0, 1, [[⟨0, 8, .ro, 0⟩, ⟨8, 8, .w1c, 0⟩]]⟩,
  ⟨0x0, 0x0, 1, 0x4C, 0, 1, [[⟨0, 8, .rw, 64⟩]]⟩,
  ⟨0x0, 0x0, 1, 0x50, 0, 1, [[⟨0, 20, .ro, 0⟩, ⟨20, 1, .ro, 0⟩]]⟩,
  ⟨0x0, 0x0, 1, 0x54, 0, 1, [[⟨0, 20, .rw, 0⟩]]⟩,
  ⟨0x0, 0x0, 1, 0x58, 0, 1, [[⟨0, 20, .rw, 0⟩]]⟩,
  ⟨0x0, 0x0, 1, 0x5C, 0, 1, [[⟨0, 32, .rw, 1⟩]]⟩,
  ⟨0x0, 0x0, 1, 0x60, 4, 8, [[⟨0, 20, .rw, 0⟩]]⟩,
  ⟨0x0, 0x0, 1, 0x80, 0, 1, [[⟨0, 20, .ro, 589824⟩]]⟩,
  ⟨0x120, 0x20, 15, 0x0, 0, 1, [[⟨0, 20, .rw, 0⟩, ⟨20, 8, .rw, 0⟩]]⟩,
  ⟨0x120, 0x20, 15, 0x4, 0, 1, [[⟨0, 20, .rw, 0⟩]]⟩,
  ⟨0x120, 0x20, 15, 0x8, 0, 1, [[⟨0, 20, .rw, 0⟩, ⟨20, 8, .rw, 0⟩]]⟩,
  ⟨0x120, 0x20, 15, 0xC, 0, 1, [[⟨0, 20, .rw, 0⟩]]⟩,
  ⟨0x120, 0x20, 15, 0x10, 0, 1, [[⟨0, 20, .rw, 0⟩, ⟨20, 8, .rw, 0⟩]]⟩,
  ⟨0x120, 0x20, 15, 0x14, 0, 1, [[⟨0, 20, .rw, 0⟩]]⟩,
  ⟨0x120, 0x20, 15, 0x18, 0, 1, [[⟨0, 4, .rw, 0⟩]]⟩,
  ⟨0x0, 0x0, 1, 0x300, 0, 1, [[⟨0, 32, .cnt, 0⟩], [⟨0, 32, .cnt, 0⟩]]⟩,
  ⟨0x0, 0x0, 1, 0x308, 0, 1, [[⟨0, 32, .cnt, 0⟩], [⟨0, 32, .cnt, 0⟩]]⟩,
  ⟨0x0, 0x0, 1, 0x310, 0, 1, [[⟨0, 32, .cnt, 0⟩], [⟨0, 32, .cnt, 0⟩]]⟩,
  ⟨0x0, 0x0, 1, 0x318, 0, 1, [[⟨0, 32, .cnt, 0⟩], [⟨0, 32, .cnt, 0⟩]]⟩,
  ⟨0x0, 0x0, 1, 0x320, 8, 8, [[⟨0, 32, .cnt, 0⟩], [⟨0, 32, .cnt, 0⟩]]⟩]

def rows51 : List RegRow := [
  ⟨0x0, 0x0, 1, 0x40, 0, 1, [[⟨0, 16, .rw, 0⟩]]⟩,
  ⟨0x0, 0x0, 1, 0x44, 0, 1, [[⟨0, 1, .wo, 0⟩, ⟨1, 1, .wo, 0⟩]]⟩,
  ⟨0x0, 0x0, 1, 0x48, 0, 1, [[⟨0, 1, .ro, 0⟩]]⟩,
  ⟨0x0, 0x0, 1, 0x60, 4, 8, [[⟨0, 32, .rw, 0⟩]]⟩,
  ⟨0x0, 0x0, 1, 0x80, 0, 1, [[⟨0, 1, .rw, 0⟩, ⟨1, 1, .rw, 0⟩, ⟨2, 1, .rw, 0⟩]]⟩,
  ⟨0x0, 0x0, 1, 0x400, 4, 64, [[⟨0, 9, .rw, 0⟩, ⟨9, 1, .rw, 0⟩, ⟨10, 3, .rw, 0⟩, ⟨13, 8, .rw, 0⟩]]⟩]

def rows52 : List RegRow := [
  ⟨0x0, 0x0, 1, 0x40, 0, 1, [[⟨0, 8, .rc, 0⟩]]⟩,
  ⟨0x0, 0x0, 1, 0x44, 0, 1, [[⟨0, 13, .ro, 0⟩, ⟨16, 13, .rc, 0⟩]]⟩,
  ⟨0x0, 0x0, 1, 0x80, 0, 1, [[⟨0, 32, .cnt, 0⟩], [⟨0, 32, .cnt, 0⟩]]⟩,
  ⟨0x0, 0x0, 1, 0x88, 0, 1, [[⟨0, 32, .cnt, 0⟩], [⟨0, 32, .cnt, 0⟩]]⟩,
  ⟨0x0, 0x0, 1, 0x90, 0, 1, [[⟨0, 32, .cnt, 0⟩], [⟨0, 32, .cnt, 0⟩]]⟩,
  ⟨0x0, 0x0, 1, 0x98, 0, 1, [[⟨0, 32, .cnt, 0⟩], [⟨0, 32, .cnt, 0⟩]]⟩,
  ⟨0x0, 0x0, 1, 0xA0, 0, 1, [[⟨0, 32, .cnt, 0⟩], [⟨0, 32, .cnt, 0⟩]]⟩,
  ⟨0x0, 0x0, 1, 0xA8, 0, 1, [[⟨0, 32, .cnt, 0⟩], [⟨0, 32, .cnt, 0⟩]]⟩]

def rows53 : List RegRow := [
  ⟨0x400, 0xC0, 16, 0x0, 4, 8, [[⟨0, 20, .rw, 0⟩, ⟨20, 4, .rw, 0⟩, ⟨24, 1, .rw, 0⟩]]⟩,
  ⟨0x400, 0xC0, 16, 0x20, 4, 8, [[⟨0, 20, .ro, 0⟩]]⟩,
  ⟨0x400, 0xC0, 16, 0x40, 0, 1, [[⟨0, 20, .rw, 0⟩]]⟩,
  ⟨0x400, 0xC0, 16, 0x44, 0, 1, [[⟨0, 20, .rw, 0⟩]]⟩,
  ⟨0x400, 0xC0, 16, 0x48, 0, 1, [[⟨0, 20, .rw, 0⟩]]⟩,
  ⟨0x400, 0xC0, 16, 0x4C, 0, 1, [[⟨0, 20, .rw, 0⟩]]⟩,
  ⟨0x400, 0xC0, 16, 0x50, 0, 1, [[⟨0, 10, .rw, 0⟩, ⟨16, 10, .rw, 0⟩]]⟩,
  ⟨0x400, 0xC0, 16, 0x54, 0, 1, [[⟨0, 20, .ro, 0⟩]]⟩,
  ⟨0x400, 0xC0, 16, 0x58, 0, 1, [[⟨0, 20, .ro, 0⟩]]⟩,
  ⟨0x400, 0xC0, 16, 0x5C, 0, 1, [[⟨0, 1, .ro, 0⟩, ⟨1, 1, .ro, 0⟩, ⟨2, 1, .w1c, 0⟩]]⟩,
  ⟨0x400, 0xC0, 16, 0x60, 0, 1, [[⟨0, 32, .cnt, 0⟩], [⟨0, 32, .cnt, 0⟩]]⟩,
  ⟨0x400, 0xC0, 16, 0x68, 0, 1, [[⟨0, 32, .cnt, 0⟩], [⟨0, 32, .cnt, 0⟩]]⟩,
  ⟨0x400, 0xC0, 16, 0x70, 0, 1, [[⟨0, 32, .cnt, 0⟩], [⟨0, 32, .cnt, 0⟩]]⟩,
  ⟨0x400, 0xC0, 16, 0x78, 0, 1, [[⟨0, 32, .cnt, 0⟩], [⟨0, 32, .cnt, 0⟩]]⟩,
  ⟨0x400, 0xC0, 16, 0x80, 0, 1, [[⟨0, 32, .cnt, 0⟩], [⟨0, 32, .cnt, 0⟩]]⟩,
  ⟨0x400, 0xC0, 16, 0x88, 0, 1, [[⟨0, 32, .cnt, 0⟩], [⟨0, 32, .cnt, 0⟩]]⟩,
  ⟨0x400, 0xC0, 16, 0x90, 0, 1, [[⟨0, 32, .cnt, 0⟩], [⟨0, 32, .cnt, 0⟩]]⟩,
  ⟨0x400, 0xC0, 16, 0x98, 0, 1, [[⟨0, 32, .cnt, 0⟩], [⟨0, 32, .cnt, 0⟩]]⟩,
  ⟨0x400, 0xC0, 16, 0xA0, 0, 1, [[⟨0, 32, .cnt, 0⟩], [⟨0, 32, .cnt, 0⟩]]⟩]

def rows58 : List RegRow := [
  ⟨0x0, 0x0, 1, 0x40, 0, 1, [[⟨0, 10, .rw, 0⟩]]⟩,
  ⟨0x0, 0x0, 1, 0x44, 0, 1, [[⟨0, 1, .wo, 0⟩, ⟨1, 1, .wo, 0⟩, ⟨2, 1, .wo, 0⟩, ⟨3, 1, .wo, 0⟩, ⟨4, 1, .wo, 0⟩]]⟩,
  ⟨0x0, 0x0, 1, 0x48, 0, 1, [[⟨0, 1, .ro, 0⟩]]⟩,
  ⟨0x0, 0x0, 1, 0x50, 0, 1, [[⟨0, 2, .rw, 0⟩, ⟨2, 1, .rw, 0⟩, ⟨3, 1, .rw, 0⟩, ⟨4, 1, .rw, 0⟩, ⟨5, 1, .rw, 0⟩, ⟨6, 1, .rw, 0⟩, ⟨8, 7, .rw, 0⟩]]⟩,
  ⟨0x0, 0x0, 1, 0x54, 0, 1, [[⟨0, 32, .rw, 0⟩]]⟩,
  ⟨0x0, 0x0, 1, 0x58, 0, 1, [[⟨0, 24, .rw, 0⟩]]⟩,
  ⟨0x0, 0x0, 1, 0x5C, 0, 1, [[⟨0, 32, .rw, 0⟩]]⟩,
  ⟨0x0, 0x0, 1, 0x60, 0, 1, [[⟨0, 24, .rw, 0⟩]]⟩,
  ⟨0x0, 0x0, 1, 0x64, 0, 1, [[⟨0, 32, .ro, 0⟩]]⟩,
  ⟨0x0, 0x0, 1, 0x68, 0, 1, [[⟨0, 32, .ro, 0⟩]]⟩,
  ⟨0x0, 0x0, 1, 0x70, 0, 1, [[⟨0, 32, .cnt, 0⟩], [⟨0, 32, .cnt, 0⟩]]⟩,
  ⟨0x0, 0x0, 1, 0x78, 0, 1, [[⟨0, 32, .cnt, 0⟩], [⟨0, 32, .cnt, 0⟩]]⟩,
  ⟨0x0, 0x0, 1, 0x80, 0, 1, [[⟨0, 32, .cnt, 0⟩], [⟨0, 32, .cnt, 0⟩]]⟩,
  ⟨0x0, 0x0, 1, 0x88, 0, 1, [[⟨0, 32, .cnt, 0⟩], [⟨0, 32, .cnt, 0⟩]]⟩,
  ⟨0x0, 0x0, 1, 0x100, 4, 4, [[⟨0, 32, .rw, 0⟩]]⟩]

def rows59 : List RegRow := [
  ⟨0x40, 0xE0, 17, 0x0, 0, 1, [[⟨0, 32, .rw, 0⟩]]⟩,
  ⟨0x40, 0xE0, 17, 0x4, 0, 1, [[⟨0, 24, .rw, 0⟩]]⟩,
  ⟨0x40, 0xE0, 17, 0x8, 0, 1, [[⟨0, 1, .rw, 0⟩, ⟨1, 7, .rw, 20⟩]]⟩,
  ⟨0x40, 0xE0, 17, 0xC, 0, 1, [[⟨0, 32, .rw, 134480385⟩]]⟩,
  ⟨0x40, 0xE0, 17, 0x10, 0, 1, [[⟨0, 32, .rw, 2151686160⟩]]⟩,
  ⟨0x40, 0xE0, 17, 0x14, 0, 1, [[⟨0, 32, .ro, 0⟩]]⟩,
  ⟨0x40, 0xE0, 17, 0x18, 12, 8, [[⟨0, 32, .rw, 0⟩]]⟩,
  ⟨0x40, 0xE0, 17, 0x1C, 12, 8, [[⟨0, 24, .rw, 0⟩]]⟩,
  ⟨0x40, 0xE0, 17, 0x20, 0, 1, [[⟨0, 3, .rw, 0⟩, ⟨3, 8, .rw, 16⟩, ⟨11, 1, .rw, 0⟩]]⟩,
  ⟨0x40, 0xE0, 17, 0x2C, 0, 1, [[⟨0, 3, .rw, 1⟩, ⟨3, 8, .rw, 16⟩, ⟨11, 1, .rw, 0⟩]]⟩,
  ⟨0x40, 0xE0, 17, 0x38, 0, 1, [[⟨0, 3, .rw, 2⟩, ⟨3, 8, .rw, 16⟩, ⟨11, 1, .rw, 0⟩]]⟩,
  ⟨0x40, 0xE0, 17, 0x44, 0, 1, [[⟨0, 3, .rw, 3⟩, ⟨3, 8, .rw, 16⟩, ⟨11, 1, .rw, 0⟩]]⟩,
  ⟨0x40, 0xE0, 17, 0x50, 0, 1, [[⟨0, 3, .rw, 4⟩, ⟨3, 8, .rw, 16⟩, ⟨11, 1, .rw, 0⟩]]⟩,
  ⟨0x40, 0xE0, 17, 0x5C, 0, 1, [[⟨0, 3, .rw, 5⟩, ⟨3, 8, .rw, 16⟩, ⟨11, 1, .rw, 0⟩]]⟩,
  ⟨0x40, 0xE0, 17, 0x68, 0, 1, [[⟨0, 3, .rw, 6⟩, ⟨3, 8, .rw, 16⟩, ⟨11, 1, .rw, 0⟩]]⟩,
  ⟨0x40, 0xE0, 17, 0x74, 0, 1, [[⟨0, 3, .rw, 7⟩, ⟨3, 8, .rw, 16⟩, ⟨11, 1, .rw, 0⟩]]⟩,
  ⟨0x40, 0xE0, 17, 0x78, 4, 8, [[⟨0, 32, .ro, 0⟩]]⟩,
  ⟨0x40, 0xE0, 17, 0x98, 8, 8, [[⟨0, 32, .cnt, 0⟩], [⟨0, 32, .cnt, 0⟩]]⟩]

def rows60 : List RegRow := [
  ⟨0x0, 0x0, 1, 0x40, 0, 1, [[⟨0, 16, .rw, 0⟩]]⟩,
  ⟨0x0, 0x0, 1, 0x44, 0, 1, [[⟨0, 1, .wo, 0⟩, ⟨1, 1, .wo, 0⟩]]⟩,
  ⟨0x0, 0x0, 1, 0x48, 0, 1, [[⟨0, 1, .ro, 0⟩]]⟩,
  ⟨0x0, 0x0, 1, 0x4C, 0, 1, [[⟨0, 6, .rw, 0⟩]]⟩,
  ⟨0x0, 0x0, 1, 0x50, 0, 1, [[⟨0, 17, .ro, 0⟩]]⟩,
  ⟨0x0, 0x0, 1, 0x54, 0, 1, [[⟨0, 17, .rc, 0⟩]]⟩,
  ⟨0x0, 0x0, 1, 0x80, 0, 1, [[⟨0, 32, .cnt, 0⟩], [⟨0, 32, .cnt, 0⟩]]⟩,
  ⟨0x0, 0x0, 1, 0x88, 0, 1, [[⟨0, 32, .cnt, 0⟩], [⟨0, 32, .cnt, 0⟩]]⟩,
  ⟨0x0, 0x0, 1, 0x90, 0, 1, [[⟨0, 32, .cnt, 0⟩], [⟨0, 32, .cnt, 0⟩]]⟩,
  ⟨0x0, 0x0, 1, 0x98, 0, 1, [[⟨0, 32, .cnt, 0⟩], [⟨0, 32, .cnt, 0⟩]]⟩,
  ⟨0x0, 0x0, 1, 0xA0, 0, 1, [[⟨0, 32, .cnt, 0⟩], [⟨0, 32, .cnt, 0⟩]]⟩,
  ⟨0x0, 0x0, 1, 0x100, 16, 64, [[⟨0, 32, .rw, 0⟩]]⟩,
  ⟨0x0, 0x0, 1, 0x104, 16, 64, [[⟨0, 3, .rw, 0⟩, ⟨3, 1, .rw, 0⟩, ⟨16, 12, .rw, 250⟩]]⟩,
  ⟨0x0, 0x0, 1, 0x800, 8, 9, [[⟨0, 32, .cnt, 0⟩], [⟨0, 32, .cnt, 0⟩]]⟩]

def rows62 : List RegRow := [
  ⟨0x100, 0x400, 2, 0x0, 0, 1, [[⟨0, 1, .rw, 0⟩, ⟨1, 1, .rw, 0⟩, ⟨2, 3, .rw, 0⟩, ⟨16, 8, .rw, 0⟩]]⟩,
  ⟨0x100, 0x400, 2, 0x4, 0, 1, [[⟨0, 12, .rw, 25⟩]]⟩,
  ⟨0x100, 0x400, 2, 0x8, 0, 1, [[⟨0, 15, .ro, 0⟩, ⟨15, 1, .w1c, 0⟩, ⟨16, 15, .rc, 0⟩]]⟩,
  ⟨0x100, 0x400, 2, 0x10, 0, 1, [[⟨0, 32, .ro, 0⟩], [⟨0, 32, .ro, 0⟩]]⟩,
  ⟨0x100, 0x400, 2, 0x20, 0, 1, [[⟨0, 32, .cnt, 0⟩], [⟨0, 32, .cnt, 0⟩]]⟩,
  ⟨0x100, 0x400, 2, 0x28, 0, 1, [[⟨0, 32, .cnt, 0⟩], [⟨0, 32, .cnt, 0⟩]]⟩,
  ⟨0x100, 0x400, 2, 0x30, 0, 1, [[⟨0, 32, .cnt, 0⟩], [⟨0, 32, .cnt, 0⟩]]⟩,
  ⟨0x100, 0x400, 2, 0x38, 0, 1, [[⟨0, 32, .cnt, 0⟩], [⟨0, 32, .cnt, 0⟩]]⟩,
  ⟨0x100, 0x400, 2, 0x40, 0, 1, [[⟨0, 32, .cnt, 0⟩], [⟨0, 32, .cnt, 0⟩]]⟩,
  ⟨0x100, 0x400, 2, 0x48, 0, 1, [[⟨0, 32, .cnt, 0⟩], [⟨0, 32, .cnt, 0⟩]]⟩,
  ⟨0x100, 0x400, 2, 0x50, 0, 1, [[⟨0, 32, .cnt, 0⟩], [⟨0, 32, .cnt, 0⟩]]⟩,
  ⟨0x100, 0x400, 2, 0x58, 0, 1, [[⟨0, 32, .cnt, 0⟩], [⟨0, 32, .cnt, 0⟩]]⟩,
  ⟨0x100, 0x400, 2, 0x60, 0, 1, [[⟨0, 32, .cnt, 0⟩], [⟨0, 32, .cnt, 0⟩]]⟩]

def rows70 : List RegRow := [
  ⟨0x0, 0x0, 1, 0x40, 0, 1, [[⟨0, 1, .rw, 0⟩, ⟨1, 11, .rw, 1024⟩]]⟩,
  ⟨0x0, 0x0, 1, 0x44, 0, 1, [[⟨0, 32, .rw, 4294967295⟩]]⟩,
  ⟨0x0, 0x0, 1, 0x48, 0, 1, [[⟨0, 16, .rw, 1⟩]]⟩,
  ⟨0x0, 0x0, 1, 0x4C, 0, 1, [[⟨0, 1, .w1s, 0⟩]]⟩,
  ⟨0x0, 0x0, 1, 0x50, 0, 1, [[⟨0, 32, .rw, 0⟩], [⟨0, 32, .rw, 0⟩]]⟩,
  ⟨0x0, 0x0, 1, 0x60, 0, 1, [[⟨0, 32, .cnt, 0⟩], [⟨0, 32, .cnt, 0⟩]]⟩,
  ⟨0x0, 0x0, 1, 0x68, 0, 1, [[⟨0, 32, .cnt, 0⟩], [⟨0, 32, .cnt, 0⟩]]⟩,
  ⟨0x0, 0x0, 1, 0x70, 0, 1, [[⟨0, 32, .cnt, 0⟩], [⟨0, 32, .cnt, 0⟩]]⟩,
  ⟨0x0, 0x0, 1, 0x78, 0, 1, [[⟨0, 32, .cnt, 0⟩], [⟨0, 32, .cnt, 0⟩]]⟩,
  ⟨0x0, 0x0, 1, 0x100, 4, 32, [[⟨0, 11, .ro, 0⟩, ⟨16, 11, .rc, 0⟩]]⟩,
  ⟨0x0, 0x0, 1, 0x200, 16, 32, [[⟨0, 32, .rc, 0⟩]]⟩,
  ⟨0x0, 0x0, 1, 0x208, 16, 32, [[⟨0, 32, .cnt, 0⟩], [⟨0, 32, .cnt, 0⟩]]⟩,
  ⟨0x0, 0x0, 1, 0x400, 8, 32, [[⟨0, 32, .cnt, 0⟩], [⟨0, 32, .cnt, 0⟩]]⟩,
  ⟨0x0, 0x0, 1, 0x600, 16, 16, [[⟨0, 10, .ro, 0⟩, ⟨10, 5, .ro, 0⟩, ⟨15, 1, .ro, 0⟩, ⟨16, 10, .ro, 0⟩, ⟨26, 1, .ro, 0⟩, ⟨27, 1, .ro, 1⟩]]⟩,
  ⟨0x0, 0x0, 1, 0x608, 16, 16, [[⟨0, 32, .cnt, 0⟩], [⟨0, 32, .cnt, 0⟩]]⟩]

def rows71 : List RegRow := [
  ⟨0x0, 0x0, 1, 0x40, 0, 1, [[⟨0, 10, .rw, 0⟩]]⟩,
  ⟨0x0, 0x0, 1, 0x44, 0, 1, [[⟨0, 5, .rw, 0⟩, ⟨5, 1, .rw, 0⟩, ⟨16, 16, .rw, 65535⟩]]⟩,
  ⟨0x0, 0x0, 1, 0x48, 0, 1, [[⟨0, 3, .ro, 0⟩, ⟨3, 4, .ro, 0⟩, ⟨7, 1, .ro, 0⟩, ⟨8, 1, .ro, 0⟩]]⟩,
  ⟨0x0, 0x0, 1, 0x50, 0, 1, [[⟨0, 32, .ro, 0⟩], [⟨0, 32, .ro, 0⟩]]⟩,
  ⟨0x0, 0x0, 1, 0x58, 0, 1, [[⟨0, 32, .ro, 0⟩]]⟩,
  ⟨0x0, 0x0, 1, 0x60, 0, 1, [[⟨0, 10, .wo, 0⟩, ⟨10, 2, .wo, 0⟩, ⟨12, 20, .wo, 0⟩]]⟩,
  ⟨0x0, 0x0, 1, 0x64, 0, 1, [[⟨0, 3, .ro, 0⟩, ⟨3, 1, .ro, 0⟩]]⟩]

def rows72 : List RegRow := [
  ⟨0x100, 0x20, 16, 0x0, 0, 1, [[⟨0, 32, .rw, 0⟩], [⟨0, 8, .rw, 0⟩]]⟩,
  ⟨0x100, 0x20, 16, 0x8, 0, 1, [[⟨0, 1, .rw, 0⟩, ⟨1, 4, .rw, 0⟩, ⟨5, 3, .rw, 3⟩, ⟨8, 10, .rw, 0⟩]]⟩,
  ⟨0x100, 0x20, 16, 0xC, 0, 1, [[⟨0, 32, .ro, 0⟩]]⟩,
  ⟨0x100, 0x20, 16, 0x10, 0, 1, [[⟨0, 32, .rw, 0⟩]]⟩,
  ⟨0x100, 0x20, 16, 0x18, 0, 1, [[⟨0, 32, .cnt, 0⟩], [⟨0, 32, .cnt, 0⟩]]⟩,
  ⟨0x0, 0x0, 1, 0x400, 8, 16, [[⟨0, 32, .cnt, 0⟩], [⟨0, 32, .cnt, 0⟩]]⟩,
  ⟨0x0, 0x0, 1, 0x480, 8, 8, [[⟨0, 32, .cnt, 0⟩], [⟨0, 32, .cnt, 0⟩]]⟩]

/-- R401: RQ_GRANTS of port p stands at this offset + 8p of page 0x3C1. -/
abbrev R.RQG_RQ_GRANTS : Nat := 0x400

/-- The block-specific registers (offset 0x040 and above) of a page type (R579). -/
def rowsOf (ty : Nat) : List RegRow :=
  match ty with
  | 0x01 => rows01
  | 0x02 => rows02
  | 0x03 => rows03
  | 0x04 => rows04
  | 0x05 => rows05
  | 0x06 => rows06
  | 0x07 => rows07
  | 0x08 => rows08
  | 0x09 => rows09
  | 0x0A => rows0A
  | 0x10 => rows10
  | 0x11 => rows11
  | 0x12 => rows12
  | 0x13 => rows13
  | 0x14 => rows14
  | 0x15 => rows15
  | 0x16 => rows16
  | 0x17 => rows17
  | 0x20 => rows20
  | 0x21 => rows21
  | 0x22 => rows22
  | 0x30 => rows30
  | 0x31 => rows31
  | 0x32 => rows32
  | 0x33 => rows33
  | 0x34 => rows34
  | 0x35 => rows35
  | 0x40 => rows40
  | 0x41 => rows41
  | 0x42 => rows42
  | 0x50 => rows50
  | 0x51 => rows51
  | 0x52 => rows52
  | 0x53 => rows53
  | 0x58 => rows58
  | 0x59 => rows59
  | 0x60 => rows60
  | 0x62 => rows62
  | 0x70 => rows70
  | 0x71 => rows71
  | 0x72 => rows72
  | 0x61 => [⟨0x0, 0x0, 1, 0x400, 8, 256, [[⟨0, 32, .cnt, 0⟩], [⟨0, 32, .cnt, 0⟩]]⟩]  -- R401 RQ_GRANTS
  | _ => []

end Sys2Proof.Machine
end

