-- ==== Sys2Proof/Machine/Pages.lean ====
section
/-! DEFINITION. The register pages (R579): which block a page index belongs to, its events with their default classes
(R497-R500 and the chapters' event tables), and what the common page layout says of it (R581, R582). -/

namespace Sys2Proof.Machine

/-- The options of the ordering code that leave a page out (R4, R579). -/
inductive AbsentIn where
  | never | t | d | e
deriving DecidableEq, Repr

/-- A page of R579: PAGE_ID.TYPE, PAGE_ID.INSTANCE, and the option it is absent in. -/
structure PageInfo where
  type : Nat
  inst : Nat
  absentIn : AbsentIn
deriving DecidableEq, Repr

/-- One line of R579: a range of page indices one block type owns. -/
structure PageRange where
  lo : Nat
  hi : Nat
  type : Nat
  absentIn : AbsentIn
deriving DecidableEq, Repr

/-- R579, but for the pipeline pages 0x200-0x27F. -/
def pageRanges : List PageRange := [
  ⟨0x000, 0x000, 0x01, .never⟩, ⟨0x001, 0x001, 0x02, .never⟩, ⟨0x002, 0x002, 0x03, .never⟩,
  ⟨0x003, 0x003, 0x04, .never⟩, ⟨0x004, 0x004, 0x05, .never⟩, ⟨0x005, 0x005, 0x06, .never⟩,
  ⟨0x006, 0x006, 0x07, .never⟩, ⟨0x007, 0x007, 0x08, .never⟩, ⟨0x008, 0x008, 0x09, .never⟩,
  ⟨0x009, 0x009, 0x0A, .never⟩, ⟨0x010, 0x010, 0x10, .never⟩, ⟨0x011, 0x011, 0x11, .never⟩,
  ⟨0x012, 0x012, 0x12, .never⟩, ⟨0x013, 0x013, 0x13, .never⟩, ⟨0x014, 0x014, 0x14, .never⟩,
  ⟨0x015, 0x015, 0x15, .never⟩, ⟨0x016, 0x016, 0x16, .t⟩, ⟨0x017, 0x017, 0x17, .never⟩,
  ⟨0x020, 0x03F, 0x20, .never⟩, ⟨0x040, 0x13F, 0x21, .never⟩, ⟨0x140, 0x14F, 0x22, .e⟩] ++ [
  ⟨0x300, 0x30F, 0x40, .d⟩, ⟨0x340, 0x340, 0x41, .never⟩, ⟨0x341, 0x342, 0x42, .never⟩,
  ⟨0x380, 0x380, 0x50, .never⟩, ⟨0x381, 0x381, 0x51, .never⟩, ⟨0x388, 0x38F, 0x52, .never⟩,
  ⟨0x390, 0x39F, 0x53, .never⟩, ⟨0x3A0, 0x3A7, 0x58, .never⟩, ⟨0x3B0, 0x3BF, 0x59, .never⟩,
  ⟨0x3C0, 0x3C0, 0x60, .never⟩, ⟨0x3C1, 0x3C1, 0x61, .never⟩, ⟨0x3D0, 0x3DF, 0x62, .never⟩,
  ⟨0x3E0, 0x3E0, 0x70, .never⟩, ⟨0x3E1, 0x3E1, 0x71, .never⟩, ⟨0x3E2, 0x3E2, 0x72, .never⟩]

def findRange (p : Nat) : List PageRange → Option PageInfo
  | [] => none
  | r :: rs => if r.lo ≤ p ∧ p ≤ r.hi then some ⟨r.type, p - r.lo, r.absentIn⟩ else findRange p rs

/-- The block that a page index belongs to, or none for an unallocated index (R10, R579). -/
def pageInfo (p : Nat) : Option PageInfo :=
  if 0x200 ≤ p ∧ p < 0x280 then
    match p % 16 with
    | 0 => some ⟨0x30, (p - 0x200) / 16, .never⟩
    | 1 => some ⟨0x31, (p - 0x200) / 16, .never⟩
    | 2 => some ⟨0x32, (p - 0x200) / 16, .never⟩
    | 3 => some ⟨0x33, (p - 0x200) / 16, .never⟩
    | 8 => some ⟨0x34, (p - 0x200) / 16, .never⟩
    | 9 => some ⟨0x35, (p - 0x200) / 16, .never⟩
    | _ => none
  else findRange p pageRanges

/-- Event classes of R500. -/
abbrev clsINFO : Nat := 0
abbrev clsCE : Nat := 1
abbrev clsUCC : Nat := 2
abbrev clsFATAL : Nat := 3

/-- The default class of each event of a page type, bit 0 first (R500: INFO where the chapter states none). The
length is PAGE_CAP.EVENTS. -/
def evClasses (ty : Nat) : List Nat :=
  match ty with
  | 0x02 => [0, 0, 0, 0, 3, 0]
  | 0x03 => [0, 2]
  | 0x04 => [3, 3, 3, 0, 0]
  | 0x05 => [0, 0, 0, 0]
  | 0x06 => [3, 0, 0, 3, 0]
  | 0x07 => [1, 2, 1, 2, 2, 1, 2, 0, 0, 0, 0]
  | 0x08 => [0, 0, 0, 0]
  | 0x09 => [0, 0, 0, 0, 0]
  | 0x0A => [0, 0, 0]
  | 0x10 => [0, 0, 0, 0, 0, 0, 0]
  | 0x11 => [0, 0, 0, 0, 0, 0, 0, 0, 0, 0]
  | 0x14 => [0, 0, 0, 0, 0]
  | 0x15 => [1, 3, 3, 0]
  | 0x16 => [0, 0, 0, 0, 0]
  | 0x17 => [0, 0, 0]
  | 0x20 => [0, 0, 0, 0, 0, 0, 0, 0, 0, 0, 0, 0, 0, 0, 0, 0, 0, 0, 0]
  | 0x21 => [0, 0, 0, 0, 0]
  | 0x22 => [0, 0, 0, 0, 0, 0, 0, 0, 0, 0, 0, 0, 0, 0, 0, 0, 0]
  | 0x30 => [0]
  | 0x31 => [0, 0, 0, 0]
  | 0x32 => [0, 0, 0, 0, 1, 2]
  | 0x33 => [0, 0, 0]
  | 0x34 => [1, 2, 3, 0, 0, 0, 0]
  | 0x35 => [1, 2, 0, 0]
  | 0x40 => [1, 2, 3, 1, 0, 0, 2, 0, 0]
  | 0x41 => [0, 1, 2, 2, 0, 0, 0]
  | 0x50 => [1, 2, 2, 0, 0, 0, 0]
  | 0x52 => [2, 0, 0]
  | 0x58 => [0]
  | 0x59 => [0]
  | 0x60 => [0, 0, 0, 1, 2, 0]
  | 0x61 => [0]
  | 0x62 => [0, 0, 0, 0, 0, 0]
  | 0x70 => [0, 0, 1, 2, 0, 0, 0]
  | 0x72 => [0, 0, 0]
  | _ => []

/-- Level events of R498 (log entry 17: which events name a condition that persists): LATCH_HELD, HOT, TEMP_ALERT,
REFCLK_LOSS, EXPORT_STALL, LOG_FROZEN and the framer defects. -/
def isLevel (ty bit : Nat) : Bool :=
  match ty with
  | 0x06 => bit == 1 || bit == 4
  | 0x07 => bit == 7
  | 0x10 => bit == 3
  | 0x17 => bit == 0
  | 0x22 => bit < 16
  | 0x40 => bit == 7
  | _ => false

/-- The event that a wrapping 64-bit counter of the page raises: (page, bit) (R16 and the chapters' register rules). -/
def wrapEvent (page ty : Nat) : Option (Nat × Nat) :=
  match ty with
  | 0x02 => some (page, 5)
  | 0x07 => some (page, 10)
  | 0x08 => some (page, 3)
  | 0x09 => some (page, 4)
  | 0x0A => some (page, 2)
  | 0x14 => some (page, 4)
  | 0x15 => some (page, 3)
  | 0x17 => some (page, 2)
  | 0x20 => some (page, 18)
  | 0x30 => some (page, 0)
  | 0x31 => some (page, 3)
  | 0x32 => some (page, 3)
  | 0x33 => some (page, 2)
  | 0x34 => some (page, 6)
  | 0x35 => some (page, 3)
  | 0x40 => some (page, 8)
  | 0x41 => some (page, 6)
  | 0x50 => some (page, 6)
  | 0x52 => some (page, 2)
  | 0x53 => some (0x380, 6)
  | 0x58 => some (page, 0)
  | 0x59 => some (page, 0)
  | 0x60 => some (page, 5)
  | 0x61 => some (page, 0)
  | 0x62 => some (page, 5)
  | 0x70 => some (page, 6)
  | 0x72 => some (page, 2)
  | _ => none

/-- PAGE_CAP.CTRL_CAP by type (R582). -/
def ctrlCap (ty : Nat) : Bool :=
  (0x20 ≤ ty && ty ≤ 0x22) || (0x30 ≤ ty && ty ≤ 0x35) || (0x50 ≤ ty && ty ≤ 0x53) || ty == 0x58 || ty == 0x59 ||
  (0x60 ≤ ty && ty ≤ 0x62)

def wordsHaveCounter : List (List FieldSpec) → Bool
  | [] => false
  | w :: ws => w.any (fun f => f.acc == .cnt) || wordsHaveCounter ws

/-- PAGE_CAP.COUNTERS: the page holds 64-bit counters (R581). -/
def hasCounters (ty : Nat) : Bool := (rowsOf ty).any (fun r => wordsHaveCounter r.words) || ty == 0x08

/-- Source number of a page in the fault aggregator (R497). -/
def sourceOf (page : Nat) : Nat :=
  if page < 0x140 then page
  else if page < 0x150 then page - 0x140 + 320
  else if page < 0x280 then page - 0x200 + 336
  else if page < 0x310 then page - 0x300 + 464
  else if page < 0x360 then page - 0x340 + 480
  else if page < 0x3A0 then page - 0x380 + 512
  else if page < 0x3C0 then page - 0x3A0 + 544
  else if page < 0x3E0 then page - 0x3C0 + 576
  else page - 0x3E0 + 608

/-- The page of a fault source, the inverse of `sourceOf` on allocated sources (R497). -/
def pageOfSource (n : Nat) : Nat :=
  if n < 320 then n
  else if n < 336 then n - 320 + 0x140
  else if n < 464 then n - 336 + 0x200
  else if n < 480 then n - 464 + 0x300
  else if n < 512 then n - 480 + 0x340
  else if n < 544 then n - 512 + 0x380
  else if n < 576 then n - 544 + 0x3A0
  else if n < 608 then n - 576 + 0x3C0
  else n - 608 + 0x3E0

/-- The words of the register row that covers offset `o` of its page: (fields of that word). -/
def RegRow.at? (r : RegRow) (o : Nat) : Option (List FieldSpec) :=
  if o < r.base then none else
  let d := o - r.base
  let b := if r.bStride = 0 then 0 else d / r.bStride
  if r.bCount ≤ b then none else
  let d2 := d - b * r.bStride
  if d2 < r.off then none else
  let e := d2 - r.off
  let k := if r.stride = 0 then 0 else e / r.stride
  if r.count ≤ k then none else
  let w := (e - k * r.stride) / 4
  r.words[w]?

def findFields (o : Nat) : List RegRow → List FieldSpec
  | [] => []
  | r :: rs =>
    match r.at? o with
    | some f => f
    | none => findFields o rs

/-- The common page layout (R581) and event extension (R499) below offset 0x040. PAGE_ID, PAGE_CAP, PAGE_STATE,
EVT_STATUS, EVT_CLASS and EVT_CLASS_HI are read and written by rules of their own. -/
def commonFields (o : Nat) : List FieldSpec :=
  if o = 0x000 then [⟨0, 32, .ro, 0⟩]
  else if o = 0x004 then [⟨0, 32, .ro, 0⟩]
  else if o = 0x008 then [⟨0, 1, .rw, 1⟩, ⟨1, 1, .wo, 0⟩, ⟨2, 1, .rw, 0⟩]
  else if o = 0x00C then [⟨0, 3, .ro, 0⟩]
  else if o = 0x010 then [⟨0, 32, .w1c, 0⟩]
  else if o = 0x014 then [⟨0, 32, .rw, 0⟩]
  else if o = 0x018 then [⟨0, 32, .wo, 0⟩]
  else if o = 0x01C then [⟨0, 32, .rw, 0⟩]
  else if o = 0x020 then [⟨0, 32, .rw, 0⟩]
  else if o = 0x024 ∨ o = 0x028 ∨ o = 0x02C ∨ o = 0x030 ∨ o = 0x034 then [⟨0, 32, .ro, 0⟩]
  else []

/-- Offsets of the common layout (R581, R499). -/
abbrev oPAGE_ID : Nat := 0x000
abbrev oPAGE_CAP : Nat := 0x004
abbrev oPAGE_CTRL : Nat := 0x008
abbrev oPAGE_STATE : Nat := 0x00C
abbrev oEVT_STATUS : Nat := 0x010
abbrev oEVT_ENABLE : Nat := 0x014
abbrev oEVT_INJECT : Nat := 0x018
abbrev oEVT_CLASS : Nat := 0x01C
abbrev oEVT_CLASS_HI : Nat := 0x020
abbrev oEVT_CAUSE : Nat := 0x024
abbrev oEVT_TRANSIENT : Nat := 0x028
abbrev oEVT_INJECTED : Nat := 0x02C
abbrev oPAGE_PLY : Nat := 0x030

/-- The fields of the register word at offset `o` of a page of type `ty`; none listed where every bit is RSVD. -/
def fieldsAt (ty o : Nat) : List FieldSpec :=
  if o < 0x040 then commonFields o else findFields o (rowsOf ty)

/-- Two bits per class, event `k0` first (R499). -/
def packClasses : List Nat → Nat → Nat
  | [], _ => 0
  | c :: cs, sh => (c <<< sh) ||| packClasses cs (sh + 2)

def fieldsReset : List FieldSpec → Nat
  | [] => 0
  | f :: fs => (f.reset <<< f.lo) ||| fieldsReset fs

/-- The reset value of the register word at a byte address: its Reset column (R17), the default event classes (R499),
and 0 where the value is "fuse" or "boot" (log entries 2, 3). -/
def regReset (addr : Nat) : Word :=
  match pageInfo (addr / 0x1000) with
  | none => 0
  | some pi =>
    let o := addr % 0x1000
    if o = oEVT_CLASS then BitVec.ofNat 32 (packClasses ((evClasses pi.type).take 16) 0)
    else if o = oEVT_CLASS_HI then BitVec.ofNat 32 (packClasses ((evClasses pi.type).drop 16) 0)
    else BitVec.ofNat 32 (fieldsReset (fieldsAt pi.type o))

end Sys2Proof.Machine
end

