-- ==== Sys2Proof/Machine/State.lean ====
section
/-! DEFINITION. The state of the X5120 as plain data: everything the spec gives the device that a register word does
not itself hold, the register words, and the queue of waiting commands. Structures follow the chapters. -/

namespace Sys2Proof.Machine

/-! Time (chapters 01, 04). Times are counted in 1/256 ns; TT is the count since the TAI origin. -/

/-- The ply counter, the cycle within the ply, and Tally Time (R37, R38, R120). -/
structure TimeSt where
  /-- the 64-bit ply counter (R37) -/
  ply : BitVec 64 := 0
  /-- the cycle within the ply, 0-63 (R37) -/
  cycle : Nat := 0
  /-- Tally Time recorded for the last ply edge, 1/256 ns (R38) -/
  edgeTT : Nat := 0
  /-- the master counter in 2^-32 ns (R120, R123) -/
  ttAcc : Nat := 0
  /-- Tally Time of the last island tick or ply edge, 1/256 ns (R603) -/
  tickTT : Nat := 0
  /-- no ply edge has fallen since the die start (R22, R128) -/
  firstEdge : Bool := true
  /-- a kernel tick is due (R39, R44 step 8) -/
  kernelTick : Bool := false
deriving DecidableEq, Repr

/-- The result of a register access as its requester sees it (R480, R487). -/
inductive Res where
  | ok | retry | error | denied
deriving DecidableEq, Repr

/-! Faults (chapter 15). -/

/-- A FATAL occurrence (R509). -/
structure FatalOcc where
  ply : Nat
  cycle : Nat
  source : Nat
  event : Nat
  esc : Bool
  inj : Bool
deriving DecidableEq, Repr

/-- A fault log entry (R515). -/
structure LogEnt where
  ply : BitVec 64
  source : Nat
  event : Nat
  cls : Nat
  eff : Nat
  esc : Bool
  inj : Bool
  detail : BitVec 128
  seq : BitVec 32
  reserved : Bool := false
deriving DecidableEq, Repr

/-- The fault aggregator (R503-R515). -/
structure FaultSt where
  /-- highest effective class held, by 32 × page + event (R504) -/
  held : Tab Nat := []
  /-- no agent has read EVT_STATUS since the occurrence, by 32 × page + event (R506) -/
  unread : Tab Bool := []
  /-- events of page 0x011 that concerned the selected reference when they occurred (R158), one bit each -/
  refAlarm : Nat := 0
  /-- FATAL occurrences, oldest first, for the exit from DORMANT (R509) -/
  occ : List FatalOcc := []
  /-- the FATAL occurrence that contains the device at the next edge (R509) -/
  contain : Option FatalOcc := none
  /-- the log's input queue of 64 entries (R512) -/
  queue : List LogEnt := []
  /-- slots 0-255 of the log (R512) -/
  slots : Tab (Option LogEnt) := []
  /-- general slots written -/
  general : Nat := 0
  /-- reserved slots used (R513) -/
  fatalUsed : Nat := 0
  /-- the log is frozen (R513) -/
  frozen : Bool := false
  /-- entries logged and lost since power-on of the die (R515) -/
  seq : BitVec 32 := 0
deriving DecidableEq, Repr

/-! Counters and sampling (chapter 16). -/

/-- A microword or instruction that brought its sampling count to 0, and its record of 32 bytes (R530, R533). -/
structure DueSample where
  unit : Nat
  ctx : Nat
  record : BitVec 256
deriving DecidableEq, Repr

structure CountSt where
  /-- LIST_ENTRY words of the snapshot list (R521) -/
  list : Tab Word := []
  /-- SNAP_DATA: the 64-bit value of each list entry (R521) -/
  snapData : Tab DWord := []
  /-- a commanded snapshot is waiting for the edge (R522) -/
  snapReq : Bool := false
  /-- the copy of a commanded snapshot was made in this cycle (R522) -/
  snapBusy : Bool := false
  /-- a periodic snapshot's append to the sampling buffer is due (R523) -/
  periodicDue : Bool := false
  /-- the 48-bit performance counters (R526, R527) -/
  pc : Tab Nat := []
  /-- staged low words of PC_VALUE writes (R528) -/
  pcStage : Tab Word := []
  /-- staged low word of PC_CLEAR (R528) -/
  clearStage : Word := 0
  /-- sampling counts: pipelines 0-7, cores at 8-23; 0 = to be started (R530) -/
  counts : Tab Nat := []
  /-- the sampling LFSR (R530) -/
  lfsr : Word := 1
  /-- samples whose records wait for their own step (R530) -/
  due : List DueSample := []
  /-- the queue of 64 records to the buffer (R532) -/
  queue : List (BitVec 256) := []
  /-- sampling was stopped by a full ring (R532) -/
  stopped : Bool := false
  /-- the on-die buffer of D variants (R529) -/
  onDie : Tab (BitVec 256) := []
deriving DecidableEq, Repr

/-! Lanes and ports (chapters 02, 03, 04, 18). -/

/-- A lane 0-255, or 256-257 for the host packet port's own two lanes. -/
structure LaneSt where
  /-- latched time of the last alignment marker (R73, R103) -/
  tam : Nat := 0
  /-- coded bits and time difference of the preceding FlexO marker pair, its measured rate (R104) -/
  ratBits : Nat := 0
  ratTime : Nat := 0
  /-- the delays as the Tally uses them (R78, R149) -/
  rxDelay : Nat := 0
  txDelay : Nat := 0
  /-- delays delivered in this ply, in use from the next (R149) -/
  newDelay : Option (Nat × Nat) := none
  /-- a first delay has been delivered -/
  measured : Bool := false
  /-- captures carry TQ 2 until markers next lock (R149) -/
  shiftHold : Bool := false
  /-- the latch failed the check at the last edge (R145) -/
  failed : Bool := false
  /-- failed checks in this epoch (R145) -/
  failures : Nat := 0
  /-- the latch is held (R145) -/
  held : Bool := false
  /-- consecutive eye measurements below the limits (R574) -/
  eyeLow : Nat := 0
deriving DecidableEq, Repr

/-- Link states of R80, numbered as LINK_STATE. -/
inductive Link where
  | disabled | training | aligning | up | fault
deriving DecidableEq, Repr

/-- A received pause that has not yet taken hold (R86). -/
structure PauseLoad where
  prio : Nat
  quanta : Nat
  ply : Nat
deriving DecidableEq, Repr

/-- A port 0-255 (front panel or framer client), 256 (host) or 257-264 (recirculation). -/
structure PortSt where
  /-- transition requested, committed at the next ply (R80) -/
  next : Option Link := none
  /-- ply since when the conditions for UP have held (R80) -/
  holdSince : Option Nat := none
  /-- ply from which training may be retried (R80) -/
  retryAt : Option Nat := none
  /-- link training complete on KR/CR lanes -/
  trained : Bool := false
  /-- pauses loaded, not yet in force (R86) -/
  loads : List PauseLoad := []
  /-- edge at or after which priority i resumes (R87) -/
  pauseEnd : Tab Nat := []
  /-- ply + 1 since when a class is paused; 0 = not paused (R90) -/
  pausedAt : Tab Nat := []
  /-- classes whose frames the watchdog discards (R90) -/
  wdDrop : Nat := 0
  /-- a PFC frame to send for class A or B: its quanta (R89) -/
  pfcA : Option Nat := none
  pfcB : Option Nat := none
  /-- ply of the last PFC frame sent for A or B (R89) -/
  pfcLastA : Nat := 0
  pfcLastB : Nat := 0
  /-- class queues, head first (R366) -/
  queue : Tab (List Nat) := []
  /-- release queue (R366) -/
  release : List Nat := []
  /-- frames granted that have not ended, oldest first; the first may have begun (R368) -/
  granted : List Nat := []
  /-- the first granted frame has begun at the egress capture point -/
  begun : Bool := false
  /-- late even-release copies whose cause has not cleared (R396) -/
  lateWait : List Nat := []
  /-- even-release copies at the launch gate (R394) -/
  gate : List Nat := []
  /-- reservations (copy, A) posted by the Arbiter (R392, R393) -/
  resv : List (Nat × Nat) := []
  /-- DWRR deficits by class (R367) -/
  deficit : Tab Int := []
  /-- class under visit by level, plus one; 0 = none (R367) -/
  visit : Tab Nat := []
  /-- port shaper level in 1/65,536 byte; class shapers by class (R356, R363) -/
  level : Int := 0
  qLevel : Tab Int := []
deriving DecidableEq, Repr

/-! Frames (chapters 01, 06, 09). -/

/-- The capture of a frame (R29, R146, R148). -/
structure Cap where
  /-- port of first arrival -/
  port : Nat := 0
  /-- T_demarc, 1/256 ns -/
  t : Nat := 0
  /-- time quality (R143) -/
  tq : Nat := 2
  /-- lane of the reference bit -/
  lane : Nat := 0
  /-- ply of the capture -/
  ply : Nat := 0
deriving DecidableEq, Repr

/-- Where a frame or copy stands on the path of R28. -/
inductive Stage where
  | fifo | parse | classify | fragHold | dispatch | flow | flowDone | core | spraying | queued | store | released
  | granted | done
deriving DecidableEq, Repr

/-- The buffer account of a frame's cells (R326). -/
inductive Account where
  | none
  | mirror
  | host
  | recirc (p : Nat)
  | lossless (port : Nat) (b : Bool)
  | queue (port cls : Nat)
deriving DecidableEq, Repr

/-- The fields of a frame's action entry that later stages use (R215, R216). -/
structure Verdict where
  op : Nat := 0
  copy : Bool := false
  mirror : Bool := false
  session : Nat := 0
  kind : Nat := 0
  egress : Nat := 0
  cls : Nat := 0
  entry : Nat := 0
  defOp : Nat := 0
  defCopy : Bool := false
  defKind : Nat := 0
  defEgress : Nat := 0
  defCls : Nat := 0
  meterClass : Nat := 0
  policer : Option Nat := none
  /-- forward decided, by the action or the routine -/
  fwd : Bool := false
  /-- mirror by the table action or the routine -/
  doMirror : Bool := false
deriving DecidableEq, Repr

/-- A charge made under an estimated length, to be corrected (R353): which bucket, the estimate, the frame. -/
structure Estimate where
  frame : Nat
  /-- egress port and class queue whose shapers were charged; class 8 = none -/
  port : Nat
  cls : Nat
  /-- policer charged: pipeline, number, and which of its buckets (1, 2 or both as 3) -/
  policer : Option (Nat × Nat × Nat) := none
  /-- the estimated charge, and OVERHEAD as charged -/
  est : Int
  overhead : Int
  /-- true length, once the frame has ended or left -/
  actual : Option Nat := none
deriving DecidableEq, Repr

/-- A frame or copy in the device. -/
structure Frame where
  live : Bool := false
  bytes : List Byte := []
  ended : Bool := false
  trunc : Bool := false
  /-- length a mirror copy is cut to, 0 = whole (R345) -/
  cutAt : Nat := 0
  fcsGood : Bool := false
  bad : Bool := false
  /-- why it was found bad, as a drop reason (R415) -/
  badWhy : Nat := 0
  /-- port of this pass, and its ingress pipeline -/
  port : Nat := 0
  pipe : Nat := 0
  cap : Cap := {}
  stage : Stage := .fifo
  /-- ply in which the present stage was entered -/
  since : Nat := 0
  hv : List Byte := []
  /-- L3 headers of the stack: offset and kind 4 or 6 (R199, R204) -/
  l3s : List (Nat × Nat) := []
  /-- exception reasons of this pass (R232) -/
  reasons : List Nat := []
  /-- parse profile (R200), and the key of the fragmented L3 header: SRC_IP, DST_IP, L4_PROTO, FRAG_ID (R226) -/
  parseProf : Nat := 0
  fragKey : List Byte := []
  /-- the pass through stages 2 to 4 is over, and its exception has been delivered (R232) -/
  passOver : Bool := false
  delivered : Bool := false
  /-- PC and EXC_CODE of a flow-stage reason (R189), the action's index (R461) -/
  excPC : Nat := 0
  excCode : Nat := 0
  actionIdx : Nat := 0xFFFF
  /-- number of its ingress packet slot, rising (R51) -/
  slot : Nat := 0
  gen : Nat := 0
  verdict : Verdict := {}
  tblResult : Nat := 0
  colour : Nat := 0
  edit : List Byte := []
  /-- FROM_FLOW source: the bound record as committed at END (R271) -/
  record : List Byte := []
  flowIdx : Nat := 0xFFFFFFFF
  metered : Bool := false
  /-- this pass has a pending-table entry of the Tally (R404) -/
  tracked : Bool := false
  /-- the generation was captured at classification (R218) -/
  genTaken : Bool := false
  /-- the pipeline whose generation it captured (R219) -/
  genPipe : Nat := 0
  flowSeq : Nat := 0
  /-- the original frame of a copy (its pending-table entry) -/
  orig : Nat := 0
  isCopy : Bool := false
  isMirror : Bool := false
  /-- injected on the host port: bypasses parse and classification (R491) -/
  injected : Bool := false
  /-- EtherType and inject header removed from it (R491) -/
  injectHdr : List Byte := []
  /-- Tally export sequence + 1, 0 for other frames (R427) -/
  exportSeq : Nat := 0
  /-- egress port and class once admitted -/
  out : Nat := 0
  outCls : Nat := 0
  seqOut : Option Nat := none
  erGroup : Option Nat := none
  acct : Account := .none
  resv : Nat := 0
  /-- cells written: bank of each cell, oldest first (R317, R321) -/
  banks : List Nat := []
  /-- cells passed by the resequencer (R325) -/
  passed : Nat := 0
  /-- cells still to be sprayed are known up to here -/
  sprayed : Nat := 0
  cutThrough : Bool := false
  grantPly : Nat := 0
  flagLate : Bool := false
  flagTie : Bool := false
  flagReleased : Bool := false
  unmeteredMark : Bool := false
  ecnMark : Bool := false
  /-- inserted late at its sequenced output (R380) -/
  isLate : Bool := false
  /-- launch target A, release instant R and profile of an even-release copy (R391) -/
  launchA : Nat := 0
  profile : Nat := 0
  handed : Option Nat := none
  missed : Option Nat := none
  /-- Brand placement decided at egress edit: 0 none, 1 trailer, 2 header (R156) -/
  brandPlace : Nat := 0
deriving DecidableEq, Repr

/-! Switch core (chapter 09). -/

/-- A cell in flight or held: its frame, index in the frame, whether last, its stream and sequence number, its
plane. -/
structure Cell where
  frame : Nat
  idx : Nat
  last : Bool
  stream : Nat
  seq : Nat
  plane : Nat
  /-- core cycle of its arrival at the resequencer (R324) -/
  arr : Nat := 0
deriving DecidableEq, Repr

/-- A cell waiting for the sprayer (R321, R340). -/
structure SprayItem where
  frame : Nat
  idx : Nat
  last : Bool
  isCopy : Bool
deriving DecidableEq, Repr

/-- A resequencer (R323, R324). -/
structure Reseq where
  expected : Nat := 0
  held : List Cell := []
deriving DecidableEq, Repr

/-- A multicast group entry (R337). -/
structure Group where
  members : BitVec 256 := 0
  valid : Bool := false
  srcPrune : Bool := false
  evenRelease : Bool := false
deriving DecidableEq, Repr

structure CoreSt where
  /-- cells used by account and by bank -/
  bankUsed : Tab Nat := []
  mirrorUse : Nat := 0
  hostUse : Nat := 0
  recircUse : Tab Nat := []
  /-- next sequence number of each stream at the sprayer (R321) -/
  nextSeq : Tab Nat := []
  /-- plane of the cell issued last, by pipeline (R321) -/
  lastPlane : Tab Nat := []
  /-- cells waiting for the sprayer, by pipeline (R340) -/
  spray : Tab (List SprayItem) := []
  /-- cells in flight (R320) -/
  flight : List Cell := []
  /-- cells lost with a faulty plane, until declared lost (R322, R324) -/
  lost : List Cell := []
  reseq : Tab Reseq := []
  groups : Tab Group := []
  /-- a group WRITE waiting for the edge (R348) -/
  groupWrite : Option (Nat × Group) := none
  /-- WRED averages by port × 8 + class, in 1/65,536 cell (R335) -/
  avg : Tab Nat := []
  /-- LFSR of each egress pipeline; WRED_SEED was written in this ply (R335) -/
  lfsr : Tab Word := []
  seedDue : Bool := false
deriving DecidableEq, Repr

/-! Traffic manager (chapter 10). -/

/-- A policer (R355-R362): configuration words, two levels in 1/65,536, four counters. -/
structure Policer where
  ctrl : Word := 0
  cir : Word := 0
  cbs : Word := 0
  pir : Word := 0
  pbs : Word := 0
  level1 : Int := 0
  level2 : Int := 0
  green : DWord := 0
  yellow : DWord := 0
  red : DWord := 0
  redDropped : DWord := 0
  /-- levels and counters as at the last edge, as READ shows them (R373) -/
  edge1 : Int := 0
  edge2 : Int := 0
  edgeG : DWord := 0
  edgeY : DWord := 0
  edgeR : DWord := 0
  edgeD : DWord := 0
deriving DecidableEq, Repr

/-- A policer command waiting for the edge (R362, R373). -/
structure PolCmd where
  pipe : Nat
  idx : Nat
  write : Option (Word × Word × Word × Word × Word)
  resetLevels : Bool
  clear : Bool
deriving DecidableEq, Repr

structure TmSt where
  /-- by pipeline × 1,024 + policer -/
  policers : Tab Policer := []
  pend : List PolCmd := []
  estimates : List Estimate := []
  /-- last scheduling position granted, by pipeline (R368) -/
  lastPos : Tab Nat := []
  /-- grants of this cycle and ply, by pipeline (R53, R368) -/
  grantsPly : Tab Nat := []
deriving DecidableEq, Repr

/-! Arbiter (chapter 11). -/

structure ArbSt where
  /-- reorder stores by output: frames in insertion order (R378) -/
  stores : Tab (List Nat) := []
  /-- the even-release store (R392) -/
  erStore : List Nat := []
  /-- profile of each group's entry (R391, R400) -/
  erGroup : Tab Nat := []
  /-- an ER_CMD WRITE waiting for the edge (R400) -/
  erWrite : Option (Nat × Nat) := none
  /-- K_e of the current epoch (R386) -/
  key : Nat := 0
  /-- the device was in CONTAINED at the last edge (R399) -/
  contained : Bool := false
deriving DecidableEq, Repr

/-! Evidence (chapter 12). -/

/-- What became of one copy of a group frame: its port and outcome code 0 delivered, 1 delivered late, 2 dropped,
3 stomped (R339, R397, R414). -/
structure CopyOut where
  port : Nat
  out : Nat
deriving DecidableEq, Repr

/-- A pending-table entry (R406-R414). -/
structure Pend where
  cap : Cap
  pipe : Nat
  flowIdx : Nat := 0xFFFFFFFF
  flowSeq : Nat := 0
  digest : Nat := 0
  /-- the digest's bytes have been received (R407) -/
  digestReady : Bool := false
  /-- ply of classification (R414) -/
  ply : Nat
  /-- egress kind (3 = none) and number -/
  kind : Nat := 3
  egress : Nat := 0
  /-- eligible for a grant since this edge's ply, if eligible (R408) -/
  eligible : Option Nat := none
  /-- slot order within the ply of eligibility (R51, R408) -/
  slot : Nat := 0
  /-- places reserved; 0 = unreserved -/
  places : Nat := 0
  /-- outcome code and reason, once known, and the ply it became known -/
  outcome : Option (Nat × Nat) := none
  outPly : Nat := 0
  /-- copies still outstanding, and those known (R338, R414) -/
  copiesLeft : Nat := 0
  copies : List CopyOut := []
  isGroup : Bool := false
  evenRelease : Bool := false
  late : Bool := false
  tie : Bool := false
  released : Bool := false
  poisoned : Bool := false
  /-- first release point, ply + 1 (R409) -/
  withheldAt : Nat := 0
  /-- released unrecorded under MARK, or dropped for want of a reservation (R409) -/
  noRecord : Bool := false
deriving DecidableEq, Repr

/-- A completed record waiting in a pipeline's record queue: its places of 32 bytes (R416). -/
structure Rec where
  pipe : Nat
  places : List (List Byte)
  /-- places reserved for it (one more than written for a MULTICAST record of a 3-place grant) -/
  reserved : Nat
deriving DecidableEq, Repr

/-- A closed batch that is not empty (R417). -/
structure Batch where
  ply : Nat
  pipe : Nat
  count : Nat
  bytes : List Byte
deriving DecidableEq, Repr

/-- A place of the evidence tier not yet freed (R426). -/
structure Place where
  bytes : List Byte
  epoch : Nat
  /-- a header's batch, or the record's -/
  idx : Nat
deriving DecidableEq, Repr

/-- An epoch that has ended and whose record is due (R421). -/
structure EpochEnd where
  epoch : Nat
  batches : List Batch
  ttStart : Nat
  records : Nat
  worstTQ : Nat
  full : Bool
  paramEvent : Bool
  tieUsed : Bool
  dieStart : Bool
  key : Nat
  record : Bool
  /-- EVENT_COUNT at the epoch's close -/
  eventCount : Nat
  isSealed : Bool
  unrecorded : Nat
deriving DecidableEq, Repr

/-- An epoch record being signed (R423): bytes 0-127, the roots, the engine whose turn it is. -/
structure Signing where
  epoch : Nat
  head : List Byte
  roots : List Byte
  engine : Nat
deriving DecidableEq, Repr

/-- A Book slot: the epoch record and its roots, not yet freed (R426). -/
structure BookSlot where
  epoch : Nat
  record : List Byte
  roots : List Byte
deriving DecidableEq, Repr

/-- An export frame queued or sent and not yet freed (R427-R429). -/
structure Export where
  seq : Nat
  kind : Nat
  /-- tier places, Book slot or seal log entries it carries: first index and count -/
  first : Nat
  count : Nat
  queued : Bool
  sent : Bool
deriving DecidableEq, Repr

structure EvSt where
  /-- FLOW_SEQ counters by port × 16 + class (R405) -/
  flowSeq : Tab Nat := []
  pend : Tab (Option Pend) := []
  /-- record queues of the pipelines, completion order (R416) -/
  recQ : List Rec := []
  /-- places reserved or held in each pipeline's record queue (R408) -/
  queueUsed : Tab Nat := []
  /-- places of each pipeline's batch of this ply (R416) -/
  batchNow : Tab (List (List Byte)) := []
  /-- closed batches of the epoch that are not empty, newest first -/
  batches : List Batch := []
  /-- places reserved in the tier, holdback for batch headers included (R408) -/
  tierReserved : Nat := 0
  /-- index of the next tier place, and the places not yet freed -/
  tierNext : Nat := 0
  tier : Tab (Option Place) := []
  tierUsed : Nat := 0
  /-- EPOCH_BASE and the highest epoch number assigned (R128) -/
  epochBase : Nat := 0
  highest : Option Nat := none
  /-- first places of the epoch: TT of its first edge, worst TQ, flags (R420) -/
  ttStart : Nat := 0
  worstTQ : Nat := 0
  epochFull : Bool := false
  paramEvent : Bool := false
  tieUsed : Bool := false
  records : Nat := 0
  recording : Bool := false
  dieStart : Bool := true
  chainStart : Bool := true
  /-- metered frames unrecorded in this epoch, and carried from earlier ones (R409, R422) -/
  unrecorded : Nat := 0
  unrecCarry : Nat := 0
  lapsedFull : Bool := false
  sinceRecord : Nat := 0
  prev : List Byte := []
  ended : List EpochEnd := []
  signing : List Signing := []
  turn : Nat := 0
  book : Tab (Option BookSlot) := []
  bookHead : Nat := 0
  bookUsed : Nat := 0
  /-- a grant failed for space at the last edge (R408) -/
  full : Bool := false
  withholding : Bool := false
  exports : List Export := []
  exportSeq : Nat := 0
  /-- next tier place, Book slot and seal log entry to export -/
  nextPlace : Nat := 0
  nextBook : Nat := 0
  nextLog : Nat := 0
  rewindStage : Word := 0
deriving DecidableEq, Repr

/-- A seal log entry (R433). -/
structure SealEnt where
  bytes : List Byte
deriving DecidableEq, Repr

structure SealSt where
  isSealed : Bool := false
  calTol : Nat := 0
  /-- register words of sealed fields as sealed: (address, value) (R432) -/
  atSeal : List (Nat × Word) := []
  nonce : Nat := 0
  eventCount : Nat := 0
  log : Tab (List Byte) := []
  /-- entries written since the seal log began; entries freed -/
  logHead : Nat := 0
  logFreed : Nat := 0
  /-- a request under verification, and one verified and waiting for the edge: OP, CAL_TOL, digest (R431) -/
  busy : Bool := false
  waiting : Option (Nat × Nat × List Byte) := none
  result : Nat := 0
deriving DecidableEq, Repr

/-! Modes, lifecycle, boot (chapters 17, 18). -/

/-- The eight modes, numbered as MODE_STATUS.MODE (R559). -/
inductive Mode where
  | reset | boot | calibrate | live | drain | dormant | contained | diagnostic
deriving DecidableEq, Repr

/-- A mode request waiting for the edge: its target, FORCE, whether Skyline made it, and the cycle it completed in
(R562). -/
structure ModeReq where
  target : Mode
  force : Bool
  bySky : Bool := false
  cycle : Nat := 0
deriving DecidableEq, Repr

structure ModeSt where
  mode : Mode := .reset
  /-- a multi-step procedure is running (MODE_STATUS.BUSY) and its step (R567) -/
  busy : Bool := false
  step : Nat := 0
  req : Option ModeReq := none
  /-- a FATAL occurred in BOOT or CALIBRATE: the device stays in its mode until RESET (R509) -/
  stay : Bool := false
  /-- ply of entry to DRAIN; DRAIN_TIMEOUT raised (R566) -/
  drainPly : Nat := 0
  drainWarned : Bool := false
  /-- Tally Time of the edge of entry to LIVE, the age floor (R273, R564) -/
  ageFloor : Nat := 0
  /-- SR ENTER attempts by controller in this DORMANT entry (R568) -/
  srTries : Tab Nat := []
  /-- a latch calibration of this pass could not complete (R563) -/
  latchFailed : Bool := false
  /-- a requested RESET waits for LC_RESULT.BUSY to clear (R554, R570) -/
  resetWaits : Bool := false
  /-- pages idled by ENABLE and pages under SOFT_RESET wait for the edge (R582) -/
  softReset : List Nat := []
deriving DecidableEq, Repr

/-- The one-time fuses (R2, R6, R540, R541, R550, R551, R556). -/
structure FuseSt where
  sealCap : Bool := true
  hbm : Bool := true
  longHaul : Bool := true
  step : Nat := 0x10
  uid : DWord := 0
  committed : Bool := false
  returned : Bool := false
  retired : Bool := false
  /-- provisioned items: item number, value digest or key bytes (R551) -/
  items : List (Nat × List Byte) := []
  /-- spent banks of a one-time item (R551) -/
  spent : List Nat := []
  custRevoked : Nat := 0
  vendorRevoked : Nat := 0
  /-- fused SVN minimum of image kinds 1-5 (R541) -/
  svnMin : Tab Nat := []
  /-- image key, level 3 key and vendor slot hashes, as fused and masked at manufacture (R539, R540, R551) -/
  imageKey : List Byte := []
  level3Key : List Byte := []
  vendorHash : Tab (List Byte) := []
  /-- the Tally's public modulus and device certificate (R425) -/
  tallyKey : List Byte := []
  tallyCert : List Byte := []
deriving DecidableEq, Repr
/-! References (chapter 04). -/

/-- The 1PPS input (R131-R133). -/
structure PpsSt where
  /-- rising edge of the pulse now judged, and of the pulse before it, 1/256 ns -/
  rise : Option Nat := none
  prev : Option Nat := none
  /-- the input is high and its pulse not yet judged -/
  high : Bool := false
  /-- last accepted rising edge -/
  accepted : Option Nat := none
  /-- consecutive good pulses while not qualified -/
  count : Nat := 0
  /-- disqualified; PPS_OK clears at the next edge -/
  lost : Bool := false
deriving DecidableEq, Repr

/-- The ToD input (R134, R135). -/
structure TodSt where
  /-- rising edge that opened the present or last window -/
  opened : Option Nat := none
  /-- the window is open and has had no good message -/
  waiting : Bool := false
  /-- SECONDS of the previous window's message, when good -/
  prev : Option Nat := none
  /-- SECONDS of the present window's good message, and the window's rising edge -/
  last : Option (Nat × Nat) := none
  good : Nat := 0
deriving DecidableEq, Repr

/-- A frequency input (R136). -/
structure FreqSt where
  bad : Nat := 0
  good : Nat := 0
deriving DecidableEq, Repr

/-- A time-transmitter as its Announce messages describe it: the values the default comparison orders by, its port
identity, and how many of its messages have come (R138). -/
structure Foreign where
  rank : List Nat
  sender : Nat
  gm : DWord
  utc : Nat
  leap : Nat
  seen : Nat
deriving DecidableEq, Repr

/-- A PTP port of the Tally (R137-R140). -/
structure PtpSt where
  master : Option Foreign := none
  /-- last Sync: sequence, t2, correction and t1 once known -/
  syncSeq : Nat := 0
  t2 : Int := 0
  t1 : Option Int := none
  corr : Int := 0
  /-- last Delay_Req: sequence and t3 -/
  reqSeq : Option Nat := none
  t3 : Int := 0
  /-- mean path delay, 1/256 ns, once known -/
  mpd : Option Int := none
  offset : Int := 0
  syncOk : Bool := false
  respOk : Bool := false
deriving DecidableEq, Repr

structure RefSt where
  pps : PpsSt := {}
  tod : TodSt := {}
  f10m : FreqSt := {}
  synce : FreqSt := {}
  ptpA : PtpSt := {}
  ptpB : PtpSt := {}
  /-- consecutive TE measurements within TE_LIMIT, and beyond it -/
  teGood : Nat := 0
  teBad : Nat := 0
  /-- no TE measured yet against the selected reference; the first one exceeded the limit -/
  newRef : Bool := false
  firstBad : Bool := false
  /-- TE at entry to HOLDOVER in qns, TT at entry, HOLDOVER_LIMIT raised -/
  hoTE : Nat := 0
  hoStart : Nat := 0
  hoRaised : Bool := false
deriving DecidableEq, Repr

/-! Framers (chapter 03). -/

/-- An alignment candidate (R106): bit position, sightings so far, their multiframe bytes oldest first. -/
structure Candidate where
  pos : Nat
  marks : List Byte
deriving DecidableEq, Repr

/-- A FlexO instance of a framer (R106, R107). -/
structure FlexO where
  cands : List Candidate := []
  /-- position in frame -/
  pos : Nat := 0
  /-- consecutive failed checks -/
  fails : Nat := 0
  /-- last multiframe byte, and consecutive ones out of sequence -/
  mf : Byte := 0
  mfBad : Nat := 0
deriving DecidableEq, Repr

/-- Reception of one TTI (R111). -/
structure TtiSt where
  last : List Byte := []
  same : Nat := 0
  accepted : Bool := false
  /-- the 64 bytes sent in the present TTI cycle -/
  sending : List Byte := []
  /-- consecutive bad and good seconds by BIP-8 (R108) -/
  bad : Nat := 0
  good : Nat := 0
deriving DecidableEq, Repr

structure FramerSt where
  inst : Tab FlexO := []
  sm : TtiSt := {}
  pm : TtiSt := {}
  /-- backward BDI sent, downstream AIS in place of the received ODUCn, ODUCn sent: 0 client, 1 OCI, 2 LCK (R110) -/
  bdiSm : Bool := false
  bdiPm : Bool := false
  ais : Bool := false
  odu : Nat := 0
deriving DecidableEq, Repr

/-! Parsing and classification (chapter 06). -/

/-- A valid exact-match entry: its key and its 64-bit result (R210, R212). -/
structure EmEnt where
  key : List Byte
  res : DWord
deriving DecidableEq, Repr

/-- A ternary entry: key, mask and result (R211, R212). -/
structure TernEnt where
  key : List Byte := []
  mask : List Byte := []
  res : DWord := 0
deriving DecidableEq, Repr

/-- A key template: its header and its 16 operations (R207). -/
structure Template where
  header : Word := 0
  ops : List Word := []
deriving DecidableEq, Repr

/-- A spreading group: N and the members by number (R225). -/
structure Spread where
  n : Nat := 0
  members : Tab Nat := []
deriving DecidableEq, Repr

/-- A TBL_CMD whose last write waits for the edge that starts ply `hold` (R214). -/
structure TblOp where
  op : Nat
  space : Nat
  table : Nat
  bank : Nat
  bcast : Bool
  index : Nat
  key : List Word
  mask : List Word
  res : DWord
  hold : Nat
deriving DecidableEq, Repr

/-- What becomes of a first fragment, for its datagram's other fragments (R226). -/
structure FragEnt where
  key : List Byte
  fwd : Bool
  kind : Nat
  egress : Nat
  cls : Nat
  doMirror : Bool
  session : Nat
  flowIdx : Nat
  meterClass : Nat
  ply : Nat
deriving DecidableEq, Repr

/-- A delivery to a processor (R231, R461): the header's bytes 0-2 and 4-31 as known when it was raised, and the frame
bytes or the record that it carries. -/
structure Delivery where
  primary : Nat
  secondary : Nat
  pipe : Nat
  port : Nat
  gen : Nat
  tt : Nat
  flowIdx : Nat
  pc : Nat
  actionIdx : Nat
  excCode : Nat
  tq : Nat
  fcsGood : Bool
  metered : Bool
  /-- a notification carries a record and FRAME_LEN 0 -/
  isNotify : Bool
  bytes : List Byte
  queue : Nat
deriving DecidableEq, Repr

structure ClsSt where
  /-- parse graph nodes by pipeline × 256, transitions by pipeline × 1,024 (R196) -/
  nodes : Tab (BitVec 128) := []
  trans : Tab (BitVec 128) := []
  /-- exact-match pool slots by pipeline × 131,072 (R210) -/
  em : Tab (Option EmEnt) := []
  /-- by (pipeline × 2 + bank) × size + index (R209) -/
  tern : Tab TernEnt := []
  act : Tab (BitVec 128) := []
  tmpl : Tab Template := []
  /-- by (pipeline × 16 + table) × 4,096 + index -/
  par : Tab DWord := []
  /-- by pipeline × 256 + group -/
  spread : Tab Spread := []
  /-- the TBL_CMD in progress, by pipeline page -/
  cmd : Tab (Option TblOp) := []
  /-- pipelines whose accepted FLIP waits for the edge (R219) -/
  flip : List Nat := []
  /-- fragment entries by pipeline, oldest first; outcomes to store at the next edge; the fragment hold (R226, R228) -/
  frag : Tab (List FragEnt) := []
  fragDue : List (Nat × FragEnt) := []
  hold : Tab (List Nat) := []
  /-- exception buckets by pipeline × 64 + reason, in 1/65,536 packet (R233) -/
  exc : Tab Nat := []
  /-- deliveries to the control cores and to the host port, by pipeline, in the order raised (R461, R492) -/
  toCores : Tab (List Delivery) := []
  toHost : Tab (List Delivery) := []
deriving DecidableEq, Repr
/-! Microengines and flow state (chapters 05, 07). -/

/-- A request of a routine whose reply has not come (R175): its operation, KEY bytes, operands, and for FLOW_FIND and
FLOW_LEARN what the lookup found. -/
structure Req where
  op : Nat
  key : List Byte
  table : Nat
  src : DWord
  arg : Nat
  /-- the lookup missed the Deck (R182, R249) -/
  missed : Bool := false
  /-- waits for a record that another context holds bound, or a key in the pending table (R178) -/
  waiting : Bool := false
  /-- flow index of the record bound for it -/
  got : Option Nat := none
deriving DecidableEq, Repr

/-- A journal entry (R187): a FLOW store, a bucket or bin update, a counter add, or a learned insertion. -/
inductive JEnt where
  | store (off : Nat) (bytes : List Byte)
  | update (off : Nat) (bytes : List Byte)
  | add (bank idx amount : Nat)
  | learn
deriving DecidableEq, Repr

/-- A context (R162-R164). -/
structure Ctx where
  busy : Bool := false
  frame : Nat := 0
  /-- ply n of its packet's entry to the flow stage, dispatch order (R178, R182) -/
  entry : Nat := 0
  order : Nat := 0
  pc : Nat := 0
  regs : Tab DWord := []
  t : Bool := false
  z : Bool := false
  c : Bool := false
  n : Bool := false
  stack : List Nat := []
  key : List Byte := []
  scratch : List Byte := []
  metaB : List Byte := []
  journal : List JEnt := []
  /-- outstanding requests and kinds issued in this routine, by condition code of R175 -/
  reqs : Tab (Option Req) := []
  issued : Nat := 0
  /-- a FLOW_FIND or FLOW_LEARN has been issued (R177) -/
  flowAsked : Bool := false
  /-- the deadline is n + 16 (R182) -/
  missDl : Bool := false
  /-- number of its last issue within the engine (R163) -/
  last : Nat := 0
  /-- where the WAIT at its PC was first evaluated: cycle, ply, replies since, other contexts then ready (R179) -/
  waitCycle : Nat := 0
  waitPly : Nat := 0
  waitReply : Bool := false
  waitOthers : List Nat := []
  /-- the bound record's index, its bytes as bound, and whether it was learned -/
  bound : Option Nat := none
  record : List Byte := []
  learned : Bool := false
  /-- END issued: END_KIND + 1; L of the frame as at END (R260) -/
  ended : Nat := 0
  endLen : Nat := 0
deriving DecidableEq, Repr

/-- What a packet does on leaving the flow stage (R184, R186): its verdict fields, or its default action, or a drop
under R185. -/
structure FlowOut where
  kind : Nat
  verdict : Nat := 0
  egress : Nat := 0
  egKind : Nat := 0
  cls : Nat := 0
  /-- first edge at which it may leave -/
  edge : Nat := 0
deriving DecidableEq, Repr

/-- A Deck way (R247): flow index, record, and its states. -/
structure Way where
  valid : Bool := false
  idx : Nat := 0
  record : List Byte := []
  dirty : Bool := false
  pin : Bool := false
  bad : Bool := false
  /-- ply of the latest commit, and recency -/
  ply : Nat := 0
  used : Nat := 0
deriving DecidableEq, Repr

/-- A write queued for flow memory (R255, R257). -/
structure WbItem where
  pipe : Nat
  idx : Nat
  record : List Byte
  victim : Bool
deriving DecidableEq, Repr

/-- A key in the pending table (R251, R253): its table and bytes, flow index, index entry reserved, and the learning
context; none once the learn has committed. -/
structure PendKey where
  table : Nat
  key : List Byte
  idx : Nat
  slot : Nat
  ctx : Option Nat
deriving DecidableEq, Repr

/-- An FT_CMD that waits for a bound record (R277). -/
structure FtCmd where
  op : Nat
  pipe : Nat
  addr : Nat
  data : List Byte
  ply : Nat
deriving DecidableEq, Repr

structure FlowSt where
  /-- by pipeline × 512 + engine × 8 + context -/
  ctxs : Tab Ctx := []
  /-- dispatch queues of packets (R181), and dispatch order -/
  queue : Tab (List Nat) := []
  order : Nat := 0
  /-- issue and recency stamp -/
  stamp : Nat := 0
  /-- control stores by pipeline × 32,768 and × 4,096 (R191); marked words (R193): micro at their key, nano above 2^20 -/
  micro : Tab Word := []
  nano : Tab (BitVec 256) := []
  marks : List Nat := []
  /-- the UNDECODED entry (R192) -/
  undecoded : Option Nat := none
  /-- packets in the flow stage whose routine is over -/
  outs : Tab (Option FlowOut) := []
  /-- Deck ways by (pipeline × 4,096 + set) × 16 + way -/
  deck : Tab Way := []
  /-- writeback buffers by pipeline: (index, record) (R257) -/
  wbuf : Tab (List (Nat × List Byte)) := []
  wbq : List WbItem := []
  /-- residency directory: pipeline + 1 by flow index (R289) -/
  dir : Tab Nat := []
  /-- bound records: owner context + 1 by flow index (R178) -/
  bound : Tab Nat := []
  /-- records marked BAD outside a Deck (R278) -/
  bad : List Nat := []
  pend : List PendKey := []
  /-- free list: freed to the head, never allocated from `fresh` on, freed to the tail (R243, R253) -/
  freeHead : List Nat := []
  fresh : Nat := 0
  freeTail : List Nat := []
  /-- allocations of this ply (R251) -/
  learnPly : Nat := 0
  /-- records selected for writeback, by pipeline × 8 + bank (R255) -/
  sel : Tab (List Nat) := []
  /-- records aged in this ply, removed at the edge: (index, pipeline of the limiter) (R274) -/
  ageDue : List (Nat × Nat) := []
  /-- counters by (pipeline × 16 + bank) × 8,192 + index; banks to clear at the edge (R262, R282) -/
  ctr : Tab DWord := []
  ctrClear : List Nat := []
  /-- TT of insertion by flow index (R273) -/
  insTT : Tab Nat := []
  /-- change ply of each throttle profile (R266) -/
  thrPly : Tab Nat := []
  ft : Option FtCmd := none
  flushing : Bool := false
deriving DecidableEq, Repr
/-! Flow memory (chapter 08). -/

/-- A request at a controller: port, byte address, command cycle of acceptance, bytes to write, already counted LATE. -/
structure HReq where
  port : Nat
  addr : Nat
  t : Nat
  write : Option (List Byte) := none
  late : Bool := false
deriving DecidableEq, Repr

structure McSt where
  /-- queued reads in order of acceptance; requests held at their ports -/
  reads : List HReq := []
  held : List HReq := []
  /-- granules with a corrective write queued (R303) -/
  corr : List Nat := []
  /-- granules used by port in this window (R293) -/
  used : Tab Nat := []
  /-- next granule of the scrub, by local number (R301) -/
  scrub : Nat := 0
  /-- open rows by pseudo-channel × 64 + bank: row + 1, and command cycle of the last hit; refreshes postponed -/
  rows : Tab Nat := []
  rowHit : Tab Nat := []
  postponed : Tab Nat := []
  /-- delay changes that wait for a quiet cycle: (lane × 2 + write, up) (R309) -/
  moves : List (Nat × Bool) := []
  /-- sweeps that failed once, and sweeps done, by lane × 2 + write (R306, R307) -/
  failedOnce : List Nat := []
  swept : List Nat := []
  /-- an exit was asked for by SR_CTRL.EXIT (R313) -/
  byExit : Bool := false
  /-- command cycle of the last request (R313) -/
  lastReq : Nat := 0
  /-- data returned last: port, address, bytes, poison -/
  ret : Option (Nat × Nat × List Byte × Bool) := none
deriving DecidableEq, Repr

structure HbmSt where
  /-- flow memory bytes: (address, byte), rising, none equal to 0 -/
  mem : List Host.Cell := []
  /-- uncorrectable codewords by number (address ÷ 16) (R303) -/
  poison : List Nat := []
  mc : Tab McSt := []
deriving DecidableEq, Repr
/-! Control cores, dispatcher and exception rings (chapter 13). -/

/-- The states of a thread (R450). -/
inductive ThSt where
  | disabled | idle | ready | slotted | running | delayed
deriving DecidableEq, Repr

/-- A thread descriptor (R449, R468). Cycles are core cycles since the die start. -/
structure Thread where
  prio : Nat := 0
  affinity : Nat := 0xFFFF
  enable : Bool := false
  st : ThSt := .disabled
  /-- slot or running core -/
  core : Nat := 0
  rearm : Bool := false
  /-- pending delay for TD_DONE -/
  delay : Option Nat := none
  /-- due tick (R456) -/
  due : Nat := 0
  /-- cycle it became READY; its last wait (R459) -/
  readyAt : Nat := 0
  waitLast : Nat := 0
  /-- cycle + 1 of the last ready that took effect (R455) -/
  readied : Nat := 0
deriving DecidableEq, Repr

/-- The dispatcher (R449-R470). -/
structure DspSt where
  threads : Tab Thread := []
  /-- READY threads by priority, head first -/
  queues : Tab (List Nat) := []
  /-- work slot and running thread by core -/
  slot : Tab (Option Nat) := []
  run : Tab (Option Nat) := []
  /-- cores that took a thread in this ply (BUSY_PLY) -/
  took : List Nat := []
  /-- a kernel tick fell and the due threads have not entered yet (R456) -/
  expiry : Bool := false
  /-- result of the last operation by core (R447) -/
  result : Tab Nat := []
deriving DecidableEq, Repr

/-- A control core: RV64IMAC with Zicsr, machine and user modes (R441). -/
structure Hart where
  /-- x1-x31 -/
  x : Tab DWord := []
  pc : DWord := 0
  /-- machine mode, else user mode -/
  machine : Bool := true
  /-- mstatus.MIE, MPIE, MPP = M, MPRV, TW -/
  mie : Bool := false
  mpie : Bool := false
  mpp : Bool := false
  mprv : Bool := false
  tw : Bool := false
  /-- mie[16] and mie[17] (R448) -/
  workEn : Bool := false
  tickEn : Bool := false
  /-- mip[17] (R448) -/
  tick : Bool := false
  mtvec : DWord := 0
  mscratch : DWord := 0
  mepc : DWord := 0
  mcause : DWord := 0
  mtval : DWord := 0
  /-- minstret, and what mcycle adds to the core's clock cycles -/
  minstret : DWord := 0
  mcycle : DWord := 0
  /-- U_WIN0 and U_WIN1 (R447) -/
  win0 : DWord := 0
  win1 : DWord := 0
  /-- the reservation of LR: address and size -/
  resv : Option (Nat × Nat) := none
  /-- in WFI -/
  waiting : Bool := false
deriving DecidableEq, Repr

structure CoresSt where
  harts : Tab Hart := []
  /-- cores that run: started and powered (R442, R464, R465) -/
  on : List Nat := []
  /-- core-local SRAM by core × 2^18 + offset, shared SRAM by offset: none equal to 0 -/
  loc : List Host.Cell := []
  sram : List Host.Cell := []
  /-- bytes of the 128-bit words marked uncorrectable that no write has covered since, one bit each, by core × 2^14 +
  word, and 2^18 + word of shared SRAM (R445) -/
  marked : Tab Nat := []
deriving DecidableEq, Repr

/-! Boot, lifecycle, supplies (chapters 17, 18, 20) and Skyline (chapter 14). -/

/-- A lifecycle operation (R550): LC_CMD.OP and ITEM, and the staged bytes it works on. -/
structure LcOp where
  op : Nat
  item : Nat
  stage : List Byte := []
deriving DecidableEq, Repr

structure BootSt where
  /-- SVNs to be fused at entry to LIVE, by image kind (R541) -/
  advance : Tab Nat := []
  /-- start address of KERNEL (R536, R546) -/
  kernelEntry : DWord := 0
  /-- copy 0 of the kind of this step was tried and rejected (R543) -/
  copy0Failed : Bool := false
  /-- boot source read at the release: 0 flash, 1 Skyline, 2 flash with Skyline fallback (R544); 3 no image awaited -/
  src : Nat := 3
  /-- the host wrote END (R545) -/
  noMore : Bool := false
  /-- pages whose event state the last reset kept (R604) -/
  enKeep : List Nat := []
  /-- the operation written to LC_CMD last in this ply, the one at work, and one done: its RESULT -/
  lcReq : Option LcOp := none
  lcWork : Option LcOp := none
  lcDone : Option (LcOp × Nat) := none
  /-- LC_STATE.VENDOR_UNLOCKED (R553) -/
  unlocked : Bool := false
  /-- the last RESET was by power-on, ball, under-voltage or trip (R589) -/
  hard : Bool := true
deriving DecidableEq, Repr

structure ElecSt where
  /-- the Tally island has power and its start has run; its firmware runs (R548, R591) -/
  island : Bool := false
  firmware : Bool := false
  /-- digest of the firmware the Tally ran before, and its VERSION (R549) -/
  lastDigest : List Byte := []
  lastVersion : Nat := 0
  /-- guard band last acknowledged; a request awaiting its answer (R586) -/
  gbAcked : Nat := 0
  avsWait : Option Nat := none
  /-- lanes due for full re-equalization at their next TRAINING (R574) -/
  reEq : List Nat := []
  /-- Tally Time + 1 of each lane's last recalibration (R575) -/
  recalAt : Tab Nat := []
deriving DecidableEq, Repr

/-- A request in progress at the Skyline node (R485): the frame, its operation, and a RETRY was sent for it. -/
structure SkyProg where
  op : Nat
  req : SkyReq
  retried : Bool := false
deriving DecidableEq, Repr

/-- A completed request and its reply (R486): result, DONE, data words, and whether the reply carries AUTH. -/
structure SkyKept where
  level : Nat
  tag : BitVec 16
  nonce : DWord
  op : Nat
  res : Res
  data : List Word
  done : Nat
  auth : Bool
deriving DecidableEq, Repr

structure SkySt where
  bypass : Bool := true
  /-- requests in progress, oldest first -/
  prog : List SkyProg := []
  kept : List SkyKept := []
deriving DecidableEq, Repr


/-! Outputs: what the device drives to the outside, as a record the model keeps (log entry 14). -/

/-- A thing driven to the outside. -/
inductive Out where
  /-- a frame sent on a port, its bytes with FCS -/
  | frame (port : Nat) (bytes : List Byte)
  /-- a PFC frame sent: priority and quanta (R89) -/
  | pfc (port prio quanta : Nat)
  /-- a message of the Tally's PTP ports (R137) -/
  | ptp (port : Nat) (bytes : List Byte)
  /-- a Skyline reply or forwarded frame (R472, R479) -/
  | skyline (bytes : List Byte)
  /-- a voltage request on the AVS balls, 1/16 mV (R586) -/
  | avs (request : Nat)
deriving DecidableEq, Repr

/-- Reply of the last register access: result and data. -/
structure Reply where
  res : Res := .ok
  data : Word := 0
deriving DecidableEq, Repr

/-- Faults of the model: none is raised by any command (every effect the spec gives is modelled); the type is empty of
reachable uses and kept for the interface. -/
inductive Fault where
  /-- raised by no command -/
  | none
deriving DecidableEq, Repr

/-- Refusals. -/
inductive Refusal where
  /-- a command whose meaning is not written yet; safe: nothing is claimed of it -/
  | notModelled (mnemonic : String)
deriving DecidableEq, Repr

/-- The state of the device. -/
structure State where
  tm : TimeSt := {}
  /-- register words that differ from their reset value, by byte address (R579, R581) -/
  regs : Tab Word := []
  /-- register words in force since the last edge, for fields applied at the next ply (R21) -/
  eff : Tab Word := []
  /-- high-word latches by 2^24 × agent + low-word address (R16) -/
  latch : Tab Word := []
  reply : Reply := {}
  out : List Out := []
  /-- the MODEL's own field: number of the next free value (log entry 10) -/
  freeIx : Nat := 0
  flt : FaultSt := {}
  cnt : CountSt := {}
  lanes : Tab LaneSt := []
  ports : Tab PortSt := []
  frames : Tab Frame := []
  /-- number of the next frame or copy -/
  nextFrame : Nat := 1
  /-- ingress slots granted this ply by pipeline: total, and of the reserved share (R51) -/
  slots : Tab Nat := []
  slotsInternal : Tab Nat := []
  core : CoreSt := {}
  tmg : TmSt := {}
  arb : ArbSt := {}
  ev : EvSt := {}
  sl : SealSt := {}
  md : ModeSt := {}
  ref : RefSt := {}
  framers : Tab FramerSt := []
  cls : ClsSt := {}
  fl : FlowSt := {}
  hbm : HbmSt := {}
  dsp : DspSt := {}
  cores : CoresSt := {}
  boot : BootSt := {}
  elec : ElecSt := {}
  sky : SkySt := {}
  fuse : FuseSt := {}
  /-- the commands that are waiting, first in, first out -/
  pending : List Instr := []
deriving DecidableEq, Repr

/-- The device right after power-on: mode RESET, every table empty, every register at its Reset column (log entries
1-3, 13-16). -/
def State.reset : State := {}

end Sys2Proof.Machine
end

