-- ==== Sys2Proof/Machine/Tab.lean ====
section
/-! DEFINITION. The operations on sparse tables: one read, one write that keeps the canonical form (keys strictly
rising, no entry equal to what an unlisted key reads as), and what is built from them. `d` is what an unlisted key
reads as, a function of the key. -/

namespace Sys2Proof.Machine

variable {α : Type}

/-- The value of key `k`. -/
def tget (d : Nat → α) : Tab α → Nat → α
  | [], k => d k
  | e :: t, k => if k = e.1 then e.2 else tget d t k

/-- Put (k, v) in its place among rising keys. -/
def tput : Tab α → Nat → α → Tab α
  | [], k, v => [(k, v)]
  | e :: t, k, v => if k < e.1 then (k, v) :: e :: t else if k = e.1 then (k, v) :: t else e :: tput t k v

/-- Write key `k`: a value equal to the default is not listed. -/
def tset [DecidableEq α] (d : Nat → α) (t : Tab α) (k : Nat) (v : α) : Tab α :=
  if v = d k then t.filter (fun e => e.1 != k) else tput t k v

def tmod [DecidableEq α] (d : Nat → α) (t : Tab α) (k : Nat) (f : α → α) : Tab α := tset d t k (f (tget d t k))

/-- Keys strictly rising from `lo` on, no entry at its default. -/
def twfFrom [DecidableEq α] (d : Nat → α) : Nat → Tab α → Bool
  | _, [] => true
  | lo, e :: t => decide (lo ≤ e.1) && decide (e.2 ≠ d e.1) && twfFrom d (e.1 + 1) t

/-- The canonical form of a table. -/
def twf [DecidableEq α] (d : Nat → α) (t : Tab α) : Bool := twfFrom d 0 t

/-- Drop every listed key that satisfies `p` (it then reads as the default). -/
def tdropIf (p : Nat → Bool) : Tab α → Tab α
  | [] => []
  | e :: t => if p e.1 then tdropIf p t else e :: tdropIf p t

end Sys2Proof.Machine
end

