-- ==== Sys2Proof/Machine/Ops.lean ====
section
/-! DEFINITION. The named operations over the register file: reading and writing a register word or field, the value in
force of a field applied at the next ply (R21), 64-bit counters (R15, R16, R525), free values, and the fault
aggregator's one entry, an event occurrence (R498-R512). -/

namespace Sys2Proof.Machine

/-! What a command and a part of an edge leave alone. -/

/-- `t` with the queue of waiting commands and the fuses of `s`. -/
def kept (s t : State) : State := { t with fuse := s.fuse, pending := s.pending }

/-- `t` with the queue of waiting commands of `s`. -/
def keptQueue (s t : State) : State := { t with pending := s.pending }

/-- The outcome of a command: it touches neither the queue of waiting commands nor the fuses. -/
def keep (s t : State) : Host.Outcome State Fault Refusal := .next (kept s t)

/-- The outcome of the few commands that may blow fuses. -/
def keepQueue (s t : State) : Host.Outcome State Fault Refusal := .next (keptQueue s t)

/-- A part of an edge or of a reset that blows no fuse. -/
def hold (s t : State) : State := { t with fuse := s.fuse }

/-- A part of an edge that blows no fuse and leaves the ply counter and Tally Time alone. -/
def holdTime (s t : State) : State := { t with fuse := s.fuse, tm := s.tm }

/-! Registers. -/

/-- Byte address of offset 0 of a page. -/
abbrev pb (page : Nat) : Nat := page * 0x1000

/-- The register word at byte address `a`. -/
def rawRd (s : State) (a : Nat) : Word := tget regReset s.regs a

/-- The register word in force: what the last ply edge took over (R21). -/
def effRd (s : State) (a : Nat) : Word := tget regReset s.eff a

def rawWr (s : State) (a : Nat) (v : Word) : State := { s with regs := tset regReset s.regs a v }

/-- Bits [lo+width-1:lo] of a word. -/
def bitsOf (v : Word) (lo width : Nat) : Nat := (v.toNat >>> lo) % 2 ^ width

/-- `v` with bits [lo+width-1:lo] replaced by the low bits of `x`. -/
def setBits (v : Word) (lo width x : Nat) : Word :=
  let n := v.toNat
  BitVec.ofNat 32 (n - ((n >>> lo) % 2 ^ width) <<< lo + (x % 2 ^ width) <<< lo)

/-- Field `f` of the page or block at byte address `b`. -/
def fg (s : State) (b : Nat) (f : FRef) : Nat := bitsOf (rawRd s (b + f.off)) f.lo f.width

/-- The value in force of field `f` (R21). -/
def cg (s : State) (b : Nat) (f : FRef) : Nat := bitsOf (effRd s (b + f.off)) f.lo f.width

/-- Set field `f` of the page or block at byte address `b`. -/
def fs (s : State) (b : Nat) (f : FRef) (x : Nat) : State :=
  rawWr s (b + f.off) (setBits (rawRd s (b + f.off)) f.lo f.width x)

/-- Set field `f` in force as well as in the register. -/
def fsBoth (s : State) (b : Nat) (f : FRef) (x : Nat) : State :=
  let s := fs s b f x
  { s with eff := tset regReset s.eff (b + f.off) (rawRd s (b + f.off)) }

def fgb (s : State) (b : Nat) (f : FRef) : Bool := fg s b f != 0
def cgb (s : State) (b : Nat) (f : FRef) : Bool := cg s b f != 0

/-- The 64-bit value of two consecutive registers, low word first (R15). -/
def rd64 (s : State) (a : Nat) : Nat := (rawRd s a).toNat + (rawRd s (a + 4)).toNat * 2 ^ 32

def cg64 (s : State) (a : Nat) : Nat := (effRd s a).toNat + (effRd s (a + 4)).toNat * 2 ^ 32

def wr64 (s : State) (a v : Nat) : State :=
  rawWr (rawWr s a (BitVec.ofNat 32 v)) (a + 4) (BitVec.ofNat 32 (v / 2 ^ 32))

/-- Write `n` words from a list, first word at `a`. -/
def wrWords (s : State) (a : Nat) : List Word → State
  | [] => s
  | w :: ws => wrWords (rawWr s a w) (a + 4) ws

def rdWords (s : State) (a : Nat) : Nat → List Word
  | 0 => []
  | n + 1 => rawRd s a :: rdWords s (a + 4) n

/-! Free values. -/

/-- The next free value (log entry 10). -/
def free (s : State) : Nat × State := (Config.freeValue s.freeIx, { s with freeIx := s.freeIx + 1 })

/-! Presence (R4, R9). -/

/-- The unit of a page exists in this variant. -/
def presentIn (s : State) : AbsentIn → Bool
  | .never => true
  | .t => s.fuse.sealCap
  | .d => s.fuse.hbm
  | .e => s.fuse.longHaul

/-- The page is allocated and its unit exists in this variant. -/
def pagePresent (s : State) (p : Nat) : Bool :=
  match pageInfo p with
  | some pi => presentIn s pi.absentIn
  | none => false

def pageType (p : Nat) : Nat :=
  match pageInfo p with
  | some pi => pi.type
  | none => 0

/-! Event occurrences. -/

/-- Mode RESET: the die does not detect events of its forwarding blocks (R509). -/
def inReset (s : State) : Bool := s.md.mode == .reset

/-- The class of event `b` in force: a field whose default is FATAL stays 3 (R501). -/
def evClass (s : State) (page b : Nat) : Nat :=
  let w := if b < 16 then effRd s (pb page + oEVT_CLASS) else effRd s (pb page + oEVT_CLASS_HI)
  bitsOf w (2 * (b % 16)) 2

def evKey (page b : Nat) : Nat := page * 32 + b

def evStatus (s : State) (page b : Nat) : Bool := (rawRd s (pb page + oEVT_STATUS)).getLsbD b
def evEnabled (s : State) (page b : Nat) : Bool := (rawRd s (pb page + oEVT_ENABLE)).getLsbD b
def evInjected (s : State) (page b : Nat) : Bool := (rawRd s (pb page + oEVT_INJECTED)).getLsbD b

/-- Set one bit of the word at `a`. -/
def setBit (s : State) (a b : Nat) (v : Bool) : State :=
  rawWr s a (setBits (rawRd s a) b 1 (if v then 1 else 0))

/-- Add to a 64-bit counter without its wrap event. Answers whether it wrapped. -/
def addRaw (s : State) (a n : Nat) : Bool × State :=
  let v := rd64 s a + n
  (decide (2 ^ 64 ≤ v), wr64 s a (v % 2 ^ 64))

/-- The page's counters hold their values (R525). -/
def frozen (s : State) (page : Nat) : Bool := (effRd s (pb page + oPAGE_CTRL)).getLsbD 2

/-- ENABLE at 0 is in force: the block passes no frame (R582). -/
def idled (s : State) (page : Nat) : Bool :=
  s.md.mode == .diagnostic && ctrlCap (pageType page) && !(effRd s (pb page + oPAGE_CTRL)).getLsbD 0

/-- What is reported with an occurrence: its DETAIL bytes 16-31 of the log entry, as one number (R515). -/
abbrev Detail := BitVec 128

/-- Take the log entry into the input queue, or count it lost (R512). SEQ counts it either way (R515). -/
def logPush (s : State) (e : LogEnt) : State :=
  let seq := s.flt.seq + 1
  if s.flt.queue.length < 64 then
    { s with flt := { s.flt with seq := seq, queue := s.flt.queue ++ [{ e with seq := seq }] } }
  else
    let s := { s with flt := { s.flt with seq := seq } }
    let s := if frozen s 0x006 then s else (addRaw s (pb 0x006 + R.FA_LOG_LOST) 1).2
    setBit s (pb 0x006 + oEVT_STATUS) 8 true

/-- Is occurrence `x` earlier in the order of R509 and R512 than `y`: by ply, cycle, source, event. -/
def FatalOcc.before (x y : FatalOcc) : Bool :=
  if x.ply ≠ y.ply then decide (x.ply < y.ply)
  else if x.cycle ≠ y.cycle then decide (x.cycle < y.cycle)
  else if x.source ≠ y.source then decide (x.source < y.source)
  else decide (x.event < y.event)

/-- The reaction to a FATAL occurrence (R509): in LIVE, DRAIN and DIAGNOSTIC it contains the device at the next edge; in
BOOT and CALIBRATE the device stays in its mode; in every mode but RESET the occurrence is remembered while its event's
held class is FATAL. `acts` is false for an injected occurrence that INJ_CONTAIN keeps from acting (R508). -/
def fatalOccur (s : State) (o : FatalOcc) (acts : Bool) : State :=
  if inReset s then s else
  let s := { s with flt := { s.flt with occ := s.flt.occ ++ [o] } }
  if !acts then s
  else match s.md.mode with
  | .live | .drain | .diagnostic =>
    match s.flt.contain with
    | none => { s with flt := { s.flt with contain := some o } }
    | some p => if o.before p then { s with flt := { s.flt with contain := some o } } else s
  | .boot | .calibrate => { s with md := { s.md with stay := true } }
  | _ => s

/-- Event `b` of page 0x011 concerns the selected time or frequency reference (R158). -/
def concernsSelected (s : State) (b : Nat) : Bool :=
  let time := fg s (pb 0x010) F.TT_TIME_STATE_TIME_SRC
  let freq := fg s (pb 0x010) F.TT_TIME_STATE_FREQ_SRC
  if b < 4 then time == 1
  else if b = 4 then freq == 1
  else if b = 5 then freq == 2
  else if b = 6 then time == 2
  else if b = 7 then time == 3
  else true

/-- EVT_STATUS and EVT_INJECTED at an occurrence (R506, R508). -/
def occMark (s : State) (page b : Nat) (inj : Bool) : State :=
  let wasSet := evStatus s page b
  let s := setBit s (pb page + oEVT_STATUS) b true
  if inj && wasSet then s else setBit s (pb page + oEVT_INJECTED) b inj

/-- The class held for the status byte, the unread mark, the reference alarm (R158, R502, R506). -/
def occHold (s : State) (page b eff : Nat) : State :=
  let k := evKey page b
  { s with flt := { s.flt with
    held := tset (fun _ => 0) s.flt.held k (max (tget (fun _ => 0) s.flt.held k) eff),
    unread := tset (fun _ => false) s.flt.unread k true
    refAlarm := if page == 0x011 && concernsSelected s b then s.flt.refAlarm ||| 2 ^ b else s.flt.refAlarm } }

/-- ESCALATIONS and INJECTIONS (R504, R508). -/
def occCount (s : State) (on : Bool) (o : Nat) : State :=
  if on && !frozen s 0x006 then (addRaw s (pb 0x006 + o) 1).2 else s

/-- The log entry of an occurrence of class `cls`, effective `eff` (R512). -/
def occLog (s : State) (page b cls eff : Nat) (esc inj : Bool) (detail : Detail) : State :=
  if eff ≥ clsUCC || (eff == clsCE && evEnabled s page b) then
    logPush s { ply := s.tm.ply, source := sourceOf page, event := b, cls := cls, eff := eff, esc := esc, inj := inj,
                detail := detail, seq := 0 }
  else s

/-- The reaction to the occurrence, when it is FATAL (R509). -/
def occFatal (s : State) (page b eff : Nat) (esc inj : Bool) : State :=
  if eff == clsFATAL then
    fatalOccur s { ply := s.tm.ply.toNat, cycle := s.tm.cycle, source := sourceOf page, event := b, esc := esc, inj := inj }
      (!inj || fgb s (pb 0x006) F.FA_FA_CTRL_INJ_CONTAIN)
  else s

/-- The occurrence escalates: a CE or UCC event whose earlier real occurrence is not yet cleared (R504). -/
def escalates (s : State) (page b : Nat) (inj : Bool) : Bool :=
  let cls := evClass s page b
  !inj && (evStatus s page b && !evInjected s page b) && (cls == clsCE || cls == clsUCC)

/-- An occurrence of event `b` of `page` (R498-R512). `inj` marks an injected one (R508). -/
def occurrence (s : State) (page b : Nat) (inj : Bool) (detail : Detail) : State :=
  if ¬ pagePresent s page then s else
  let cls := evClass s page b
  let esc := escalates s page b inj
  let eff := if esc then cls + 1 else cls
  let s := occHold (occMark s page b inj) page b eff
  let s := occCount (occCount s esc R.FA_ESCALATIONS) inj R.FA_INJECTIONS
  let s := occLog s page b cls eff esc inj detail
  occFatal s page b eff esc inj

/-- A pulse event (R498). -/
def raise (s : State) (page b : Nat) : State := occurrence s page b false 0

def raiseD (s : State) (page b : Nat) (detail : Detail) : State := occurrence s page b false detail

/-- A level event's condition (R498, R506): its rise is an occurrence, its fall clears EVT_CAUSE and sets
EVT_TRANSIENT where no agent has read EVT_STATUS since the occurrence. -/
def setLevel (s : State) (page b : Nat) (on : Bool) : State :=
  let was := (rawRd s (pb page + oEVT_CAUSE)).getLsbD b
  if on == was then s
  else if on then raise (setBit s (pb page + oEVT_CAUSE) b true) page b
  else
    let s := setBit s (pb page + oEVT_CAUSE) b false
    if evStatus s page b && tget (fun _ => false) s.flt.unread (evKey page b) then
      setBit s (pb page + oEVT_TRANSIENT) b true
    else s

/-- Add `n` to the 64-bit counter at `a`, held while its page is frozen (R525); a wrap raises the page's
COUNTER_WRAP (R16). -/
def bumpN (s : State) (a n : Nat) : State :=
  let page := a / 0x1000
  if frozen s page then s else
  let r := addRaw s a n
  if r.1 then
    match wrapEvent page (pageType page) with
    | some (p, b) => raise r.2 p b
    | none => r.2
  else r.2

def bump (s : State) (a : Nat) : State := bumpN s a 1

/-- Keep the larger value in a "highest since the last read" field. -/
def peak (s : State) (b : Nat) (f : FRef) (v : Nat) : State := if fg s b f < v then fs s b f v else s

/-- Append to the record of what the device drives to the outside (log entry 14). -/
def emit (s : State) (o : Out) : State := { s with out := s.out ++ [o] }

/-! Bytes. -/

/-- A number as `n` bytes, most significant first (R14). -/
def beBytes : Nat → Nat → List Byte
  | 0, _ => []
  | n + 1, v => beBytes n (v / 256) ++ [BitVec.ofNat 8 v]

/-- The number that bytes spell, most significant first (R14). -/
def beNat (bs : List Byte) : Nat := bs.foldl (fun a b => a * 256 + b.toNat) 0

/-- Bytes [o, o+n) of a list; bytes beyond its end read 0. -/
def slice (bs : List Byte) (o n : Nat) : List Byte :=
  let t := (bs.drop o).take n
  t ++ List.replicate (n - t.length) 0

/-- The big-endian number in bytes [o, o+n). -/
def beAt (bs : List Byte) (o n : Nat) : Nat := beNat (slice bs o n)

/-- Replace bytes from offset `o` on by `v`. -/
def splice (bs : List Byte) (o : Nat) (v : List Byte) : List Byte :=
  bs.take o ++ v ++ bs.drop (o + v.length)

/-- The bytes of a word as a byte window shows them: byte 0 in [31:24]. -/
def wordBytes (w : Word) : List Byte := beBytes 4 w.toNat

def wordsBytes : List Word → List Byte
  | [] => []
  | w :: ws => wordBytes w ++ wordsBytes ws

/-- Bytes packed into words, byte 0 in [31:24]; the last word padded with 0. -/
def packWords : Nat → List Byte → List Word
  | 0, _ => []
  | n + 1, bs => BitVec.ofNat 32 (beAt bs 0 4) :: packWords n (bs.drop 4)

/-- A signed reading of a `w`-bit two's complement field. -/
def sext (w v : Nat) : Int := if v % 2 ^ w < 2 ^ (w - 1) then (v % 2 ^ w : Nat) else ((v % 2 ^ w : Nat) : Int) - (2 ^ w : Nat)

/-- The low `w` bits of an integer in two's complement. -/
def trunc (w : Nat) (v : Int) : Nat := (v % (2 ^ w : Nat)).toNat

/-- Every element of 0 .. n-1, folded in rising order. -/
def upTo (n : Nat) (f : State → Nat → State) (s : State) : State := (List.range n).foldl f s

end Sys2Proof.Machine
end

