-- ==== Sys2Proof/Machine/Evidence.lean ====
section
/-! DEFINITION. The Tally's evidence (chapter 12): the pending table, reservations, brand records, batches, epoch
records, the Book and export bookkeeping. -/

namespace Sys2Proof.Machine

/-! Numbers of R120 and R128. -/

/-- Nanoseconds and seconds in units of 1/256 ns. -/
abbrev ns256 : Nat := 256
abbrev sec256 : Nat := 256000000000

/-- The Brand form of a time in 1/256 ns (R120). -/
def brandTT (t : Nat) : Nat :=
  ((t / sec256) % 2 ^ 32) * 2 ^ 32 + ((t % sec256) / 256) * 4 + (t % 256) / 64

/-- E(n) and N(n) of R128. -/
def epochOf (s : State) (n : Nat) : Nat := s.ev.epochBase + n / 25600
def tallyPly (s : State) (n : Nat) : Nat := 25600 * s.ev.epochBase + n

def plyNat (s : State) : Nat := s.tm.ply.toNat

/-! Pages. -/

abbrev pgEV : Nat := pb 0x014
abbrev pgSGN : Nat := pb 0x015
abbrev pgSEAL : Nat := pb 0x016
abbrev pgAUD : Nat := pb 0x017

/-- Events of page 0x014 (R436). -/
abbrev evEVIDENCE_FULL : Nat := 0
abbrev evEPOCH_LAPSED : Nat := 1
abbrev evEVIDENCE_LOST : Nat := 2
abbrev evUNRESOLVED : Nat := 3

/-! The pending table (R404-R407). -/

def pget (s : State) (id : Nat) : Option Pend := tget (fun _ => none) s.ev.pend id

def pset (s : State) (id : Nat) (p : Option Pend) : State :=
  { s with ev := { s.ev with pend := tset (fun _ => none) s.ev.pend id p } }

/-- A meter class is metered (R404). -/
def classMetered (s : State) (c : Nat) : Bool :=
  c != 0 && ((rawRd s (pgEV + R.EV_METER_POLICY)).getLsbD c) && fgb s pgSGN F.SGN_SIGN_STATUS_KEY_READY

/-- The next FLOW_SEQ of a pair of ingress port and meter class (R405). -/
def takeSeq (s : State) (port c : Nat) : Nat × State :=
  let k := port * 16 + c
  let v := tget (fun _ => 0) s.ev.flowSeq k
  (v, { s with ev := { s.ev with flowSeq := tset (fun _ => 0) s.ev.flowSeq k ((v + 1) % 2 ^ 32) } })

/-- The first 8 bytes of the digest of the first min(L, 256) bytes (R407). -/
def frameDigest (bs : List Byte) : Nat := beNat ((sha256 (bs.take 256)).take 8)

/-- The PORT_METER class of a front-panel port (R404). -/
def portMeter (s : State) (port : Nat) : Nat :=
  if port < 256 then bitsOf (rawRd s (pgEV + R.EV_PORT_METER + 4 * port)) 0 4 else 0

/-! Reservations (R408). -/

/-- Places the evidence tier holds in this variant (R426). -/
def tierSize (s : State) : Nat := if s.fuse.hbm then 134217728 else 65536

def bookFree (s : State) : Nat := 16384 - s.ev.bookUsed - s.ev.signing.length

def placesFor (p : Pend) : Nat := if p.isGroup && p.outcome.isNone then 3 else 1

def queueOf (s : State) (pipe : Nat) : Nat := tget (fun _ => 0) s.ev.queueUsed pipe

/-- Space in the tier for `k` more reserved places, holdback for headers included (R408). -/
def tierFits (s : State) (k : Nat) : Bool :=
  let r := s.ev.tierReserved + k
  s.ev.tierUsed + r + (r + 7) / 8 ≤ tierSize s

def spaceFits (s : State) (k : Nat) : Bool := tierFits s k && 2 ≤ bookFree s

/-! Records and batches (R413-R417). -/

/-- The DELIVERED or LATE bitmap of R414: bit 7 − (p mod 8) of byte ⌊p ÷ 8⌋ for each port p of the list. -/
def bitmap (ports : List Nat) : List Byte :=
  (List.range 32).map (fun k => (List.range 8).foldl
    (fun (b : Byte) i => if ports.contains (8 * k + i) then b ||| (BitVec.ofNat 8 (2 ^ (7 - i))) else b) 0)

/-- FLAGS of a record (R154, R413): UNMETERED is always 0. -/
def recFlags (p : Pend) : Nat :=
  let group := p.isGroup && (p.outcome.isNone || p.copies.length ≠ 0)
  (if p.late && !group then 1 else 0) + (if p.poisoned then 2 else 0) + (if p.tie then 8 else 0) +
  (if p.released && !group then 16 else 0) + p.cap.tq * 32

/-- The base record of R413. -/
def baseRecord (p : Pend) (code reason : Nat) : List Byte :=
  beBytes 1 0x21 ++ beBytes 1 (recFlags p) ++ beBytes 8 (brandTT p.cap.t) ++ beBytes 2 p.cap.port ++
  beBytes 4 p.flowIdx ++ beBytes 4 p.flowSeq ++ beBytes 1 (code + p.kind * 8) ++ beBytes 1 reason ++
  beBytes 2 (if p.kind = 3 then 0 else p.egress) ++ beBytes 8 p.digest

/-- The places of a completed record (R414, R416). -/
def recordPlaces (p : Pend) (code reason : Nat) : List (List Byte) :=
  let delivered := (p.copies.filter (fun c => c.out ≤ 1)).map (fun c => c.port)
  let late := (p.copies.filter (fun c => c.out = 1)).map (fun c => c.port)
  let base := baseRecord p code reason
  let grouped := code = 3 ∨ code = 4 ∨ (code = 5 ∧ p.isGroup ∧ 1 < p.places)
  if grouped then
    if p.evenRelease then [base, bitmap delivered, bitmap late] else [base, bitmap delivered]
  else [base]

def batchOf (s : State) (pipe : Nat) : List (List Byte) := tget (fun _ => []) s.ev.batchNow pipe

/-- Put a record's places into the batch of the present ply. -/
def intoBatch (s : State) (r : Rec) : State :=
  { s with ev := { s.ev with
      batchNow := tset (fun _ => []) s.ev.batchNow r.pipe (batchOf s r.pipe ++ r.places),
      queueUsed := tset (fun _ => 0) s.ev.queueUsed r.pipe (queueOf s r.pipe - r.reserved),
      tierReserved := s.ev.tierReserved - r.reserved + r.places.length } }

/-- A completed record: into the batch of the present ply where it has room and no earlier record of its pipeline
waits, else into the record queue (R416). -/
def writeRecord (s : State) (r : Rec) : State :=
  if s.ev.recQ.all (fun q => q.pipe ≠ r.pipe) && (batchOf s r.pipe).length + r.places.length ≤ 8 then intoBatch s r
  else { s with ev := { s.ev with recQ := s.ev.recQ ++ [r] } }

/-- Complete the pending entry `id` when its outcome, its digest and its places are all there (R409, R414). -/
def tryComplete (s : State) (id : Nat) : State :=
  match pget s id with
  | none => s
  | some p =>
    match p.outcome with
    | none => s
    | some (code, reason) =>
      if p.places = 0 ∨ ¬ p.digestReady then s
      else
        let r : Rec := { pipe := p.pipe, places := recordPlaces p code reason, reserved := p.places }
        writeRecord (pset s id none) r

/-- Count a metered frame that receives no record (R409). -/
def countUnrecorded (s : State) : State :=
  bump { s with ev := { s.ev with unrecorded := s.ev.unrecorded + 1 } } (pgEV + R.EV_UNRECORDED)

/-- A pending entry receives no record. -/
def dropRecord (s : State) (id : Nat) : State := countUnrecorded (pset s id none)

/-- The outcome of a metered frame becomes known (R414): its code and, for DROPPED, its reason. An outcome for an
entry already written counts in LATE_OUTCOMES. -/
def setOutcome (s : State) (id code reason : Nat) : State :=
  match pget s id with
  | none => bump s (pgEV + R.EV_LATE_OUTCOMES)
  | some p =>
    match p.outcome with
    | some _ => s
    | none =>
      let p := { p with outcome := some (code, reason), outPly := plyNat s,
                        eligible := p.eligible.or (some (plyNat s)) }
      tryComplete (pset s id (some p)) id

/-- The outcome of one copy of a group frame; the record completes when every copy's outcome is known (R414). -/
def copyOutcome (s : State) (id port out : Nat) : State :=
  match pget s id with
  | none => bump s (pgEV + R.EV_LATE_OUTCOMES)
  | some p =>
    let p := { p with copies := p.copies ++ [⟨port, out⟩], copiesLeft := p.copiesLeft - 1,
                      poisoned := p.poisoned || out == 3 }
    if p.copiesLeft = 0 then
      let p := { p with outcome := some (if p.evenRelease then 4 else 3, 0), outPly := plyNat s,
                        eligible := p.eligible.or (some (plyNat s)) }
      tryComplete (pset s id (some p)) id
    else pset s id (some p)

/-- Bytes of a frame have arrived: its digest, once it can be taken (R407). -/
def noteDigest (s : State) (id : Nat) (f : Frame) : State :=
  match pget s id with
  | none => s
  | some p =>
    if p.digestReady ∨ (f.bytes.length < 256 ∧ ¬ f.ended) then s
    else tryComplete (pset s id (some { p with digest := frameDigest f.bytes, digestReady := true })) id

/-- Close the batch of pipeline `p` for the ply that ends, Tally ply number `n` (R417, R426): its header and records
take places of the tier. -/
def closeBatch (n : Nat) (s : State) (p : Nat) : State :=
  match batchOf s p with
  | [] => s
  | places =>
    let leaf := beBytes 8 n ++ beBytes 1 p ++ beBytes 1 places.length ++ places.flatten
    let header := beBytes 1 0x61 ++ beBytes 1 p ++ beBytes 1 places.length ++ List.replicate 5 0 ++ beBytes 8 n ++
      List.replicate 16 0
    let k := places.length + 1
    let e := n / 25600
    let put := fun (a : Tab (Option Place) × Nat) (b : List Byte) =>
      (tset (fun _ => none) a.1 a.2 (some ⟨b, e, a.2⟩), a.2 + 1)
    let t := (header :: places).foldl put (s.ev.tier, s.ev.tierNext)
    let s := { s with ev := { s.ev with
        batches := ⟨n, p, places.length, leaf⟩ :: s.ev.batches,
        batchNow := tset (fun _ => []) s.ev.batchNow p [],
        records := s.ev.records + places.length,
        tierReserved := s.ev.tierReserved - places.length,
        tierUsed := s.ev.tierUsed + k, tier := t.1, tierNext := t.2 } }
    bumpN s (pgEV + R.EV_RECORDS_WRITTEN) places.length

/-- Move waiting records of the queue into the new batch, in order, while they fit (R416). -/
def refillBatches (s : State) : State :=
  let q := s.ev.recQ
  q.foldl writeRecord { s with ev := { s.ev with recQ := [] } }

/-! Grants (R408): entry ids in the order of the grants. -/

def ungranted (s : State) : List (Nat × Pend) :=
  s.ev.pend.filterMap (fun e => match e.2 with
    | some p => if p.places = 0 ∧ p.eligible.isSome ∧ ¬ p.noRecord then some (e.1, p) else none
    | none => none)

/-- Insert by slot number, rising. -/
def insertSlot (x : Nat × Pend) : List (Nat × Pend) → List (Nat × Pend)
  | [] => [x]
  | y :: ys => if x.2.slot < y.2.slot then x :: y :: ys else y :: insertSlot x ys

def grantOrder (s : State) (ended : Nat) : List Nat :=
  let u := ungranted s
  let fresh := u.filter (fun e => e.2.eligible == some ended)
  let old := u.filter (fun e => !(e.2.eligible == some ended))
  ((fresh.foldl (fun acc x => insertSlot x acc) []) ++ old).map (fun e => e.1)

/-- Try the grant of one entry; `left` is what each pipeline may still grant at this edge. -/
def grantOne (a : State × Tab Nat) (id : Nat) : State × Tab Nat :=
  let s := a.1
  match pget s id with
  | none => a
  | some p =>
    let k := placesFor p
    let left := tget (fun _ => 8) a.2 p.pipe
    if left < k ∨ 65536 < queueOf s p.pipe + k then a
    else if ¬ spaceFits s k then
      ({ s with ev := { s.ev with full := true, epochFull := true } }, a.2)
    else
      let s := { s with ev := { s.ev with
          queueUsed := tset (fun _ => 0) s.ev.queueUsed p.pipe (queueOf s p.pipe + k),
          tierReserved := s.ev.tierReserved + k } }
      (tryComplete (pset s id (some { p with places := k })) id, tset (fun _ => 8) a.2 p.pipe (left - k))

/-- The grants of one edge, after the close of ply `ended` (R408). EVID_STATUS.FULL shows a failure for space. -/
def evidenceGrant (s : State) (ended : Nat) : State :=
  let s := { s with ev := { s.ev with full := false } }
  let r := (grantOrder s ended).foldl grantOne (s, [])
  let s := fs r.1 pgEV F.EV_EVID_STATUS_FULL (if r.1.ev.full then 1 else 0)
  if r.1.ev.full then raise s 0x014 evEVIDENCE_FULL else s

/-! The release point (R409-R411). -/

/-- What the release point decides. -/
inductive Gate where
  | go | mark | hold
deriving DecidableEq, Repr

/-- EVID_CTRL.ON_FULL, 0 while SEALED (R410). -/
def onFullMark (s : State) : Bool := !s.sl.isSealed && fgb s pgEV F.EV_EVID_CTRL_ON_FULL

def untraceAct (s : State) : Bool := fgb s (pb 0x013) F.CAL_TRACE_CTRL_UNTRACE_ACT

/-- The gate of a metered frame with pending entry `id` (R409, R411); frames without an entry pass. -/
def releaseGate (s : State) (id : Nat) (metered : Bool) : Gate :=
  if ¬ metered then .go else
  match pget s id with
  | none => .go
  | some p =>
    if p.places = 0 ∧ ¬ p.noRecord then (if onFullMark s then .mark else .hold)
    else if p.cap.tq = 2 ∧ untraceAct s then .hold
    else .go

/-- The frame is withheld at its release point: its first release point is kept (R409). -/
def noteWithheld (s : State) (id : Nat) : State :=
  match pget s id with
  | none => s
  | some p =>
    let s := { s with ev := { s.ev with withholding := true } }
    if p.withheldAt = 0 then pset s id (some { p with withheldAt := plyNat s + 1 }) else s

/-- R409 MARK: the frame is released unrecorded. -/
def markUnrecorded (s : State) (id : Nat) : State :=
  match pget s id with
  | none => s
  | some _ => dropRecord s id

/-- WITHHOLD_MAX in ply; 0 acts as 1. -/
def withholdMax (s : State) : Nat := max 1 (fg s pgEV F.EV_WITHHOLD_MAX_PLY)

def outcomeMax (s : State) : Nat := max 1 (fg s pgEV F.EV_OUTCOME_MAX_PLY)

/-! Epochs (R420-R423, R605). -/

/-- End the present epoch: what its record needs is set aside, and the counts of the next one start (R421). -/
def endEpoch (s : State) (e : Nat) : State :=
  let x : EpochEnd := {
    epoch := e, batches := s.ev.batches, ttStart := s.ev.ttStart, records := s.ev.records,
    worstTQ := s.ev.worstTQ, full := s.ev.epochFull, paramEvent := s.ev.paramEvent, tieUsed := s.ev.tieUsed,
    dieStart := s.ev.dieStart, key := s.arb.key, record := s.ev.recording, eventCount := s.sl.eventCount,
    isSealed := s.sl.isSealed, unrecorded := s.ev.unrecorded }
  { s with ev := { s.ev with
      ended := s.ev.ended ++ [x], batches := [], records := 0, worstTQ := 0,
      epochFull := false, paramEvent := false, tieUsed := false, recording := false, unrecorded := 0,
      dieStart := if s.ev.recording then false else s.ev.dieStart } }

/-- The leaf data of batch (n, p): the closed batch, or an empty one (R417, R418). -/
def leafOf (bs : List Batch) (p n : Nat) : List Byte :=
  match bs.find? (fun b => b.pipe == p && b.ply == n) with
  | some b => b.bytes
  | none => beBytes 8 n ++ beBytes 1 p ++ [0]

/-- The pipeline root r_p of an epoch: 25,600 leaves in ply order (R418). -/
def pipeRoot (bs : List Batch) (e p : Nat) : List Byte :=
  merkle (leafOf (bs.filter (fun b => b.pipe == p)) p) 17 (e * 25600) 25600

def epochRoots (bs : List Batch) (e : Nat) : List Byte := (List.range 8).flatMap (pipeRoot bs e)

/-- K_e as 32 bytes: a free value numbered `k` (R386). -/
def keyBytes (k : Nat) : List Byte := beBytes 32 (Config.freeValue k)

/-- FLAGS of the epoch record (R420). -/
def epochFlags (s : State) (x : EpochEnd) : Nat :=
  (if x.isSealed then 1 else 0) + (if s.fuse.sealCap then 0 else 2) + (if s.ev.chainStart then 4 else 0) +
  (if x.dieStart then 8 else 0) + (if x.full || s.ev.lapsedFull then 16 else 0) + (if x.paramEvent then 32 else 0) +
  x.worstTQ * 64

/-- The record of an epoch is due (R421). -/
def recordDue (s : State) (x : EpochEnd) : Bool :=
  x.record && (x.records ≠ 0 || s.ev.unrecCarry + x.unrecorded ≠ 0 || x.tieUsed ||
    epochFlags s x / 4 ≠ 0 || max 1 (fg s pgEV F.EV_HEARTBEAT_EPOCHS) ≤ s.ev.sinceRecord + 1)

/-- Words of a digest register as bytes. -/
def regBytes (s : State) (a n : Nat) : List Byte := wordsBytes (rdWords s a n)

/-- Bytes 0-127 of the epoch record (R420). -/
def epochHead (s : State) (x : EpochEnd) (roots : List Byte) : List Byte :=
  let prev := if s.ev.chainStart then regBytes s (pgSGN + R.SGN_SW_DIGEST) 8 else s.ev.prev
  beBytes 1 0x31 ++ beBytes 1 (epochFlags s x) ++ beBytes 6 x.epoch ++ beBytes 8 (brandTT x.ttStart) ++
  beBytes 4 x.records ++ beBytes 4 (s.ev.unrecCarry + x.unrecorded) ++
  beBytes 4 (if s.fuse.sealCap then x.eventCount else 0) ++
  beBytes 4 (rawRd s (pgSGN + R.SGN_SW_VERSION)).toNat ++ slice prev 0 32 ++ sha256 (0x02 :: roots) ++ keyBytes x.key

/-- The engine that signs: the one whose turn it is, or the other where only that one passed its test (R423, R425). -/
def signEngine (s : State) : Nat :=
  let ok0 := fgb s pgSGN F.SGN_SIGN_STATUS_ENGINE0_OK
  let ok1 := fgb s pgSGN F.SGN_SIGN_STATUS_ENGINE1_OK
  if s.ev.turn = 0 then (if ok0 || !ok1 then 0 else 1) else (if ok1 || !ok0 then 1 else 0)

/-- The oldest ended epoch: its record is built and goes to the signer, or it lapses, or none is due (R421-R423). -/
def closeEpoch (s : State) : State :=
  match s.ev.ended with
  | [] => s
  | x :: rest =>
    let s := { s with ev := { s.ev with ended := rest } }
    if ¬ recordDue s x then
      { s with ev := { s.ev with sinceRecord := s.ev.sinceRecord + 1,
                                 unrecCarry := s.ev.unrecCarry + x.unrecorded } }
    else if bookFree s = 0 then
      let s := { s with ev := { s.ev with unrecCarry := s.ev.unrecCarry + x.unrecorded, lapsedFull := true,
                                          sinceRecord := s.ev.sinceRecord + 1 } }
      raise (bump s (pgEV + R.EV_LAPSED)) 0x014 evEPOCH_LAPSED
    else
      let roots := epochRoots x.batches x.epoch
      let head := epochHead s x roots
      { s with ev := { s.ev with
          prev := sha256 head, chainStart := false, lapsedFull := false, unrecCarry := 0,
          sinceRecord := 0, turn := 1 - s.ev.turn,
          signing := s.ev.signing ++ [⟨x.epoch, head, roots, signEngine s⟩] } }

/-- The signature of the oldest record in signing: its verification outcomes decide (R423). The signature's value is
free: the private key never leaves the island (log entry 10). -/
def signEpoch (s : State) (ok1 ok2 : Bool) : State :=
  match s.ev.signing with
  | [] => s
  | g :: rest =>
    let s := { s with ev := { s.ev with signing := rest } }
    let v := free s
    let s := v.2
    let s := if ok1 then s else raise (bump s (pgSGN + R.SGN_RESIGNS)) 0x015 0
    let s := if ok1 || ok2 then bump s (pgSGN + R.SGN_SIGNATURES) else raise s 0x015 1
    let sig := if ok1 || ok2 then beBytes 384 v.1 else List.replicate 384 0
    let slot : BookSlot := ⟨g.epoch, g.head ++ sig, g.roots⟩
    let h := s.ev.bookHead
    let s := { s with ev := { s.ev with
        book := tset (fun _ => none) s.ev.book h (some slot),
        bookHead := h + 1, bookUsed := s.ev.bookUsed + 1 } }
    let s := wr64 s (pgEV + R.EV_LAST_EPOCH) g.epoch
    let s := fs s pgEV F.EV_BOOK_STATE_HEAD ((h + 1) % 16384)
    fs s pgEV F.EV_BOOK_STATE_FREE (bookFree s)

/-- Step 3 of an edge: the Tally closes the batches of the ply that ends (ply `n`) and, at an epoch boundary, the
epoch (R44, R417, R421); then waiting records enter the new batches. -/
def tallyClose (s : State) (n : Nat) : State :=
  let s := upTo 8 (closeBatch (tallyPly s n)) s
  let s := if (n + 1) % 25600 = 0 then
      endEpoch s (epochOf s n)
    else s
  refillBatches s

/-! The cut epoch (R605). -/

/-- Fill and close the batches of `k` plies from Tally ply `n` on, while records wait. -/
def cutPlies : Nat → Nat → State → State
  | 0, _, s => s
  | k + 1, n, s => if s.ev.recQ.isEmpty && s.ev.batchNow.isEmpty then s
    else cutPlies k (n + 1) (upTo 8 (closeBatch n) (refillBatches s))

/-- A pending frame as a cut epoch leaves it: unknown outcomes of reserved frames are DROPPED, MODE; unreserved ones get
no record. -/
def cutPend (s : State) (id : Nat) : State :=
  match pget s id with
  | none => s
  | some p =>
    if p.places = 0 then pset s id none
    else
      let o := if p.outcome.isNone then some (2, 0x07) else p.outcome
      tryComplete (pset s id (some { p with outcome := o, outPly := plyNat s, digestReady := true })) id

/-- R605: the epoch is closed at once. `edge`: ply n has not run, the reset falls at its first edge; else the ply that
was cut short closes its own batch. What is left without a record counts for the next epoch record (step 4). -/
def cutEpoch (s : State) (edge : Bool) : State :=
  let n := plyNat s
  let bare := (s.ev.pend.filter (fun e => match e.2 with
    | some p => p.places == 0
    | none => false)).length
  let s := (s.ev.pend.map (fun e => e.1)).foldl cutPend s
  let s := if edge then s else upTo 8 (closeBatch (tallyPly s n)) s
  let k := if edge then n else n + 1
  let s := cutPlies ((n / 25600 + 1) * 25600 - k) (tallyPly s k) s
  let lost := s.ev.recQ.length
  let s := { s with ev := { s.ev with recQ := [], batchNow := [], queueUsed := [], tierReserved := 0 } }
  let s := closeEpoch (endEpoch s (epochOf s n))
  let s := upTo (bare + lost) (fun s _ => countUnrecorded s) s
  { s with ev := { s.ev with highest := some (epochOf s n) } }

/-! Frees (R426, R429). -/

/-- Free what an export frame carried; a freed Book slot keeps its bytes until it is written again. -/
def freeExport (s : State) (x : Export) : State :=
  match x.kind with
  | 1 => { s with ev := { s.ev with tier := tdropIf (fun k => x.first ≤ k && k < x.first + x.count) s.ev.tier,
                                    tierUsed := s.ev.tierUsed - x.count } }
  | 2 =>
    let s := { s with ev := { s.ev with bookUsed := s.ev.bookUsed - 1 } }
    fs s pgEV F.EV_BOOK_STATE_FREE (bookFree s)
  | _ => { s with sl := { s.sl with logFreed := max s.sl.logFreed (x.first + x.count) } }

/-- Free every export frame with sequence up to `q` that has passed whole (R429). -/
def freeUpTo (s : State) (q : Nat) : State :=
  let done := s.ev.exports.filter (fun x => x.sent && x.seq ≤ q)
  let s := { s with ev := { s.ev with exports := s.ev.exports.filter (fun x => !(x.sent && decide (x.seq ≤ q))) } }
  done.foldl freeExport s

end Sys2Proof.Machine
end

