-- ==== Sys2Proof/Machine/Perf.lean ====
section
/-! DEFINITION. Performance counters and the counts of profile sampling (R526-R533). -/

namespace Sys2Proof.Machine

abbrev pgCR : Nat := pb 0x007
abbrev evPERF_WRAP : Nat := 0
abbrev evSAMP_FULL : Nat := 1
abbrev evSAMP_LOST : Nat := 2

/-! Performance counters. -/

def pcValue (s : State) (k : Nat) : Nat := tget (fun _ => 0) s.cnt.pc k
def setPc (s : State) (k v : Nat) : State := { s with cnt := { s.cnt with pc := tset (fun _ => 0) s.cnt.pc k v } }

/-- Counter `k` wraps: PC_OVF and PERF_WRAP (R527). -/
def pcWrap (s : State) (k : Nat) : State :=
  raise (setBit s (pgCR + R.CR_PC_OVF + 4 * (k / 32)) (k % 32) true) 0x007 evPERF_WRAP

def pcAdd (s : State) (k n : Nat) : State :=
  if frozen s 0x007 || n == 0 then s
  else
    let v := pcValue s k + n
    let s := setPc s k (v % 2 ^ 48)
    if 2 ^ 48 ≤ v then pcWrap s k else s

def pcSel (s : State) (k : Nat) (f : FRef) : Nat := cg s (pgCR + 16 * k) f

/-- Event `ev` of block page `page` reports the count `n` (R526). -/
def perf (s : State) (page ev n : Nat) : State :=
  upTo 64 (fun s k =>
    if pcSel s k F.CR_PC_SEL_EN == 1 && pcSel s k F.CR_PC_SEL_SOURCE == page && pcSel s k F.CR_PC_SEL_EVENT == ev &&
        pagePresent s page then pcAdd s k n else s) s

/-! Sampling counts (R530, R531). -/

/-- Sampling is active. -/
def sampling (s : State) : Bool :=
  !fgb s pgCR F.CR_SAMP_STATUS_FULL && !s.cnt.stopped &&
  (match s.md.mode with
   | .live | .drain | .contained | .diagnostic => true
   | _ => false)

/-- A fresh interval: I plus the low JITTER bits of the LFSR. -/
def drawInterval (s : State) (i jitter : FRef) : Nat × State :=
  let x := Config.lfsrNext s.cnt.lfsr
  (max 1 (fg s pgCR i) + x.toNat % 2 ^ (min 16 (fg s pgCR jitter)), { s with cnt := { s.cnt with lfsr := x } })

def setCount (s : State) (u n : Nat) : State :=
  { s with cnt := { s.cnt with counts := tset (fun _ => 0) s.cnt.counts u n } }

/-- A microword or instruction of unit `u`: the count decreases; the one that brings it to 0 is sampled. -/
def countSample (s : State) (u ctx : Nat) (i jitter : FRef) (record : BitVec 256) : State :=
  let c := tget (fun _ => 0) s.cnt.counts u
  let d := if c = 0 then drawInterval s i jitter else (c, s)
  let s := d.2
  if d.1 ≤ 1 then
    let n := drawInterval s i jitter
    let s := setCount n.2 u n.1
    { s with cnt := { s.cnt with due := s.cnt.due ++ [{ unit := u, ctx := ctx, record := record }] } }
  else setCount s u (d.1 - 1)

/-- A microword of pipeline `p` issues. -/
def sampleMicro (s : State) (p ctx : Nat) (record : BitVec 256) : State :=
  if sampling s && fgb s pgCR F.CR_SAMP_CTRL_UW_EN && (fg s pgCR F.CR_SAMP_CTRL_PIPE_MASK).testBit p then
    countSample s p ctx F.CR_UW_INTERVAL_I F.CR_UW_INTERVAL_JITTER record
  else s

/-- Core `n` retires an instruction. -/
def sampleInsn (s : State) (n : Nat) (record : BitVec 256) : State :=
  if sampling s && fgb s pgCR F.CR_SAMP_CTRL_INSN_EN && (fg s pgCR F.CR_SAMP_CTRL_CORE_MASK).testBit n then
    countSample s (8 + n) 0 F.CR_INSN_INTERVAL_I F.CR_INSN_INTERVAL_JITTER record
  else s

end Sys2Proof.Machine
end

