-- ==== Sys2Proof/Machine/Frames.lean ====
section
/-! DEFINITION. Ports, lanes and frames: the accessors, the port map (R66-R68), rates (R62, R66), the capture of a
frame's arrival time (R73-R75, R104, R146-R149) and the life of a frame record. -/

namespace Sys2Proof.Machine

/-! Table accessors. -/

def getP (s : State) (p : Nat) : PortSt := tget (fun _ => {}) s.ports p
def setP (s : State) (p : Nat) (v : PortSt) : State := { s with ports := tset (fun _ => {}) s.ports p v }
def modP (s : State) (p : Nat) (f : PortSt → PortSt) : State := setP s p (f (getP s p))

def getL (s : State) (l : Nat) : LaneSt := tget (fun _ => {}) s.lanes l
def setL (s : State) (l : Nat) (v : LaneSt) : State := { s with lanes := tset (fun _ => {}) s.lanes l v }
def modL (s : State) (l : Nat) (f : LaneSt → LaneSt) : State := setL s l (f (getL s l))

def getF (s : State) (id : Nat) : Frame := tget (fun _ => {}) s.frames id
def setF (s : State) (id : Nat) (v : Frame) : State := { s with frames := tset (fun _ => {}) s.frames id v }
def modF (s : State) (id : Nat) (f : Frame → Frame) : State := setF s id (f (getF s id))

/-- A new frame number for `f`. -/
def addF (s : State) (f : Frame) : Nat × State :=
  let id := s.nextFrame
  (id, setF { s with nextFrame := id + 1 } id { f with live := true })

/-- Live frames that satisfy `p`, in order of their numbers (which is order of arrival or copying). -/
def framesWhere (s : State) (p : Nat → Frame → Bool) : List Nat :=
  (s.frames.filter (fun e => e.2.live && p e.1 e.2)).map (fun e => e.1)

/-! Pages and blocks. -/

/-- The port group page and the register block of port `p` (R92, R93). -/
abbrev groupB (p : Nat) : Nat := pb (0x020 + p / 8)
abbrev portB (p : Nat) : Nat := pb (0x020 + p / 8) + 0x100 + 0x100 * (p % 8)
/-- Lane page (R91). -/
abbrev laneB (l : Nat) : Nat := pb (0x040 + l)
/-- Buffer account block of port `p` (R350). -/
abbrev accB (p : Nat) : Nat := pb (0x390 + p / 16) + 0x400 + 0xC0 * (p % 16)
/-- Scheduler block of port `p` (R374). -/
abbrev schB (p : Nat) : Nat := pb (0x3B0 + p / 17) + 0x040 + 0xE0 * (p % 17)
/-- Sequenced output block (R402). -/
abbrev seqB (o : Nat) : Nat := pb (0x3D0 + o / 2) + 0x100 + 0x400 * (o % 2)
/-- Egress pipeline page (R349). -/
abbrev egpB (p : Nat) : Nat := pb (0x388 + p)
abbrev pgSC : Nat := pb 0x380
abbrev pgMC : Nat := pb 0x381
abbrev pgARB : Nat := pb 0x3C0
abbrev pgTT : Nat := pb 0x010
abbrev pgCAL : Nat := pb 0x013
abbrev pgHP : Nat := pb 0x009
abbrev pgREF : Nat := pb 0x011
abbrev pgMODE : Nat := pb 0x001
/-- Pages of pipeline `p` (R579). -/
abbrev pipeB (p : Nat) : Nat := pb (0x200 + 16 * p)
abbrev prsB (p : Nat) : Nat := pb (0x201 + 16 * p)
abbrev clsB (p : Nat) : Nat := pb (0x202 + 16 * p)
abbrev frgB (p : Nat) : Nat := pb (0x203 + 16 * p)
abbrev flowB (p : Nat) : Nat := pb (0x208 + 16 * p)
abbrev deckB (p : Nat) : Nat := pb (0x209 + 16 * p)

/-- Clear and set the named bit field `f` shifted by `k` lanes or slots: field `f` with `k` added to its low bit. -/
def FRef.up (f : FRef) (k : Nat) : FRef := { f with lo := f.lo + k }

/-- Field `f` at `k` bytes above its offset. -/
def FRef.fwd (f : FRef) (k : Nat) : FRef := { f with off := f.off + k }

/-! The port map (R66-R69, R101). -/

/-- Width code of lane `s` of the group in a PORT_MAP word. -/
def mapCode (w : Word) (s : Nat) : Nat := bitsOf w (3 * s) 3

/-- Lanes of a width code. -/
def codeLanes (c : Nat) : Nat := if c = 0 ∨ 4 < c then 0 else 2 ^ (c - 1)

def groupMap (s : State) (g : Nat) : Word := effRd s (pb (0x020 + g) + R.PG_PORT_MAP)

/-- Framer page (R97), and whether framer `f` is enabled (in force). -/
abbrev frmB (f : Nat) : Nat := pb (0x140 + f)
def framerOn (s : State) (f : Nat) : Bool := s.fuse.longHaul && cgb s (frmB f) F.FRM_FRAMER_CTRL_ENABLE

/-- Port `p` (0-255) is a framer client port (R101). -/
def isClient (s : State) (p : Nat) : Bool := p < 256 && p % 16 == 0 && framerOn s (p / 16)

/-- Lanes that the port map gives port `p`. -/
def mapLanes (s : State) (p : Nat) : Nat := if p < 256 then codeLanes (mapCode (groupMap s (p / 8)) (p % 8)) else 0

/-- n of framer `f` in force. -/
def framerN (s : State) (f : Nat) : Nat := cg s (frmB f) F.FRM_FRAMER_CTRL_N

/-- Lanes used and quads owned by a framer of n instances in lane mode `fx` (0 FX1, 1 FX2) (R97). -/
def lanesUsed (n fx : Nat) : Nat := if fx = 0 then n else (n + 1) / 2
def quadsOwned (n fx : Nat) : Nat := if fx = 0 ∧ 5 ≤ n then 2 else 1

/-- Lanes the enabled framer `f` uses (R97). -/
def framerLanes (s : State) (f : Nat) : Nat := lanesUsed (framerN s f) (cg s (frmB f) F.FRM_FRAMER_CTRL_LANE_MODE)

/-- Client port speed of n instances in Gb/s (R96). -/
def clientRate (n : Nat) : Nat := if 8 ≤ n then 800 else if 4 ≤ n then 400 else if 2 ≤ n then 200 else 100

/-- The port exists: a mapped port's lowest lane, a framer client port, the host port or a recirculation port. -/
def portMapped (s : State) (p : Nat) : Bool :=
  if p < 256 then mapLanes s p != 0 || isClient s p else p < 265

/-- Lanes of port `p`: their numbers. -/
def portLanes (s : State) (p : Nat) : List Nat :=
  if p = 256 then [256, 257]
  else if isClient s p then (List.range (framerLanes s (p / 16))).map (fun k => p + k)
  else (List.range (mapLanes s p)).map (fun k => p + k)

/-- The mapped port (R67), or the framer client port (R101), that covers lane `l`. -/
def portOfLane (s : State) (l : Nat) : Option Nat :=
  if l = 256 ∨ l = 257 then some 256
  else
    let c := 16 * (l / 16)
    if isClient s c && l < c + framerLanes s (c / 16) then some c
    else ((List.range 8).map (fun k => 8 * (l / 8) + k)).find?
      (fun p => p ≤ l && l < p + mapLanes s p)

/-- Coded rate of a lane times 8 in Gb/s: 1700 or 850, and 425 for the host port's lanes (R62, R490). -/
def laneRate8 (s : State) (l : Nat) : Nat :=
  if 256 ≤ l then 425
  else
    let c := 16 * (l / 16)
    let slow := if isClient s c then cg s (frmB (c / 16)) F.FRM_FRAMER_CTRL_LANE_MODE == 0
      else if l % 8 < 4 then cgb s (groupB l) F.PG_PORT_MAP_QUAD0_RATE else cgb s (groupB l) F.PG_PORT_MAP_QUAD1_RATE
    if slow then 850 else 1700

/-- Data rate of a port in Gb/s (R66, R27, R490; a client port, R96). -/
def portRate (s : State) (p : Nat) : Nat :=
  if p = 256 then 100
  else if 256 < p then 1600
  else if isClient s p then clientRate (framerN s (p / 16))
  else mapLanes s p * (if laneRate8 s p = 850 then 100 else 200)

/-- Pipeline of a port (R25-R27). -/
def pipeOf (p : Nat) : Nat := if p < 256 then p / 32 else if p = 256 then 0 else p - 257

/-- MAX_FRAME of a port (R93, R328). -/
def maxFrame (s : State) (p : Nat) : Nat :=
  if p < 256 then max 64 (min 10240 (fg s (portB p) F.PORT_PORT_FRAME_MAX_FRAME)) else 10240

/-- LINK_STATE codes (R93). -/
def Link.code : Link → Nat
  | .disabled => 0
  | .training => 1
  | .aligning => 2
  | .up => 3
  | .fault => 4

def linkCode (s : State) (p : Nat) : Nat :=
  if p < 256 then fg s (portB p) F.PORT_PORT_STATUS_LINK_STATE
  else if p = 256 then fg s pgHP F.HP_HP_STATUS_LINK_STATE
  else 3

def isUp (s : State) (p : Nat) : Bool := portMapped s p && linkCode s p == 3

/-- A port counter at offset `o` of its block counts only while the port is mapped; the host port has its own
(R93, R495). -/
def bumpPort (s : State) (p o n : Nat) : State :=
  if p < 256 ∧ portMapped s p then
    let a := portB p + o
    let before := rd64 s a
    let s := bumpN s a n
    if rd64 s a < before then fs s (portB p) F.PORT_PORT_STATUS_WRAP 1 else s
  else s

/-! Capture (R73-R79, R104, R127, R143-R149). -/

/-- Delays of a lane in use by the Tally (R75, R76, R149). -/
def rxDelay (s : State) (l : Nat) : Nat := (getL s l).rxDelay
def txDelay (s : State) (l : Nat) : Nat := (getL s l).txDelay

/-- T_ap of a reference bit `bits` coded bits after the last marker on lane `l` (R74, R104). On a framer lane whose
rate no pair of markers has measured yet, the spec states none: a free value (log entry 10). -/
def arrivalAt (s : State) (l bits : Nat) : Nat :=
  let L := getL s l
  if l < 256 ∧ isClient s (16 * (l / 16)) then
    L.tam + (if L.ratBits = 0 then Config.freeValue s.freeIx else bits * L.ratTime / L.ratBits)
  else L.tam + bits * 2048 / laneRate8 s l

/-- T_demarc of a capture on lane `l` of port `p` (R146, R148), in 1/256 ns. -/
def demarcAt (s : State) (p l bits : Nat) : Nat :=
  let ball : Int := (arrivalAt s l bits : Int) - rxDelay s l
  if 256 ≤ p then ball.toNat
  else (ball - sext 16 (cg s pgCAL (F.CAL_LANE_TRIM_TRIM.fwd (4 * l))) -
        cg s pgCAL (F.CAL_DEMARC_RX_DELAY.fwd (4 * p))).toNat

/-- Time quality of a capture made now on lane `l`, from the last edge's conditions (R143); the next edge may
worsen it. -/
def captureTQ (s : State) (l : Nat) : Nat :=
  let L := getL s l
  if L.failed || L.held || L.shiftHold then 2 else fg s pgTT F.TT_TIME_STATE_TQ

def captureNow (s : State) (p l bits : Nat) : Cap :=
  { port := p, t := demarcAt s p l bits, tq := captureTQ s l, lane := l, ply := plyNat s }

/-! Frame records. -/

/-- The number of a frame's original (itself, for an original). -/
def origOf (f : Frame) (id : Nat) : Nat := if f.isCopy || f.isMirror then f.orig else id

/-- Copies of frame `id`. -/
def copiesOf (s : State) (id : Nat) : List Nat := framesWhere s (fun _ f => (f.isCopy || f.isMirror) && f.orig == id)

/-- Frame `id` leaves: its record is dropped, or kept until its last bit arrives where it is still being received
(R72). An export frame that has not passed whole is to be sent again (R428). -/
def endFrame (s : State) (id : Nat) : State :=
  let f := getF s id
  let s := if f.exportSeq = 0 then s else { s with ev := { s.ev with exports := s.ev.exports.map (fun x =>
      if x.seq + 1 = f.exportSeq && !x.sent then { x with queued := false } else x) } }
  if f.ended || f.isCopy || f.isMirror then setF s id {}
  else setF s id { f with stage := .done, acct := .none, resv := 0, banks := [] }

end Sys2Proof.Machine
end

