-- ==== Sys2Proof/Machine/Buffer.lean ====
section
/-! DEFINITION. The packet buffer's accounts (R326-R332), PFC thresholds (R330), and how a frame or copy leaves the
device: its outcome for the Tally (R414, R415), its cells, and every queue it stands in (R341, R346). -/

namespace Sys2Proof.Machine

/-! Reason codes of R415. -/

abbrev rsnFIFO : Nat := 0x01
abbrev rsnTRUNC : Nat := 0x02
abbrev rsnPARSE_OFF : Nat := 0x03
abbrev rsnPARSE : Nat := 0x04
abbrev rsnACTION : Nat := 0x05
abbrev rsnROUTINE : Nat := 0x06
abbrev rsnMODE : Nat := 0x07
abbrev rsnPOLICER : Nat := 0x08
abbrev rsnFRAG : Nat := 0x09
abbrev rsnLIMIT : Nat := 0x0A
abbrev rsnWRED : Nat := 0x0B
abbrev rsnBAD : Nat := 0x0C
abbrev rsnLINK : Nat := 0x0D
abbrev rsnSTORE_FULL : Nat := 0x0E
abbrev rsnDISABLED : Nat := 0x0F
abbrev rsnBAD_OUTPUT : Nat := 0x10
abbrev rsnLATE_DROP : Nat := 0x11
abbrev rsnTX_ABORT : Nat := 0x12
abbrev rsnPROCESSOR_ONLY : Nat := 0x13
abbrev rsnUNTRACEABLE : Nat := 0x14
abbrev rsnTTL : Nat := 0x15

/-! Lossless classes (R327). -/

def isLLA (s : State) (c : Nat) : Bool := fgb s pgSC F.SC_SC_CLASS_LL_A_EN && fg s pgSC F.SC_SC_CLASS_LL_A_CLASS == c

def isLLB (s : State) (c : Nat) : Bool :=
  fgb s pgSC F.SC_SC_CLASS_LL_B_EN && fg s pgSC F.SC_SC_CLASS_LL_B_CLASS == c && !isLLA s c

def isLossless (s : State) (c : Nat) : Bool := isLLA s c || isLLB s c

/-! Accounts (R326, R328, R330). -/

/-- The account of a frame's or copy's cells: the first of R326 that applies. -/
def accountOf (s : State) (f : Frame) : Account :=
  if f.isMirror then .mirror
  else if f.port = 256 ∨ f.out = 256 then .host
  else if 256 < f.out then .recirc (f.out - 257)
  else if isLLA s f.outCls && f.cap.port < 256 then .lossless f.cap.port false
  else if isLLB s f.outCls && f.cap.port < 256 then .lossless f.cap.port true
  else .queue f.out f.outCls

def llUse (b : Bool) : FRef := if b then F.ACC_LL_USE_B_CELLS else F.ACC_LL_USE_A_CELLS

def accUse (s : State) : Account → Nat
  | .none => 0
  | .mirror => s.core.mirrorUse
  | .host => s.core.hostUse
  | .recirc p => tget (fun _ => 0) s.core.recircUse p
  | .lossless p b => fg s (accB p) (llUse b)
  | .queue p c => fg s (accB p) (F.ACC_QUSE_CELLS.fwd (4 * c))

def setAccUse (s : State) (a : Account) (n : Nat) : State :=
  match a with
  | .none => s
  | .mirror => { s with core := { s.core with mirrorUse := n } }
  | .host => { s with core := { s.core with hostUse := n } }
  | .recirc p => { s with core := { s.core with recircUse := tset (fun _ => 0) s.core.recircUse p n } }
  | .lossless p b => fs s (accB p) (llUse b) n
  | .queue p c => fs s (accB p) (F.ACC_QUSE_CELLS.fwd (4 * c)) n

/-- A limit of admission as it acts: 7/8 of it while the partition is scaled (R322). -/
def scaled (s : State) (n : Nat) : Nat := if fgb s pgSC F.SC_PARTITION_SCALED then 7 * n / 8 else n

def ingLimit (s : State) (p : Nat) (b : Bool) : Nat :=
  scaled s (cg s (accB p) (if b then F.ACC_LL_B_LIMIT_ING_LIMIT else F.ACC_LL_A_LIMIT_ING_LIMIT))

def headroom (s : State) (p : Nat) (b : Bool) : Nat :=
  scaled s (cg s (accB p) (if b then F.ACC_LL_B_HEADROOM_HEADROOM else F.ACC_LL_A_HEADROOM_HEADROOM))

def poolLimit (s : State) : Account → Nat
  | .mirror => scaled s (cg s pgSC F.SC_POOL_MIRROR_LIMIT)
  | .host => scaled s (cg s pgSC F.SC_POOL_HOST_LIMIT)
  | .recirc p => scaled s (cg s pgSC (F.SC_POOL_RECIRC_LIMIT.fwd (4 * p)))
  | _ => 0

/-- A PFC frame is to be sent for lossless class A or B of the port (R89). -/
def askPfc (s : State) (p : Nat) (b : Bool) (quanta : Nat) : State :=
  let en := if b then fgb s (portB p) F.PORT_PFC_CTRL_PRIO_B_EN else fgb s (portB p) F.PORT_PFC_CTRL_PRIO_A_EN
  if en then modP s p (fun P => if b then { P with pfcB := some quanta } else { P with pfcA := some quanta }) else s

/-- XOFF of one lossless account after a change of its use (R330). -/
def xoffEval (s : State) (p : Nat) (b : Bool) : State :=
  let f := if b then F.ACC_LL_STATUS_XOFF_B else F.ACC_LL_STATUS_XOFF_A
  let use := accUse s (.lossless p b)
  let lim := ingLimit s p b
  let d := cg s (accB p) (if b then F.ACC_XON_DELTA_DELTA_B else F.ACC_XON_DELTA_DELTA_A)
  if fgb s (accB p) f then
    if use + d ≤ lim then askPfc (fs s (accB p) f 0) p b 0 else s
  else if lim < use then askPfc (fs s (accB p) f 1) p b (fg s (portB p) F.PORT_PFC_TIMING_TX_QUANTA)
  else s

/-- Change the use of an account by `n` cells up or down. -/
def moveUse (s : State) (a : Account) (n : Int) : State :=
  let s := setAccUse s a ((accUse s a : Int) + n).toNat
  match a with
  | .lossless p b => xoffEval s p b
  | _ => s

/-! Banks (R317, R321). -/

def bankUsed (s : State) (b : Nat) : Nat := tget (fun _ => 0) s.core.bankUsed b

/-- Move `n` cells of bank `b` in or out of use; FREE_CELLS follows. -/
def moveBank (s : State) (b : Nat) (n : Int) : State :=
  let s := { s with core := { s.core with
    bankUsed := tset (fun _ => 0) s.core.bankUsed b ((bankUsed s b : Int) + n).toNat } }
  fs s pgSC F.SC_FREE_CELLS_COUNT ((fg s pgSC F.SC_FREE_CELLS_COUNT : Int) - n).toNat

/-- Free a frame's cells and its reservation (R326, R328). -/
def freeCells (s : State) (id : Nat) : State :=
  let f := getF s id
  let s := f.banks.foldl (fun s b => moveBank s b (-1)) s
  let s := moveUse s f.acct (-(f.resv : Int))
  setF s id { f with banks := [], resv := 0, acct := .none }

/-! Queues. -/

/-- Take frame `id` out of every queue, store and list it stands in. -/
def unqueuePort (id : Nat) (P : PortSt) : PortSt :=
  { P with
    queue := P.queue.filterMap (fun e =>
      let l := e.2.filter (· ≠ id)
      if l.isEmpty then none else some (e.1, l)),
    release := P.release.filter (· ≠ id), granted := P.granted.filter (· ≠ id),
    begun := P.begun && P.granted.head? ≠ some id,
    lateWait := P.lateWait.filter (· ≠ id), gate := P.gate.filter (· ≠ id),
    resv := P.resv.filter (fun e => e.1 ≠ id) }

def storeUsed (s : State) (o : Nat) : Nat := (tget (fun _ => []) s.arb.stores o).length

/-- Show a store's USED and PEAK (R402). -/
def showStore (s : State) (o : Nat) : State :=
  let n := storeUsed s o
  peak (fs s (seqB o) F.SEQ_SEQ_STATUS_USED n) (seqB o) F.SEQ_SEQ_STATUS_PEAK n

def showErStore (s : State) : State :=
  let n := s.arb.erStore.length
  peak (fs s pgARB F.ARB_ER_STORE_USED n) pgARB F.ARB_ER_STORE_PEAK_PEAK n

def setStore (s : State) (o : Nat) (l : List Nat) : State :=
  showStore { s with arb := { s.arb with stores := tset (fun _ => []) s.arb.stores o l } } o

def setErStore (s : State) (l : List Nat) : State := showErStore { s with arb := { s.arb with erStore := l } }

def unqueue (s : State) (id : Nat) : State :=
  let f := getF s id
  let s := modP s f.out (unqueuePort id)
  let s := match f.seqOut with
    | some o => let l := tget (fun _ => []) s.arb.stores o
                if l.contains id then setStore s o (l.filter (· ≠ id)) else s
    | none => s
  let s := if s.arb.erStore.contains id then setErStore s (s.arb.erStore.filter (· ≠ id)) else s
  let spray := s.core.spray.filterMap (fun e =>
    let l := e.2.filter (fun i => i.frame ≠ id)
    if l.isEmpty then none else some (e.1, l))
  { s with core := { s.core with spray := spray } }

/-! Outcomes (R384, R397, R414). -/

/-- Report a frame's or copy's outcome to the Tally: code 0 delivered, 1 stomped, 2 dropped with `reason`. -/
def tellOutcome (s : State) (id code reason : Nat) : State :=
  let f := getF s id
  if f.isMirror || !f.tracked then s
  else if f.isCopy then copyOutcome s f.orig f.out (if code = 0 then (if f.flagLate then 1 else 0)
    else if code = 1 then 3 else 2)
  else setOutcome s id code reason

/-- A frame or copy is dropped: its outcome, its cells, its places in queues. -/
def dropFrame (s : State) (id reason : Nat) : State :=
  let s := tellOutcome s id 2 reason
  endFrame (unqueue (freeCells s id) id) id

/-- A bad frame or copy is discarded without transmission (R341): BAD_DISCARD of its egress port. -/
def discardBad (s : State) (id : Nat) : State :=
  let f := getF s id
  let s := if f.out < 256 then bump s (accB f.out + R.ACC_BAD_DISCARD) else s
  let s := if f.erGroup.isSome then bump s (pgARB + R.ARB_ER_DROPPED) else s
  dropFrame s id (if f.badWhy = 0 then rsnBAD else f.badWhy)

/-- The frame stands where a fault found now discards it (R341, R342). -/
def inBuffer : Stage → Bool
  | .spraying | .queued | .store | .released => true
  | _ => false

/-- A frame or copy is found bad (R341): discarded when it is in the buffer and not granted; stomped at its end when
granted (R343), unless it is staged whole, which the check of R342 then discards; before admission only marked. -/
def markBad (s : State) (id why : Nat) : State :=
  let f := getF s id
  if f.bad || !f.live then s
  else
    let s := setF s id { f with bad := true, badWhy := why }
    if inBuffer f.stage then discardBad s id
    else if f.stage == .granted && (f.seqOut.isSome || f.erGroup.isSome) &&
        ¬ ((getP s f.out).begun && (getP s f.out).granted.head? == some id) then discardBad s id
    else s

end Sys2Proof.Machine
end

