-- ==== Sys2Proof/Machine/Traffic.lean ====
section
/-! DEFINITION. Policing, shaping and scheduling (chapter 10): charge lengths and their corrections, the policers, the
shapers' refill, and the choice that one egress grant makes (R352-R372). Levels are in 1/65,536 byte or packet. -/

namespace Sys2Proof.Machine

/-! Charge lengths (R352, R353). -/

/-- A header-vector field of a frame (R203). -/
def hvAt (f : Frame) (o n : Nat) : Nat := beAt f.hv o n

/-- Datagram length I of the L3 header at `o` of kind `k` (R204). -/
def l3Len (bs : List Byte) (o k : Nat) : Nat := if k = 4 then beAt bs (o + 2) 2 else 40 + beAt bs (o + 4) 2

/-- The length of a frame that has not ended, as R353 estimates it. -/
def estimateLen (s : State) (f : Frame) : Nat :=
  let k := hvAt f 0x4F 1
  if k = 4 ∨ k = 6 then let o := hvAt f 0x74 2; o + l3Len f.bytes o k + 4 else maxFrame s f.port

def frameLen (s : State) (f : Frame) : Nat := if f.ended then f.bytes.length else estimateLen s f

/-- A charge below 1 acts as 1 (R352). -/
def charge (len : Nat) (overhead : Int) : Int := max 1 ((len : Int) + overhead)

abbrev unit16 : Int := 65536

/-! Brand placement (R156). -/

def brandCtrl (s : State) (p : Nat) : FRef → Nat := fun f => fg s pgTT (f.fwd (4 * p))

/-- Bytes a placement adds. -/
def brandBytes (place : Nat) : Nat := if place = 1 then 24 else if place = 2 then 26 else 0

/-- The placement that BRAND_CTRL asks of this frame on port `p`, before the length check. -/
def brandWanted (s : State) (f : Frame) (p : Nat) : Nat :=
  if 256 < p ∨ f.exportSeq ≠ 0 then 0
  else
    let place := brandCtrl s p F.TT_BRAND_CTRL_PLACE
    if (place = 1 ∨ place = 2) ∧ (f.metered ∨ brandCtrl s p F.TT_BRAND_CTRL_ALL ≠ 0) then place else 0

/-- The placement with the length check: a frame whose branded length would exceed MAX_FRAME is not branded. -/
def brandFits (s : State) (f : Frame) (p place : Nat) : Bool := frameLen s f + brandBytes place ≤ maxFrame s p

def brandPlaceOf (s : State) (f : Frame) (p : Nat) : Nat :=
  let w := brandWanted s f p
  if w ≠ 0 ∧ brandFits s f p w then w else 0

/-- OVERHEAD of a port's shapers (R374). -/
def portOverhead (s : State) (p : Nat) : Int := sext 7 (cg s (schB p) F.SCH_PORT_SHAPE_CTRL_OVERHEAD)

/-- The egress charge of a frame on port `p` (R352, R353). -/
def egressCharge (s : State) (f : Frame) (p : Nat) : Int :=
  charge (frameLen s f + brandBytes (brandPlaceOf s f p)) (portOverhead s p)

/-! Policers (R355-R362). -/

def getPol (s : State) (pipe i : Nat) : Policer := tget (fun _ => {}) s.tmg.policers (pipe * 1024 + i)

def setPol (s : State) (pipe i : Nat) (p : Policer) : State :=
  { s with tmg := { s.tmg with policers := tset (fun _ => {}) s.tmg.policers (pipe * 1024 + i) p } }

/-- Fields of POL_CTRL (R373). -/
def Policer.mode (p : Policer) : Nat := bitsOf p.ctrl 0 2
def Policer.aware (p : Policer) : Bool := bitsOf p.ctrl 2 1 == 1
def Policer.src (p : Policer) : Nat := bitsOf p.ctrl 3 1
def Policer.packets (p : Policer) : Bool := bitsOf p.ctrl 4 1 == 1
def Policer.redDrop (p : Policer) : Bool := bitsOf p.ctrl 5 1 == 1
def Policer.couple (p : Policer) : Bool := bitsOf p.ctrl 6 1 == 1
def Policer.overhead (p : Policer) : Int := sext 7 (bitsOf p.ctrl 8 7)

/-- Rates and bursts as they act; in MODE 1 a PIR below CIR acts as CIR and a PBS below CBS as CBS (R355). -/
def Policer.rate1 (p : Policer) : Int := p.cir.toNat
def Policer.burst1 (p : Policer) : Int := p.cbs.toNat * 65536
def Policer.rate2 (p : Policer) : Int :=
  if p.mode = 1 then max p.pir.toNat p.cir.toNat else p.pir.toNat
def Policer.burst2 (p : Policer) : Int :=
  (if p.mode = 1 then max p.pbs.toNat p.cbs.toNat else p.pbs.toNat) * 65536

/-- One refill of both buckets; coupled overflow of bucket 1 goes to bucket 2 in MODE 2 (R356, R358). -/
def Policer.refill (p : Policer) : Policer :=
  let l1 := p.level1 + p.rate1
  let spill := if p.mode = 2 ∧ p.couple then max 0 (l1 - p.burst1) else 0
  { p with level1 := min p.burst1 l1, level2 := min p.burst2 (p.level2 + p.rate2 + spill) }

/-- The levels and counters that READ shows until the next edge (R373). -/
def Policer.mark (p : Policer) : Policer :=
  { p with edge1 := p.level1, edge2 := p.level2, edgeG := p.green, edgeY := p.yellow, edgeR := p.red,
           edgeD := p.redDropped }

/-- Both buckets full. -/
def Policer.fill (p : Policer) : Policer := { p with level1 := p.burst1, level2 := p.burst2 }

/-- Levels capped at their bursts. -/
def Policer.cap (p : Policer) : Policer :=
  { p with level1 := min p.burst1 p.level1, level2 := min p.burst2 p.level2 }

/-- Colour (0 green, 1 yellow, 2 red) and the two amounts charged, MODE 1 (R357). -/
def trtcm (inp : Nat) (tc tp c : Int) : Nat × Int × Int :=
  if inp = 2 then (2, 0, 0)
  else if tp < c then (2, 0, 0)
  else if inp = 1 then (1, 0, c)
  else if tc < c then (1, 0, c)
  else (0, c, c)

/-- MODE 2 (R358). -/
def rfc4115 (inp : Nat) (tc te c : Int) : Nat × Int × Int :=
  if inp = 2 then (2, 0, 0)
  else if inp = 1 then (if te < c then (2, 0, 0) else (1, 0, c))
  else if c ≤ tc then (0, c, 0)
  else if c ≤ te then (1, 0, c)
  else (2, 0, 0)

/-- The input colour of a frame (R359). -/
def preColour (s : State) (p : Policer) (pipe : Nat) (f : Frame) : Nat :=
  if ¬ p.aware then 0
  else if p.src = 0 then
    if hvAt f 0x33 1 = 0 then 0
    else
      let dscp := hvAt f 0x4E 1 / 4
      let c := bitsOf (rawRd s (pb (0x3A0 + pipe) + R.POL_DSCP_COLOUR + 4 * (dscp / 16))) (2 * (dscp % 16)) 2
      if c = 3 then 0 else c
  else if hvAt f 0x3D 1 ≠ 0 ∧ (hvAt f 0x40 2 / 4096) % 2 = 1 then 1 else 0

/-- Charge policer `i` of pipeline `pipe` for frame `id`: the colour, and whether the frame is dropped as red
(R352-R361). A charge made under an estimate is noted for its correction. -/
def police (s : State) (pipe i id : Nat) : Nat × Bool × State :=
  let f := getF s id
  let p := getPol s pipe i
  if p.mode = 0 ∨ p.mode = 3 then (0, false, s)
  else
    let c := if p.packets then 1 else charge (frameLen s f) p.overhead
    let inp := preColour s p pipe f
    let r := if p.mode = 1 then trtcm inp p.level1 p.level2 (c * unit16)
      else rfc4115 inp p.level1 p.level2 (c * unit16)
    let p := { p with level1 := p.level1 - r.2.1, level2 := p.level2 - r.2.2 }
    let dropped := r.1 = 2 && p.redDrop
    let wraps := (if r.1 = 0 then p.green else if r.1 = 1 then p.yellow else p.red) == BitVec.allOnes 64 ||
      (dropped && p.redDropped == BitVec.allOnes 64)
    let p := if frozen s (0x3A0 + pipe) then p else
      { p with green := if r.1 = 0 then p.green + 1 else p.green,
               yellow := if r.1 = 1 then p.yellow + 1 else p.yellow,
               red := if r.1 = 2 then p.red + 1 else p.red,
               redDropped := if dropped then p.redDropped + 1 else p.redDropped }
    let s := setPol s pipe i p
    let s := if wraps && !frozen s (0x3A0 + pipe) then raise s (0x3A0 + pipe) 0 else s
    let which := (if r.2.1 = 0 then 0 else 1) + (if r.2.2 = 0 then 0 else 2)
    let s := if f.ended || p.packets || which = 0 then s
      else { s with tmg := { s.tmg with estimates := s.tmg.estimates ++
        [{ frame := id, port := 0, cls := 8, policer := some (pipe, i, which), est := c, overhead := p.overhead }] } }
    (r.1, dropped, s)

/-! Corrections (R353). -/

/-- The true length of frame `id` is known: on ingress at its last bit, on egress at its last byte. -/
def noteActual (s : State) (id len : Nat) (egress : Bool) : State :=
  { s with tmg := { s.tmg with estimates := s.tmg.estimates.map (fun e =>
      if e.frame = id ∧ e.policer.isNone = egress ∧ e.actual.isNone then { e with actual := some len } else e) } }

/-! Shapers (R363-R365). -/

def qShape (s : State) (p c : Nat) : Bool := cgb s (schB p) (F.SCH_Q_SCHED_SHAPE_EN.fwd (12 * c))
def pShape (s : State) (p : Nat) : Bool := cgb s (schB p) F.SCH_PORT_SHAPE_CTRL_SHAPE_EN
def qBurst (s : State) (p c : Nat) : Int := cg s (schB p) (F.SCH_Q_BURST_BURST.fwd (12 * c)) * 65536
def pBurst (s : State) (p : Nat) : Int := cg s (schB p) F.SCH_PORT_SHAPE_BURST_BURST * 65536
def qLevel (s : State) (p c : Nat) : Int := tget (fun _ => 0) (getP s p).qLevel c
def setQLevel (s : State) (p c : Nat) (v : Int) : State :=
  modP s p (fun P => { P with qLevel := tset (fun _ => 0) P.qLevel c v })

/-- Correct one bucket charge: the bucket receives the estimate less the true charge, capped at its burst. -/
def correct (s : State) (e : Estimate) : State :=
  match e.actual with
  | none => s
  | some len =>
    let d := (e.est - charge len e.overhead) * unit16
    match e.policer with
    | some (pipe, i, which) =>
      let p := getPol s pipe i
      setPol s pipe i (Policer.cap { p with
        level1 := if which % 2 = 1 then p.level1 + d else p.level1,
        level2 := if 2 ≤ which then p.level2 + d else p.level2 })
    | none =>
      let s := if pShape s e.port then modP s e.port (fun P => { P with level := min (pBurst s e.port) (P.level + d) })
        else s
      if e.cls < 8 ∧ qShape s e.port e.cls then
        setQLevel s e.port e.cls (min (qBurst s e.port e.cls) (qLevel s e.port e.cls + d))
      else s

/-- Step 5, first part: the corrections whose true charge is known (R353). -/
def corrections (s : State) : State :=
  let es := s.tmg.estimates
  es.foldl correct { s with tmg := { s.tmg with estimates := es.filter (fun e => e.actual.isNone) } }

/-- The level a register shows: whole bytes, two's complement, saturating (R374). -/
def shownLevel (l : Int) : Nat := trunc 32 (max (-2147483648) (min 2147483647 (l / unit16)))

/-- Refill the shapers of one port (R356, R363) and show their levels. -/
def refillPort (s : State) (p : Nat) : State :=
  let s := if pShape s p then
      modP s p (fun P => { P with level := min (pBurst s p) (P.level + cg s (schB p) F.SCH_PORT_SHAPE_RATE_RATE) })
    else s
  let s := upTo 8 (fun s c => if qShape s p c then
      setQLevel s p c (min (qBurst s p c) (qLevel s p c + cg s (schB p) (F.SCH_Q_RATE_RATE.fwd (12 * c))))
    else s) s
  let s := fs s (schB p) F.SCH_PORT_LEVEL_LEVEL (shownLevel (getP s p).level)
  upTo 8 (fun s c => fs s (schB p) (F.SCH_Q_LEVEL_LEVEL.fwd (4 * c)) (shownLevel (qLevel s p c))) s

/-- Refill every policer that is configured or not at rest (R356). -/
def refillPolicers (s : State) : State :=
  { s with tmg := { s.tmg with policers := s.tmg.policers.map (fun e => (e.1, e.2.refill.mark)) } }

/-- A shaper configuration takes effect at this edge: `s0` holds the values in force before (R365). A lowered BURST
caps the level; SHAPE_EN falling discards it, rising starts it at BURST. -/
def applyShaper (s0 s : State) (p : Nat) : State :=
  let s := if ¬ pShape s p then (if pShape s0 p then modP s p (fun P => { P with level := 0 }) else s)
    else if ¬ pShape s0 p then modP s p (fun P => { P with level := pBurst s p })
    else modP s p (fun P => { P with level := min (pBurst s p) P.level })
  upTo 8 (fun s c =>
    if ¬ qShape s p c then (if qShape s0 p c then setQLevel s p c 0 else s)
    else if ¬ qShape s0 p c then setQLevel s p c (qBurst s p c)
    else setQLevel s p c (min (qBurst s p c) (qLevel s p c))) s

/-- A pending policer command takes hold at the edge (R362, R373): step 2. -/
def applyPol (s : State) (k : PolCmd) : State :=
  let p := getPol s k.pipe k.idx
  let p := match k.write with
    | some (ctrl, cir, cbs, pir, pbs) =>
      let p := Policer.cap { p with ctrl := ctrl, cir := cir, cbs := cbs, pir := pir, pbs := pbs }
      if k.resetLevels then p.fill else p
    | none => p
  let p := if k.clear then { p with green := 0, yellow := 0, red := 0, redDropped := 0 } else p
  setPol s k.pipe k.idx p

def applyPols (s : State) : State :=
  let ks := s.tmg.pend
  let s := ks.foldl applyPol { s with tmg := { s.tmg with pend := [] } }
  upTo 8 (fun s p => fs s (pb (0x3A0 + p)) F.POL_POL_STATUS_BUSY 0) s

/-- Buckets full and deficits 0 for a port (R371). -/
def fillPort (s : State) (p : Nat) : State :=
  let s := modP s p (fun P => { P with level := if pShape s p then pBurst s p else 0, deficit := [] })
  upTo 8 (fun s c => setQLevel s p c (if qShape s p c then qBurst s p c else 0)) s

/-- Every policer of a pipeline full (R371). -/
def fillPolicers (s : State) (pipe : Nat) : State :=
  { s with tmg := { s.tmg with policers := s.tmg.policers.map (fun e =>
      if e.1 / 1024 = pipe then (e.1, e.2.fill) else e) } }

/-! Pause (R86, R372). -/

/-- Classes that priority `i` pauses on port `p` (R372). -/
def pfcMap (s : State) (p i : Nat) : Nat :=
  let w := effRd s (schB p + (if i < 4 then R.SCH_PFC_MAP_LO else R.SCH_PFC_MAP_HI))
  bitsOf w (8 * (i % 4)) 8

/-- Class `c` of port `p` is paused by received PFC. -/
def paused (s : State) (p c : Nat) : Bool :=
  p < 256 && (getP s p).pauseEnd.any (fun e => (pfcMap s p e.1).testBit c)

/-! Eligibility and scheduling (R364, R366-R368, R393). -/

/-- The port shaper lets a grant pass. -/
def portOpen (s : State) (p : Nat) : Bool := !pShape s p || decide (0 ≤ (getP s p).level)

/-- A frame of charge `c` granted now on port `p` would occupy its transmitter at a reserved instant (R393). -/
def hitsReservation (s : State) (p : Nat) (c : Int) : Bool :=
  let start := s.tm.edgeTT + 80 * 256
  let stop := start + (c.toNat * 8 * 256) / max 1 (portRate s p)
  (getP s p).resv.any (fun e => start ≤ e.2 && e.2 < stop)

/-- The Tally withholds the frame at its release point (R409, R411). -/
def withheldNow (s : State) (id : Nat) : Bool :=
  let f := getF s id
  match releaseGate s (origOf f id) f.tracked with
  | .hold => true
  | _ => false

def queueIds (s : State) (p c : Nat) : List Nat := tget (fun _ => []) (getP s p).queue c

/-- The class queue can be granted, but for the Tally's withholding. -/
def queueReady (s : State) (p c : Nat) : Bool :=
  match queueIds s p c with
  | [] => false
  | id :: _ =>
    if !isUp s p then true
    else !paused s p c && (!qShape s p c || decide (0 ≤ qLevel s p c)) && portOpen s p &&
      !hitsReservation s p (egressCharge s (getF s id) p)

def queueEligible (s : State) (p c : Nat) : Bool :=
  queueReady s p c &&
  (match queueIds s p c with
   | [] => false
   | id :: _ => !isUp s p || !withheldNow s id)

/-- The release queue's head can be granted (R366). -/
def releaseReady (s : State) (p : Nat) : Bool :=
  match (getP s p).release with
  | [] => false
  | id :: _ =>
    if !isUp s p then true
    else
      let f := getF s id
      !paused s p f.outCls && portOpen s p &&
      (f.erGroup.isSome || !hitsReservation s p (egressCharge s f p))

/-- The port holds fewer than two granted frames that have not begun (R368). -/
def portTakes (s : State) (p : Nat) : Bool :=
  let P := getP s p
  !idled s (0x388 + pipeOf p) && !idled s (0x3B0 + p / 17) && P.granted.length < (if P.begun then 3 else 2)

def qLevelOf (s : State) (p c : Nat) : Nat := cg s (schB p) (F.SCH_Q_SCHED_LEVEL.fwd (12 * c))
def quantum (s : State) (p c : Nat) : Int := max 1 (cg s (schB p) (F.SCH_Q_SCHED_WEIGHT.fwd (12 * c))) * 64

def deficitOf (P : PortSt) (c : Nat) : Int := tget (fun _ => 0) P.deficit c

/-- The next class of `elig` after class `c` (8 = before class 0), ascending and wrapping. -/
def nextClass (elig : List Nat) (c : Nat) : Option Nat :=
  match elig.find? (fun x => decide (c < x ∧ c < 8)) with
  | some x => some x
  | none => elig.head?

/-- DWRR of one level (R367): visits until a class can be granted. `cur` is the class under visit (8 = none). Answers
the class and the port with its deficits. -/
def dwrr (s : State) (p lvl : Nat) (elig : List Nat) : Nat → PortSt → Nat → Option (Nat × PortSt)
  | 0, _, _ => none
  | fuel + 1, P, cur =>
    let headC := fun c => match queueIds s p c with
      | id :: _ => egressCharge s (getF s id) p
      | [] => 0
    let go := fun (P : PortSt) (c : Nat) =>
      some (c, { P with deficit := tset (fun _ => 0) P.deficit c (deficitOf P c - headC c),
                        visit := tset (fun _ => 0) P.visit lvl (c + 1) })
    if elig.contains cur && decide (headC cur ≤ deficitOf P cur) then go P cur
    else
      match nextClass elig (if cur < 8 then cur else 8) with
      | none => none
      | some c =>
        let P := { P with deficit := tset (fun _ => 0) P.deficit c (deficitOf P c + quantum s p c) }
        dwrr s p lvl elig fuel P c

/-- The class queue a port's scheduler grants next (R366, R367), and the port's scheduler state after the choice. -/
def pickClass (s : State) (p : Nat) : Option (Nat × PortSt) :=
  let elig := (List.range 8).filter (fun c => queueEligible s p c)
  match (List.range 8).reverse.find? (fun l => elig.any (fun c => qLevelOf s p c == l)) with
  | none => none
  | some l =>
    let P := getP s p
    let v := tget (fun _ => 0) P.visit l
    dwrr s p l (elig.filter (fun c => qLevelOf s p c == l)) 4000 P (if v = 0 then 8 else v - 1)

/-- The port at a scheduling position of a pipeline (R368). -/
def posPort (s : State) (pipe k : Nat) : Option Nat :=
  if k < 32 then portOfLane s (32 * pipe + k)
  else if k = 32 then some (257 + pipe)
  else if k = 33 ∧ pipe = 0 then some 256
  else none

/-- A grant: the port, its release queue or a class, the scheduler state after it. -/
inductive Choice where
  | release (p : Nat)
  | cls (p c : Nat) (P : PortSt) (pos : Nat)
deriving DecidableEq, Repr

/-- Ports of a pipeline, ascending. -/
def pipePorts (pipe : Nat) : List Nat :=
  (List.range 32).map (fun k => 32 * pipe + k) ++ (if pipe = 0 then [256] else []) ++ [257 + pipe]

/-- What one grant of the pipeline's egress half chooses (R368). -/
def choose (s : State) (pipe : Nat) : Option Choice :=
  match (pipePorts pipe).find? (fun p => portTakes s p && releaseReady s p) with
  | some p => some (.release p)
  | none =>
    let last := tget (fun _ => 33) s.tmg.lastPos pipe
    let order := (List.range 34).map (fun k => (last + 1 + k) % 34)
    order.findSome? (fun k =>
      match posPort s pipe k with
      | none => none
      | some p => if portTakes s p then (pickClass s p).map (fun r => .cls p r.1 r.2 k) else none)

/-- Grants are made in LIVE, DRAIN and DIAGNOSTIC; in CONTAINED none (R346, R398). -/
def forwards (s : State) : Bool := s.md.mode == .live || s.md.mode == .drain || s.md.mode == .diagnostic

end Sys2Proof.Machine
end

