-- ==== Sys2Proof/Machine/Arbiter.lean ====
section
/-! DEFINITION. The Arbiter (chapter 11): insertion into the reorder stores and the even-release store, the merge step,
the hand-off of even-release copies, late copies and misses (R376-R399). -/

namespace Sys2Proof.Machine

/-! Configuration (R389, R391). -/

/-- Event bits of output `o` on its page: LATE and STORE_FULL (R402). -/
abbrev seqPage (o : Nat) : Nat := 0x3D0 + o / 2
abbrev evLATE (o : Nat) : Nat := 2 * (o % 2)
abbrev evSTORE_FULL (o : Nat) : Nat := 2 * (o % 2) + 1

def seqEn (s : State) (o : Nat) : Bool := cgb s (seqB o) F.SEQ_SEQ_CFG_EN
def seqClass (s : State) (o : Nat) : Nat := cg s (seqB o) F.SEQ_SEQ_CFG_CLASS
def seqPort (s : State) (o : Nat) : Nat := cg s (seqB o) F.SEQ_SEQ_CFG_PORT

/-- One ply of Tally Time in 1/256 ns: 40 ns. -/
abbrev plyTT : Nat := 40 * 256

/-- H of output `o`, 1/256 ns (R379, R389). -/
def seqHold (s : State) (o : Nat) : Nat := max 5 (min 2500 (cg s (seqB o) F.SEQ_SEQ_HOLD_HOLD)) * plyTT

def erField (s : State) (k : Nat) (f : FRef) : Nat := cg s pgARB (f.fwd (16 * k))

/-- D of profile `k`, 1/256 ns (R400: qns, 4,000 to 400,000). -/
def erOffset (s : State) (k : Nat) : Nat := max 4000 (min 400000 (erField s k F.ARB_ER_OFFSET_D)) * 64

def erLateMax (s : State) (k : Nat) : Nat := max 1 (erField s k F.ARB_ER_CTRL_LATE_MAX)

/-- Change the pending entry of a tracked frame. -/
def modPend (s : State) (id : Nat) (g : Pend → Pend) : State :=
  let f := getF s id
  if !f.tracked then s
  else
    match pget s (origOf f id) with
    | some p => pset s (origOf f id) (some (g p))
    | none => s

/-! Misses (R396). -/

/-- Count a miss of reason `r`. -/
def countMiss (s : State) (r : Nat) : State := raise (bump s (pgARB + R.ARB_ER_MISS + 8 * r)) 0x3C0 0

/-- The Arbiter drops an even-release copy. -/
def dropCopy (s : State) (id reason : Nat) : State := dropFrame (bump s (pgARB + R.ARB_ER_DROPPED)) id reason

/-! Insertion (R378, R380, R392). -/

/-- Insert a frame into the reorder store of its output; it is judged late or on time here (R380). -/
def seqInsert (s : State) (id : Nat) : State :=
  let f := getF s id
  match f.seqOut with
  | none => s
  | some o =>
    if idled s (seqPage o) || idled s 0x3C0 then dropFrame s id rsnMODE
    else if 16384 ≤ storeUsed s o then
      dropFrame (raise (bump s (seqB o + R.SEQ_STORE_FULL_DROP)) (seqPage o) (evSTORE_FULL o)) id rsnSTORE_FULL
    else
      let s := bump s (seqB o + R.SEQ_INSERTED)
      let late := decide (f.cap.t + seqHold s o ≤ s.tm.edgeTT)
      let s := setF s id { f with stage := .store, isLate := late }
      setStore s o (tget (fun _ => []) s.arb.stores o ++ [id])

/-- The lane of port `p` that will carry a copy's reference bit: the spec states no rule for it, so one of the port's
lanes by a free value (log entry 10). -/
def refLane (s : State) (p : Nat) : Nat × State :=
  let ls := portLanes s p
  let v := free s
  (ls.getD (v.1 % max 1 ls.length) p, v.2)

/-- Launch target A of a copy, 1/256 ns (R391). -/
def launchTarget (s : State) (f : Frame) (l : Nat) : Nat :=
  f.cap.t + erOffset s f.profile - cg s pgCAL (F.CAL_DEMARC_TX_DELAY.fwd (4 * f.out)) - txDelay s l

/-- The hand-off instant A − 160 ns lies below TT + 40 ns (R394). -/
def handDue (a tt : Nat) : Bool := a < tt + 200 * 256

/-- Insert an even-release copy and post its reservation (R392). -/
def erInsert (s : State) (id : Nat) : State :=
  if idled s 0x3C0 then dropCopy s id rsnMODE
  else if 65536 ≤ s.arb.erStore.length then
    dropCopy (raise (countMiss s 8) 0x3C0 1) id rsnSTORE_FULL
  else
    let f := getF s id
    let l := refLane s f.out
    let s := l.2
    let a := launchTarget s f l.1
    let s := bump s (pgARB + R.ARB_ER_INSERTED)
    let s := setF s id { f with stage := .store, launchA := a,
                                isLate := handDue a s.tm.edgeTT }
    let s := modP s f.out (fun P => { P with resv := P.resv ++ [(id, a)] })
    setErStore s (s.arb.erStore ++ [id])

/-! The merge step (R379-R388). -/

/-- A due frame with its key: T, tie value V (0 where no other due frame has its T), ingress port. -/
structure Key where
  t : Nat
  v : Nat
  port : Nat
  id : Nat
deriving DecidableEq, Repr

/-- The tie value of R385. -/
def tieValue (s : State) (t port : Nat) : Nat :=
  beNat ((sha256 (keyBytes s.arb.key ++ beBytes 8 (brandTT t) ++ beBytes 2 port)).take 8)

def Key.le (a b : Key) : Bool :=
  if a.t ≠ b.t then decide (a.t < b.t) else if a.v ≠ b.v then decide (a.v < b.v) else decide (a.port ≤ b.port)

def insertKey (k : Key) : List Key → List Key
  | [] => [k]
  | x :: xs => if x.le k then x :: insertKey k xs else k :: x :: xs

def sortKeys (l : List Key) : List Key := l.foldl (fun acc k => insertKey k acc) []

/-- The due frames of an output in key order. -/
def dueKeys (s : State) (o : Nat) : List Key :=
  let h := seqHold s o
  let ids := (tget (fun _ => []) s.arb.stores o).filter (fun id => decide ((getF s id).cap.t + h ≤ s.tm.edgeTT))
  let ts := ids.map (fun id => (getF s id).cap.t)
  sortKeys (ids.map (fun id =>
    let f := getF s id
    let tied := 1 < (ts.filter (· = f.cap.t)).length
    { t := f.cap.t, v := if tied then tieValue s f.cap.t f.cap.port else 0, port := f.cap.port, id := id }))

/-- Late frames that LATE_POLICY drops (R381). -/
def dropLate (o : Nat) (s : State) (k : Key) : State :=
  if (getF s k.id).isLate then
    dropFrame (raise (bump s (seqB o + R.SEQ_LATE_DROPPED)) (seqPage o) (evLATE o)) k.id rsnLATE_DROP
  else s

/-- The frames that a merge step releases: in key order up to the first the Tally withholds, at most `n`. Answers the
released, the deferred, and the state (withheld and MARK frames noted). -/
def takeKeys : Nat → List Key → State → List Key × Nat × State
  | _, [], s => ([], 0, s)
  | 0, ks, s => ([], ks.length, s)
  | n + 1, k :: ks, s =>
    let f := getF s k.id
    let o := origOf f k.id
    match releaseGate s o f.tracked with
    | .hold => ([], 0, noteWithheld s o)
    | .mark =>
      let s := setF (markUnrecorded s o) k.id { f with unmeteredMark := true, tracked := false }
      let r := takeKeys n ks s
      (k :: r.1, r.2)
    | .go =>
      let r := takeKeys n ks s
      (k :: r.1, r.2)

/-- Release one frame of output `o`; `tie` marks equal T within this step (R382, R387). -/
def releaseOne (o : Nat) (tied : Nat → Bool) (s : State) (k : Key) : State :=
  let f := getF s k.id
  let p := f.out
  let s := setStore s o ((tget (fun _ => []) s.arb.stores o).filter (· ≠ k.id))
  if !isUp s p then dropFrame (bump s (seqB o + R.SEQ_LINK_DROP)) k.id rsnLINK
  else
    let tie := tied k.t
    let s := setF s k.id { f with stage := .released, flagLate := f.isLate, flagReleased := !f.isLate,
                                  flagTie := tie }
    let s := modPend s k.id (fun e => { e with late := f.isLate, released := !f.isLate, tie := tie })
    let s := if f.isLate then bump s (seqB o + R.SEQ_LATE_SENT)
      else wr64 (bump s (seqB o + R.SEQ_ON_TIME)) (seqB o + R.SEQ_LAST_TT) (brandTT k.t)
    let s := if tie then { bump s (seqB o + R.SEQ_TIES) with ev := { s.ev with tieUsed := true } } else s
    modP s p (fun P => { P with release := P.release ++ [k.id] })

/-- The merge step of one output (R379). -/
def mergeOutput (s : State) (o : Nat) : State :=
  let due := dueKeys s o
  if due.isEmpty then s
  else
    let s := if cgb s (seqB o) F.SEQ_SEQ_CFG_LATE_POLICY then due.foldl (dropLate o) s else s
    let due := due.filter (fun k => (getF s k.id).live)
    let r := takeKeys 128 due s
    let s := bumpN r.2.2 (seqB o + R.SEQ_DEFERRED) r.2.1
    let tied := fun t => decide (1 < (r.1.filter (fun k => k.t = t)).length)
    r.1.foldl (releaseOne o tied) (perf s 0x3C0 0x60 r.1.length)

/-! The hand-off (R394-R397, R399). -/

/-- Why a copy whose hand-off is due cannot launch on time at this edge, if so; `prevTT` is TT of the edge before. -/
def missCause (s : State) (id prevTT : Nat) : Option Nat :=
  let f := getF s id
  if !isUp s f.out then some 4
  else if f.isLate then some 0
  else if handDue f.launchA prevTT && s.arb.contained then some 6
  else if paused s f.out f.outCls then some 1
  else if !portOpen s f.out then some 2
  else if withheldNow s id then some 5
  else none

/-- The cause of a late copy has cleared (R396). A BUSY copy waits at the launch gate instead. -/
def causeClear (s : State) (id r : Nat) : Bool :=
  let f := getF s id
  match r with
  | 1 => !paused s f.out f.outCls
  | 2 => portOpen s f.out
  | 5 => !withheldNow s id
  | _ => true

/-- Release a frame that MARK lets go unrecorded (R409). -/
def applyMark (s : State) (id : Nat) : State :=
  let f := getF s id
  match releaseGate s (origOf f id) f.tracked with
  | .mark => setF (markUnrecorded s (origOf f id)) id { f with unmeteredMark := true, tracked := false }
  | _ => s

/-- A copy misses with reason `r` (R396): dropped, or kept to be sent late. -/
def missCopy (s : State) (id r : Nat) : State :=
  let f := getF s id
  let s := countMiss s r
  let s := modP s f.out (fun P => { P with resv := P.resv.filter (fun e => e.1 ≠ id) })
  if r = 4 ∨ r = 8 ∨ erField s f.profile F.ARB_ER_CTRL_LATE_POLICY ≠ 0 then
    dropCopy s id (if r = 4 then rsnLINK else if r = 8 then rsnSTORE_FULL else rsnLATE_DROP)
  else
    let s := if r = 5 then noteWithheld s (origOf f id) else s
    let s := setF s id { getF s id with missed := some r, handed := some (plyNat s), flagLate := true }
    modP s f.out (fun P => { P with lateWait := P.lateWait ++ [id] })

/-- Hand off one due copy (R394). -/
def handOne (prevTT : Nat) (s : State) (id : Nat) : State :=
  let s := setErStore s (s.arb.erStore.filter (· ≠ id))
  match missCause s id prevTT with
  | some r => missCopy s id r
  | none =>
    let s := applyMark s id
    let f := getF s id
    let c := egressCharge s f f.out
    let s := if pShape s f.out then modP s f.out (fun P => { P with level := P.level - c * unit16 }) else s
    let s := setF s id { f with stage := .granted, handed := some (plyNat s), flagReleased := true,
                                grantPly := plyNat s, brandPlace := brandPlaceOf s f f.out }
    modP s f.out (fun P => { P with gate := P.gate ++ [id] })

/-- Insert by launch target, rising (R388). -/
def insertTarget (s : State) (id : Nat) : List Nat → List Nat
  | [] => [id]
  | x :: xs => if (getF s x).launchA ≤ (getF s id).launchA then x :: insertTarget s id xs else id :: x :: xs

/-- Copies whose cause has cleared enter the release queue (R396). -/
def clearLate (s : State) (p : Nat) : State :=
  (getP s p).lateWait.foldl (fun s id =>
    match (getF s id).missed with
    | some r =>
      if causeClear s id r then
        let s := applyMark s id
        let s := setF s id { getF s id with stage := .released }
        modP s p (fun P => { P with lateWait := P.lateWait.filter (· ≠ id), release := P.release ++ [id] })
      else s
    | none => s) s

/-- The even-release instant check of an edge. -/
def handOff (s : State) (prevTT : Nat) : State :=
  let due := s.arb.erStore.filter (fun id => handDue (getF s id).launchA s.tm.edgeTT)
  let sorted := due.foldl (fun acc id => insertTarget s id acc) []
  let s := sorted.foldl (handOne prevTT) s
  let ports := (s.ports.filter (fun e => !e.2.lateWait.isEmpty)).map (fun e => e.1)
  ports.foldl clearLate s

/-- Step 6 of an edge (R44): even-release copies, then sequenced outputs in ascending order (R388). In CONTAINED
neither runs and no LATE_MAX ply is counted (R399). -/
def arbiterStep (s : State) (prevTT : Nat) : State :=
  if s.md.mode == .contained then
    let ids := framesWhere s (fun _ f => f.missed.isSome)
    let s := ids.foldl (fun s id => modF s id (fun f => { f with handed := f.handed.map (· + 1) })) s
    { s with arb := { s.arb with contained := true } }
  else if forwards s then
    let s := handOff s prevTT
    let s := upTo 32 mergeOutput s
    { s with arb := { s.arb with contained := false } }
  else s

end Sys2Proof.Machine
end

