-- ==== Sys2Proof/Machine/SwitchCore.lean ====
section
/-! DEFINITION. The switch core (chapter 09): admission with WRED, multicast and mirror copies, the sprayer and the
planes, the resequencers, the partition check and the discards of R346. -/

namespace Sys2Proof.Machine

/-- Core cycles since ply 0. -/
def nowCycles (s : State) : Nat := plyNat s * 64 + s.tm.cycle

def cellsOf (n : Nat) : Nat := (n + 255) / 256

/-! The sprayer (R320-R322, R340). -/

def usable (s : State) (p : Nat) : Bool :=
  (fg s pgSC F.SC_PLANE_STATUS_USABLE).testBit p && decide (bankUsed s p < 73728)

/-- The next usable plane after the plane of the cell issued before (R321). -/
def nextPlane (s : State) (pipe : Nat) : Option Nat :=
  let last := tget (fun _ => 7) s.core.lastPlane pipe
  ((List.range 8).map (fun k => (last + 1 + k) % 8)).find? (usable s)

/-- The stream of a frame: ingress pipeline, egress pipeline, class (R321). -/
def streamOf (f : Frame) : Nat := pipeOf f.port * 64 + pipeOf f.out * 8 + f.outCls

/-- Issue one cell (R321); with no usable plane its frame is bad (R322). -/
def sprayCell (pipe : Nat) (s : State) (i : SprayItem) : State :=
  let f := getF s i.frame
  if !f.live then s
  else
    match nextPlane s pipe with
    | none =>
      markBad (bump s (egpB (pipeOf f.out) + R.EGP_BANK_FULL_DROP)) i.frame rsnBAD
    | some p =>
      let st := streamOf f
      let q := tget (fun _ => 0) s.core.nextSeq st
      let s := moveBank s p 1
      let s := setF s i.frame { f with banks := f.banks ++ [p] }
      { s with core := { s.core with
        lastPlane := tset (fun _ => 7) s.core.lastPlane pipe p,
        nextSeq := tset (fun _ => 0) s.core.nextSeq st ((q + 1) % 4096),
        flight := s.core.flight ++ [{ frame := i.frame, idx := i.idx, last := i.last, stream := st, seq := q,
                                      plane := p }] } }

def sprayList (s : State) (pipe : Nat) : List SprayItem := tget (fun _ => []) s.core.spray pipe

/-- Cells of copies waiting in the replication queue (R340). -/
def replDepth (s : State) (pipe : Nat) : Nat := ((sprayList s pipe).filter (·.isCopy)).length

def setSpray (s : State) (pipe : Nat) (l : List SprayItem) : State :=
  let s := { s with core := { s.core with spray := tset (fun _ => []) s.core.spray pipe l } }
  let n := replDepth s pipe
  peak (fs s (egpB pipe) F.EGP_REPL_QUEUE_DEPTH n) (egpB pipe) F.EGP_REPL_QUEUE_PEAK n

/-- Issue up to `n` waiting cells of a pipeline in order. -/
def spraySome (n : Nat) (s : State) (pipe : Nat) : State :=
  let l := sprayList s pipe
  if l.isEmpty then s
  else (l.take n).foldl (sprayCell pipe) (setSpray s pipe (l.drop n))

/-- Cells of a frame that are known by now: all when it has ended, else those that another byte follows. -/
def knownCells (f : Frame) : Nat := if f.ended then cellsOf f.bytes.length else (f.bytes.length - 1) / 256

/-- Queue the new cells of frame `id` for the sprayer; a frame's cells wait only behind copies (R321, R340). -/
def pushCells (s : State) (id : Nat) : State :=
  let f := getF s id
  let n := min (knownCells f) f.resv
  if n ≤ f.sprayed then s
  else
    let pipe := pipeOf f.port
    let items := (List.range (n - f.sprayed)).map (fun k =>
      ({ frame := id, idx := f.sprayed + k, last := f.ended && f.sprayed + k + 1 == n,
         isCopy := f.isCopy || f.isMirror } : SprayItem))
    let s := setF s id { f with sprayed := n }
    let s := setSpray s pipe (sprayList s pipe ++ items)
    if replDepth s pipe = 0 then spraySome (sprayList s pipe).length s pipe else s

/-! WRED (R335, R336). -/

/-- Thresholds of profile `w` for a colour: MIN_TH, P_MAX, MAX_TH. -/
def wredProfile (s : State) (w colour : Nat) : Nat × Nat × Nat :=
  let b := 0x100 + 32 * w + 8 * (min colour 2)
  (fg s pgSC (F.SC_GREEN_MIN_MIN_TH.fwd b), fg s pgSC (F.SC_GREEN_MIN_P_MAX.fwd b),
   fg s pgSC (F.SC_GREEN_MAX_MAX_TH.fwd b))

def wredAvg (s : State) (p c : Nat) : Nat := tget (fun _ => 0) s.core.avg (p * 8 + c)

/-- The decision of R335: whether the frame is selected, whether avg is below MAX_TH. -/
def wredSelect (avg minTh pMax maxTh r : Nat) : Bool :=
  if avg < minTh * 65536 then false
  else if maxTh * 65536 ≤ avg then true
  else r * ((maxTh - minTh) * 65536) < pMax * 256 * (avg - minTh * 65536)

/-- Meet the WRED profile of the egress queue: answers whether the frame is dropped. -/
def wred (s : State) (id : Nat) (lossless : Bool) : Bool × State :=
  let f := getF s id
  if 256 ≤ f.out then (false, s)
  else
    let q := fun (r : FRef) => cg s (accB f.out) (r.fwd (4 * f.outCls))
    let w := q F.ACC_QCFG_WRED_PROFILE
    if w = 0 then (false, s)
    else
      let pipe := pipeOf f.out
      let x := Config.lfsrNext (tget (fun _ => 1) s.core.lfsr pipe)
      let s := { s with core := { s.core with lfsr := tset (fun _ => 1) s.core.lfsr pipe x } }
      let t := wredProfile s w f.colour
      let avg := wredAvg s f.out f.outCls
      if ¬ wredSelect avg t.1 t.2.1 t.2.2 (x.toNat % 65536) then (false, s)
      else
        let ecn := hvAt f 0x4E 1 % 4
        if q F.ACC_QCFG_ECN_EN ≠ 0 ∧ hvAt f 0x33 1 ≠ 0 ∧ (ecn = 1 ∨ ecn = 2) ∧ avg < t.2.2 * 65536 then
          (false, bump (setF s id { f with ecnMark := true }) (accB f.out + R.ACC_ECN_MARKED))
        else if lossless then (false, s)
        else (true, bump s (accB f.out + R.ACC_WRED_DROP))

/-- Step of the averages at an edge (R335): avg moves toward the use of the ply that ends. -/
def wredAverages (s : State) : State :=
  let step := fun (s : State) (p c : Nat) =>
    let w := cg s (accB p) (F.ACC_QCFG_WRED_PROFILE.fwd (4 * c))
    let W := if w = 0 then 0 else fg s pgSC (F.SC_WRED_AVG_W.fwd (0x100 + 32 * w))
    let q := accUse s (.queue p c) * 65536
    let a := wredAvg s p c
    let a' := ((a : Int) + ((q : Int) - a) / (2 ^ W : Nat)).toNat
    { s with core := { s.core with avg := tset (fun _ => 0) s.core.avg (p * 8 + c) a' } }
  upTo 256 (fun s p => upTo 8 (fun s c => step s p c) s) s

/-! Admission (R328). -/

/-- The counter of a pool's refusals (R328, R345). -/
def poolDrop : Account → Nat
  | .mirror => pgSC + R.SC_MIRROR_DROP
  | .host => pgSC + R.SC_HOST_POOL_DROP
  | .recirc p => pgSC + R.SC_RECIRC_POOL_DROP + 8 * p
  | _ => pgSC + R.SC_MIRROR_DROP

/-- The test of R328 against the account; answers whether it is refused. -/
def limitTest (s : State) (a : Account) (n : Nat) : Bool × State :=
  match a with
  | .queue p c =>
    if scaled s (cg s (accB p) (F.ACC_QCFG_QLIMIT.fwd (4 * c))) < accUse s a + n then
      (true, bump s (accB p + R.ACC_LIMIT_DROP))
    else (false, s)
  | .lossless p b =>
    if ingLimit s p b + headroom s p b < accUse s a + n then
      let s := bump s (accB p + R.ACC_HEADROOM_DROP)
      let s := fs s (accB p) F.ACC_LL_STATUS_OVERRUN 1
      (true, raise s 0x380 4)
    else (false, s)
  | .none => (false, s)
  | a => if poolLimit s a < accUse s a + n then (true, bump s (poolDrop a)) else (false, s)

/-- A block between admission and the egress port is idled (R582). -/
def txIdled (s : State) (p : Nat) : Bool :=
  idled s 0x380 || idled s (0x388 + pipeOf p) || idled s (0x390 + p / 16) || idled s (0x3B0 + p / 17)

/-- Admit frame or copy `id`, whose egress port and class stand in it. Answers whether it was admitted; a refused one
is dropped (R328, R329, R335). -/
def admitOne (s : State) (id : Nat) : Bool × State :=
  let f := getF s id
  let a := accountOf s f
  let n := cellsOf (maxFrame s f.port)
  let t := limitTest s a n
  if txIdled s f.out then (false, dropFrame s id rsnMODE)
  else if t.1 then (false, dropFrame t.2 id rsnLIMIT)
  else
    let w := match a with
      | .queue _ _ => wred t.2 id false
      | .lossless _ _ => wred t.2 id true
      | _ => (false, t.2)
    if w.1 then (false, dropFrame w.2 id rsnWRED)
    else
      let f := getF w.2 id
      let have_ := if f.ended then min n (cellsOf f.bytes.length) else n
      let s := setF (moveUse w.2 a have_) id { f with acct := a, resv := have_, stage := .spraying, sprayed := 0 }
      (true, pushCells s id)

/-- The unused part of the reservation is returned when the frame ends (R328). -/
def trimResv (s : State) (id : Nat) : State :=
  let f := getF s id
  let n := cellsOf f.bytes.length
  if n < f.resv then setF (moveUse s f.acct ((n : Int) - f.resv)) id { f with resv := n } else s

/-! Bytes of copies (R318, R345). -/

/-- A frame's bytes cut to `n` with a recomputed FCS. -/
def cutFrame (bs : List Byte) (n : Nat) : List Byte :=
  let body := bs.take (n - 4)
  body ++ fcsBytes (crc32 body)

/-- What a copy holds of its original. -/
def copyBytes (f : Frame) (cut : Nat) : Frame :=
  if cut ≠ 0 ∧ cut < f.bytes.length then
    { f with bytes := cutFrame f.bytes cut, ended := true, fcsGood := true, cutAt := cut }
  else { f with cutAt := cut }

/-! Multicast and mirroring (R337-R340, R345). -/

/-- The copy does not fit in the replication queue (R340). -/
def replFull (s : State) (f : Frame) : Bool :=
  let n := if f.ended then cellsOf f.bytes.length else cellsOf (maxFrame s f.port)
  decide (4096 < replDepth s (pipeOf f.port) + n)

/-- Make one copy and judge its admission. Answers whether it was admitted. -/
def placeCopy (s : State) (f : Frame) : Bool × State :=
  let pipe := pipeOf f.port
  let a := addF s f
  let s := a.2
  if replFull s f then
    (false, dropFrame (raise (bump s (egpB pipe + R.EGP_REPL_DROP)) (0x388 + pipe) 1) a.1 rsnLIMIT)
  else admitOne s a.1

/-- Members of a group to which a copy is made, ascending, and the number of bad members (R338). -/
def groupTargets (s : State) (g : Group) (src : Nat) : List Nat × Nat :=
  let all := (List.range 256).filter (fun p => g.members.getLsbD p && !(g.srcPrune && p == src))
  let good := all.filter (fun p => portMapped s p)
  (good, all.length - good.length)

/-- One copy of frame `id` to port `p`. -/
def multicastCopy (id : Nat) (f : Frame) (g : Group) (s : State) (p : Nat) : State :=
  let pipe := pipeOf f.port
  let prof := tget (fun _ => 0) s.arb.erGroup f.verdict.egress
  let cls := if g.evenRelease then erField s prof F.ARB_ER_CTRL_CLASS else f.verdict.cls
  let c : Frame := { f with isCopy := true, orig := id, out := p, outCls := cls,
                            erGroup := if g.evenRelease then some f.verdict.egress else none, profile := prof }
  let s := bump s (egpB pipe + R.EGP_COPIES)
  let r := placeCopy s c
  if r.1 then r.2 else if f.port < 256 then bump r.2 (accB f.port + R.ACC_COPY_DROP) else r.2

/-- A metered frame of a group: its pending entry waits for `n` copies (R338, R414). -/
def expectCopies (s : State) (id n : Nat) (er : Bool) : State :=
  let f := getF s id
  if !f.tracked then s
  else
    let s := modPend s id (fun p => { p with isGroup := true, evenRelease := er, copiesLeft := n })
    if n = 0 then setOutcome s id (if er then 4 else 3) 0 else s

def getGroup (s : State) (g : Nat) : Group := tget (fun _ => {}) s.core.groups g

/-- A frame sent to a multicast group (R337, R338). An invalid group's drop reason is not stated: a free value. -/
def admitGroup (s : State) (id : Nat) : State :=
  let f := getF s id
  let g := getGroup s f.verdict.egress
  if !g.valid then
    let s := if f.port < 256 then bump s (accB f.port + R.ACC_COPY_DROP) else s
    let v := free s
    dropFrame v.2 id (v.1 % 256)
  else
    let t := groupTargets s g f.cap.port
    let s := if t.2 = 0 then s else raise s 0x380 5
    let s := expectCopies s id t.1.length g.evenRelease
    let s := t.1.foldl (multicastCopy id f g) s
    endFrame s id

/-- The mirror copy of a frame (R345). -/
def mirrorCopy (s : State) (id : Nat) : State :=
  let f := getF s id
  let c := fun (r : FRef) => fg s pgMC (r.fwd (4 * f.verdict.session))
  let dest := c F.MCM_MIRROR_CFG_DEST
  if c F.MCM_MIRROR_CFG_EN = 0 ∨ 256 < dest ∨ idled s 0x381 then s
  else
    let m := copyBytes { f with isMirror := true, orig := id, out := dest, outCls := c F.MCM_MIRROR_CFG_CLASS,
                                metered := false, tracked := false, edit := [], ecnMark := false, seqOut := none }
      (64 * c F.MCM_MIRROR_CFG_TRUNC)
    (placeCopy s m).2

/-- The egress port at which a frame found bad before admission counts (R341); 512 = none. -/
def badPort (s : State) (v : Verdict) : Nat :=
  match v.kind with
  | 0 => v.egress
  | 1 => if v.egress < 32 then seqPort s v.egress else 512
  | _ => 512

/-- A frame reaches the switch core (R326-R340, R377). -/
def admitFrame (s : State) (id : Nat) : State :=
  let f := getF s id
  if !f.live || f.stage != .flowDone then s else
  let s := if f.verdict.doMirror then mirrorCopy s id else s
  if !f.verdict.fwd then endFrame s id
  else if f.bad then discardBad (setF s id { f with out := badPort s f.verdict }) id
  else
    match f.verdict.kind with
    | 0 =>
      if 264 < f.verdict.egress then dropFrame s id rsnACTION
      else (admitOne (setF s id { f with out := f.verdict.egress, outCls := f.verdict.cls }) id).2
    | 1 =>
      let o := f.verdict.egress
      if 31 < o then dropFrame (raise (bump s (pgARB + R.ARB_SEQ_BAD_OUTPUT)) 0x3C0 2) id rsnBAD_OUTPUT
      else if !seqEn s o then dropFrame (bump s (seqB o + R.SEQ_DISABLED_DROP)) id rsnDISABLED
      else (admitOne (setF s id { f with out := seqPort s o, outCls := seqClass s o, seqOut := some o }) id).2
    | _ => if idled s 0x381 then dropFrame s id rsnMODE else admitGroup s id

/-! The resequencers (R323-R325). -/

def getR (s : State) (st : Nat) : Reseq := tget (fun _ => {}) s.core.reseq st
def setR (s : State) (st : Nat) (r : Reseq) : State :=
  { s with core := { s.core with reseq := tset (fun _ => {}) s.core.reseq st r } }

/-- The frame may go cut-through (R31, R32): a class queue that is empty, an egress port no faster than its ingress. -/
def cutThroughNow (s : State) (f : Frame) : Bool :=
  f.seqOut.isNone && f.erGroup.isNone && (queueIds s f.out f.outCls).isEmpty &&
  decide (portRate s f.out ≤ portRate s f.port)

def enqueue (s : State) (id : Nat) (ct : Bool) : State :=
  let f := getF s id
  let s := setF s id { f with stage := .queued, cutThrough := ct }
  modP s f.out (fun P => { P with queue := tset (fun _ => []) P.queue f.outCls (queueIds s f.out f.outCls ++ [id]) })

/-- A cell leaves its resequencer (R325, R378, R392). -/
def passCell (s : State) (c : Cell) : State :=
  let egp := egpB (c.stream / 8 % 8)
  let s := bump s (egp + R.EGP_CELLS_IN)
  let s := peak s egp F.EGP_RESEQ_WAIT_PEAK (min 255 (nowCycles s - c.arr))
  let f := getF s c.frame
  if !f.live then s
  else
    let f := { f with passed := f.passed + 1 }
    let s := setF s c.frame f
    let s := if c.idx = 0 ∧ ¬ c.last ∧ f.stage = .spraying ∧ cutThroughNow s f then enqueue s c.frame true else s
    if c.last ∧ f.stage = .spraying ∧ (getF s c.frame).stage = .spraying then
      if f.seqOut.isSome then seqInsert s c.frame
      else if f.erGroup.isSome then erInsert s c.frame
      else enqueue s c.frame false
    else s

/-- Pass cells on while the expected one is held. -/
def drainReseq : Nat → State → Nat → State
  | 0, s, _ => s
  | n + 1, s, st =>
    let r := getR s st
    match r.held.find? (fun c => c.seq == r.expected) with
    | none => s
    | some c =>
      let s := setR s st { expected := (r.expected + 1) % 4096, held := r.held.filter (fun x => x.seq ≠ c.seq) }
      drainReseq n (passCell s c) st

/-- A cell reaches its resequencer (R323). -/
def cellArrives (s : State) (c : Cell) : State :=
  let s := { s with core := { s.core with flight := s.core.flight.filter (· ≠ c) } }
  let r := getR s c.stream
  if (c.seq + 4096 - r.expected) % 4096 < 1024 then
    let s := setR s c.stream { r with held := r.held ++ [{ c with arr := nowCycles s }] }
    drainReseq 1024 s c.stream
  else bump s (egpB (c.stream / 8 % 8) + R.EGP_RESEQ_STALE)

/-- The number of cycles a resequencer waits (R347). -/
def reseqTimeout (s : State) : Nat := max 1 (fg s pgSC F.SC_RESEQ_CFG_TIMEOUT)

/-- The earliest arrival among held cells. -/
def earliest : List Cell → Nat
  | [] => 0
  | [c] => c.arr
  | c :: cs => min c.arr (earliest cs)

/-- The distance of the lowest held number from the expected one. -/
def lowestHeld (r : Reseq) : Nat :=
  r.held.foldl (fun m c => min m ((c.seq + 4096 - r.expected) % 4096)) 4096

/-- The resequencer's timeout for the expected cell has expired (R324). -/
def timeoutDue (s : State) (st : Nat) : Bool :=
  let r := getR s st
  !r.held.isEmpty && r.held.all (fun c => c.seq ≠ r.expected) && decide (earliest r.held + reseqTimeout s ≤ nowCycles s)

/-- Cells not yet arrived of a stream with sequence number `q`. -/
def missingCell (s : State) (st q : Nat) : Option Cell :=
  (s.core.lost ++ s.core.flight).find? (fun c => c.stream == st && c.seq == q)

/-- Declare the missing cells below the lowest held one lost (R324). -/
def declareLost (s : State) (st : Nat) : State :=
  let r := getR s st
  let d := lowestHeld r
  let p := st / 8 % 8
  let s := raise (bump s (egpB p + R.EGP_RESEQ_LOSS)) (0x388 + p) 0
  let s := setR s st { r with expected := (r.expected + d) % 4096 }
  let s := upTo d (fun s k =>
    let q := (r.expected + k) % 4096
    match missingCell s st q with
    | some c =>
      let s := { s with core := { s.core with lost := s.core.lost.filter (· ≠ c) } }
      markBad s c.frame rsnBAD
    | none => s) s
  drainReseq 1024 s st

/-! Planes (R322). -/

def planeFaulted (s : State) (p : Nat) : State :=
  let s := fs s pgSC (F.SC_PLANE_STATUS_FAULT) (fg s pgSC F.SC_PLANE_STATUS_FAULT ||| 2 ^ p)
  let gone := s.core.flight.filter (fun c => c.plane == p)
  let s := { s with core := { s.core with
    flight := s.core.flight.filter (fun c => c.plane ≠ p), lost := s.core.lost ++ gone } }
  raise s 0x380 2

/-- USABLE and SCALED for the coming ply. -/
def planeStep (s : State) : State :=
  let u := fg s pgSC F.SC_PLANE_CTRL_PLANE_EN &&& (255 - fg s pgSC F.SC_PLANE_STATUS_FAULT)
  fs (fs s pgSC F.SC_PLANE_STATUS_USABLE u) pgSC F.SC_PARTITION_SCALED (if u = 255 then 0 else 1)

/-! The partition (R331). -/

/-- Cells that the register word at `a` contributes to the checked sum. -/
def limitShare (s : State) (a : Nat) (w : Word) : Nat :=
  let v := bitsOf w 0 20
  let o := a % 0x1000
  if 0x390000 ≤ a ∧ a < 0x3A0000 then
    let r := (o - 0x400) % 0xC0
    if o < 0x400 then 0
    else if r < 0x20 then (if isLossless s (r / 4) then 0 else v)
    else if r = 0x40 ∨ r = 0x44 then (if fgb s pgSC F.SC_SC_CLASS_LL_A_EN then v else 0)
    else if r = 0x48 ∨ r = 0x4C then
      (if (List.range 8).any (isLLB s) then v else 0)
    else 0
  else if a / 0x1000 = 0x380 then
    if o = 0x54 ∨ o = 0x58 ∨ (0x60 ≤ o ∧ o < 0x80) then v else 0
  else 0

/-- The checked sum of R331; words at their reset value 0 contribute nothing. -/
def partitionSum (s : State) : Nat := s.regs.foldl (fun n e => n + limitShare s e.1 e.2) 0

/-- A write of a buffer limit (R331). -/
def limitOp (s : State) (addr : Nat) (v : Word) : Res × State :=
  let s' := rawWr s addr v
  let n := partitionSum s'
  if 589824 < n then (.error, raise s 0x380 3)
  else (.ok, fs s' pgSC F.SC_PARTITION_SUM n)

/-! The free-list check (R319). -/

/-- Cells of bank `b` that live frames own. -/
def ownedCells (s : State) (b : Nat) : Nat :=
  s.frames.foldl (fun n e => n + (e.2.banks.filter (· = b)).length) 0

def freeUnowned (s : State) : State :=
  upTo 8 (fun s b => moveBank s b ((ownedCells s b : Int) - bankUsed s b)) s

/-! Discards (R346). -/

/-- Frames that stand in the packet buffer. -/
def stored (st : Stage) : Bool := inBuffer st || st == .granted

/-- Discard every stored frame; the Tally records metered ones as dropped. -/
def discardStored (s : State) : State :=
  let ids := framesWhere s (fun _ f => stored f.stage)
  let s := ids.foldl (fun s id => dropFrame s id rsnMODE) s
  { s with core := { s.core with flight := [], lost := [], spray := [], reseq := [], nextSeq := [] } }

/-- One core cycle of the sprayers: 8 cells of each pipeline (R320). -/
def sprayCycle (s : State) : State := upTo 8 (spraySome 8) s

end Sys2Proof.Machine
end

