-- ==== Sys2Proof/Machine/Egress.lean ====
section
/-! DEFINITION. The egress half: grants (R366-R368), egress edit and checksums (R271, R336), the Brand (R154-R156),
stomping (R343), launch of even-release copies (R394-R396), the end of a transmission and its outcome (R339, R414),
recirculation (R27) and the discards of a port that is not UP (R81, R82, R387). -/

namespace Sys2Proof.Machine

/-! Checksums (R271). -/

/-- Sum of the 16-bit words of a byte list, an odd last byte padded with 0. -/
def sum16 : List Byte → Nat
  | [] => 0
  | [a] => a.toNat * 256
  | a :: b :: t => a.toNat * 256 + b.toNat + sum16 t

/-- Fold to 16 bits with end-around carry; three rounds suffice below 2^32. -/
def fold16 (n : Nat) : Nat :=
  let r := fun x => x % 65536 + x / 65536
  r (r (r n))

/-- The checksum field over bytes whose own field is 0. -/
def inetSum (bs : List Byte) : Nat := 65535 - fold16 (sum16 bs)

/-- Recompute the checksum of the IPv4 header at `o`. -/
def fixIPv4 (bs : List Byte) (o : Nat) : List Byte :=
  let n := (beAt bs o 1 % 16) * 4
  let z := splice bs (o + 10) [0, 0]
  splice bs (o + 10) (beBytes 2 (inetSum (slice z o n)))

/-- Recompute every IPv4 header that differs from `old`. -/
def fixL3s (old : List Byte) (l3s : List (Nat × Nat)) (bs : List Byte) : List Byte :=
  l3s.foldl (fun bs e =>
    let n := (beAt bs e.1 1 % 16) * 4
    if e.2 = 4 ∧ slice bs e.1 n ≠ slice old e.1 n then fixIPv4 bs e.1 else bs) bs

/-- The words that the innermost TCP or UDP checksum covers, its own field (at `co`) left out. -/
def l4Cover (bs : List Byte) (l3 k l4 co : Nat) : Nat :=
  let addrs := if k = 4 then slice bs (l3 + 12) 8 else slice bs (l3 + 8) 32
  let stop := l3 + l3Len bs l3 k
  sum16 addrs + sum16 (slice (splice bs (l4 + co) [0, 0]) l4 (stop - l4))

/-- Update the innermost TCP or UDP checksum incrementally; a UDP checksum of 0 stays 0. -/
def fixL4 (old : List Byte) (f : Frame) (bs : List Byte) : List Byte :=
  let k := hvAt f 0x33 1
  let l3 := hvAt f 0x34 2
  let l4 := hvAt f 0x36 2
  let proto := hvAt f 0x3C 1
  if (k ≠ 4 ∧ k ≠ 6) ∨ l4 = 0xFFFF ∨ l3 = 0xFFFF ∨ (proto ≠ 6 ∧ proto ≠ 17) then bs
  else
    let co := if proto = 6 then 16 else 6
    let m := fold16 (l4Cover old l3 k l4 co)
    let m' := fold16 (l4Cover bs l3 k l4 co)
    let hc := beAt bs (l4 + co) 2
    if m = m' ∨ (proto = 17 ∧ hc = 0) then bs
    else splice bs (l4 + co) (beBytes 2 (65535 - fold16 ((65535 - hc) + (65535 - m) + m')))

/-! Egress edit (R271). -/

def anchorOf (f : Frame) (a : Nat) : Nat :=
  match a with
  | 0 => 0
  | 1 => hvAt f 0x74 2
  | 2 => hvAt f 0x34 2
  | 3 => hvAt f 0x36 2
  | 4 => hvAt f 0x38 2
  | _ => 0xFFFF

/-- Offset of the innermost TTL or hop limit. -/
def ttlAt (f : Frame) : Option Nat :=
  let o := hvAt f 0x34 2
  if o = 0xFFFF then none
  else if hvAt f 0x33 1 = 4 then some (o + 8)
  else if hvAt f 0x33 1 = 6 then some (o + 7)
  else none

/-- Edit slot `k` of a frame. -/
def editSlot (f : Frame) (k : Nat) : List Byte := slice f.edit (8 * k) 8

/-- Apply one slot to the bytes; `lim` is the first byte of the FCS. `none` where it is not applied and counts
EDIT_BAD. `fv` stands for record bytes that the spec does not give (no bound record, or past its end). -/
def editOne (f : Frame) (lim fv : Nat) (bs : List Byte) (sl : List Byte) : Option (List Byte) :=
  let op := beAt sl 0 1
  let len := beAt sl 3 1
  let a := anchorOf f (beAt sl 1 1)
  let t := a + beAt sl 2 1
  let fits := fun n => decide (a ≠ 0xFFFF ∧ t + n ≤ 512 ∧ t + n ≤ lim)
  match op with
  | 0 => some bs
  | 1 => if 1 ≤ len ∧ len ≤ 4 ∧ fits len then some (splice bs t (slice sl (8 - len) len)) else none
  | 2 =>
    let ro := beAt sl 4 1
    if 1 ≤ len ∧ len ≤ 16 ∧ fits len then
      some (splice bs t (if ro + len ≤ f.record.length then slice f.record ro len else beBytes len fv))
    else none
  | 3 =>
    match ttlAt f with
    | some o => if o + 1 ≤ 512 ∧ o + 1 ≤ lim then some (splice bs o (beBytes 1 (beAt bs o 1 - 1))) else none
    | none => none
  | _ => none

/-- Apply the slots in order: the bytes and the number of slots that count EDIT_BAD. -/
def editAll (f : Frame) (lim fv : Nat) (bs : List Byte) : List Byte × Nat :=
  (List.range 7).foldl (fun a k =>
    match editOne f lim (fv + k) a.1 (editSlot f k) with
    | some b => (b, a.2)
    | none => (a.1, a.2 + 1)) (bs, 0)

/-- A DEC_TTL slot finds 0 or 1 (R271): slots before it apply first. -/
def ttlDrops (f : Frame) : Bool :=
  ((List.range 7).foldl (fun a k =>
    let sl := editSlot f k
    let hit := beAt sl 0 1 = 3 && (match ttlAt f with
      | some o => decide (beAt a.1 o 1 ≤ 1)
      | none => false)
    ((editOne f 100000 0 a.1 sl).getD a.1, a.2 || hit)) (f.bytes, false)).2

/-- CE marking of the innermost L3 header (R336). -/
def markCE (f : Frame) (bs : List Byte) : List Byte :=
  let o := hvAt f 0x34 2
  if !f.ecnMark then bs
  else
    let b := beAt bs (o + 1) 1
    if hvAt f 0x33 1 = 4 then splice bs (o + 1) (beBytes 1 (b / 4 * 4 + 3))
    else splice bs (o + 1) (beBytes 1 (b ||| 0x30))

/-! The Brand (R154, R155). -/

/-- FLAGS of a Brand; POISONED is carried in trailer placement only. -/
def brandFlags (f : Frame) : Nat :=
  (if f.flagLate then 1 else 0) + (if f.bad ∧ f.brandPlace = 1 then 2 else 0) +
  (if f.metered ∧ ¬ f.unmeteredMark then 0 else 4) + (if f.flagTie then 8 else 0) +
  (if f.flagReleased then 16 else 0) + f.cap.tq * 32

/-- The 24 bytes of a Brand. -/
def brand (s : State) (f : Frame) : List Byte :=
  let z := fun n => if f.unmeteredMark then 0 else n
  beBytes 1 0x11 ++ beBytes 1 (brandFlags f) ++ beBytes 8 (z (brandTT f.cap.t)) ++ beBytes 2 f.cap.port ++
  beBytes 4 f.flowIdx ++ beBytes 4 (z (if f.metered then f.flowSeq else 0)) ++
  beBytes 4 (z (epochOf s f.cap.ply % 2 ^ 32))

/-- Place the Brand in the bytes without FCS (R156). -/
def placeBrand (s : State) (f : Frame) (body : List Byte) : List Byte :=
  match f.brandPlace with
  | 1 => body ++ brand s f
  | 2 => body.take 12 ++ beBytes 2 0x88B5 ++ brand s f ++ body.drop 12
  | _ => body

/-- The bytes sent on the port, FCS included, and EDIT_BAD slots. A stomped frame's FCS is inverted (R343). -/
def sentBytes (s : State) (f : Frame) : List Byte × Nat :=
  let lim := if f.trunc then f.bytes.length else f.bytes.length - 4
  let old := f.bytes.take lim
  let e := if f.isMirror then (old, 0) else editAll f lim (Config.freeValue s.freeIx) old
  let body := fixL4 old f (fixL3s old f.l3s (markCE f e.1))
  let body := placeBrand s f body
  let c := crc32 body
  (body ++ fcsBytes (if f.bad then ~~~c else c), e.2)

/-! Export frames on their way (R429). -/

/-- An export frame has passed whole: it is counted, and without ACK_MODE what it carried is freed (R426, R439). -/
def exportSent (s : State) (q : Nat) : State :=
  match s.ev.exports.find? (fun x => x.seq + 1 == q) with
  | none => s
  | some x =>
    let s := wr64 (bump s (pgAUD + R.AUD_FRAMES_SENT)) (pgAUD + R.AUD_EXPORT_SEQ) x.seq
    let s := match x.kind with
      | 1 => bumpN s (pgAUD + R.AUD_PLACES_SENT) x.count
      | 2 => bump s (pgAUD + R.AUD_EPOCHS_SENT)
      | _ => bumpN s (pgAUD + R.AUD_EVENTS_SENT) x.count
    if fgb s pgEV F.EV_EVID_CTRL_ACK_MODE then
      { s with ev := { s.ev with exports := s.ev.exports.map (fun y => if y.seq = x.seq then { y with sent := true } else y) } }
    else freeExport { s with ev := { s.ev with exports := s.ev.exports.filter (fun y => decide (y.seq ≠ x.seq)) } } x

/-- An export frame that did not leave whole is queued again under its sequence (R429). -/
def exportLost (s : State) (q : Nat) : State :=
  { s with ev := { s.ev with exports := s.ev.exports.map (fun x =>
      if x.seq + 1 = q then { x with queued := false, sent := false } else x) } }

/-! Port counters on egress. -/

/-- Count in a port's block or in the host port's page. -/
def bumpTx (s : State) (p o : Nat) (hp : Option Nat) (n : Nat) : State :=
  if p = 256 then (match hp with
    | some a => bumpN s (pgHP + a) n
    | none => s)
  else bumpPort s p o n

def linkDiscard (s : State) (p id : Nat) : State :=
  let s := if (getF s id).exportSeq = 0 then s else exportLost s (getF s id).exportSeq
  dropFrame (bumpTx s p R.PORT_LINK_DOWN_DISCARD (some R.HP_LINK_DOWN_DISCARD) 1) id rsnLINK

/-! Grants. -/

/-- The first granted frame of a port has begun once the ply after its grant starts (R59). -/
def setBegun (s : State) (p : Nat) : State :=
  modP s p (fun P =>
    match P.granted with
    | [] => { P with begun := false }
    | id :: _ => { P with begun := P.begun || decide ((getF s id).grantPly < plyNat s) })

/-- Charge the shapers for a grant and note an estimated charge (R353, R363). -/
def chargeGrant (s : State) (p id : Nat) (cls : Nat) : State :=
  let f := getF s id
  let c := egressCharge s f p
  let s := if pShape s p then modP s p (fun P => { P with level := P.level - c * unit16 }) else s
  let q := cls < 8 && qShape s p cls
  let s := if q then setQLevel s p cls (qLevel s p cls - c * unit16) else s
  if f.ended ∨ (¬ pShape s p ∧ ¬ q) then s
  else { s with tmg := { s.tmg with estimates := s.tmg.estimates ++
    [{ frame := id, port := p, cls := if q then cls else 8, est := c,
       overhead := portOverhead s p + brandBytes (brandPlaceOf s f p) }] } }

/-- The class's frames are discarded by the watchdog (R90). -/
def wdDrops (s : State) (p c : Nat) : Bool := (getP s p).wdDrop.testBit c

/-- Grant frame `id` on port `p` (R366, R368): egress edit's drops, the Brand decision, the charges. `cls` is 8 for the
release queue. -/
def grantFrame (s : State) (p id cls : Nat) : State :=
  let f := getF s id
  if !isUp s p || (cls < 8 && wdDrops s p cls) then
    linkDiscard (modP s p (unqueuePort id)) p id
  else if f.bad then discardBad s id
  else
    let s := applyMark s id
    let f := getF s id
    if ttlDrops f then
      dropFrame (bump s (deckB (pipeOf p) + R.DECK_EDIT_TTL_DROP)) id rsnTTL
    else
      let w := brandWanted s f p
      let skip := w ≠ 0 && !brandFits s f p w
      let s := if skip then raise (bump s (pgTT + R.TT_BRAND_SKIP)) 0x010 6 else s
      if skip ∧ brandCtrl s p F.TT_BRAND_CTRL_OVERSIZE_DROP ≠ 0 then
        let v := free s
        dropFrame v.2 id (v.1 % 256)
      else
        let s := chargeGrant s p id cls
        let s := if f.missed.isSome then bump s (pgARB + R.ARB_ER_LATE) else s
        let s := modP s p (fun P =>
          let P := unqueuePort id P
          { P with granted := P.granted ++ [id] })
        setF s id { f with stage := .granted, grantPly := plyNat s, brandPlace := if skip then 0 else w }

/-- Withheld frames at the heads of ready class queues are noted (R409). -/
def noteHeads (s : State) (pipe : Nat) : State :=
  (pipePorts pipe).foldl (fun s p => upTo 8 (fun s c =>
    match queueIds s p c with
    | id :: _ => if queueReady s p c && isUp s p && withheldNow s id then noteWithheld s (origOf (getF s id) id) else s
    | [] => s) s) s

/-- One grant of a pipeline's egress half (R368). -/
def egressGrant (s : State) (pipe : Nat) : State :=
  let used := tget (fun _ => 0) s.tmg.grantsPly pipe
  if !forwards s || decide (128 ≤ used) then s
  else
    let s := noteHeads s pipe
    let took := fun (s : State) => { s with tmg := { s.tmg with
      grantsPly := tset (fun _ => 0) s.tmg.grantsPly pipe (used + 1) } }
    match choose s pipe with
    | none => s
    | some (.release p) =>
      match (getP s p).release with
      | id :: _ =>
        let s := if p < 256 then bump s (pb 0x3C1 + 0x400 + 8 * p) else s
        took (grantFrame s p id 8)
      | [] => s
    | some (.cls p c P pos) =>
      match queueIds s p c with
      | id :: rest =>
        let P := if rest.isEmpty then { P with deficit := tset (fun _ => 0) P.deficit c 0 } else P
        let s := setP s p P
        let s := bump s (schB p + R.SCH_DEQ_FRAMES + 8 * c)
        let s := { s with tmg := { s.tmg with lastPos := tset (fun _ => 33) s.tmg.lastPos pipe pos } }
        took (grantFrame s p id c)
      | [] => s

/-! The launch gate (R394, R396). -/

/-- The gate's next copy: the lowest launch target. -/
def gateHead (s : State) (p : Nat) : Option Nat :=
  ((getP s p).gate.foldl (fun acc id => insertTarget s id acc) []).head?

/-- A BUSY copy waiting for the transmitter. -/
def busyHead (s : State) (p : Nat) : Option Nat :=
  (getP s p).lateWait.find? (fun id => (getF s id).missed == some 3)

/-- Copy `id` begins at the egress capture point. -/
def beginCopy (s : State) (p id : Nat) : State :=
  let s := modP s p (fun P =>
    let P := unqueuePort id P
    { P with granted := id :: P.granted, begun := true })
  setF s id { getF s id with stage := .granted }

/-- A launch on port `p` (R394, R396). -/
def launch (s : State) (p : Nat) : State :=
  let P := getP s p
  let onAir := P.begun
  match gateHead s p with
  | some id =>
    let f := getF s id
    if !isUp s p then missCopy (modP s p (fun P => { P with gate := P.gate.filter (· ≠ id) })) id 4
    else if onAir then
      let s := modP s p (fun P => { P with gate := P.gate.filter (· ≠ id) })
      missCopy (setF s id { f with flagReleased := false }) id 3
    else beginCopy (bump s (pgARB + R.ARB_ER_ON_TIME)) p id
  | none =>
    match busyHead s p with
    | some id =>
      if onAir || !isUp s p then s
      else
        let f := getF s id
        let s := applyMark s id
        let s := setF s id { getF s id with brandPlace := brandPlaceOf s f p, grantPly := plyNat s }
        beginCopy (bump s (pgARB + R.ARB_ER_LATE)) p id
    | none => s

/-- A late copy has not begun within LATE_MAX ply of its hand-off edge (R396). -/
def lateExpired (s : State) (id : Nat) : Bool :=
  let f := getF s id
  f.live && f.missed.isSome &&
  (match f.handed with
   | some m => decide (m + erLateMax s f.profile ≤ plyNat s)
   | none => false) &&
  !((getP s f.out).begun && (getP s f.out).granted.head? == some id)

/-! The end of a transmission (R339, R343, R414). -/

/-- A recirculated frame enters the ingress of its pipeline again (R27, R148, R584). -/
def recirculate (s : State) (f : Frame) (bytes : List Byte) : State :=
  let p := f.out
  let pipe := pipeOf p
  let s := bump s (pipeB pipe + R.PIPE_RECIRC_FRAMES)
  let s := bumpN s (pipeB pipe + R.PIPE_RECIRC_BYTES) bytes.length
  (addF s { bytes := bytes, ended := true, fcsGood := true, port := p, pipe := pipe, cap := f.cap, stage := .fifo,
            since := plyNat s, gen := f.gen, genTaken := f.genTaken, genPipe := f.genPipe, metered := f.metered, flowSeq := f.flowSeq,
            flowIdx := f.flowIdx, unmeteredMark := f.unmeteredMark }).2

/-- Frame `id` has ended whole and every one of its cells has left the resequencer, so that its last byte can pass. -/
def complete (f : Frame) : Bool := f.ended && (f.bad || decide (cellsOf f.bytes.length ≤ f.passed))

/-- The frame whose transmission ends on port `p` (R339). -/
def finishTx (s : State) (p : Nat) : State :=
  match (getP s p).granted with
  | [] => s
  | id :: _ =>
    let f := getF s id
    if ¬ ((getP s p).begun ∧ complete f) then s
    else
      let b := sentBytes s f
      let s := { s with freeIx := s.freeIx + 1 }
      let s := if b.2 = 0 then s else bumpN s (deckB (pipeOf p) + R.DECK_EDIT_BAD) b.2
      let n := b.1.length
      let s := noteActual s id (n - brandBytes f.brandPlace) true
      let s := if p ≤ 256 then emit s (.frame p b.1) else s
      let s := if f.bad then
          (if p < 256 then bump s (accB p + R.ACC_STOMPED) else s)
        else
          let s := bumpTx s p R.PORT_TX_FRAMES (some R.HP_TX_FRAMES) 1
          let s := bumpTx s p R.PORT_TX_BYTES none n
          if f.exportSeq = 0 then s else exportSent s f.exportSeq
      let s := if f.cutThrough ∧ p < 256 then bump s (accB p + R.ACC_CT_FRAMES) else s
      let s := if f.bad then modPend s id (fun e => { e with poisoned := true }) else s
      let s := tellOutcome s id (if f.bad then 1 else 0) 0
      let s := endFrame (unqueue (freeCells s id) id) id
      let s := modP s p (fun P => { P with begun := false })
      let s := setBegun s p
      if 256 < p ∧ ¬ f.bad then recirculate s f b.1 else s

/-! A port that leaves UP (R82, R387, R396). -/

/-- The frame in transmission stops; granted frames and released ones are discarded; copies at the gate miss. -/
def txDown (s : State) (p : Nat) : State :=
  let P := getP s p
  let s := match P.granted with
    | id :: _ =>
      if P.begun then
        let f := getF s id
        let s := if f.exportSeq = 0 then s else exportLost s f.exportSeq
        dropFrame (bumpTx s p R.PORT_TX_ABORT (some R.HP_TX_ABORT) 1) id rsnTX_ABORT
      else s
    | [] => s
  let s := (getP s p).gate.foldl (fun s id =>
    missCopy (modP s p (fun P => { P with gate := P.gate.filter (· ≠ id) })) id 4) s
  let s := (getP s p).granted.foldl (fun s id =>
    linkDiscard s p id) s
  modP s p (fun P => { P with begun := false })

end Sys2Proof.Machine
end

