-- ==== Sys2Proof/Machine/Parse.lean ====
section
/-! DEFINITION. The parse graph (R196-R206): nodes and transitions, the walk, the header vector and the length checks. -/

namespace Sys2Proof.Machine

/-! The graph (R196-R198). -/

def getNode (s : State) (pipe i : Nat) : Nat := (tget (fun _ => 0) s.cls.nodes (pipe * 256 + i)).toNat
def getTrans (s : State) (pipe i : Nat) : Nat := (tget (fun _ => 0) s.cls.trans (pipe * 1024 + i)).toNat

/-- Bits [lo+w-1:lo] of a number. -/
def nbits (v lo w : Nat) : Nat := (v >>> lo) % 2 ^ w

/-- The transitions of pipeline `pipe` in rising number: (NODE, VALUE, MASK, NEXT) of the valid ones. -/
def transOf (s : State) (pipe : Nat) : List (Nat × Nat × Nat × Nat) :=
  s.cls.trans.filterMap (fun e =>
    let v := e.2.toNat
    if e.1 / 1024 = pipe ∧ nbits v 80 1 = 1 then some (nbits v 0 8, nbits v 8 32, nbits v 40 32, nbits v 72 8) else none)

/-- The next node: the lowest-numbered transition of `node` that matches, DEFAULT_NEXT, or none for NO_TRANSITION
(R197). -/
def nextNode (ts : List (Nat × Nat × Nat × Nat)) (nd node sel : Nat) : Option Nat :=
  match ts.find? (fun t => t.1 == node && (sel &&& t.2.2.1) == (t.2.1 &&& t.2.2.1)) with
  | some t => some t.2.2.2
  | none => if nbits nd 59 1 = 1 then none else some (nbits nd 51 8)

/-! Reading the window (R198, R200, R201). -/

/-- What a read that ends before byte `e` finds. -/
inductive Avail where
  | yes | wait | window
deriving DecidableEq, Repr

def avail (bs : List Byte) (ended : Bool) (e : Nat) : Avail :=
  if 512 < e then .window
  else if e ≤ bs.length then .yes
  else if ended then .window
  else .wait

/-- The field of `w` bits at bit `fbit` of the header at byte `o`, most significant bit first. -/
def bitField (bs : List Byte) (o fbit w : Nat) : Nat :=
  let b := 8 * o + fbit
  let first := b / 8
  let last := (b + w + 7) / 8
  (beAt bs first (last - first) >>> (8 * last - (b + w))) % 2 ^ w

/-- End of the bytes that field touches. -/
def fieldEnd (o fbit w : Nat) : Nat := (8 * o + fbit + w + 7) / 8

/-! The walk. -/

/-- A parse in progress. Status bits are those of PARSE_STATUS (R203). -/
structure Walk where
  off : Nat := 0
  visits : Nat := 0
  stack : List (Nat × Nat) := []
  hend : Nat := 0
  status : Nat := 0
  l3Kind : Nat := 0
  l3Off : Nat := 0xFFFF
  iLen : Nat := 0
  first : Bool := false
  l4Off : Nat := 0xFFFF
  l4End : Option Nat := none
  proto : Nat := 0
  vlans : Nat := 0
  etype : Nat := 0
  tci0 : Nat := 0
  tci1 : Nat := 0
  mpls : Option Nat := none
  fragId : Nat := 0
  fragWord : Nat := 0
  dscp : Nat := 0
  outKind : Nat := 0
  outOff : Nat := 0xFFFF
  src : List Byte := []
  dst : List Byte := []
  sport : Nat := 0
  dport : Nat := 0
  prof : Nat := 0
  /-- length cases of R204 found at parse -/
  cases : List Nat := []
  /-- payload of a UDP datagram shorter than P -/
  ushort : Option Nat := none
  l3s : List (Nat × Nat) := []
  fragKey : List Byte := []
deriving DecidableEq, Repr

abbrev stNormal : Nat := 1
abbrev stDepth : Nat := 2
abbrev stWindow : Nat := 4
abbrev stLength : Nat := 8
abbrev stNoTrans : Nat := 16
abbrev stFrag : Nat := 32
abbrev stFirst : Nat := 64
abbrev stTunnel : Nat := 128

/-- End of the bytes that a role reads of its header (the layouts of the named protocols, log entry 19). -/
def roleBytes : Nat → Nat
  | 1 => 14
  | 2 => 4
  | 3 => 4
  | 4 => 20
  | 5 => 40
  | 6 => 1
  | 7 => 8
  | 8 => 13
  | 9 => 6
  | 10 => 4
  | _ => 0

/-- A fragmented L3 header is found (R199): whether the parse ends here, and the walk. -/
def foundFrag (w : Walk) (offset more : Nat) : Bool × Walk :=
  let key := if w.fragKey.isEmpty then w.src ++ w.dst ++ beBytes 1 w.proto ++ beBytes 4 w.fragId else w.fragKey
  if offset ≠ 0 then
    (true, { w with status := w.status ||| stFrag, fragKey := key, l4Off := 0xFFFF, l4End := none, sport := 0,
                    dport := 0, ushort := none })
  else if more = 1 then
    (false, { w with status := w.status ||| stFrag ||| stFirst, fragKey := key, first := true })
  else (false, w)

/-- An IPv4 header at `o`. -/
def roleIPv4 (bs : List Byte) (o : Nat) (w : Walk) : Bool × Walk :=
  let ihl := beAt bs o 1 % 16
  let tl := beAt bs (o + 2) 2
  let fw := beAt bs (o + 6) 2 % 2 ^ 14
  let w := { w with
    l3Kind := 4, l3Off := o, iLen := tl, first := false, dscp := beAt bs (o + 1) 1, proto := beAt bs (o + 9) 1,
    src := List.replicate 12 0 ++ slice bs (o + 12) 4, dst := List.replicate 12 0 ++ slice bs (o + 16) 4,
    fragId := beAt bs (o + 4) 2, fragWord := fw, l3s := w.l3s ++ [(o, 4)],
    cases := if ihl < 5 ∨ tl < ihl * 4 then w.cases ++ [8] else w.cases }
  foundFrag w (fw % 2 ^ 13) (fw / 2 ^ 13)

/-- An IPv6 header at `o`; a next header of 0 is the hop-by-hop header. -/
def roleIPv6 (bs : List Byte) (o : Nat) (w : Walk) : Walk :=
  let plen := beAt bs (o + 4) 2
  let nh := beAt bs (o + 6) 1
  { w with
    l3Kind := 6, l3Off := o, iLen := 40 + plen, first := false, dscp := beAt bs o 4 / 2 ^ 20 % 256, proto := nh,
    src := slice bs (o + 8) 16, dst := slice bs (o + 24) 16, l3s := w.l3s ++ [(o, 6)],
    cases := if plen = 0 ∧ nh = 0 then w.cases ++ [9] else w.cases }

/-- An IPv6 fragment header at `o`. -/
def roleIPv6Frag (bs : List Byte) (o : Nat) (w : Walk) : Bool × Walk :=
  let fw := beAt bs (o + 2) 2
  let w := { w with proto := beAt bs o 1, fragId := beAt bs (o + 4) 4, fragWord := fw / 8 + (fw % 2) * 2 ^ 13 }
  foundFrag w (fw / 8) (fw % 2)

/-- The L4 header at `o` of length `len`. -/
def roleL4 (bs : List Byte) (o len : Nat) (w : Walk) : Walk :=
  { w with l4Off := o, l4End := some (o + len), sport := beAt bs o 2, dport := beAt bs (o + 2) 2 }

/-- TCP's checks of R204. -/
def tcpCase (bs : List Byte) (o : Nat) (w : Walk) : Walk :=
  let d := beAt bs (o + 12) 1 / 16
  if d < 5 ∨ (w.l3Kind ≠ 0 ∧ w.iLen < o - w.l3Off + 4 * d) then { w with cases := w.cases ++ [8] } else w

/-- UDP's checks of R204; a UDP header under no L3 header has no P and only its least length is checked. -/
def udpCase (bs : List Byte) (o : Nat) (w : Walk) : Walk :=
  let u := beAt bs (o + 4) 2
  let p := w.iLen - (o - w.l3Off)
  if u < 8 then { w with cases := w.cases ++ [10] }
  else if w.first ∨ w.l3Kind = 0 then w
  else if p < u then { w with cases := w.cases ++ [10] }
  else if u < p then { w with cases := w.cases ++ [3], ushort := some (u - 8) }
  else w

/-- A tunnel: the outer L3 summary is kept aside, and the L3 and L4 summary fields are cleared (R199). -/
def roleTunnel (w : Walk) : Walk :=
  { w with
    outKind := w.l3Kind, outOff := w.l3Off, l3Kind := 0, l3Off := 0xFFFF, iLen := 0, first := false, l4Off := 0xFFFF,
    l4End := none, proto := 0, fragId := 0, fragWord := 0, dscp := 0, src := [], dst := [], sport := 0, dport := 0,
    ushort := none, status := w.status ||| stTunnel }

/-- Apply a node's ROLE to the header at `o` of length `len`: whether the parse ends here, and the walk (R199). -/
def applyRole (bs : List Byte) (role o len : Nat) (w : Walk) : Bool × Walk :=
  match role with
  | 1 => (false, if w.l3Kind = 0 then { w with etype := beAt bs (o + 12) 2 } else w)
  | 2 =>
    let t := beAt bs o 2
    let w := { w with
      tci0 := if w.vlans = 0 then t else w.tci0, tci1 := if w.vlans = 1 then t else w.tci1, vlans := w.vlans + 1 }
    (false, if w.l3Kind = 0 then { w with etype := beAt bs (o + 2) 2 } else w)
  | 3 => (false, if w.mpls.isNone then { w with mpls := some (beAt bs o 4) } else w)
  | 4 => roleIPv4 bs o w
  | 5 => (false, roleIPv6 bs o w)
  | 6 => (false, { w with proto := beAt bs o 1 })
  | 7 => roleIPv6Frag bs o w
  | 8 => (false, tcpCase bs o (roleL4 bs o len w))
  | 9 => (false, udpCase bs o (roleL4 bs o len w))
  | 10 => (false, roleL4 bs o len w)
  | 11 => (false, roleTunnel w)
  | _ => (false, w)

/-- How a walk stands after a node: it goes on at a node, it has ended, or it waits for bytes. -/
inductive WalkRes where
  | goto (node : Nat) (w : Walk)
  | done (w : Walk)
  | wait
deriving DecidableEq, Repr

def endWalk (w : Walk) (st : Nat) : WalkRes := .done { w with status := w.status ||| st }

/-- Steps 3 to 5 of R197 at the node word `nd` whose header at `w.off` has length `len`. -/
def walkRole (bs : List Byte) (ended : Bool) (ts : List (Nat × Nat × Nat × Nat)) (node nd len : Nat) (w : Walk) :
    WalkRes :=
  let o := w.off
  let role := nbits nd 60 4
  match if roleBytes role = 0 then Avail.yes else avail bs ended (o + roleBytes role) with
  | .wait => .wait
  | .window => endWalk w stWindow
  | .yes =>
    let r := applyRole bs role o len w
    let w := { r.2 with hend := o + len }
    if r.1 then endWalk w stNormal
    else
      let sw := min 32 (nbits nd 45 6)
      let sb := nbits nd 34 11
      match if sw = 0 then Avail.yes else avail bs ended (fieldEnd o sb sw) with
      | .wait => .wait
      | .window => endWalk w stWindow
      | .yes =>
        match nextNode ts nd node (if sw = 0 then 0 else bitField bs o sb sw) with
        | none => endWalk w stNoTrans
        | some 0 => endWalk w stNormal
        | some n => .goto n { w with off := o + len }

/-- One node of the graph (R197, R198, R200). -/
def walkNode (bs : List Byte) (ended : Bool) (ts : List (Nat × Nat × Nat × Nat)) (node nd : Nat) (w : Walk) : WalkRes :=
  if 64 ≤ w.visits then endWalk w stDepth
  else if nbits nd 70 1 = 0 then endWalk w stNoTrans
  else
    let o := w.off
    let w := { w with visits := w.visits + 1, prof := if nbits nd 64 6 = 0 then w.prof else nbits nd 64 6 }
    let mode := nbits nd 6 2
    let lb := nbits nd 16 11
    let lw := nbits nd 27 4 + 1
    let reads := mode = 1 ∨ mode = 2
    match if reads then avail bs ended (fieldEnd o lb lw) else Avail.yes with
    | .wait => .wait
    | .window => endWalk w stWindow
    | .yes =>
      let x := bitField bs o lb lw
      let len := if mode = 1 then x * 2 ^ nbits nd 31 3 + nbits nd 8 8 else if mode = 2 then (x + 1) * 8 else nbits nd 8 8
      if 512 < o + len then endWalk w stWindow
      else if nbits nd 0 6 ≠ 0 ∧ 16 ≤ w.stack.length then endWalk w stDepth
      else
        walkRole bs ended ts node nd len
          (if nbits nd 0 6 = 0 then w else { w with stack := w.stack ++ [(o, nbits nd 0 6)] })

/-- The whole walk; `none` while it waits for bytes. -/
def walk (s : State) (pipe : Nat) (bs : List Byte) (ended : Bool) (ts : List (Nat × Nat × Nat × Nat)) :
    Nat → Nat → Walk → Option Walk
  | 0, _, w => some w
  | n + 1, node, w =>
    match walkNode bs ended ts node (getNode s pipe node) w with
    | .goto nx w => walk s pipe bs ended ts n nx w
    | .done w => some w
    | .wait => none

/-! Length checks (R204-R206). -/

/-- Cases that a frame of `len` bytes shows at its end, the outermost L3 header first; `a` is where the space of the
header ends. -/
def endCases (bs : List Byte) (len : Nat) : Nat → List (Nat × Nat) → List Nat
  | _, [] => []
  | a, h :: hs =>
    let i := l3Len bs h.1 h.2
    let c := if a < h.1 + i then 9 else if h.1 + i < a then (if len = 64 then 1 else 2) else 0
    c :: endCases bs len (h.1 + i) hs

/-- The frame-end cases of a frame that has ended. -/
def frameEndCases (f : Frame) : List Nat := endCases f.bytes f.bytes.length (f.bytes.length - 4) f.l3s

/-- The exception reason of a list of cases, by the acceptance of PG_CTRL. -/
def lenReason (s : State) (pipe : Nat) (cs : List Nat) : Option Nat :=
  if cs.contains 10 then some 0x25
  else if cs.contains 9 then some 0x24
  else if cs.contains 8 then some 0x23
  else if cs.contains 3 ∧ ¬ fgb s (prsB pipe) F.PRS_PG_CTRL_UDP_SHORT_ACCEPT then some 0x25
  else if cs.contains 2 ∧ ¬ fgb s (prsB pipe) F.PRS_PG_CTRL_TRAIL_ACCEPT then some 0x26
  else none

/-! The header vector (R203). -/

def padTo (n : Nat) (l : List Byte) : List Byte := l ++ List.replicate (n - l.length) 0

/-- L4_PAYLOAD_OFF. -/
def Walk.payloadOff (w : Walk) : Nat := w.l4End.getD w.hend

/-- L4_PAYLOAD_LEN: what the L3 datagram, or an accepted short UDP length, leaves; 0 where no L3 header was seen. -/
def Walk.payloadLen (w : Walk) (shortOk : Bool) : Nat :=
  match w.ushort with
  | some n => if shortOk then n else w.l3Off + w.iLen - w.payloadOff
  | none => if w.l3Kind = 0 then 0 else w.l3Off + w.iLen - w.payloadOff

/-- The 256 bytes of HDR. -/
def Walk.hv (w : Walk) (shortOk : Bool) (worst : Nat) : List Byte :=
  let offs := w.stack.flatMap (fun h => beBytes 2 h.1)
  padTo 256 (offs ++ List.replicate (32 - offs.length) 0xFF ++
    padTo 16 (w.stack.map (fun h => BitVec.ofNat 8 h.2)) ++
    beBytes 1 w.stack.length ++ beBytes 1 w.status ++ beBytes 1 worst ++ beBytes 1 w.l3Kind ++
    beBytes 2 w.l3Off ++ beBytes 2 w.l4Off ++ beBytes 2 w.payloadOff ++ beBytes 2 (w.payloadLen shortOk) ++
    beBytes 1 w.proto ++ beBytes 1 w.vlans ++ beBytes 2 w.etype ++
    beBytes 2 w.tci0 ++ beBytes 2 w.tci1 ++ beBytes 4 (w.mpls.getD 0) ++ beBytes 4 w.fragId ++
    beBytes 2 w.fragWord ++ beBytes 1 w.dscp ++ beBytes 1 w.outKind ++
    padTo 16 w.src ++ padTo 16 w.dst ++ beBytes 2 w.sport ++ beBytes 2 w.dport ++
    beBytes 2 w.outOff ++ beBytes 1 w.prof)

/-- LEN_CASE: the worst case found. -/
def worstCase (cs : List Nat) : Nat := cs.foldl max 0

/-- A parse exception reason (R197, R200, R201). -/
def walkReason (st : Nat) : Option Nat :=
  if st &&& stDepth ≠ 0 then some 0x20
  else if st &&& stWindow ≠ 0 then some 0x21
  else if st &&& stNoTrans ≠ 0 then some 0x22
  else none

end Sys2Proof.Machine
end

