-- ==== Sys2Proof/Machine/Tables.lean ====
section
/-! DEFINITION. The tables of the classification stage (R209-R214, R218-R225, R607): lookups, TBL_CMD and its take-hold,
generations and FLIP, spreading groups and the symmetric hash. -/

namespace Sys2Proof.Machine

/-- Replace the classification state. -/
def setCls (s : State) (c : ClsSt) : State := { s with cls := c }

abbrev evFLIP_REJECT : Nat := 0
abbrev evRETIRED : Nat := 1
abbrev evTBL_FULL : Nat := 2
abbrev evTABLE_CE : Nat := 4
abbrev evTABLE_UE : Nat := 5

/-! Generations (R218-R221). -/

def activeGen (s : State) (pipe : Nat) : Nat := fg s (clsB pipe) F.CLS_GEN_STATUS_ACTIVE_GEN
def retiring (s : State) (pipe : Nat) : Bool := fgb s (clsB pipe) F.CLS_GEN_STATUS_RETIRING

/-- The generation before the active one. -/
def oldGen (s : State) (pipe : Nat) : Nat := (activeGen s pipe + 255) % 256

/-- Frames counted in INFLIGHT_OLD: originals of live frames and copies that captured the old generation of this
pipeline and have not left (R219). -/
def inflightOld (s : State) (pipe : Nat) : Nat :=
  ((s.frames.filterMap (fun e =>
      if e.2.live ∧ e.2.genTaken ∧ e.2.genPipe = pipe ∧ e.2.gen = oldGen s pipe ∧ e.2.stage ≠ .done then
        some (origOf e.2 e.1)
      else none)).eraseDups).length

/-- GEN_CTRL.FLIP (R219, R220). -/
def flipOp (s : State) (pipe : Nat) (v : Word) : Res × State :=
  if v.getLsbD 0 = false then (.ok, s)
  else if retiring s pipe || s.cls.flip.contains pipe then (.error, raise s (0x202 + 16 * pipe) evFLIP_REJECT)
  else (.ok, setCls s { s.cls with flip := s.cls.flip ++ [pipe] })

/-- Retirement at an edge: RETIRING clears where the count reads 0; then accepted flips take hold (R219, R220). -/
def retireEdge (s : State) (pipe : Nat) : State :=
  if retiring s pipe && inflightOld s pipe == 0 then
    raise (fs s (clsB pipe) F.CLS_GEN_STATUS_RETIRING 0) (0x202 + 16 * pipe) evRETIRED
  else s

def flipEdge (s : State) (pipe : Nat) : State :=
  if s.cls.flip.contains pipe then
    let s := setCls s { s.cls with flip := s.cls.flip.filter (· ≠ pipe) }
    fs (fs s (clsB pipe) F.CLS_GEN_STATUS_ACTIVE_GEN ((activeGen s pipe + 1) % 256)) (clsB pipe)
      F.CLS_GEN_STATUS_RETIRING 1
  else s

/-! Exact-match tables (R210). -/

/-- Bytes of a key of table `t`, and pool slots of an entry. -/
def keyBytes16 (s : State) (pipe t : Nat) : Nat :=
  match fg s (clsB pipe) (F.CLS_EM_CFG_KEYW.fwd (4 * t)) with
  | 1 => 32
  | 2 => 64
  | _ => 16

def emBase (s : State) (pipe t : Nat) : Nat := 1024 * fg s (clsB pipe) (F.CLS_EM_CFG_BASE.fwd (4 * t))
def emSize (s : State) (pipe t : Nat) : Nat := 1024 * fg s (clsB pipe) (F.CLS_EM_CFG_SIZE.fwd (4 * t))

/-- Buckets per way. -/
def emBuckets (s : State) (pipe t : Nat) : Nat := emSize s pipe t / (keyBytes16 s pipe t / 16) / 16

/-- Pool slots at which the candidate entries of a key lie, in way order. -/
def emCandidates (s : State) (pipe t : Nat) (key : List Byte) : List Nat :=
  let b := emBuckets s pipe t
  if t < 8 ∧ b ≠ 0 then
    (List.range 4).flatMap (fun w =>
      let c := (crc32c (BitVec.ofNat 8 w :: key)).toNat * b / 2 ^ 32
      (List.range 4).map (fun e => emBase s pipe t + ((w * b + c) * 4 + e) * (keyBytes16 s pipe t / 16)))
  else []

def getEm (s : State) (pipe slot : Nat) : Option EmEnt := tget (fun _ => none) s.cls.em (pipe * 131072 + slot)

def setEm (s : State) (pipe slot : Nat) (e : Option EmEnt) : State :=
  setCls s { s.cls with em := tset (fun _ => none) s.cls.em (pipe * 131072 + slot) e }

def DWord.bit (v : DWord) (b : Nat) : Bool := v.getLsbD b

/-- The slot of the valid entry that holds `key` (already cut to the table's width). -/
def emFind (s : State) (pipe t : Nat) (key : List Byte) : Option Nat :=
  (emCandidates s pipe t key).find? (fun k =>
    match getEm s pipe k with
    | some e => e.key == key && e.res.getLsbD 63
    | none => false)

/-- The first free candidate. -/
def emFree (s : State) (pipe t : Nat) (key : List Byte) : Option Nat :=
  (emCandidates s pipe t key).find? (fun k =>
    match getEm s pipe k with
    | some e => !e.res.getLsbD 63
    | none => true)

/-- A lookup of `key` in bank `bank`: the result that hits. -/
def emLookup (s : State) (pipe t : Nat) (key : List Byte) (bank : Nat) : Option DWord :=
  let k := slice key 0 (keyBytes16 s pipe t)
  match emFind s pipe t k with
  | some slot =>
    match getEm s pipe slot with
    | some e => if e.res.getLsbD (61 + bank) then some e.res else none
    | none => none
  | none => none

/-! Ternary tables (R211). -/

def ternBase (s : State) (pipe t : Nat) : Nat := 256 * fg s (clsB pipe) (F.CLS_TERN_CFG_BASE.fwd (4 * t))
def ternSize (s : State) (pipe t : Nat) : Nat := 256 * fg s (clsB pipe) (F.CLS_TERN_CFG_SIZE.fwd (4 * t))
def ternKey (pipe bank i : Nat) : Nat := (pipe * 2 + bank) * 16384 + i

def ternHit (key : List Byte) (e : TernEnt) : Bool :=
  e.res.getLsbD 63 &&
  (List.range 40).all (fun i =>
    let m := (slice e.mask i 1).headD 0
    ((slice key i 1).headD 0 &&& m) == ((slice e.key i 1).headD 0 &&& m))

/-- The lowest-numbered valid matching entry's result. Entries that nothing wrote are not valid. -/
def ternLookup (s : State) (pipe t : Nat) (key : List Byte) (bank : Nat) : Option DWord :=
  if t < 8 then
    let lo := ternKey pipe bank (ternBase s pipe t)
    match s.cls.tern.find? (fun e => lo ≤ e.1 && e.1 < lo + ternSize s pipe t && ternHit key e.2) with
    | some e => some e.2.res
    | none => none
  else none

/-! Parameter words, action entries, templates (R209). -/

def getPar (s : State) (pipe t i : Nat) : DWord := tget (fun _ => 0) s.cls.par ((pipe * 16 + t) * 4096 + i)

/-- PARAM_READ of identifier `t` (R209). -/
def paramRead (s : State) (pipe t i : Nat) : DWord :=
  if 0x20 ≤ t ∧ t < 0x30 ∧ i < 4096 then getPar s pipe (t - 0x20) i else 0

def getAct (s : State) (pipe bank i : Nat) : Nat := (tget (fun _ => 0) s.cls.act ((pipe * 2 + bank) * 4096 + i)).toNat
def getTmpl (s : State) (pipe bank i : Nat) : Template := tget (fun _ => {}) s.cls.tmpl ((pipe * 2 + bank) * 64 + i)

/-! Upsets of the table SRAMs (R237): numbers of pool slots, or 131,072 plus the number of a ternary entry of bank 0,
then of bank 1, that a lookup read uncorrectable. -/

def clearUpset (pipe : Nat) (s : State) (k : Nat) : State :=
  if k < 131072 then setEm s pipe k none
  else setCls s { s.cls with tern := tset (fun _ => {}) s.cls.tern (ternKey pipe 0 (k - 131072)) {} }

/-- The lookups of a frame read these entries uncorrectable, or a correctable one: invalid until rewritten. -/
def takeUpsets (s : State) (pipe : Nat) (upset : List Nat) (corrected : Bool) : State :=
  let s := upset.foldl (fun s k =>
    if k < 131072 + 32768 then raise (clearUpset pipe s k) (0x202 + 16 * pipe) evTABLE_UE else s) s
  if corrected then raise s (0x202 + 16 * pipe) evTABLE_CE else s

/-! Spreading groups (R225) and the symmetric hash (R224). -/

def getSpread (s : State) (pipe g : Nat) : Spread := tget (fun _ => {}) s.cls.spread (pipe * 256 + g)

/-- A member, as its 16-bit value, is live. -/
def memberLive (s : State) (m : Nat) : Bool :=
  if 32768 ≤ m then m - 32768 < 32 && cgb s (seqB (m - 32768)) F.SEQ_SEQ_CFG_EN
  else m < 265 && isUp s m

/-- Positions of the live members of a group, in member order. -/
def liveMembers (s : State) (pipe g : Nat) : List Nat :=
  let G := getSpread s pipe g
  if g < 256 then (List.range (min 64 G.n)).filter (fun i => memberLive s (tget (fun _ => 0) G.members i)) else []

def memberAt (s : State) (pipe g i : Nat) : Nat := tget (fun _ => 0) (getSpread s pipe g).members i

/-- Bytewise unsigned order. -/
def bytesLe (a b : List Byte) : Bool := beNat a ≤ beNat b

def minMax (a b : List Byte) : List Byte := if bytesLe a b then a ++ b else b ++ a

def hashSym (f : Frame) : Word :=
  let h := f.hv
  if hvAt f 0x33 1 = 0 then crc32c (minMax (slice f.bytes 0 6) (slice f.bytes 6 6) ++ slice h 0x3E 2)
  else
    let st := hvAt f 0x31 1
    let nonFirst := st &&& stFrag ≠ 0 ∧ st &&& stFirst = 0
    let sp := if nonFirst then [0, 0] else slice h 0x70 2
    let dp := if nonFirst then [0, 0] else slice h 0x72 2
    crc32c (minMax (slice h 0x50 16 ++ sp) (slice h 0x60 16 ++ dp) ++ slice h 0x3C 1)

/-- The member a frame goes to, or none where no member is live. -/
def spreadTo (s : State) (pipe g : Nat) (f : Frame) : Option Nat :=
  let l := liveMembers s pipe g
  if l.isEmpty then none else some (memberAt s pipe g (l.getD ((hashSym f).toNat * l.length / 2 ^ 32) 0))

/-! TBL_CMD (R210, R214, R220, R237, R607). -/

abbrev tOK : Nat := 0
abbrev tFULL : Nat := 1
abbrev tNOT_FOUND : Nat := 2
abbrev tEXISTS : Nat := 3
abbrev tBANK_RETIRING : Nat := 4
abbrev tBAD_ARG : Nat := 5

/-- The bytes of a window of words, byte 0 in [31:24] of word 0. -/
def winBytes (ws : List Word) : List Byte := wordsBytes ws

def wordAt (ws : List Word) (i : Nat) : Word := ws.getD i 0

/-- A number whose word 0 holds bits [31:0]. -/
def winNum (ws : List Word) (n : Nat) : Nat := ((List.range n).foldl (fun a i => a + (wordAt ws i).toNat * 2 ^ (32 * i)) 0)

/-- The 32-bit words of a number, word 0 first. -/
def numWords (v n : Nat) : List Word := (List.range n).map (fun i => BitVec.ofNat 32 (v / 2 ^ (32 * i)))

/-- The command names the retiring bank of this pipeline (R220). -/
def namesRetiring (s : State) (pipe : Nat) (c : TblOp) : Bool :=
  (c.space == 1 || c.space == 2 || c.space == 3) && retiring s pipe && c.bank != activeGen s pipe % 2

/-- Exact-match commands by key. -/
def tblEm (s : State) (pipe : Nat) (c : TblOp) : Nat × State :=
  if 7 < c.table ∨ emBuckets s pipe c.table = 0 then (tBAD_ARG, s)
  else
    let k := slice (winBytes c.key) 0 (keyBytes16 s pipe c.table)
    match c.op, emFind s pipe c.table k with
    | 1, some _ => (tEXISTS, s)
    | 1, none =>
      match emFree s pipe c.table k with
      | some slot => (tOK, setEm s pipe slot (some ⟨k, c.res⟩))
      | none => (tFULL, s)
    | 2, some slot => (tOK, setEm s pipe slot none)
    | 3, some slot => (tOK, setEm s pipe slot (some ⟨k, c.res⟩))
    | 4, some _ => (tOK, s)
    | 2, none | 3, none | 4, none => (tNOT_FOUND, s)
    | _, _ => (tBAD_ARG, s)

/-- Ternary commands by index. -/
def tblTern (s : State) (pipe : Nat) (c : TblOp) : Nat × State :=
  if c.table < 0x10 ∨ 0x17 < c.table ∨ ternSize s pipe (c.table - 0x10) ≤ c.index then (tBAD_ARG, s)
  else
    let k := ternKey pipe c.bank (ternBase s pipe (c.table - 0x10) + c.index)
    let put := fun e => setCls s { s.cls with tern := tset (fun _ => {}) s.cls.tern k e }
    match c.op with
    | 3 => (tOK, put { tget (fun _ => {}) s.cls.tern k with res := c.res })
    | 4 => (tOK, s)
    | 5 => (tOK, put { key := slice (winBytes c.key) 0 40, mask := slice (winBytes c.mask) 0 40, res := c.res })
    | 6 => (tOK, put {})
    | _ => (tBAD_ARG, s)

/-- Member j of the half written (R607). -/
def halfMember (ws : List Word) (j : Nat) : Nat :=
  let w := (wordAt ws (j / 2)).toNat
  if j % 2 = 0 then w / 65536 else w % 65536

/-- Spreading-group commands: [8:1] group, [0] half. -/
def tblSpread (s : State) (pipe : Nat) (c : TblOp) : Nat × State :=
  if 511 < c.index then (tBAD_ARG, s)
  else
    let g := c.index / 2
    let G := getSpread s pipe g
    let set := fun (v : Nat → Nat) (n : Nat) =>
      let m := (List.range 32).foldl (fun m j => tset (fun _ => 0) m (32 * (c.index % 2) + j) (v j)) G.members
      setCls s { s.cls with spread := tset (fun _ => {}) s.cls.spread (pipe * 256 + g) { n := n, members := m } }
    match c.op with
    | 4 => (tOK, s)
    | 5 => (tOK, set (halfMember c.key) (c.res.toNat % 128))
    | 6 => (tOK, set (fun _ => 0) 0)
    | _ => (tBAD_ARG, s)

/-- Action entries, templates and parameter words by index. -/
def tblWord (s : State) (pipe : Nat) (c : TblOp) : Nat × State :=
  let w := c.op == 5
  if c.op ≠ 4 ∧ c.op ≠ 5 ∧ c.op ≠ 6 then (tBAD_ARG, s)
  else match c.space with
  | 2 =>
    if 4095 < c.index then (tBAD_ARG, s) else if c.op = 4 then (tOK, s)
    else
      let v : BitVec 128 := if w then BitVec.ofNat 128 (winNum c.key 4) else 0
      (tOK, setCls s { s.cls with act := tset (fun _ => 0) s.cls.act ((pipe * 2 + c.bank) * 4096 + c.index) v })
  | 3 =>
    if 63 < c.index then (tBAD_ARG, s) else if c.op = 4 then (tOK, s)
    else
      let v : Template := if w then { header := BitVec.ofNat 32 c.res.toNat, ops := c.key } else {}
      (tOK, setCls s { s.cls with tmpl := tset (fun _ => {}) s.cls.tmpl ((pipe * 2 + c.bank) * 64 + c.index) v })
  | _ =>
    if c.table < 0x20 ∨ 0x2F < c.table ∨ 4095 < c.index then (tBAD_ARG, s) else if c.op = 4 then (tOK, s)
    else
      let v : DWord := if w then BitVec.ofNat 64 (winNum c.key 2) else 0
      let k := (pipe * 16 + (c.table - 0x20)) * 4096 + c.index
      (tOK, setCls s { s.cls with par := tset (fun _ => 0) s.cls.par k v })

/-- One command in one pipeline: its result and the tables after it. -/
def tblOne (s : State) (pipe : Nat) (c : TblOp) : Nat × State :=
  match c.space with
  | 0 => tblEm s pipe c
  | 1 => tblTern s pipe c
  | 2 | 3 | 5 => tblWord s pipe c
  | 4 => tblSpread s pipe c
  | _ => (tBAD_ARG, s)

/-- The pipelines of a command, the one whose page was written first (R607). -/
def tblTargets (page : Nat) (c : TblOp) : List Nat :=
  if c.bcast then page :: (List.range 8).filter (· ≠ page) else [page]

/-- The result that TBL_STATUS shows: the first that is not OK, in the order of R607. -/
def tblResult (rs : List Nat) : Nat := (rs.find? (· ≠ tOK)).getD tOK

/-- Carry the command out in every target; `judge` is whether the retiring bank is judged first. -/
def tblAll (c : TblOp) (judge : Bool) : List Nat → List Nat × State → List Nat × State
  | [], a => a
  | p :: ps, (rs, s) =>
    let r := if judge && namesRetiring s p c then (tBANK_RETIRING, s) else tblOne s p c
    tblAll c judge ps (rs ++ [r.1], r.2)

def setTblResult (s : State) (page r : Nat) (busy : Bool) : State :=
  let s := fs (fs s (clsB page) F.CLS_TBL_STATUS_RESULT r) (clsB page) F.CLS_TBL_STATUS_BUSY (if busy then 1 else 0)
  if r = tFULL then raise s (0x202 + 16 * page) evTBL_FULL else s

/-- READ returns the entry into the window (R237, R607). -/
def tblReadWindow (s : State) (pipe : Nat) (c : TblOp) : State :=
  let b := clsB pipe
  let key := fun (s : State) (ws : List Word) => wrWords s (b + R.CLS_TBL_KEY) ((List.range 16).map (wordAt ws))
  let res := fun (s : State) (v : Nat) => wr64 s (b + R.CLS_TBL_RES) v
  match c.space with
  | 0 =>
    match emFind s pipe c.table (slice (winBytes c.key) 0 (keyBytes16 s pipe c.table)) with
    | some slot => match getEm s pipe slot with
      | some e => res s e.res.toNat
      | none => s
    | none => s
  | 1 =>
    let e := tget (fun _ => {}) s.cls.tern (ternKey pipe c.bank (ternBase s pipe (c.table - 0x10) + c.index))
    let s := res (key s (packWords 10 (slice e.key 0 40))) e.res.toNat
    wrWords s (b + R.CLS_TBL_MASK) (packWords 10 (slice e.mask 0 40))
  | 2 => key s (numWords (getAct s pipe c.bank c.index) 4)
  | 3 => let t := getTmpl s pipe c.bank c.index
         res (key s t.ops) t.header.toNat
  | 4 =>
    let G := getSpread s pipe (c.index / 2)
    let m := fun j => tget (fun _ => 0) G.members (32 * (c.index % 2) + j)
    res (key s ((List.range 16).map (fun i => BitVec.ofNat 32 (m (2 * i) * 65536 + m (2 * i + 1))))) G.n
  | _ => key s (numWords (getPar s pipe (c.table - 0x20) c.index).toNat 2)

/-- The command that the window and the written word spell. -/
def tblSpell (s : State) (pipe : Nat) (v : Word) (op : Nat) : TblOp :=
  let b := clsB pipe
  { op := op, space := bitsOf v 4 3, table := bitsOf v 8 8, bank := bitsOf v 16 1, bcast := v.getLsbD 17,
    index := fg s b F.CLS_TBL_INDEX_INDEX, key := rdWords s (b + R.CLS_TBL_KEY) 16,
    mask := rdWords s (b + R.CLS_TBL_MASK) 10, res := BitVec.ofNat 64 (rd64 s (b + R.CLS_TBL_RES)), hold := 0 }

def tblBusy (s : State) (pipe : Nat) : Bool := fgb s (clsB pipe) F.CLS_TBL_STATUS_BUSY

/-- A TBL_CMD write of an update (R214): refused while BUSY; one that no target can carry out ends at once; otherwise
its last write takes hold at one of the next four edges (which one the spec leaves open: a free value). -/
def tblUpdate (s : State) (pipe : Nat) (v : Word) (op : Nat) : Res × State :=
  if tblBusy s pipe then (.error, s)
  else
    let c := tblSpell s pipe v op
    let rs := (tblAll c false (tblTargets pipe c) ([], s)).1
    if rs.all (· ≠ tOK) then (.ok, setTblResult s pipe (tblResult rs) false)
    else
      let w := free s
      let c := { c with hold := plyNat s + 1 + w.1 % 4 }
      let s := setCls w.2 { w.2.cls with cmd := tset (fun _ => none) w.2.cls.cmd pipe (some c) }
      (.ok, setTblResult s pipe tOK true)

/-- A TBL_CMD READ (R220, R237). -/
def tblReadOp (s : State) (pipe : Nat) (v : Word) : Res × State :=
  if tblBusy s pipe then (.error, s)
  else
    let c := tblSpell s pipe v 4
    let rs := (tblAll c true (tblTargets pipe c) ([], s)).1
    let s := setTblResult s pipe (tblResult rs) false
    (.ok, if rs.headD tBAD_ARG = tOK then tblReadWindow s pipe c else s)

/-- The take-hold of the waiting command of page `pipe` at the edge that starts ply `n` (R214, R220). -/
def tblEdge (s : State) (pipe n : Nat) : State :=
  match tget (fun _ => none) s.cls.cmd pipe with
  | none => s
  | some c =>
    if n < c.hold then s
    else
      let s := setCls s { s.cls with cmd := tset (fun _ => none) s.cls.cmd pipe none }
      let r := tblAll c true (tblTargets pipe c) ([], s)
      setTblResult r.2 pipe (tblResult r.1) false

/-! Table configuration (R607). -/

/-- The new setting overlaps no other present table and stays in its pool or bank. -/
def spanFits (lo n cap : Nat) (others : List (Nat × Nat)) : Bool :=
  n == 0 || (decide (lo + n ≤ cap) && others.all (fun o => o.2 == 0 || decide (lo + n ≤ o.1) || decide (o.1 + o.2 ≤ lo)))

def tableConfigOp (s : State) (pipe : Nat) (tern : Bool) (t : Nat) (v : Word) : Res × State :=
  let us := (List.range 8).filter (· ≠ t)
  let ok :=
    if tern then
      spanFits (256 * bitsOf v 0 6) (256 * bitsOf v 6 7) 16384 (us.map (fun u => (ternBase s pipe u, ternSize s pipe u)))
    else
      bitsOf v 10 8 % 4 == 0 &&
      spanFits (1024 * bitsOf v 2 8) (1024 * bitsOf v 10 8) 131072 (us.map (fun u => (emBase s pipe u, emSize s pipe u)))
  if ok then
    (.ok, rawWr s (clsB pipe + (if tern then R.CLS_TERN_CFG else R.CLS_EM_CFG) + 4 * t)
      (BitVec.ofNat 32 (bitsOf v 0 (if tern then 13 else 18))))
  else (.error, s)

/-! The parse graph window (R202, R236). -/

def pgReject (s : State) (pipe : Nat) : Res × State := (.error, raise s (0x201 + 16 * pipe) 2)

/-- Advance INDEX where AUTO_INC is set. -/
def pgAdvance (s : State) (pipe : Nat) : State :=
  if fgb s (prsB pipe) F.PRS_PG_ADDR_AUTO_INC then
    fs s (prsB pipe) F.PRS_PG_ADDR_INDEX (fg s (prsB pipe) F.PRS_PG_ADDR_INDEX + 1)
  else s

def pgKind (s : State) (pipe : Nat) : Bool := fgb s (prsB pipe) F.PRS_PG_ADDR_KIND
def pgIndex (s : State) (pipe : Nat) : Nat := fg s (prsB pipe) F.PRS_PG_ADDR_INDEX

/-- A PG_CMD write: WRITE, READ, or both in that order. -/
def pgCmdOp (s : State) (pipe : Nat) (write read : Bool) : Res × State :=
  let i := pgIndex s pipe
  let kind := pgKind s pipe
  if write && fgb s (prsB pipe) F.PRS_PG_CTRL_PARSE_EN then pgReject s pipe
  else if !kind && 255 < i then (.error, s)
  else
    let v := winNum (rdWords s (prsB pipe + R.PRS_PG_DATA) 4) 4
    let t : BitVec 128 := BitVec.ofNat 128 (v % 2 ^ 81)
    let n : BitVec 128 := BitVec.ofNat 128 (v % 2 ^ 71)
    let s := if !write then s
      else if kind then setCls s { s.cls with trans := tset (fun _ => 0) s.cls.trans (pipe * 1024 + i) t }
      else setCls s { s.cls with nodes := tset (fun _ => 0) s.cls.nodes (pipe * 256 + i) n }
    let v := if kind then getTrans s pipe i else getNode s pipe i
    let s := if read then wrWords s (prsB pipe + R.PRS_PG_DATA) (numWords v 4) else s
    (.ok, pgAdvance s pipe)

end Sys2Proof.Machine
end

