-- ==== Sys2Proof/Machine/Classify.lean ====
section
/-! DEFINITION. Parsing and classifying a frame (R201-R235): exceptions and their buckets, metering at classification,
the verdict, fragments. -/

namespace Sys2Proof.Machine

/-! Exceptions (R231-R234). -/

/-- Order of R232; among the flow-stage reasons the lower code ranks first. -/
def reasonRank (r : Nat) : Nat :=
  if 0x20 ≤ r ∧ r ≤ 0x22 then 0
  else if 0x23 ≤ r ∧ r ≤ 0x26 then 0x100
  else if r = 0x2A ∨ r = 0x2B then 0x200
  else if r = 0x27 then 0x300
  else if r = 0x28 then 0x500
  else if r = 0x29 then 0x600
  else 0x400 + r

/-- The first reason by rank. -/
def firstReason : List Nat → Nat
  | [] => 0
  | r :: rs => rs.foldl (fun a b => if reasonRank b < reasonRank a then b else a) r

abbrev rTABLE_MISS : Nat := 0x27
abbrev rTRAP : Nat := 0x28
abbrev rCOPY : Nat := 0x29
abbrev rFRAG_TIMEOUT : Nat := 0x2A
abbrev rFRAG_HOLD_FULL : Nat := 0x2B

/-- A reason arises in this pass of the frame (R232). -/
def raiseReason (s : State) (id r : Nat) : State :=
  let f := getF s id
  if f.reasons.contains r then s
  else bump (setF s id { f with reasons := f.reasons ++ [r] }) (frgB f.pipe + R.FRG_EXC_RAISED + 16 * (r % 64))

def excLevel (s : State) (pipe r : Nat) : Nat := tget (fun _ => 0) s.cls.exc (pipe * 64 + r)
def setExcLevel (s : State) (pipe r v : Nat) : State :=
  setCls s { s.cls with exc := tset (fun _ => 0) s.cls.exc (pipe * 64 + r) v }

def excRate (s : State) (pipe r : Nat) : Nat := cg s (frgB pipe) (F.FRG_EXC_CFG_RATE.fwd (8 * r))
def excBurst (s : State) (pipe r : Nat) : Nat := 65536 * cg s (frgB pipe) (F.FRG_EXC_CFG_BURST.fwd (8 * r))

/-- The refill of every exception bucket at step 5; `full` at the first edge of a die start (R233). -/
def refillExc (s : State) (full : Bool) : State :=
  (List.range 512).foldl (fun s k =>
    let b := excBurst s (k / 64) (k % 64)
    setExcLevel s (k / 64) (k % 64) (if full then b else min b (excLevel s (k / 64) (k % 64) + excRate s (k / 64) (k % 64))))
    s

def deliveries (t : Tab (List Delivery)) (pipe : Nat) : List Delivery := tget (fun _ => []) t pipe

/-- Hand a delivery on through the bucket of its primary reason to its destination (R232-R234, R463). -/
def deliver (s : State) (d : Delivery) : State :=
  let r := d.primary % 64
  let lim := fun (s : State) =>
    raise (bump s (frgB d.pipe + R.FRG_EXC_LIMITED + 16 * r)) (0x203 + 16 * d.pipe) 1
  let l := excLevel s d.pipe r
  if l < 65536 then lim s
  else
    let s := setExcLevel s d.pipe r (l - 65536)
    let d := { d with queue := fg s (frgB d.pipe) (F.FRG_EXC_CFG2_QUEUE.fwd (8 * r)) }
    match fg s (frgB d.pipe) (F.FRG_EXC_CFG2_DEST.fwd (8 * r)) with
    | 0 =>
      let q := deliveries s.cls.toCores d.pipe
      if 64 ≤ q.length then raise (bump s (pb 0x3E2 + R.RNG_DELIVER_DROP + 8 * d.pipe)) 0x3E2 1
      else setCls s { s.cls with toCores := tset (fun _ => []) s.cls.toCores d.pipe (q ++ [d]) }
    | 1 => setCls s { s.cls with
        toHost := tset (fun _ => []) s.cls.toHost d.pipe (deliveries s.cls.toHost d.pipe ++ [d]) }
    | _ => lim s

/-- Deliver the frame as received once it has ended and its pass is over, at most once (R231, R232). -/
def tryDeliver (s : State) (id : Nat) : State :=
  let f := getF s id
  if !f.passOver || !f.ended || f.delivered || f.reasons.isEmpty || f.isCopy || f.isMirror then s
  else
    let p := firstReason f.reasons
    let others := f.reasons.filter (· ≠ p)
    deliver (setF s id { f with delivered := true })
      { primary := p, secondary := firstReason others, pipe := f.pipe, port := f.cap.port, gen := f.gen,
        tt := brandTT f.cap.t, flowIdx := f.flowIdx, pc := f.excPC, actionIdx := f.actionIdx, excCode := f.excCode,
        tq := f.cap.tq, fcsGood := f.fcsGood, metered := f.metered, isNotify := false, bytes := f.bytes, queue := 0 }

def finishPass (s : State) (id : Nat) : State := tryDeliver (modF s id (fun f => { f with passOver := true })) id

/-! Metering (R404-R407). -/

/-- Give frame `id` its metering under meter class `c`: FLOW_SEQ and a pending entry. Only frames of front-panel ports
that no earlier pass metered are metered in their own right. A frame dropped before parse has a digest of 0. -/
def meterFrame (s : State) (id c : Nat) (flow unparsed : Bool) : State :=
  let f := getF s id
  if f.port < 256 ∧ ¬ f.metered ∧ classMetered s c then
    let q := takeSeq s f.cap.port c
    let s := setF q.2 id { f with metered := true, tracked := true, flowSeq := q.1 }
    let p : Pend := { cap := f.cap, pipe := f.pipe, flowIdx := f.flowIdx, flowSeq := q.1, ply := plyNat s,
                      slot := f.slot, digestReady := unparsed, eligible := if flow then none else some (plyNat s) }
    noteDigest (pset s id (some p)) id (getF s id)
  else s

def meterAs (s : State) (id c : Nat) (flow : Bool) : State := meterFrame s id c flow false

/-- Drop a frame before parse under meter class `c` (R51, R82, R404, R407). -/
def dropUnparsed (s : State) (id c reason : Nat) : State := dropFrame (meterFrame s id c false true) id reason

/-- Drop a frame before classification under meter class `c` (R202, R205, R404). -/
def dropEarly (s : State) (id c reason : Nat) : State :=
  dropFrame (finishPass (meterAs s id c false) id) id reason

/-! PARSE. -/

/-- Append received bytes to a frame that has not ended. -/
def arrive (s : State) (id : Nat) (more : List Byte) : State :=
  let f := getF s id
  if f.ended || more.isEmpty then s
  else
    let s := setF s id { f with bytes := f.bytes ++ more }
    noteDigest s id (getF s id)

/-- PARSE_EXC_COUNT and the event of a parse-stage reason (R236). -/
def countParseExc (s : State) (pipe r : Nat) : State :=
  raise (bump s (prsB pipe + R.PRS_PARSE_EXC_COUNT + 8 * (r - 0x20))) (0x201 + 16 * pipe) (if r ≤ 0x22 then 0 else 1)

/-- One attempt at the parse of frame `id` (R197-R206); it waits for bytes that have not arrived. -/
def parseOp (s : State) (id : Nat) (more : List Byte) : State :=
  let f := getF s id
  if ¬ f.live ∨ f.stage ≠ .parse then s
  else
    let s := arrive s id more
    let f := getF s id
    if idled s (0x200 + 16 * f.pipe) || idled s (0x201 + 16 * f.pipe) then
      dropUnparsed s id (portMeter s f.cap.port) rsnMODE
    else if ¬ fgb s (prsB f.pipe) F.PRS_PG_CTRL_PARSE_EN then
      dropUnparsed (bump s (prsB f.pipe + R.PRS_PARSE_OFF_DROP)) id (portMeter s f.cap.port) rsnPARSE_OFF
    else
      match walk s f.pipe f.bytes f.ended (transOf s f.pipe) 65 (fg s (prsB f.pipe) F.PRS_PG_CTRL_START_NODE) {} with
      | none => s
      | some w =>
        let g := { f with l3s := w.l3s }
        let cs := w.cases ++ (if f.ended then frameEndCases g else [])
        let lr := lenReason s f.pipe cs
        let w := if lr.isSome then { w with status := w.status ||| stLength } else w
        let shortOk := fgb s (prsB f.pipe) F.PRS_PG_CTRL_UDP_SHORT_ACCEPT
        let s := setF s id { g with hv := w.hv shortOk (worstCase cs), parseProf := w.prof, fragKey := w.fragKey,
                                    stage := .classify, since := plyNat s }
        let s := perf (bump s (prsB f.pipe + R.PRS_PARSED)) (0x201 + 16 * f.pipe) 0x20 1
        let rs := (walkReason w.status).toList ++ lr.toList
        if rs.isEmpty then s
        else
          let s := rs.foldl (fun s r => raiseReason (countParseExc s f.pipe r) id r) s
          dropEarly s id (fg s (prsB f.pipe) F.PRS_PG_CTRL_EXC_METER) rsnPARSE

/-- The frame-end check of a frame whose parse is over (R206): LEN_CASE takes the worst case; a failure drops the frame
or makes it bad. Answers the reason. -/
def frameEndCheck (s : State) (id : Nat) : Option Nat × State :=
  let f := getF s id
  if f.hv.isEmpty ∨ f.isCopy ∨ f.isMirror then (none, s)
  else
    let cs := frameEndCases f
    let lr := lenReason s f.pipe cs
    let hv := splice f.hv 0x32 [BitVec.ofNat 8 (max (hvAt f 0x32 1) (worstCase cs))]
    let hv := if lr.isSome then splice hv 0x31 [BitVec.ofNat 8 (hvAt f 0x31 1 ||| stLength)] else hv
    let s := setF s id { f with hv := hv }
    match lr with
    | some r => (lr, raiseReason (countParseExc s f.pipe r) id r)
    | none => (none, s)

/-! META and the key (R168, R207, R208). -/

/-- The 192 bytes of META as loaded for frame `f`, with entry number `e` and TQ_METER as given. -/
def metaBytes (f : Frame) (e tqMeter : Nat) : List Byte :=
  beBytes 2 f.cap.port ++ beBytes 2 (if f.ended then f.bytes.length else 0) ++
  beBytes 1 ((if f.ended then 1 else 0) + (if f.fcsGood then 2 else 0) + (if f.trunc then 4 else 0)) ++
  beBytes 1 f.gen ++ beBytes 2 e ++ beBytes 8 (brandTT f.cap.t) ++ List.replicate 4 0xFF ++ [0] ++
  beBytes 1 tqMeter ++ [0, 0] ++ beBytes 8 f.tblResult ++ List.replicate 96 0 ++
  beBytes 2 f.verdict.egress ++ beBytes 1 f.verdict.kind ++ beBytes 1 f.verdict.cls ++ List.replicate 60 0

/-- Bytes of a PKT space (R208): the first 512 bytes of the frame. -/
def pktSlice (f : Frame) (o n : Nat) : List Byte := slice (f.bytes.take 512) o n

/-- The byte position after the last PKT byte an extract operation reads. -/
def extractNeed (f : Frame) (w : Word) : Nat :=
  let n := bitsOf w 13 4 + 1
  if bitsOf w 23 1 = 0 then 0
  else match bitsOf w 0 3 with
  | 1 => min 512 (bitsOf w 3 10 + n)
  | 2 => min 512 (hvAt f 0x38 2 + bitsOf w 3 10 + n)
  | _ => 0

/-- Apply one extract operation to the key. -/
def extract (f : Frame) (mb : List Byte) (key : List Byte) (w : Word) : List Byte :=
  let n := bitsOf w 13 4 + 1
  let o := bitsOf w 3 10
  if bitsOf w 23 1 = 0 ∨ 4 < bitsOf w 0 3 then key
  else
    let bs := match bitsOf w 0 3 with
      | 0 => slice f.hv o n
      | 1 => pktSlice f o n
      | 2 => pktSlice f (hvAt f 0x38 2 + o) n
      | 3 => slice mb o n
      | _ => List.replicate n (BitVec.ofNat 8 (bitsOf w 24 8))
    (splice key (bitsOf w 17 6) bs).take 64

def buildKey (f : Frame) (t : Template) : List Byte :=
  t.ops.foldl (extract f (metaBytes f 0 f.cap.tq)) (List.replicate 64 0)

/-! The action (R212-R216). -/

/-- What the lookups of a frame give: the governing result, and whether each table hit. -/
structure LookRes where
  em : Option DWord
  tern : Option DWord
  res : Option DWord
deriving DecidableEq, Repr

def lookupAll (s : State) (pipe bank : Nat) (h : Word) (key : List Byte) : LookRes :=
  let em := if h.getLsbD 3 then emLookup s pipe (bitsOf h 0 3) key bank else none
  let tern := if h.getLsbD 7 then ternLookup s pipe (bitsOf h 4 3) key bank else none
  let over_ : Bool := match tern with
    | some t => t.getLsbD 60
    | none => false
  { em := em, tern := tern, res := if over_ then tern else em.or tern }

/-- META.TBL_RESULT of a result (R212). -/
def tblResultOf : Option DWord → Nat
  | some r => 2 ^ 63 + (r.toNat % 4096) * 2 ^ 51 + (r.toNat / 4096) % 2 ^ 48
  | none => 0

/-- The fields of an action entry, with the result's DATA (R215). -/
def verdictOf (a data : Nat) : Verdict :=
  let op := nbits a 0 3
  let eg := if nbits a 32 1 = 1 then data % 65536 else nbits a 13 16
  let d := nbits a 41 2
  { op := if 3 < op then 0 else op, copy := nbits a 3 1 = 1, mirror := nbits a 4 1 = 1, session := nbits a 5 6,
    kind := nbits a 11 2, egress := eg, cls := nbits a 29 3, entry := nbits a 33 8,
    defOp := if d = 3 then 0 else d, defCopy := nbits a 43 1 = 1, defKind := nbits a 11 2, defEgress := eg,
    defCls := nbits a 29 3, meterClass := nbits a 44 4, policer := if nbits a 58 1 = 1 then some (nbits a 48 10) else none,
    doMirror := nbits a 4 1 = 1 }

/-! Leaving the pass: forwarded or dropped. -/

/-- Drop at the end of the pass. A frame that is mirrored still goes on to the switch core for its mirror copy; a
frame dropped by its action or routine that a processor receives was delivered only there (R235, R415). -/
def dropOut (s : State) (id reason : Nat) : State :=
  let f := getF s id
  let reason := if (reason = rsnACTION ∨ reason = rsnROUTINE) ∧ f.reasons.contains rCOPY ∧ ¬ f.reasons.contains rTRAP
    then rsnPROCESSOR_ONLY else reason
  let s := finishPass s id
  if f.verdict.doMirror then
    tellOutcome (modF s id (fun f => { f with verdict := { f.verdict with fwd := false }, stage := .flowDone })) id 2 reason
  else dropFrame s id reason

/-- The pass ends with the frame forwarded to (kind, egress) in class `cls`. -/
def sendOut (s : State) (id kind egress cls : Nat) : State :=
  let f := getF s id
  let v := { f.verdict with fwd := true, kind := kind, egress := egress, cls := cls }
  let s := setF s id { f with verdict := v, stage := .flowDone }
  let s := modPend s id (fun p => { p with kind := kind, egress := egress,
                                           eligible := p.eligible.or (some (plyNat s)) })
  finishPass s id

/-- Forward under the default action: a spreading group without a live member drops the frame. -/
def sendDefault (s : State) (id : Nat) : State :=
  let f := getF s id
  let v := f.verdict
  if v.defKind ≠ 3 then sendOut s id v.defKind v.defEgress v.defCls
  else if 255 < v.defEgress then dropOut s id rsnACTION
  else match spreadTo s f.pipe v.defEgress f with
    | some m => sendOut s id (m / 32768) (m % 32768) v.defCls
    | none => dropOut s id rsnACTION

/-- The default action of the frame's action entry (R216). -/
def takeDefault (s : State) (id : Nat) : State :=
  let v := (getF s id).verdict
  let s := if v.defCopy then raiseReason s id rCOPY else s
  match v.defOp with
  | 1 => sendDefault s id
  | 2 => dropOut (raiseReason s id rTRAP) id rsnACTION
  | _ => dropOut s id rsnACTION

/-- Forward to (kind, egress), a spreading group being resolved to a member (R217, R225). -/
def sendTo (s : State) (id kind egress cls : Nat) : State :=
  let f := getF s id
  if kind ≠ 3 then sendOut s id kind egress cls
  else if 255 < egress then dropOut s id rsnACTION
  else match spreadTo s f.pipe egress f with
    | some m => sendOut s id (m / 32768) (m % 32768) cls
    | none => takeDefault s id

/-! Fragments (R226-R230). -/

def fragOn (s : State) (pipe : Nat) : Bool := fgb s (frgB pipe) F.FRG_FRAG_CTRL_EN
def fragLife (s : State) (pipe : Nat) : Nat := fg s (frgB pipe) F.FRG_FRAG_CTRL_LIFE
def fragHoldMax (s : State) (pipe : Nat) : Nat := fg s (frgB pipe) F.FRG_FRAG_CTRL_HOLD

def isFirstFrag (s : State) (f : Frame) : Bool := fragOn s f.pipe && decide (hvAt f 0x31 1 &&& stFirst ≠ 0)
def isLaterFrag (s : State) (f : Frame) : Bool :=
  fragOn s f.pipe && decide (hvAt f 0x31 1 &&& stFrag ≠ 0) && decide (hvAt f 0x31 1 &&& stFirst = 0)

/-- Entries of a pipeline that have not expired. -/
def fragEntries (s : State) (pipe : Nat) : List FragEnt :=
  (tget (fun _ => []) s.cls.frag pipe).filter (fun e => plyNat s < e.ply + fragLife s pipe)

def fragFind (s : State) (f : Frame) : Option FragEnt := (fragEntries s f.pipe).find? (fun e => e.key == f.fragKey)

def setFrags (s : State) (pipe : Nat) (l : List FragEnt) : State :=
  fs (setCls s { s.cls with frag := tset (fun _ => []) s.cls.frag pipe l }) (frgB pipe) F.FRG_FRAG_STATUS_USED l.length

def fragCount (s : State) (pipe k : Nat) : State := bump s (frgB pipe + R.FRG_FRAG_COUNT + 8 * k)

def heldOf (s : State) (pipe : Nat) : List Nat := tget (fun _ => []) s.cls.hold pipe

def setHeld (s : State) (pipe : Nat) (l : List Nat) : State :=
  fs (setCls s { s.cls with hold := tset (fun _ => []) s.cls.hold pipe l }) (frgB pipe) F.FRG_FRAG_STATUS_HELD l.length

/-- Note the outcome of a first fragment, to be stored at the next edge (R226). -/
def noteFrag (s : State) (id : Nat) (fwd : Bool) (kind egress cls : Nat) : State :=
  let f := getF s id
  if isFirstFrag s f then
    let e : FragEnt := {
      key := f.fragKey, fwd := fwd, kind := kind, egress := egress, cls := cls,
      doMirror := f.verdict.doMirror, session := f.verdict.session, flowIdx := f.flowIdx,
      meterClass := f.verdict.meterClass, ply := 0 }
    setCls s { s.cls with fragDue := s.cls.fragDue ++ [(f.pipe, e)] }
  else s

/-- Store one outcome at an edge (R226). -/
def fragStore (s : State) (x : Nat × FragEnt) : State :=
  let l := fragEntries s x.1
  if l.any (fun e => e.key == x.2.key) then s
  else if 4096 ≤ l.length then raise (fragCount s x.1 4) (0x203 + 16 * x.1) 0
  else fragCount (setFrags s x.1 (l ++ [{ x.2 with ply := plyNat s }])) x.1 0

def fragEdge (s : State) : State :=
  s.cls.fragDue.foldl fragStore (setCls s { s.cls with fragDue := [] })

/-- A non-first fragment takes the stored outcome (R227). -/
def takeFrag (s : State) (id : Nat) (e : FragEnt) : State :=
  let f := getF s id
  let v := { f.verdict with doMirror := e.doMirror, session := e.session, meterClass := e.meterClass }
  let s := setF s id { f with flowIdx := e.flowIdx, verdict := v }
  let s := meterAs s id e.meterClass false
  if e.fwd then sendTo s id e.kind e.egress e.cls else dropOut s id rsnACTION

/-- A non-first fragment is dropped for reason `r` under its own action's meter class (R228). -/
def dropFrag (s : State) (id r : Nat) : State :=
  let s := meterAs s id (getF s id).verdict.meterClass false
  let s := modF s id (fun f => { f with verdict := { f.verdict with doMirror := false } })
  dropOut (raiseReason s id r) id rsnFRAG

def laterFrag (s : State) (id : Nat) : State :=
  let f := getF s id
  match fragFind s f with
  | some e => takeFrag (fragCount s f.pipe 1) id e
  | none =>
    let h := heldOf s f.pipe
    if 64 ≤ h.length then dropFrag s id rFRAG_HOLD_FULL
    else setHeld (setF s id { f with stage := .fragHold, since := plyNat s }) f.pipe (h ++ [id])

/-- FRAG_HOLD_RELEASE: the oldest held fragment whose entry exists (R228). -/
def fragRelease (s : State) (pipe : Nat) : State :=
  let h := heldOf s pipe
  match h.find? (fun id => (fragFind s (getF s id)).isSome) with
  | none => s
  | some id =>
    match fragFind s (getF s id) with
    | none => s
    | some e => takeFrag (fragCount (setHeld s pipe (h.filter (· ≠ id))) pipe 2) id e

/-- FRAG_TIMEOUT: the oldest held fragment whose time has passed and that has no entry (R228, R229). -/
def fragTimeoutOp (s : State) (pipe : Nat) : State :=
  let h := heldOf s pipe
  match h.find? (fun id => (getF s id).since + fragHoldMax s pipe ≤ plyNat s && (fragFind s (getF s id)).isNone) with
  | none => s
  | some id => dropFrag (fragCount (setHeld s pipe (h.filter (· ≠ id))) pipe 3) id rFRAG_TIMEOUT

/-- FRAG_ENTRY_EXPIRY. -/
def fragExpire (s : State) (pipe : Nat) : State := setFrags s pipe (fragEntries s pipe)

/-! CLASSIFY. -/

/-- Capture the generation for a frame that has none (R218). -/
def captureGen (s : State) (id : Nat) : State :=
  modF s id (fun f => if f.genTaken then f else { f with gen := activeGen s f.pipe, genTaken := true, genPipe := f.pipe })

/-- The frame's policer, when it has one: its colour, and whether it is dropped (R354, R361). -/
def policeFrame (s : State) (id : Nat) : Bool × State :=
  let f := getF s id
  match f.verdict.policer with
  | none => (false, modF s id (fun f => { f with colour := 0 }))
  | some p =>
    let r := police s f.pipe p id
    (r.2.1, modF r.2.2 id (fun f => { f with colour := r.1 }))

/-- Act on the resolved action of an ordinary frame (R216). -/
def actOn (s : State) (id : Nat) (missExc : Bool) : State :=
  let v := (getF s id).verdict
  let s := meterAs s id v.meterClass (v.op == 3)
  let s := if missExc then raiseReason s id rTABLE_MISS else s
  let s := if v.copy then raiseReason s id rCOPY else s
  let s := if v.op = 2 then raiseReason s id rTRAP else s
  let p := (getF s id).pipe
  let r := policeFrame s id
  let s := r.2
  if v.policer.isSome && idled s (0x3A0 + p) then dropOut (noteFrag s id false 0 0 0) id rsnMODE
  else if r.1 then dropOut (noteFrag s id false 0 0 0) id rsnPOLICER
  else match v.op with
    | 1 => sendTo (noteFrag s id true v.kind v.egress v.cls) id v.kind v.egress v.cls
    | 3 => modF s id (fun f => { f with stage := .dispatch, since := plyNat s })
    | _ => dropOut (noteFrag s id false 0 0 0) id rsnACTION

/-- One attempt at the classification of frame `id`; it waits for key bytes that have not arrived (R208). -/
def classifyOp (s : State) (id : Nat) (more : List Byte) (upset : List Nat) (corrected : Bool) : State :=
  let f := getF s id
  if ¬ f.live ∨ f.stage ≠ .classify then s
  else
    let s := captureGen (arrive s id more) id
    let f := getF s id
    let t := getTmpl s f.pipe (f.gen % 2) f.parseProf
    if idled s (0x202 + 16 * f.pipe) || (idled s (0x203 + 16 * f.pipe) && (isFirstFrag s f || isLaterFrag s f)) then
      dropEarly s id (portMeter s f.cap.port) rsnMODE
    else
    let need := (t.ops.map (extractNeed f)).foldl max 0
    if ¬ f.ended ∧ f.bytes.length < need then s
    else
      let s := takeUpsets s f.pipe upset corrected
      let l := lookupAll s f.pipe (f.gen % 2) t.header (buildKey f t)
      let ai := match l.res with
        | some r => r.toNat % 4096
        | none => bitsOf t.header 8 12
      let data := match l.res with
        | some r => (r.toNat / 4096) % 2 ^ 48
        | none => 0
      let v := verdictOf (getAct s f.pipe (f.gen % 2) ai) data
      let s := setF s id { f with verdict := v, tblResult := tblResultOf l.res, actionIdx := ai }
      let c := clsB f.pipe
      let s := bump s (c + R.CLS_LOOKUPS)
      let s := if l.em.isSome then bump s (c + R.CLS_EM_HITS) else s
      let s := if l.tern.isSome then bump s (c + R.CLS_TERN_HITS) else s
      let s := if l.res.isNone then bump s (c + R.CLS_MISSES) else s
      if isLaterFrag s f then laterFrag s id
      else actOn s id (l.res.isNone && t.header.getLsbD 20)

end Sys2Proof.Machine
end

