-- ==== Sys2Proof/Machine/Memory.lean ====
section
/-! DEFINITION. Flow memory (R286-R288, R302-R304): its bytes, its regions, uncorrectable codewords. -/

namespace Sys2Proof.Machine

/-- A byte of flow memory; one that nothing has written reads 0 (log entry 15). -/
def mget (s : State) (a : Nat) : Byte := tget (fun _ => 0) s.hbm.mem a

def setHbm (s : State) (h : HbmSt) : State := { s with hbm := h }

/-- Bytes [a, a+n). -/
def mrd (s : State) (a n : Nat) : List Byte := (List.range n).map (fun k => mget s (a + k))

def mput : List Host.Cell → Nat → List Byte → List Host.Cell
  | m, _, [] => m
  | m, a, b :: bs => mput (tset (fun _ => 0) m a b) (a + 1) bs

/-- Codewords that bytes [a, a+n) touch, and those they cover whole. -/
def touched (a n : Nat) : List Nat := (List.range ((a + n + 15) / 16 - a / 16)).map (fun k => a / 16 + k)
def whole (a n c : Nat) : Bool := a ≤ 16 * c && 16 * c + 16 ≤ a + n

/-- Some codeword of bytes [a, a+n) is uncorrectable. -/
def poisoned (s : State) (a n : Nat) : Bool := (touched a n).any (fun c => s.hbm.poison.contains c)

/-- Write bytes; a codeword written whole is correctable again. -/
def mwr (s : State) (a : Nat) (bs : List Byte) : State :=
  setHbm s { s.hbm with
    mem := mput s.hbm.mem a bs, poison := s.hbm.poison.filter (fun c => !whole a bs.length c) }

/-- The canonical form of flow memory: addresses strictly rising, no entry equal to what an unlisted address reads. -/
def Memory.wf (m : List Host.Cell) : Bool := twf (fun _ => (0 : Byte)) m

/-- Controller of an address (R287). -/
def ctlOf (a : Nat) : Nat := ((a >>> 8) % 16) ^^^ ((a >>> 16) % 16)

/-- Local address (R287), and the address of local address `l` at controller `c`. -/
def localOf (a : Nat) : Nat := (a >>> 12) * 256 + a % 256
def addrOf (c l : Nat) : Nat :=
  let hi := (l / 256) * 4096
  hi + ((c ^^^ ((hi >>> 16) % 16)) * 256) + l % 256

/-- Controller page. -/
abbrev mcB (c : Nat) : Nat := pb (0x300 + c)

/-- Regions (R286): 0 flow table, 1 evidence spill, 2 telemetry, 3 control-core memory, 4 reserved, 5 none. -/
def regionOf (a : Nat) : Nat :=
  if a < 0x300000000 then 0
  else if a < 0x400000000 then 1
  else if a < 0x500000000 then 2
  else if a < 0x700000000 then 3
  else if a < 0x800000000 then 4
  else 5

/-- The port may make this access (R290). -/
def portMay (port a : Nat) (write : Bool) : Bool :=
  let r := regionOf a
  if port < 8 then r == 0 && !write
  else if port < 16 then r == 0 && write
  else if port = 16 then r == 0
  else if port = 17 then r == 1
  else if port = 18 then r == 2
  else if port = 19 then r == 3
  else if port = 20 then (if write then r == 0 || r == 2 || r == 3 else decide (r < 4))
  else decide (r < 5)

/-- Events of a controller page (R315). -/
abbrev evECC_CE : Nat := 0
abbrev evECC_UE : Nat := 1
abbrev evMC_TRAIN_FAIL : Nat := 2
abbrev evMARGIN_LOW : Nat := 3
abbrev evSR_ABORT : Nat := 4
abbrev evLATE_REQ : Nat := 5
abbrev evREGION_VIOLATION : Nat := 6
abbrev evHOT : Nat := 7

/-- Numbers of a record and of other byte strings. -/
def rget (r : List Byte) (o n : Nat) : Nat := beAt r o n
def rset (r : List Byte) (o n v : Nat) : List Byte := splice r o (beBytes n v)

end Sys2Proof.Machine
end

