-- ==== Sys2Proof/Machine/Deck.lean ====
section
/-! DEFINITION. Flow tables (chapter 07): records, the index, the Decks and writeback buffers, binding, learning,
installs and evictions (R240-R259, R277, R278, R289). -/

namespace Sys2Proof.Machine

def setFl (s : State) (f : FlowSt) : State := { s with fl := f }

abbrev pgFT : Nat := pb 0x340
abbrev evFT_LEARN_FAIL : Nat := 0
abbrev evINDEX_CE : Nat := 1
abbrev evINDEX_UE : Nat := 2
abbrev evRECORD_UE : Nat := 3
abbrev evAGE_PASS : Nat := 4
abbrev evFLOW_WRAP : Nat := 5

/-! Configuration and keys (R240, R242, R280). -/

/-- A field of FT_CFG of table `t` in force. -/
def ftc (s : State) (t : Nat) (f : FRef) : Nat := cg s pgFT (f.fwd (8 * (t - 0x40)))

def tableOn (s : State) (t : Nat) : Bool := 0x40 ≤ t && t < 0x50 && ftc s t F.FT_FT_CFG_EN == 1

def keyW (s : State) (t : Nat) : Nat := max 1 (min 40 (ftc s t F.FT_FT_CFG_KEYW))

/-- The key of a request: KEYW bytes, those at or beyond KLEN being 0. -/
def flowKey (s : State) (t : Nat) (key : List Byte) : List Byte := slice key 0 (keyW s t)

/-- CRC-32C of a leading byte, the table and the key. -/
def keyCrc (lead t : Nat) (key : List Byte) : Nat :=
  (crc32c (BitVec.ofNat 8 lead :: BitVec.ofNat 8 t :: key)).toNat

/-! Records (R244). -/

abbrev oKEY : Nat := 0
abbrev oTABLE : Nat := 0x28
abbrev oFLAGS : Nat := 0x29
abbrev oGEN : Nat := 0x2A
abbrev oTHR_PROFILE : Nat := 0x2B
abbrev oTIMEOUT : Nat := 0x2E
abbrev oPKTS : Nat := 0x30
abbrev oBYTES : Nat := 0x36
abbrev oHSHIFT : Nat := 0x3D
abbrev oFIRST_TT : Nat := 0x3E
abbrev oLAST_TT : Nat := 0x46
abbrev oEXP_SEQ : Nat := 0x4E
abbrev oGAP : Nat := 0x52
abbrev oDUP : Nat := 0x54
abbrev oLB_MEMBER : Nat := 0x56
abbrev oLB_GROUP : Nat := 0x58
abbrev oLB_INDEX : Nat := 0x59
abbrev oTHR_LEVEL : Nat := 0x5A
abbrev oTHR_PLY : Nat := 0x5E
abbrev oHISTO : Nat := 0x74

abbrev flVALID : Nat := 1
abbrev flPIN : Nat := 2
abbrev flLEARNED : Nat := 4
abbrev flWRAP : Nat := 8
abbrev flSEQ_EN : Nat := 16
abbrev flLB_BOUND : Nat := 64
abbrev flHOST : Nat := 128

def recFlag (r : List Byte) (m : Nat) : Bool := decide (rget r oFLAGS 1 &&& m ≠ 0)
def setFlag (r : List Byte) (m : Nat) (v : Bool) : List Byte :=
  let f := rget r oFLAGS 1
  rset r oFLAGS 1 (if v then f ||| m else f - (f &&& m))

/-- The record's key is `key` of table `t`. -/
def recIs (r : List Byte) (t : Nat) (key : List Byte) : Bool :=
  rget r oTABLE 1 == t && slice r 0 40 == slice key 0 40

/-! The Deck (R247). -/

def setOf (t : Nat) (key : List Byte) : Nat := keyCrc 0xD0 t key % 4096
def wayKey (pipe set way : Nat) : Nat := (pipe * 4096 + set) * 16 + way
def getWay (s : State) (k : Nat) : Way := tget (fun _ => {}) s.fl.deck k
def setWay (s : State) (k : Nat) (w : Way) : State :=
  setFl s { s.fl with deck := tset (fun _ => {}) s.fl.deck k w }

def waysOf (pipe set : Nat) : List Nat := (List.range 16).map (wayKey pipe set)

/-- The way of pipeline `pipe` that holds the key. -/
def deckFind (s : State) (pipe t : Nat) (key : List Byte) : Option Nat :=
  (waysOf pipe (setOf t key)).find? (fun k => (getWay s k).valid && recIs (getWay s k).record t key)

/-- The way that holds flow index `idx`, in any Deck. -/
def deckByIdx (s : State) (idx : Nat) : Option Nat :=
  (s.fl.deck.find? (fun e => e.2.valid && e.2.idx == idx)).map (fun e => e.1)

def touchWay (s : State) (k : Nat) : State :=
  let n := s.fl.stamp + 1
  setWay (setFl s { s.fl with stamp := n }) k { getWay s k with used := n }

/-! Writeback buffers and the directory (R248, R257, R289). -/

def wbOf (s : State) (pipe : Nat) : List (Nat × List Byte) := tget (fun _ => []) s.fl.wbuf pipe
def setWb (s : State) (pipe : Nat) (l : List (Nat × List Byte)) : State :=
  let s := setFl s { s.fl with wbuf := tset (fun _ => []) s.fl.wbuf pipe l }
  peak (fs s (deckB pipe) F.DECK_WB_BUF_DEPTH l.length) (deckB pipe) F.DECK_WB_BUF_PEAK l.length

def wbFind (s : State) (pipe t : Nat) (key : List Byte) : Option (Nat × List Byte) :=
  (wbOf s pipe).find? (fun e => recIs e.2 t key)

def wbByIdx (s : State) (idx : Nat) : Option (Nat × List Byte) :=
  ((List.range 8).filterMap (fun p => ((wbOf s p).find? (fun e => e.1 == idx)).map (fun e => (p, e.2)))).head?

def setDir (s : State) (idx : Nat) (p : Option Nat) : State :=
  if s.fuse.hbm then
    setFl s { s.fl with dir := tset (fun _ => 0) s.fl.dir idx (match p with
      | some q => q + 1
      | none => 0) }
  else s

def residentIn (s : State) (idx : Nat) : Option Nat :=
  match tget (fun _ => 0) s.fl.dir idx with
  | 0 => none
  | n => some (n - 1)

/-! Binding (R178). -/

def boundTo (s : State) (idx : Nat) : Option Nat :=
  match tget (fun _ => 0) s.fl.bound idx with
  | 0 => none
  | n => some (n - 1)

def setBound (s : State) (idx : Nat) (c : Option Nat) : State :=
  setFl s { s.fl with bound := tset (fun _ => 0) s.fl.bound idx (match c with
    | some q => q + 1
    | none => 0) }

/-! The array and the index (R245, R246). -/

def arrayAt (idx : Nat) : Nat := idx * 128
def arrayRec (s : State) (idx : Nat) : List Byte := mrd s (arrayAt idx) 128

/-- Candidate buckets of a key, in way order. -/
def buckets (t : Nat) (key : List Byte) : List Nat :=
  (List.range 4).map (fun w => 0x200000000 + (w * 4194304 + keyCrc w t key / 1024) * 64)

def sigOf (t : Nat) (key : List Byte) : Nat := keyCrc 0x80 t key % 2 ^ 29

def entryAt (s : State) (a : Nat) : Nat := beNat (mrd s a 8)
def entryValid (e : Nat) : Bool := e / 2 ^ 63 % 2 = 1
def entryTable (e : Nat) : Nat := e / 2 ^ 59 % 16 + 0x40
def entryIdx (e : Nat) : Nat := e / 2 ^ 33 % 2 ^ 26
def entrySig (e : Nat) : Nat := e % 2 ^ 29
def mkEntry (t idx sig : Nat) : Nat := 2 ^ 63 + (t - 0x40) * 2 ^ 59 + idx * 2 ^ 33 + sig

def writeEntry (s : State) (a e : Nat) : State :=
  let c := a / 16 * 16
  mwr s c (splice (mrd s c 16) (a - c) (beBytes 8 e))

/-- The eight entry addresses of a bucket. -/
def slotsOf (b : Nat) : List Nat := (List.range 8).map (fun k => b + 8 * k)

/-- Entries of the candidate buckets that match in VALID, TABLE and SIG; those of an uncorrectable codeword act as not
VALID (R249, R278): (entry address, flow index). -/
def matchesOf (s : State) (t : Nat) (key : List Byte) : List (Nat × Nat) :=
  ((buckets t key).flatMap slotsOf).filterMap (fun a =>
    let e := entryAt s a
    if entryValid e && entryTable e == t && entrySig e == sigOf t key && !poisoned s a 8 then some (a, entryIdx e)
    else none)

/-- The current record of a flow index: a Deck's, a writeback buffer's, or the array's (R248). -/
def curRec (s : State) (idx : Nat) : List Byte :=
  match deckByIdx s idx with
  | some k => (getWay s k).record
  | none =>
    match wbByIdx s idx with
    | some e => e.2
    | none => if s.fuse.hbm then arrayRec s idx else []

/-- Marked BAD (R278). -/
def isBad (s : State) (idx : Nat) : Bool :=
  s.fl.bad.contains idx || (match deckByIdx s idx with
    | some k => (getWay s k).bad
    | none => false)

/-! Locating a key (R249, steps 1 to 4). -/

inductive Where where
  /-- in this pipeline's Deck -/
  | deck (k : Nat)
  /-- in this pipeline's writeback buffer -/
  | wb (idx : Nat)
  /-- in the pending table -/
  | pending
  /-- in another pipeline's Deck -/
  | other (k : Nat)
  /-- in another pipeline's writeback buffer -/
  | otherWb (p idx : Nat)
  /-- in the array only -/
  | array (idx : Nat)
  | absent
deriving DecidableEq, Repr

def pendFind (s : State) (t : Nat) (key : List Byte) : Option PendKey :=
  s.fl.pend.find? (fun p => p.table == t && p.key == key)

/-- Step 4: the first candidate whose full key matches. -/
def locateIndex (s : State) (t : Nat) (key : List Byte) : Where :=
  match (matchesOf s t key).find? (fun e => recIs (curRec s e.2) t key) with
  | none => .absent
  | some e =>
    match deckByIdx s e.2 with
    | some k => .other k
    | none =>
      match wbByIdx s e.2 with
      | some w => .otherWb w.1 e.2
      | none => .array e.2

def locate (s : State) (pipe t : Nat) (key : List Byte) : Where :=
  match deckFind s pipe t key with
  | some k => .deck k
  | none =>
    match wbFind s pipe t key with
    | some e => .wb e.1
    | none =>
      if ¬ s.fuse.hbm then .absent
      else if (pendFind s t key).isSome then .pending
      else locateIndex s t key

/-- The lookup misses the Deck (R182, R249 step 3). -/
def missesDeck (s : State) (pipe t : Nat) (key : List Byte) : Bool :=
  (deckFind s pipe t key).isNone && (wbFind s pipe t key).isNone

/-! Installs (R257, R258). -/

def freeWayIn (s : State) (ks : List Nat) : Option Nat := ks.find? (fun k => !(getWay s k).valid)

/-- The least recently used way of a list that satisfies `p`. -/
def lru (s : State) (p : Way → Bool) : List Nat → Option Nat
  | [] => none
  | k :: ks =>
    if p (getWay s k) then
      match lru s p ks with
      | some j => if (getWay s j).used < (getWay s k).used then some j else some k
      | none => some k
    else lru s p ks

def evictable (s : State) (w : Way) (dirty : Bool) : Bool :=
  w.valid && !w.pin && w.dirty == dirty && (boundTo s w.idx).isNone

/-- The way an install takes, and the state with any victim out of it (R257). In D variants only a free way. -/
def takeWay (s : State) (pipe set : Nat) : Option (Nat × State) :=
  let ks := waysOf pipe set
  match freeWayIn s ks with
  | some k => some (k, s)
  | none =>
    if ¬ s.fuse.hbm then none
    else
      match lru s (fun w => evictable s w false) ks with
      | some k =>
        let w := getWay s k
        some (k, setWay (setDir (bump s (deckB pipe + R.DECK_EVICTIONS)) w.idx none) k {})
      | none =>
        match lru s (fun w => evictable s w true) ks with
        | none => none
        | some k =>
          let w := getWay s k
          if 64 ≤ (wbOf s pipe).length then none
          else
            let s := setWb (bump s (deckB pipe + R.DECK_EVICTIONS)) pipe (wbOf s pipe ++ [(w.idx, w.record)])
            let s := setFl s { s.fl with
              wbq := s.fl.wbq ++ [{ pipe := pipe, idx := w.idx, record := w.record, victim := true }] }
            some (k, setWay s k {})

/-- Install a record in pipeline `pipe`'s Deck. -/
def install (s : State) (pipe idx : Nat) (r : List Byte) (dirty bad : Bool) : Option (Nat × State) :=
  match takeWay s pipe (setOf (rget r oTABLE 1) (slice r 0 (keyW s (rget r oTABLE 1)))) with
  | none => none
  | some (k, s) =>
    let i := if s.fuse.hbm then idx else k
    let s := setWay s k { valid := true, idx := i, record := r, dirty := dirty, bad := bad,
                          ply := plyNat s }
    some (k, touchWay (setDir s i (some pipe)) k)

/-- Take an unbound, unpinned record out of another Deck for a migration: its bytes and whether dirty. -/
def giveUp (s : State) (k : Nat) : List Byte × Bool × State :=
  let w := getWay s k
  (w.record, w.dirty, setDir (setWay s k {}) w.idx none)

/-! Free list (R243, R253). -/

def freeCount (s : State) : Nat :=
  if s.fuse.hbm then s.fl.freeHead.length + (67108864 - s.fl.fresh) + s.fl.freeTail.length else 0

def allocIdx (s : State) : Option (Nat × State) :=
  match s.fl.freeHead with
  | i :: is => some (i, setFl s { s.fl with freeHead := is })
  | [] =>
    if s.fl.fresh < 67108864 then some (s.fl.fresh, setFl s { s.fl with fresh := s.fl.fresh + 1 })
    else match s.fl.freeTail with
      | i :: is => some (i, setFl s { s.fl with freeTail := is })
      | [] => none

/-! Index entries (R252). -/

def slotFree (s : State) (a : Nat) : Bool :=
  !entryValid (entryAt s a) && !s.fl.pend.any (fun p => p.slot == a)

def freeSlotIn (s : State) (bs : List Nat) : Option Nat := (bs.flatMap slotsOf).find? (slotFree s)

/-- The other candidate buckets of the record that the entry at `a` names. -/
def otherBuckets (s : State) (a : Nat) : List Nat :=
  let r := curRec s (entryIdx (entryAt s a))
  let t := rget r oTABLE 1
  (buckets t (slice r 0 (keyW s t))).filter (fun b => decide (b ≠ a / 64 * 64))

/-- One breadth-first layer: chains of moves, last first; each is a list of entry addresses from the reserved place. -/
def chainStep (s : State) (chains : List (List Nat)) : List (List Nat) :=
  chains.flatMap (fun c => match c with
    | [] => []
    | a :: _ => (otherBuckets s a).flatMap (fun b => (slotsOf b).filterMap (fun x => if c.contains x then none else some (x :: c))))

/-- The first chain of at most `n` moves whose last entry is free. -/
def findChain (s : State) : Nat → List (List Nat) → Option (List Nat)
  | 0, _ => none
  | n + 1, chains =>
    let next := chainStep s chains
    match next.find? (fun c => match c with
      | [] => false
      | x :: _ => slotFree s x) with
    | some c => some c
    | none => findChain s n next

/-- Carry out a chain: each entry moves to the place before it in the list, new place first. -/
def moveChain (s : State) : List Nat → State
  | x :: y :: rest => moveChain (writeEntry (writeEntry s x (entryAt s y)) y 0) (y :: rest)
  | _ => s

/-- Reserve an index entry for a key: its address. -/
def reserveSlot (s : State) (t : Nat) (key : List Byte) : Option (Nat × State) :=
  let bs := buckets t key
  match freeSlotIn s bs with
  | some a => some (a, s)
  | none =>
    match findChain s 4 ((bs.flatMap slotsOf).map (fun a => [a])) with
    | some c => some (c.getLast?.getD 0, moveChain s c)
    | none => none

def showPend (s : State) : State :=
  let n := s.fl.pend.length
  peak (fs s pgFT F.FT_PENDING_COUNT n) pgFT F.FT_PENDING_PEAK n

/-! Removing a record (R274, R277). -/

/-- The index entry that names the record. -/
def entryOf (s : State) (idx : Nat) : Option Nat :=
  let r := curRec s idx
  let t := rget r oTABLE 1
  ((buckets t (slice r 0 (keyW s t))).flatMap slotsOf).find? (fun a =>
    entryValid (entryAt s a) && entryIdx (entryAt s a) == idx)

/-- Clear the index entry, empty the Deck way, keep GEN where the next allocation reads it, free the index to the
tail. -/
def removeRec (s : State) (idx : Nat) : State :=
  let r := curRec s idx
  let gone := setFlag r flVALID false
  let s := match entryOf s idx with
    | some a => if s.fuse.hbm then writeEntry s a 0 else s
    | none => s
  let s := match deckByIdx s idx with
    | some k => setWay s k (if s.fuse.hbm then {} else { record := gone })
    | none => s
  let s := match wbByIdx s idx with
    | some w => setWb s w.1 ((wbOf s w.1).filter (fun e => decide (e.1 ≠ idx)))
    | none => s
  let s := setFl s { s.fl with wbq := s.fl.wbq.filter (fun i => decide (i.idx ≠ idx)),
                               bad := s.fl.bad.filter (· ≠ idx) }
  let s := setDir s idx none
  if s.fuse.hbm then
    setFl (mwr s (arrayAt idx) gone) { (mwr s (arrayAt idx) gone).fl with freeTail := s.fl.freeTail ++ [idx] }
  else s

end Sys2Proof.Machine
end

