-- ==== Sys2Proof/Machine/TallyTime.lean ====
section
/-! DEFINITION. Tally Time (chapter 04): the master counter, reference inputs, PTP, the choice of references, the time
states, capture latches and PMA delays (R118-R150). -/

namespace Sys2Proof.Machine

/-! Events of pages 0x010 and 0x011 (R157, R158). -/

abbrev evSTATE_CHANGE : Nat := 0
abbrev evHOLDOVER_LIMIT : Nat := 1
abbrev evLATCH_DRIFT : Nat := 2
abbrev evLATCH_HELD : Nat := 3
abbrev evSHIFT_ALARM : Nat := 4
abbrev evTE_LIMIT : Nat := 5
abbrev evPPS_FAST : Nat := 0
abbrev evPPS_MISSING : Nat := 1
abbrev evPPS_WIDTH : Nat := 2
abbrev evTOD_BAD : Nat := 3
abbrev evF10M_REJECT : Nat := 4
abbrev evSYNCE_REJECT : Nat := 5
abbrev evPATH_FALL : Nat := 8
abbrev evREF_DISAGREE : Nat := 9

def setRef (s : State) (r : RefSt) : State := { s with ref := r }

/-- A bit of REF_STATUS or REF_CTRL. -/
def refOk (s : State) (f : FRef) : Bool := fgb s pgREF f
def setRefOk (s : State) (f : FRef) (b : Bool) : State := fs s pgREF f (if b then 1 else 0)

/-! The master counter (R123, R125). -/

/-- TT of a count in 2^-32 ns, 1/256 ns. -/
def ttOf (acc : Nat) : Nat := acc / 2 ^ 24

/-- Present TT of an instant `dt` (1/256 ns) after the last edge or island tick. -/
def ttNow (s : State) (dt : Nat) : Nat := s.tm.tickTT + dt

/-- The addend of one Tally clock cycle: 2^32 corrected by FREQ_ADJ, in 1/1,024 ppb. -/
def addend (s : State) : Nat :=
  let adj := sext 32 (fg s pgTT F.TT_FREQ_ADJ_ADJ)
  (((2 ^ 32 : Nat) : Int) + adj * (2 ^ 32 : Nat) / (1024 * 1000000000)).toNat

/-- The master counter runs `n` Tally clock cycles. -/
def advanceTT (s : State) (n : Nat) : State :=
  let a := s.tm.ttAcc + n * addend s
  { s with tm := { s.tm with ttAcc := a } }

/-- Step TT by a signed amount in 1/256 ns: only the first setting does this (R125). -/
def stepTT (s : State) (d : Int) : State :=
  let a := ((s.tm.ttAcc : Int) + d * (2 ^ 24 : Nat)).toNat
  { s with tm := { s.tm with ttAcc := a } }

/-! 1PPS (R131-R133). -/

abbrev ms256 : Nat := 256000000

/-- The pulse's spacing from the one before is within 0.999 s to 1.001 s. -/
def spacingOk (p : PpsSt) : Bool :=
  match p.prev, p.rise with
  | some a, some b => 999 * ms256 ≤ b - a && b - a ≤ 1001 * ms256
  | _, _ => false

def widthOk (s : State) (w : Nat) : Bool :=
  fg s pgREF F.REF_PPS_WIN_PPS_WMIN * 256 ≤ w && w ≤ fg s pgREF F.REF_PPS_WIN_PPS_WMAX * 10000 * 256

/-- The 1PPS reads qualified and no disqualification waits for the edge. -/
def ppsQualified (s : State) : Bool := refOk s F.REF_REF_STATUS_PPS_OK && !s.ref.pps.lost

/-- Disqualify the 1PPS with an event (R132). -/
def ppsLose (s : State) (ev : Nat) : State :=
  raise (setRef s { s.ref with pps := { s.ref.pps with lost := true, count := 0 } }) 0x011 ev

/-- TE of a rising edge, in qns, truncated (R122, R133): the time less the nearest whole second. -/
def ppsTE (s : State) (rise : Nat) : Int :=
  let t : Int := (rise : Int) - fg s pgCAL F.CAL_PPS_IN_DELAY_DELAY
  let r := t % (sec256 : Nat)
  let r := if r * 2 ≤ (sec256 : Nat) then r else r - (sec256 : Nat)
  r / 64

/-- The nearest whole second of a rising edge. -/
def ppsSecond (s : State) (rise : Nat) : Nat :=
  ((((rise : Int) - fg s pgCAL F.CAL_PPS_IN_DELAY_DELAY) * 2 + (sec256 : Nat)) / (2 * (sec256 : Nat))).toNat

/-- Accept a pulse (R133). -/
def ppsAccept (s : State) (rise : Nat) : State :=
  let te := ppsTE s rise
  let s := setRef s { s.ref with pps := { s.ref.pps with accepted := some rise } }
  let s := fs s pgREF F.REF_PPS_TE_TE (trunc 32 te)
  let s := fs s pgREF F.REF_PPS_SEC_SEC_LO (ppsSecond s rise)
  let src := fg s pgTT F.TT_TIME_STATE_TIME_SRC
  if (src = 2 ∨ src = 3) ∧ fg s pgCAL F.CAL_TE_LIMIT_LIMIT < te.natAbs then raise s 0x011 evREF_DISAGREE else s

/-- Judge the pulse whose rising edge is `rise` as good or not (R131, R132). -/
def ppsJudge (s : State) (rise : Nat) (wOk : Bool) : State :=
  let p := s.ref.pps
  let good := wOk && spacingOk p
  let s := setRef s { s.ref with pps := { p with high := false } }
  if ppsQualified s then
    if ¬ wOk then ppsLose s evPPS_WIDTH else if good then ppsAccept s rise else s
  else if good then
    let n := s.ref.pps.count + 1
    let s := setRef s { s.ref with pps := { s.ref.pps with count := n } }
    if max 1 (fg s pgREF F.REF_PPS_QUAL_QUAL_N) ≤ n then
      let s := setRefOk (setRef s { s.ref with pps := { s.ref.pps with count := 0, lost := false } })
        F.REF_REF_STATUS_PPS_OK true
      ppsAccept s rise
    else s
  else setRef s { s.ref with pps := { s.ref.pps with count := 0 } }

/-- A rising edge at `t` (R131, R132, R134). -/
def ppsRise (s : State) (t : Nat) : State :=
  let p := s.ref.pps
  let fast := ppsQualified s && (match p.accepted with
    | some a => decide (t - a < 999 * ms256)
    | none => false)
  let s := setRef s { s.ref with pps := { p with prev := p.rise, rise := some t, high := true } }
  let s := if fast then ppsLose s evPPS_FAST else s
  let opens := match s.ref.tod.opened with
    | none => true
    | some o => decide (999 * ms256 ≤ t - o)
  if opens then setRef s { s.ref with tod := { s.ref.tod with opened := some t, waiting := true } } else s

def ppsFall (s : State) (t : Nat) : State :=
  match s.ref.pps.rise with
  | some r => if s.ref.pps.high then ppsJudge s r (widthOk s (t - r)) else s
  | none => s

def ppsTimeout (s : State) : State :=
  match s.ref.pps.rise with
  | some r => if s.ref.pps.high then ppsJudge s r false else s
  | none => s

def ppsMissing (s : State) : State := if ppsQualified s then ppsLose s evPPS_MISSING else s

/-! Time of day (R134, R135). -/

/-- CRC-16/CCITT-FALSE: polynomial 0x1021, initial value 0xFFFF. -/
def crc16Byte (c : Nat) (b : Byte) : Nat :=
  (List.range 8).foldl (fun c _ => if c / 32768 = 1 then ((c * 2) % 65536) ^^^ 0x1021 else c * 2) (c ^^^ (b.toNat * 256))

def crc16 (bs : List Byte) : Nat := bs.foldl crc16Byte 0xFFFF

/-- TOD_OK falls with a window whose message is missing or not good (R135). -/
def todFail (s : State) : State :=
  let was := refOk s F.REF_REF_STATUS_TOD_OK
  let s := setRef s { s.ref with tod := { s.ref.tod with waiting := false, prev := none, good := 0 } }
  let s := setRefOk s F.REF_REF_STATUS_TOD_OK false
  if was then raise s 0x011 evTOD_BAD else s

/-- A ToD message that began and ended `b` and `e` (1/256 ns) after the rising edge that opened the window. -/
def todMessageOp (s : State) (b e : Nat) (m : List Byte) : State :=
  let t := s.ref.tod
  match t.opened with
  | none => s
  | some o =>
    if ¬ t.waiting ∨ b < 10 * ms256 ∨ 500 * ms256 < b then s
    else
      let sec := beAt m 2 6
      let good := m.length = 12 && beAt m 0 2 == 0xA55A && crc16 (m.take 10) == beAt m 10 2 &&
        (beAt m 9 1 / 4) % 2 == 1 && decide (e ≤ 500 * ms256) && decide (b ≤ e) &&
        (match t.prev with
         | some p => sec == p + 1
         | none => true)
      if ¬ good then todFail s
      else
        let s := setRef s { s.ref with tod := { t with waiting := false, prev := some sec, last := some (sec, o),
                                                       good := t.good + 1 } }
        let s := fs s pgTT F.TT_UTC_OFFSET_TAI_UTC (beAt m 8 1)
        let s := fs s pgTT F.TT_UTC_OFFSET_LEAP61 (beAt m 9 1 % 2)
        let s := fs s pgTT F.TT_UTC_OFFSET_LEAP59 (beAt m 9 1 / 2 % 2)
        let s := fs s pgTT F.TT_UTC_OFFSET_VALID 1
        if 3 ≤ t.good + 1 then setRefOk s F.REF_REF_STATUS_TOD_OK true else s

def todClose (s : State) : State := if s.ref.tod.waiting then todFail s else s

/-! 10 MHz and SyncE (R136). -/

def freqOkBit (synce : Bool) : FRef := if synce then F.REF_REF_STATUS_SYNCE_OK else F.REF_REF_STATUS_F10M_OK

def getFreq (s : State) (synce : Bool) : FreqSt := if synce then s.ref.synce else s.ref.f10m
def setFreq (s : State) (synce : Bool) (f : FreqSt) : State :=
  setRef s (if synce then { s.ref with synce := f } else { s.ref with f10m := f })

/-- Disqualify a frequency input. -/
def freqLose (s : State) (synce : Bool) : State :=
  let was := refOk s (freqOkBit synce)
  let s := setRefOk (setFreq s synce {}) (freqOkBit synce) false
  if was then raise s 0x011 (if synce then evSYNCE_REJECT else evF10M_REJECT) else s

/-- A gate of 10 ms ends with the offset `dev`, 1/1,024 ppb. -/
def freqGate (s : State) (synce : Bool) (dev : Int) : State :=
  let s := fs s pgREF (if synce then F.REF_SYNCE_DEV_DEV else F.REF_F10M_DEV_DEV) (trunc 32 dev)
  let f := getFreq s synce
  if fg s pgREF F.REF_F10M_LIMIT_LIMIT * 1024 < dev.natAbs then
    let s := setFreq s synce { bad := f.bad + 1, good := 0 }
    if 2 ≤ f.bad + 1 then freqLose s synce else s
  else
    let s := setFreq s synce { bad := 0, good := f.good + 1 }
    if 100 ≤ f.good + 1 then setRefOk s (freqOkBit synce) true else s

/-- The SyncE lane's CDR_LOCK falls or its port leaves UP. -/
def synceLane (s : State) (lane : Nat) : State :=
  if fg s pgREF F.REF_SYNCE_SRC_LANE = lane then freqLose s true else s

/-! PTP (R137-R140). -/

abbrev ptpB (b : Bool) : Nat := pb 0x012 + (if b then 0x80 else 0x40)

def getPtp (s : State) (b : Bool) : PtpSt := if b then s.ref.ptpB else s.ref.ptpA
def setPtp (s : State) (b : Bool) (p : PtpSt) : State :=
  setRef s (if b then { s.ref with ptpB := p } else { s.ref with ptpA := p })

def ptpPort (s : State) (b : Bool) : Nat := fg s (ptpB b) F.PTP_PTP_CTRL_PORT
def ptpOkBit (b : Bool) : FRef := if b then F.REF_REF_STATUS_PTP_B_OK else F.REF_REF_STATUS_PTP_A_OK

/-- PATH_PROVEN of the framer whose client port `p` is; true for other ports (R140). -/
def pathGood (s : State) (p : Nat) : Bool :=
  !isClient s p || fgb s (frmB (p / 16)) F.FRM_FRAMER_STATUS_PATH_PROVEN

/-- The port is qualified (R140). -/
def ptpQualified (s : State) (b : Bool) : Bool :=
  let p := getPtp s b
  fg s (ptpB b) F.PTP_PTP_STATUS_PORT_STATE == 9 && p.syncOk && p.respOk &&
  (!fgb s (ptpB b) F.PTP_PTP_CTRL_HA || fgb s (ptpB b) F.PTP_PTP_STATUS_L1SYNC_UP) && pathGood s (ptpPort s b)

/-- Show the qualification; a fall raises PTP_x_LOSS. -/
def ptpEval (s : State) (b : Bool) : State :=
  let was := refOk s (ptpOkBit b)
  let now := ptpQualified s b
  let s := setRefOk s (ptpOkBit b) now
  if was && !now then raise s 0x011 (if b then 7 else 6) else s

/-- A PTP timestamp (48-bit seconds, 32-bit nanoseconds) in 1/256 ns. -/
def ptpTime (m : List Byte) (o : Nat) : Int := (beAt m o 6 * sec256 + beAt m (o + 6) 4 * 256 : Nat)

/-- correctionField (2^-16 ns) in 1/256 ns. -/
def ptpCorr (m : List Byte) : Int := sext 64 (beAt m 8 8) / 256

def ptpSender (m : List Byte) : Nat := beAt m 20 10

/-- The values of an Announce in the order of the default comparison: priority1, clock class, accuracy, variance,
priority2, identity, steps removed, sender (IEEE 1588-2019, PRESUMED; log entry 19). -/
def announceRank (m : List Byte) : List Nat :=
  [beAt m 47 1, beAt m 48 1, beAt m 49 1, beAt m 50 2, beAt m 52 1, beAt m 53 8, beAt m 61 2, ptpSender m]

def rankLt : List Nat → List Nat → Bool
  | a :: as, b :: bs => if a = b then rankLt as bs else decide (a < b)
  | _, _ => false

/-- An Announce message: the better time-transmitter becomes or stays the port's. -/
def ptpAnnounce (s : State) (b : Bool) (m : List Byte) : State :=
  let p := getPtp s b
  let f : Foreign := { rank := announceRank m, sender := ptpSender m, gm := BitVec.ofNat 64 (beAt m 53 8),
                       utc := beAt m 44 2, leap := beAt m 7 1 % 4, seen := 1 }
  let keep := match p.master with
    | none => f
    | some g => if g.sender = f.sender then { f with seen := g.seen + 1 } else if rankLt f.rank g.rank then f else g
  let fresh : Bool := match p.master with
    | none => true
    | some g => decide (g.sender ≠ keep.sender)
  let p := if fresh then { p with master := some keep, mpd := none, t1 := none, reqSeq := none, syncOk := false,
                                  respOk := false } else { p with master := some keep }
  let s := setPtp s b p
  let s := wr64 s (ptpB b + R.PTP_PTP_GM_ID) keep.gm.toNat
  let st := fg s (ptpB b) F.PTP_PTP_STATUS_PORT_STATE
  let s := if 2 ≤ keep.seen ∧ (fresh ∨ (st ≠ 8 ∧ st ≠ 9)) then fs s (ptpB b) F.PTP_PTP_STATUS_PORT_STATE 8
    else if keep.seen < 2 then fs s (ptpB b) F.PTP_PTP_STATUS_PORT_STATE 4 else s
  let s := if keep.sender = f.sender ∧ (fg s pgTT F.TT_TIME_STATE_TIME_SRC = (if b then 3 else 2)) then
      let s := fs s pgTT F.TT_UTC_OFFSET_TAI_UTC f.utc
      let s := fs s pgTT F.TT_UTC_OFFSET_LEAP61 (f.leap % 2)
      let s := fs s pgTT F.TT_UTC_OFFSET_LEAP59 (f.leap / 2)
      fs s pgTT F.TT_UTC_OFFSET_VALID 1
    else s
  ptpEval s b

/-- The message comes from the port's time-transmitter. -/
def fromMaster (p : PtpSt) (m : List Byte) : Bool :=
  match p.master with
  | some g => g.sender == ptpSender m && decide (2 ≤ g.seen)
  | none => false

/-- The offset with t1 and t2 known: t2 − t1 − meanPathDelay − delayAsymmetry − corrections. -/
def ptpOffset (s : State) (b : Bool) (p : PtpSt) : State :=
  match p.t1, p.mpd with
  | some t1, some d =>
    let o := p.t2 - t1 - d - sext 32 (fg s (ptpB b) F.PTP_PTP_ASYM_ASYM) - p.corr
    let s := setPtp s b { p with offset := o }
    let s := fs s (ptpB b) F.PTP_PTP_OFFSET_OFFSET (trunc 32 (o / 64))
    if fg s (ptpB b) F.PTP_PTP_STATUS_PORT_STATE = 8 then fs s (ptpB b) F.PTP_PTP_STATUS_PORT_STATE 9 else s
  | _, _ => setPtp s b p

/-- A Sync received at t2; one-step messages carry t1 (R138). -/
def ptpSync (s : State) (b : Bool) (m : List Byte) (t2 : Nat) : State :=
  let p := getPtp s b
  if !fromMaster p m then s
  else
    let twoStep := beAt m 6 1 / 2 % 2 = 1
    let p := { p with syncSeq := beAt m 30 2, t2 := t2, corr := ptpCorr m, syncOk := true,
                      t1 := if twoStep then none else some (ptpTime m 34) }
    ptpEval (ptpOffset s b p) b

def ptpFollowUp (s : State) (b : Bool) (m : List Byte) : State :=
  let p := getPtp s b
  if !fromMaster p m ∨ beAt m 30 2 ≠ p.syncSeq ∨ p.t1.isSome then s
  else ptpEval (ptpOffset s b { p with t1 := some (ptpTime m 34), corr := p.corr + ptpCorr m }) b

/-- A Delay_Resp: t4, and with it the mean path delay. -/
def ptpDelayResp (s : State) (b : Bool) (m : List Byte) : State :=
  let p := getPtp s b
  if !fromMaster p m ∨ p.reqSeq ≠ some (beAt m 30 2) then s
  else
    match p.t1 with
    | none => setPtp s b { p with respOk := true, reqSeq := none }
    | some t1 =>
      let d := ((p.t2 - p.t3) + (ptpTime m 34 - t1) - p.corr - ptpCorr m) / 2
      let s := fs s (ptpB b) F.PTP_PTP_MPD_MPD (trunc 32 (d / 64))
      ptpEval (ptpOffset s b { p with mpd := some d, respOk := true, reqSeq := none }) b

/-- L1Sync: the three coherence parameters of the L1_SYNC TLV (type 0x8001) of a Signaling message. -/
def ptpSignaling (s : State) (b : Bool) (m : List Byte) : State :=
  if beAt m 44 2 ≠ 0x8001 then s
  else
    let up := beAt m 48 1 % 8 = 7
    ptpEval (fs s (ptpB b) F.PTP_PTP_STATUS_L1SYNC_UP (if up then 1 else 0)) b

/-- A diverted message with its arrival time t2 (R137, R139). -/
def ptpReceive (s : State) (b : Bool) (m : List Byte) (t2 : Nat) : State :=
  let s := bump s (ptpB b + R.PTP_PTP_RX)
  match beAt m 0 1 % 16 with
  | 0 => ptpSync s b m t2
  | 8 => ptpFollowUp s b m
  | 9 => ptpDelayResp s b m
  | 11 => ptpAnnounce s b m
  | 12 => ptpSignaling s b m
  | _ => s

/-- Which PTP port a front-panel port is, if it is enabled as one. -/
def ptpOn (s : State) (port : Nat) : Option Bool :=
  if fgb s pgREF F.REF_REF_CTRL_PTP_A_EN && ptpPort s false == port then some false
  else if fgb s pgREF F.REF_REF_CTRL_PTP_B_EN && ptpPort s true == port then some true
  else none

/-- A receipt timer ran out (R140). -/
def ptpTimeout (s : State) (b : Bool) (w : PtpTimer) : State :=
  let p := getPtp s b
  let s := match w with
    | .announce => fs (setPtp s b { p with master := none, mpd := none, t1 := none, syncOk := false, respOk := false })
        (ptpB b) F.PTP_PTP_STATUS_PORT_STATE 4
    | .sync => setPtp s b { p with syncOk := false }
    | .delayResp => setPtp s b { p with respOk := false }
    | .interval => setPtp s b { p with syncOk := false, respOk := false }
  ptpEval s b

/-! Selection and time state (R130, R141, R142). -/

def ppsTodOk (s : State) : Bool :=
  refOk s F.REF_REF_CTRL_PPS_EN && refOk s F.REF_REF_STATUS_PPS_OK && refOk s F.REF_REF_STATUS_TOD_OK

def ptpUsable (s : State) (b : Bool) : Bool :=
  refOk s (if b then F.REF_REF_CTRL_PTP_B_EN else F.REF_REF_CTRL_PTP_A_EN) && refOk s (ptpOkBit b)

/-- TIME_SRC: 0 none, 1 1PPS with ToD, 2 PTP A, 3 PTP B. -/
def timeSource (s : State) : Nat :=
  let order := if refOk s F.REF_REF_CTRL_TIME_PREF then [2, 3, 1] else [1, 2, 3]
  (order.find? (fun k => match k with
    | 1 => ppsTodOk s
    | 2 => ptpUsable s false
    | _ => ptpUsable s true)).getD 0

/-- FREQ_SRC: 0 Tally oscillator, 1 10 MHz, 2 SyncE, 3 PTP. -/
def freqSource (s : State) (time : Nat) : Nat :=
  let ok := fun k => match k with
    | 1 => refOk s F.REF_REF_CTRL_F10M_EN && refOk s F.REF_REF_STATUS_F10M_OK
    | 2 => refOk s F.REF_REF_CTRL_SYNCE_EN && refOk s F.REF_REF_STATUS_SYNCE_OK
    | _ => time == 2 || time == 3
  let pref := fg s pgREF F.REF_REF_CTRL_FREQ_PREF
  let first := if pref = 1 then 2 else if pref = 2 then 3 else 1
  ([first, 1, 2, 3].find? ok).getD 0

/-- How far TT must step to the first reference (R125), 1/256 ns. -/
def firstStep (s : State) (src : Nat) : Int :=
  if src = 1 then
    match s.ref.tod.last with
    | some (sec, rise) => (sec * sec256 : Nat) - ((rise : Int) - fg s pgCAL F.CAL_PPS_IN_DELAY_DELAY)
    | none => 0
  else -(getPtp s (src == 3)).offset

def timeStateIs (s : State) (n : Nat) : Bool := fg s pgTT F.TT_TIME_STATE_STATE == n

def goState (s : State) (n : Nat) : State :=
  let was := fg s pgTT F.TT_TIME_STATE_STATE
  let s := fs s pgTT F.TT_TIME_STATE_STATE n
  let s := setRef s { s.ref with teGood := 0, teBad := 0, firstBad := false }
  let s := raise s 0x010 evSTATE_CHANGE
  if was = 2 ∧ n = 1 then raise s 0x010 evTE_LIMIT else s

/-- HOLDOVER_EST in ps (R142). -/
def holdoverEst (s : State) : Nat :=
  s.ref.hoTE * 250 + fg s pgCAL F.CAL_HO_DRIFT_DRIFT * (s.tm.tickTT - s.ref.hoStart) / sec256

/-- The state machine of R141, run at an edge or island tick after the references are chosen. -/
def timeState (s : State) (src : Nat) : State :=
  match fg s pgTT F.TT_TIME_STATE_STATE with
  | 0 =>
    if src = 0 then s
    else
      let s := if fgb s pgTT F.TT_TIME_STATE_TIME_SET then s
        else fs (stepTT s (firstStep s src)) pgTT F.TT_TIME_STATE_TIME_SET 1
      goState s 1
  | 1 =>
    if src = 0 then
      if fgb s pgTT F.TT_TIME_STATE_TIME_SET then goState s 3 else goState s 0
    else if 16 ≤ s.ref.teGood then goState s 2 else s
  | 2 =>
    if src = 0 then goState s 3
    else if 2 ≤ s.ref.teBad ∨ s.ref.firstBad then goState s 1 else s
  | _ => if src = 0 then s else goState s 1

/-- HOLDOVER's estimate and TQ of the edge (R142, R143). -/
def holdoverStep (s : State) (entered : Bool) : State :=
  if timeStateIs s 3 then
    let s := if entered then setRef s { s.ref with
        hoTE := (sext 32 (fg s pgTT F.TT_TE_LAST_TE)).natAbs, hoStart := s.tm.tickTT, hoRaised := false } else s
    let e := holdoverEst s
    let s := fs s pgTT F.TT_HOLDOVER_EST_EST (min e (2 ^ 32 - 1))
    if fg s pgCAL F.CAL_HO_LIMIT_LIMIT < e ∧ ¬ s.ref.hoRaised then
      raise (setRef s { s.ref with hoRaised := true }) 0x010 evHOLDOVER_LIMIT
    else s
  else fs s pgTT F.TT_HOLDOVER_EST_EST 0

/-- TQ of the conditions that do not depend on a lane (R143). -/
def edgeTQ (s : State) : Nat :=
  if timeStateIs s 2 then 0
  else if timeStateIs s 3 && decide (holdoverEst s ≤ fg s pgCAL F.CAL_HO_LIMIT_LIMIT) then 1
  else 2

/-- The Tally's edge-timed work: qualification, selection, time state (R130, R132, R141, R142). -/
def tallyTick (s : State) : State :=
  let s := if s.ref.pps.lost then
      setRefOk (setRef s { s.ref with pps := { s.ref.pps with lost := false } }) F.REF_REF_STATUS_PPS_OK false
    else s
  let s := ptpEval (ptpEval s false) true
  let src := timeSource s
  let was := fg s pgTT F.TT_TIME_STATE_TIME_SRC
  let s := if src ≠ was ∧ src ≠ 0 then setRef s { s.ref with newRef := true } else s
  let s := fs s pgTT F.TT_TIME_STATE_TIME_SRC src
  let s := fs s pgTT F.TT_TIME_STATE_FREQ_SRC (freqSource s src)
  let before := timeStateIs s 3
  let s := timeState s src
  let s := { s with tm := { s.tm with tickTT := ttOf s.tm.ttAcc } }
  let s := holdoverStep s (!before)
  fs s pgTT F.TT_TIME_STATE_TQ (edgeTQ s)

/-- The once-per-second measurement of TE (R141): PPS_TE for 1PPS, the servo's filtered offset `te` (qns) for PTP. The
servo's new frequency correction is a value the spec gives no rule for: free, within SLEW_MAX (R125). -/
def measureTE (s : State) (te : Int) : State :=
  let src := fg s pgTT F.TT_TIME_STATE_TIME_SRC
  if src = 0 then s
  else
    let te := if src = 1 then sext 32 (fg s pgREF F.REF_PPS_TE_TE) else te
    let s := fs s pgTT F.TT_TE_LAST_TE (trunc 32 te)
    let bad := fg s pgCAL F.CAL_TE_LIMIT_LIMIT < te.natAbs
    let r := s.ref
    let s := setRef s { r with teGood := if bad then 0 else r.teGood + 1, teBad := if bad then r.teBad + 1 else 0,
                               firstBad := r.firstBad || (r.newRef && bad), newRef := false }
    let v := free s
    let m := 1024 * fg s pgCAL F.CAL_SLEW_MAX_SLEW
    let adj : Int := ((v.1 % (2 * m + 1) : Nat) : Int) - m
    fs v.2 pgTT F.TT_FREQ_ADJ_ADJ (trunc 32 adj)

/-! Latches (R143, R145, R149). -/

/-- The captures of ply `n`, on lane `l` (or on any lane), get TQ at least `q`. -/
def worsen (s : State) (n q : Nat) (l : Option Nat) : State :=
  let hit := fun (c : Cap) => c.ply == n && (match l with
    | some k => c.lane == k
    | none => true)
  let up := fun (c : Cap) => if hit c then { c with tq := max c.tq q } else c
  { s with
    frames := s.frames.map (fun e => (e.1, { e.2 with cap := up e.2.cap })),
    ev := { s.ev with pend := s.ev.pend.map (fun e => (e.1, e.2.map (fun p => { p with cap := up p.cap }))) } }

/-- The check of one latch at step 4, for the captures of ply `n` that ends (R145). -/
def latchCheck (n : Nat) (s : State) (x : Nat × Int) : State :=
  let l := x.1
  let d := x.2.natAbs
  let s := if fg s pgTT F.TT_LATCH_WORST_DEV < d then
      fs (fs s pgTT F.TT_LATCH_WORST_LATCH l) pgTT F.TT_LATCH_WORST_DEV (min d 65535) else s
  let L := getL s l
  if d ≤ min 128 (fg s pgCAL F.CAL_LATCH_THRESH_THRESH) then s
  else
    let k := L.failures + 1
    let s := setL s l { L with failed := true, failures := k, held := L.held || decide (3 ≤ k) }
    let s := raise (worsen s n 2 (some l)) 0x010 evLATCH_DRIFT
    if 3 ≤ k then setLevel s 0x010 evLATCH_HELD true else s

/-- Step 4: latches that failed before are resynchronised, then every deviation is checked. -/
def latchStep (s : State) (n : Nat) (devs : List (Nat × Int)) : State :=
  let failing := (s.lanes.filter (fun e => e.2.failed)).map (fun e => e.1)
  let s := failing.foldl (fun s l => modL s l (fun L => { L with failed := false })) s
  devs.foldl (latchCheck n) s

/-- A new PMA delay measurement is delivered (R149). -/
def deliverDelay (s : State) (l rx tx : Nat) : State :=
  let L := getL s l
  let far := fun (a b : Nat) => decide (fg s pgCAL F.CAL_SHIFT_LIMIT_LIMIT < max a b - min a b)
  let old := L.newDelay.getD (L.rxDelay, L.txDelay)
  let shift := L.measured && (far old.1 rx || far old.2 tx)
  let s := setL s l { L with newDelay := some (rx, tx), measured := true, shiftHold := shift }
  if shift then raise s 0x010 evSHIFT_ALARM else s

/-- Delays delivered in the ply that ends are used from now on (R149). -/
def takeDelays (s : State) : State :=
  let ls := (s.lanes.filter (fun e => e.2.newDelay.isSome)).map (fun e => e.1)
  ls.foldl (fun s l => modL s l (fun L => match L.newDelay with
    | some d => { L with rxDelay := d.1, txDelay := d.2, newDelay := none }
    | none => L)) s

end Sys2Proof.Machine
end

