-- ==== Sys2Proof/Machine/FlowOps.lean ====
section
/-! DEFINITION. What happens to flow records (chapter 07): finding and learning for a context, throttles and histograms,
counters, the commit, writeback, the Cruise, and the host's commands. -/

namespace Sys2Proof.Machine

/-! Contexts. -/

def getC (s : State) (k : Nat) : Ctx := tget (fun _ => {}) s.fl.ctxs k
def setC (s : State) (k : Nat) (c : Ctx) : State := setFl s { s.fl with ctxs := tset (fun _ => {}) s.fl.ctxs k c }
def modC (s : State) (k : Nat) (f : Ctx → Ctx) : State := setC s k (f (getC s k))
def ctxPipe (k : Nat) : Nat := k / 512
def reqOf (c : Ctx) (cond : Nat) : Option Req := tget (fun _ => none) c.reqs cond
def setReq (c : Ctx) (cond : Nat) (r : Option Req) : Ctx := { c with reqs := tset (fun _ => none) c.reqs cond r }

/-- Write `n` bytes of META at offset `o`. -/
def metaPut (c : Ctx) (o n v : Nat) : Ctx := { c with metaB := splice c.metaB o (beBytes n v) }

abbrev noFlow : Nat := 0xFFFFFFFF

/-! Throttles and histograms (R265-R268). -/

/-- Byte address of the block of profile `k`. -/
def thrAt (k : Nat) : Nat := pb (if k < 128 then 0x341 else 0x342) + 0x400 + 16 * (k % 128)

def tok (r a b : Nat) : Nat := b * r / 65536 - a * r / 65536

/-- The refill of a record of profile `prof` from THR_PLY up to ply `n`; none when the last refill lies after `n`. -/
def thrRefill (s : State) (prof n thrPly : Nat) : Option Nat :=
  let d := (n % 2 ^ 48 + 2 ^ 48 - thrPly) % 2 ^ 48
  if 2 ^ 47 ≤ d then none
  else
    let a := n - d
    let k := tget (fun _ => 0) s.fl.thrPly prof
    let r := cg s (thrAt prof) F.THR_RATE_RATE
    if a < k ∧ k ≤ n then some (tok (cg s (thrAt prof) F.THR_OLD_RATE_OLD) a k + tok r k n) else some (tok r a n)

/-- Level and THR_PLY after the refill. -/
def thrLevel (s : State) (r : List Byte) (n : Nat) : Int × Nat :=
  let prof := rget r oTHR_PROFILE 1
  let b : Int := min (2 ^ 31 - 1) (cg s (thrAt prof) F.THR_BURST_BURST)
  let l := sext 32 (rget r oTHR_LEVEL 4)
  match thrRefill s prof n (rget r oTHR_PLY 6) with
  | none => (min b l, rget r oTHR_PLY 6)
  | some t => (min b (l + t), n % 2 ^ 48)

def thrBytes (l : Int) (p : Nat) : List Byte := beBytes 4 (trunc 32 l) ++ beBytes 6 p

/-- THROTTLE of cost `c` on the bound record at entry ply `n`: ASSIST_RESULT and the update to journal. -/
def throttle (s : State) (r : Option (List Byte)) (n c : Nat) : Nat × Option JEnt :=
  match r with
  | none => (3, none)
  | some r =>
    let prof := rget r oTHR_PROFILE 1
    if prof = 0 then (rget r oTHR_LEVEL 4 * 2 ^ 32, none)
    else
      let d : Int := min (2 ^ 31) (cg s (thrAt prof) F.THR_DEBT_MAX_DEBT)
      let (l, p) := thrLevel s r n
      let (code, after) := if (c : Int) ≤ l then (0, l - c) else if -d ≤ l - c then (1, l - c) else (2, l)
      (code + trunc 32 after * 2 ^ 32, some (.update oTHR_LEVEL (thrBytes after p)))

/-- HISTO of value `v`. -/
def histo (r : Option (List Byte)) (v : Nat) : Nat × Option JEnt :=
  match r with
  | none => (0, none)
  | some r =>
    let v := min v (2 ^ 32 - 1)
    let sh := rget r oHSHIFT 1 % 32
    let b := if v < 2 ^ sh then 0 else min 5 (Nat.log2 v - sh + 1)
    let n := min 65535 (rget r (oHISTO + 2 * b) 2 + 1)
    (b + n * 65536, some (.update (oHISTO + 2 * b) (beBytes 2 n)))

/-! Counters (R262, R263, R282). -/

def ctrKey (pipe bank i : Nat) : Nat := (pipe * 16 + bank) * 8192 + i
def ctrGet (s : State) (pipe bank i : Nat) : DWord := tget (fun _ => 0) s.fl.ctr (ctrKey pipe bank i)
def ctrPut (s : State) (pipe bank i : Nat) (v : DWord) : State :=
  setFl s { s.fl with ctr := tset (fun _ => 0) s.fl.ctr (ctrKey pipe bank i) v }

/-- COUNTER_READ of identifier `t`. -/
def ctrReadId (s : State) (pipe t i : Nat) : DWord :=
  if 0x60 ≤ t ∧ t < 0x70 ∧ i < 8192 then ctrGet s pipe (t - 0x60) i else 0

def ctrWrapped (s : State) (pipe bank : Nat) : State :=
  raise (fs s (deckB pipe) F.DECK_CTR_WRAP_WRAP (fg s (deckB pipe) F.DECK_CTR_WRAP_WRAP ||| 2 ^ bank)) (0x209 + 16 * pipe) 2

/-- A committed add to identifier `t`. -/
def ctrAdd (s : State) (pipe t i n : Nat) : State :=
  if 0x60 ≤ t ∧ t < 0x70 ∧ i < 8192 then
    let v := (ctrGet s pipe (t - 0x60) i).toNat + n
    let s := ctrPut s pipe (t - 0x60) i (BitVec.ofNat 64 v)
    if 2 ^ 64 ≤ v then ctrWrapped s pipe (t - 0x60) else s
  else s

def ctrBankAt (s : State) (pipe : Nat) : Nat := fg s (deckB pipe) F.DECK_CTR_ADDR_BANK
def ctrIdxAt (s : State) (pipe : Nat) : Nat := fg s (deckB pipe) F.DECK_CTR_ADDR_INDEX

def ctrReadOp (s : State) (pipe : Nat) : State :=
  wr64 s (deckB pipe + R.DECK_CTR_DATA) (ctrGet s pipe (ctrBankAt s pipe) (ctrIdxAt s pipe)).toNat

/-- CTR_CMD.WRITE; an add of the same cycle loses, but its wrap is recorded (R263). -/
def ctrWriteOp (s : State) (pipe : Nat) (add : Option Nat) : State :=
  let b := ctrBankAt s pipe
  let i := ctrIdxAt s pipe
  let old := (ctrGet s pipe b i).toNat
  let s := ctrPut s pipe b i (BitVec.ofNat 64 (rd64 s (deckB pipe + R.DECK_CTR_DATA)))
  match add with
  | some n => if 2 ^ 64 ≤ old + n % 2 ^ 64 then
      fs s (deckB pipe) F.DECK_CTR_WRAP_WRAP (fg s (deckB pipe) F.DECK_CTR_WRAP_WRAP ||| 2 ^ b) else s
  | none => s

def clearBankOp (s : State) (pipe : Nat) : State :=
  setFl s { s.fl with ctrClear := s.fl.ctrClear ++ [pipe * 16 + ctrBankAt s pipe] }

/-- CLEAR_BANK takes hold at the edge. -/
def ctrClearEdge (s : State) : State :=
  setFl s { s.fl with ctr := tdropIf (fun k => s.fl.ctrClear.contains (k / 8192)) s.fl.ctr, ctrClear := [] }

/-! Waiters (R178). -/

/-- The outstanding FLOW_FIND or FLOW_LEARN of a context. -/
def flowReq (c : Ctx) : Option Req := (reqOf c 0).or (reqOf c 5)
def setFlowReq (c : Ctx) (r : Req) : Ctx := setReq c (if r.op = 2 then 5 else 0) (some r)

/-- Other contexts' requests for the same key that hold nothing yet. -/
def rivals (s : State) (k t : Nat) (key : List Byte) : List (Nat × Req) :=
  s.fl.ctxs.filterMap (fun e => match flowReq e.2 with
    | some r => if e.1 ≠ k && r.got.isNone && r.table == t && r.key == key then some (e.1, r) else none
    | none => none)

/-- Order of R178: entry ply, pipeline, dispatch order. -/
def earlier (s : State) (a b : Nat) : Bool :=
  let x := getC s a
  let y := getC s b
  if x.entry ≠ y.entry then decide (x.entry < y.entry)
  else if ctxPipe a ≠ ctxPipe b then decide (ctxPipe a < ctxPipe b)
  else decide (x.order < y.order)

/-- A waiting request's turn: no request is fetching the key, and no waiter comes before it. -/
def turnOf (s : State) (k : Nat) (r : Req) : Bool :=
  !r.waiting || (rivals s k r.table r.key).all (fun e => e.2.waiting && earlier s k e.1)

/-! Finding (R249, R250). -/

/-- An answer to a request: 0 not yet, else the FLOW_STATUS of R168, and the flow index. -/
structure Ans where
  st : State
  status : Nat
  idx : Nat := noFlow

def isBound (s : State) (idx : Nat) : Bool := (boundTo s idx).isSome

/-- The record of array index `idx` is usable: an uncorrectable one is marked BAD (R278). -/
def arrayUsable (s : State) (idx : Nat) : Bool × State :=
  if s.fl.bad.contains idx then (false, s)
  else if poisoned s (arrayAt idx) 128 then
    (false, raiseD (setFl s { s.fl with bad := s.fl.bad ++ [idx] }) 0x340 evRECORD_UE (BitVec.ofNat 128 (idx * 2 ^ 96)))
  else (true, s)

/-- Put a record into pipeline `pipe`'s Deck for a request; a wait when no way qualifies. -/
def fetchInto (s0 s : State) (pipe idx : Nat) (r : List Byte) (dirty moved : Bool) (status : Nat) : Ans :=
  match install s pipe idx r dirty false with
  | none => ⟨s0, 0, noFlow⟩
  | some (_, s) => ⟨if moved then bump s (deckB pipe + R.DECK_MIGRATIONS_IN) else s, status, idx⟩

/-- Steps 1 to 5 of R249 for pipeline `pipe`. -/
def findTry (s : State) (pipe t : Nat) (key : List Byte) : Ans :=
  if ¬ tableOn s t then ⟨s, 4, noFlow⟩
  else match locate s pipe t key with
  | .deck k =>
    let w := getWay s k
    if w.bad then ⟨s, 4, noFlow⟩
    else if isBound s w.idx || (s.fuse.hbm && (pendFind s t key).isSome) then ⟨s, 0, noFlow⟩
    else ⟨touchWay s k, 2, w.idx⟩
  | .wb idx =>
    match wbFind s pipe t key with
    | none => ⟨s, 0, noFlow⟩
    | some e => fetchInto s (setWb s pipe ((wbOf s pipe).filter (fun x => decide (x.1 ≠ idx)))) pipe idx e.2 true false 2
  | .pending => ⟨s, 0, noFlow⟩
  | .other k =>
    let w := getWay s k
    if w.bad then ⟨s, 4, noFlow⟩
    else if isBound s w.idx then ⟨s, 0, noFlow⟩
    else if w.pin then ⟨touchWay s k, 3, w.idx⟩
    else let g := giveUp s k
         fetchInto s g.2.2 pipe w.idx g.1 g.2.1 true 3
  | .otherWb p idx =>
    match (wbOf s p).find? (fun x => x.1 == idx) with
    | none => ⟨s, 0, noFlow⟩
    | some e => fetchInto s (setWb s p ((wbOf s p).filter (fun x => decide (x.1 ≠ idx)))) pipe idx e.2 true true 3
  | .array idx =>
    let u := arrayUsable s idx
    if u.1 then fetchInto u.2 u.2 pipe idx (arrayRec u.2 idx) false false 3 else ⟨u.2, 4, noFlow⟩
  | .absent => ⟨s, 4, noFlow⟩

/-- The key names a record marked BAD (R278). -/
def keyBad (s : State) (pipe t : Nat) (key : List Byte) : Bool :=
  match locate s pipe t key with
  | .deck k | .other k => (getWay s k).bad
  | .array idx => s.fl.bad.contains idx
  | _ => false

/-! Learning (R251-R254). -/

/-- A new record. -/
def newRec (s : State) (t gen : Nat) (key : List Byte) : List Byte :=
  let c := fun (f : FRef) => ftc s t f
  let r := splice (List.replicate 128 0) 0 (slice key 0 40)
  let r := rset (rset r oTABLE 1 t) oFLAGS 1 (flVALID + flLEARNED)
  let r := rset (rset r oGEN 1 gen) oTIMEOUT 2 (c F.FT_FT_CFG2_DEFAULT_TIMEOUT)
  rset (rset r oTHR_PROFILE 1 (c F.FT_FT_CFG2_DEFAULT_THR)) oHSHIFT 1 (c F.FT_FT_CFG2_DEFAULT_HSHIFT)

/-- GEN of the next incarnation at array index `idx`, or at a Deck way in D variants (R243). -/
def nextGen (s : State) (idx : Nat) : Nat := (rget (arrayRec s idx) oGEN 1 + 1) % 256

def wayGen (s : State) (k : Nat) : Nat :=
  let r := (getWay s k).record
  if r.isEmpty then 0 else rget r oGEN 1

def learnH (s : State) (k pipe t : Nat) (key : List Byte) : Ans :=
  if 4096 ≤ s.fl.pend.length then ⟨s, 6, noFlow⟩
  else match allocIdx s with
  | none => ⟨s, 6, noFlow⟩
  | some (idx, s1) =>
    match reserveSlot s1 t key with
    | none => ⟨s, 6, noFlow⟩
    | some (a, s2) =>
      match install s2 pipe idx (newRec s2 t (nextGen s2 idx) key) false false with
      | none => ⟨s, 0, noFlow⟩
      | some (_, s) =>
        let p : PendKey := { table := t, key := key, idx := idx, slot := a, ctx := some k }
        ⟨showPend (setFl s { s.fl with pend := s.fl.pend ++ [p], learnPly := s.fl.learnPly + 1 }), 5, idx⟩

def learnD (s : State) (pipe t : Nat) (key : List Byte) : Ans :=
  match freeWayIn s (waysOf pipe (setOf t key)) with
  | none => ⟨s, 6, noFlow⟩
  | some w =>
    match install s pipe w (newRec s t ((wayGen s w + 1) % 256) key) false false with
    | none => ⟨s, 6, noFlow⟩
    | some (_, s) => ⟨setFl s { s.fl with learnPly := s.fl.learnPly + 1 }, 5, w⟩

def learnTry (s : State) (k pipe t : Nat) (key : List Byte) : Ans :=
  let a := findTry s pipe t key
  if a.status ≠ 4 then a
  else if ¬ tableOn s t ∨ keyBad a.st pipe t key = true ∨ ftc s t F.FT_FT_CFG_LEARN_EN = 0 then { a with status := 6 }
  else if 8 ≤ s.fl.learnPly then ⟨s, 0, noFlow⟩
  else if s.fuse.hbm then learnH a.st k pipe t key else learnD a.st pipe t key

/-! Binding and releasing. -/

/-- Bind the record at `idx` to context `k` (R178). -/
def bindRec (s : State) (k idx : Nat) (learned : Bool) : State :=
  let s := setBound s idx (some k)
  modC s k (fun c => { c with bound := some idx, record := curRec s idx, learned := learned })

/-- Remove a reservation of a learn that is not committed (R253). -/
def unlearn (s : State) (idx : Nat) : State :=
  match deckByIdx s idx with
  | none => s
  | some w =>
    if s.fuse.hbm then
      let s := setDir (setWay s w {}) idx none
      showPend (setFl s { s.fl with freeHead := idx :: s.fl.freeHead, pend := s.fl.pend.filter (fun p => decide (p.idx ≠ idx)) })
    else
      let r := (getWay s w).record
      let old := setFlag (rset r oGEN 1 ((rget r oGEN 1 + 255) % 256)) flVALID false
      setWay s w { record := old }

/-- Empty the context; what it held bound is free for its next waiter. -/
def freeCtx (s : State) (k : Nat) : State :=
  let c := getC s k
  let held := c.bound.or ((flowReq c).bind (fun r => r.got))
  let s := match held with
    | some i => setBound s i none
    | none => s
  setC s k {}

/-! The commit (R187, R188, R260, R276). -/

def applyJ (r : List Byte) : JEnt → List Byte
  | .store o b | .update o b => splice r o b
  | _ => r

/-- The record as this routine sees it (R167). -/
def viewRec (c : Ctx) : List Byte := c.journal.foldl applyJ c.record

def JEnt.onRec : JEnt → Bool
  | .store _ _ | .update _ _ => true
  | _ => false

/-- A frame's L at END (R260). -/
def endLen (f : Frame) : Nat :=
  if f.ended then f.bytes.length
  else match f.l3s with
  | [] => f.bytes.length
  | x :: _ => x.1 + (if x.2 = 4 then beAt f.bytes (x.1 + 2) 2 else 40 + beAt f.bytes (x.1 + 4) 2) + 4

/-- The automatic update; whether PKTS or BYTES wrapped. -/
def autoCount (r : List Byte) (len tt : Nat) : List Byte × Bool :=
  let p := rget r oPKTS 6 + 1
  let b := rget r oBYTES 7 + len
  let w := decide (2 ^ 48 ≤ p) || decide (2 ^ 56 ≤ b)
  let r := rset (rset r oPKTS 6 (p % 2 ^ 48)) oBYTES 7 (b % 2 ^ 56)
  let last := rget r oLAST_TT 8
  let r := if (tt + 2 ^ 64 - last) % 2 ^ 64 < 2 ^ 63 then rset r oLAST_TT 8 tt else r
  let r := if rget r oFIRST_TT 8 = 0 then rset r oFIRST_TT 8 tt else r
  (if w then setFlag r flWRAP true else r, w)

/-- A flow notification (R274, R276, R461): the record, no frame. Header fields that no rule gives are free values. -/
def notify (s : State) (code pipe idx : Nat) (r : List Byte) : State :=
  let a := free s
  let b := free a.2
  let c := free b.2
  let d := free c.2
  deliver (bump d.2 (frgB pipe + R.FRG_EXC_RAISED + 16 * (code % 64)))
    { primary := code, secondary := 0, pipe := pipe, port := a.1 % 65536, gen := b.1 % 256, tt := c.1 % 2 ^ 64,
      flowIdx := idx, pc := 0, actionIdx := 0xFFFF, excCode := d.1 % 256, tq := d.1 / 256 % 4,
      fcsGood := d.1 / 1024 % 2 = 1, metered := d.1 / 2048 % 2 = 1, isNotify := true, bytes := r, queue := 0 }

/-- Apply the counter adds of a journal. -/
def addAll (pipe : Nat) (s : State) : JEnt → State
  | .add t i n => ctrAdd s pipe t i n
  | _ => s

/-- The insertion of a learned record takes hold (R251, R253, R276). -/
def insertLearned (s : State) (pipe idx : Nat) (r : List Byte) : State :=
  let s := match s.fl.pend.find? (fun p => p.idx == idx) with
    | some p =>
      let s := writeEntry s p.slot (mkEntry p.table idx (sigOf p.table p.key))
      setFl s { s.fl with pend := s.fl.pend.map (fun q => if q.idx = idx then { q with ctx := none } else q) }
    | none => s
  let s := setFl s { s.fl with insTT := tset (fun _ => 0) s.fl.insTT idx (ttNow s 0) }
  let s := bump s (pgFT + R.FT_LEARNS)
  if ftc s (rget r oTABLE 1) F.FT_FT_CFG_LEARN_NOTIFY = 1 then notify s 0x31 pipe idx r else s

/-- A committed routine's journal and automatic update take hold (R188). -/
def commitJournal (s : State) (k : Nat) : State :=
  let c := getC s k
  let pipe := ctxPipe k
  let s := c.journal.foldl (addAll pipe) s
  match c.bound.bind (fun i => (deckByIdx s i).map (fun w => (i, w))) with
  | none => s
  | some (idx, w) =>
    let way := getWay s w
    let r := c.journal.foldl applyJ way.record
    let auto := ftc s (rget way.record oTABLE 1) F.FT_FT_CFG_AUTO_COUNT == 1
    let a := if auto then autoCount r c.endLen (beAt c.metaB 8 8) else (r, false)
    let dirty := way.dirty || auto || c.learned || c.journal.any JEnt.onRec
    let s := touchWay (setWay s w { way with record := a.1, dirty := dirty, ply := if dirty then plyNat s else way.ply }) w
    let s := if a.2 then raise (bump s (pgFT + R.FT_FLOW_WRAPS)) 0x340 evFLOW_WRAP else s
    let s := modF s c.frame (fun f => { f with record := a.1 })
    if c.learned then insertLearned s pipe idx a.1 else s

/-- INDEX_WRITE_ACK: the oldest committed learn leaves the pending table (R253). -/
def indexAck (s : State) : State :=
  match s.fl.pend.find? (fun p => p.ctx.isNone) with
  | none => s
  | some p => showPend (setFl s { s.fl with pend := s.fl.pend.filter (fun q => decide (q.idx ≠ p.idx)) })

/-! Writeback (R255-R257). -/

/-- Insert a way by ply of its latest commit, oldest first. -/
def byPly (s : State) (k : Nat) : List Nat → List Nat
  | [] => [k]
  | j :: js => if (getWay s k).ply < (getWay s j).ply then k :: j :: js else j :: byPly s k js

/-- Step 7: each Deck bank selects up to 4 dirty records (R255). -/
def deckSelect (s : State) : State :=
  if ¬ s.fuse.hbm then s
  else
    let dirty := (s.fl.deck.filter (fun e => e.2.valid && e.2.dirty)).map (fun e => e.1)
    let bank := fun (k : Nat) => k / 65536 * 8 + k / 16 % 4096 % 8
    let sel := (List.range 64).foldl (fun t b =>
      tset (fun _ => []) t b (((dirty.filter (fun k => bank k == b)).foldl (fun l k => byPly s k l) []).take 4)) []
    setFl s { s.fl with sel := sel }

/-- Queue the record of a way for flow memory and mark it clean. -/
def writeBack (s : State) (k : Nat) : State :=
  let w := getWay s k
  let s := setFl s { s.fl with wbq := s.fl.wbq ++ [{ pipe := k / 65536, idx := w.idx, record := w.record, victim := false }] }
  bump (setWay s k { w with dirty := false }) (deckB (k / 65536) + R.DECK_WRITEBACKS)

/-- DECK_WRITEBACK: the next selected record of the bank. -/
def writebackSlot (s : State) (pipe bank : Nat) : State :=
  if 8 ≤ bank then s
  else match tget (fun _ => []) s.fl.sel (pipe * 8 + bank) with
  | [] => s
  | k :: ks =>
    let s := setFl s { s.fl with sel := tset (fun _ => []) s.fl.sel (pipe * 8 + bank) ks }
    if (getWay s k).valid && (getWay s k).dirty then writeBack s k else s

/-- WRITEBACK_ACK: flow memory holds the pipeline's oldest queued write (R257). -/
def writebackAckOp (s : State) (pipe : Nat) : State :=
  match s.fl.wbq.find? (fun i => i.pipe == pipe) with
  | none => s
  | some i =>
    let s := setFl s { s.fl with wbq := s.fl.wbq.erase i }
    let s := mwr s (arrayAt i.idx) i.record
    if i.victim && (wbOf s pipe).any (fun e => e.1 == i.idx) then
      setDir (setWb s pipe ((wbOf s pipe).filter (fun e => decide (e.1 ≠ i.idx)))) i.idx none
    else s

/-! The Cruise (R267, R272-R275). -/

def refreshes (s : State) : Bool :=
  match s.md.mode with
  | .live | .drain | .contained | .diagnostic | .dormant => true
  | _ => false

def agesNow (s : State) : Bool :=
  fgb s pgFT F.FT_FT_CTRL_AGE_EN && (s.md.mode == .live || s.md.mode == .drain)

/-- The record's elapsed count has reached 2^46 (R267). -/
def thrOld (s : State) (r : List Byte) : Bool :=
  recFlag r flVALID && rget r oTHR_PROFILE 1 != 0 &&
    decide (2 ^ 46 ≤ (plyNat s % 2 ^ 48 + 2 ^ 48 - rget r oTHR_PLY 6) % 2 ^ 48)

/-- The record after a refresh: level as a THROTTLE of cost 0 leaves it, THR_PLY = the current ply. -/
def refreshed (s : State) (r : List Byte) : List Byte :=
  splice r oTHR_LEVEL (thrBytes (thrLevel s r (plyNat s)).1 (plyNat s % 2 ^ 48))

/-- The time nearest to now that reads `v` in Brand form (R120). -/
def ttOfBrand (s : State) (v : Nat) : Nat :=
  let now := ttNow s 0 / sec256
  let d := (now % 2 ^ 32 + 2 ^ 32 - v / 2 ^ 32) % 2 ^ 32
  let sec := if d < 2 ^ 31 then now - d else now + (2 ^ 32 - d)
  sec * sec256 + v / 4 % 2 ^ 30 * ns256 + v % 4 * 64

/-- 1/256 ns of a record's LAST_TT, or of its insertion when LAST_TT reads 0 (R273). -/
def lastTT (s : State) (idx : Nat) (r : List Byte) : Nat :=
  let l := rget r oLAST_TT 8
  if l = 0 then tget (fun _ => 0) s.fl.insTT idx else ttOfBrand s l

/-- The conditions of R273. -/
def isAged (s : State) (idx : Nat) (r : List Byte) : Bool :=
  let unit := if ftc s (rget r oTABLE 1) F.FT_FT_CFG_AGE_UNIT = 0 then 1024000 * ns256 else 1048576000 * ns256
  recFlag r flVALID && rget r oTIMEOUT 2 != 0 && !recFlag r flPIN && !isBound s idx &&
    decide (max (lastTT s idx r) s.md.ageFloor + rget r oTIMEOUT 2 * unit < ttNow s 0)

def markAged (s : State) (idx pipe : Nat) : State :=
  if s.fl.ageDue.any (fun e => e.1 == idx) then s else setFl s { s.fl with ageDue := s.fl.ageDue ++ [(idx, pipe)] }

/-- The Cruise at a Deck way. -/
def visitWay (s : State) (k : Nat) : State :=
  let w := getWay s k
  if ¬ w.valid ∨ isBound s w.idx then s
  else
    let s := if refreshes s && thrOld s w.record then
        setWay s k { w with record := refreshed s w.record, dirty := true, ply := plyNat s } else s
    if agesNow s && isAged s w.idx w.record then markAged s w.idx (k / 65536) else s

/-- The Cruise at an index entry whose record no Deck holds. -/
def visitEntry (s : State) (a : Nat) : State :=
  let e := entryAt s a
  let idx := entryIdx e
  if ¬ entryValid e ∨ poisoned s a 8 ∨ (residentIn s idx).isSome ∨ s.fl.bad.contains idx then s
  else
    let r := arrayRec s idx
    let s := if refreshes s && thrOld s r then mwr s (arrayAt idx) (refreshed s r) else s
    if agesNow s && isAged s idx r then markAged s idx 0 else s

def passOn (s : State) (v : Nat) : State := fs s pgFT F.FT_AGE_STATUS_PASS_ACTIVE v

/-- CRUISE_AGE_VISIT. -/
def cruiseVisit (s : State) : CruiseTarget → State
  | .deck pipe set way => if set < 4096 then visitWay s (wayKey pipe.val set way.val) else s
  | .bucket b =>
    if s.fuse.hbm && (agesNow s || refreshes s) && decide (b < 16777216) then
      (slotsOf (0x200000000 + b * 64)).foldl visitEntry (passOn s (if agesNow s then 1 else 0))
    else s
  | .passEnd => if s.fuse.hbm && agesNow s then raise (passOn s 0) 0x340 evAGE_PASS else s

/-- DORMANT_REFRESH_PASS: every record, Decks first (R267). -/
def dormantPass (s : State) : State :=
  if s.md.mode ≠ .dormant then s
  else
    let s := (s.fl.deck.map (fun e => e.1)).foldl visitWay s
    if ¬ s.fuse.hbm then s
    else
      let es := (s.hbm.mem.filter (fun c => 0x200000000 ≤ c.1 && c.1 < 0x240000000)).map (fun c => c.1 / 8 * 8)
      es.eraseDups.foldl visitEntry s

/-- Records aged in this ply leave at the edge (R274). -/
def ageEdge (s : State) : State :=
  let due := s.fl.ageDue
  due.foldl (fun s e =>
    let r := curRec s e.1
    if isBound s e.1 || !recFlag r flVALID || r.isEmpty then s
    else
      let s := bump (removeRec s e.1) (pgFT + R.FT_AGED)
      if ftc s (rget r oTABLE 1) F.FT_FT_CFG_AGE_NOTIFY = 1 then notify s 0x32 e.2 e.1 r else s)
    (setFl s { s.fl with ageDue := [] })

/-! Commands of the host (R277). -/

abbrev ftOK : Nat := 0
abbrev ftNOT_FOUND : Nat := 1
abbrev ftEXISTS : Nat := 2
abbrev ftFULL : Nat := 3
abbrev ftPIN_FULL : Nat := 4
abbrev ftBAD_ARG : Nat := 5
abbrev ftBAD : Nat := 6

def ftDone (s : State) (r : Nat) : State :=
  let s := fs (fs s pgFT F.FT_FT_STATUS_RESULT r) pgFT F.FT_FT_STATUS_BUSY 0
  setFl s { s.fl with ft := none }

def ftWindow (s : State) (r : List Byte) : State := wrWords s (pgFT + R.FT_FT_DATA) (packWords 32 (slice r 0 128))

/-- The record of an index as the host finds it; empty when no such record exists. -/
def hostRec (s : State) (idx : Nat) : List Byte :=
  let r := curRec s idx
  if r.isEmpty || !recFlag r flVALID then [] else r

/-- Put a whole record back where it is held. -/
def putRec (s : State) (idx : Nat) (r : List Byte) : State :=
  match deckByIdx s idx with
  | some k => setWay s k { getWay s k with record := r, dirty := s.fuse.hbm || (getWay s k).dirty, ply := plyNat s }
  | none =>
    match wbByIdx s idx with
    | some w =>
      let s := setWb s w.1 ((wbOf s w.1).map (fun e => if e.1 = idx then (idx, r) else e))
      setFl s { s.fl with wbq := s.fl.wbq.map (fun i => if i.idx = idx && i.victim then { i with record := r } else i) }
    | none => mwr s (arrayAt idx) r

/-- The index of the record of a key, in any place (R277 FIND). -/
def findKey (s : State) (t : Nat) (key : List Byte) : Option Nat :=
  if s.fuse.hbm then
    match locate s 0 t key with
    | .deck k | .other k => some (getWay s k).idx
    | .wb i | .otherWb _ i | .array i => some i
    | .pending => (pendFind s t key).map (fun p => p.idx)
    | .absent => none
  else ((List.range 8).filterMap (fun p => deckFind s p t key)).head?

def insertRec (s : State) (pipe : Nat) (r : List Byte) (t : Nat) (key : List Byte) : Nat × State :=
  let r := splice r 0 (slice key 0 40)
  let r := setFlag (setFlag r flVALID true) flHOST true
  let fin := fun (s : State) (idx : Nat) =>
    let s := setFl s { s.fl with insTT := tset (fun _ => 0) s.fl.insTT idx (ttNow s 0) }
    fs s pgFT F.FT_FT_ADDR_INDEX idx
  if s.fuse.hbm then
    match allocIdx s with
    | none => (ftFULL, s)
    | some (idx, s1) =>
      match reserveSlot s1 t key with
      | none => (ftFULL, s)
      | some (a, s2) =>
        let s3 := mwr s2 (arrayAt idx) (rset r oGEN 1 (nextGen s2 idx))
        (ftOK, fin (writeEntry s3 a (mkEntry t idx (sigOf t key))) idx)
  else
    match freeWayIn s (waysOf pipe (setOf t key)) with
    | none => (ftFULL, s)
    | some k => (ftOK, fin (touchWay (setWay s k {
        valid := true, idx := k, record := rset r oGEN 1 ((wayGen s k + 1) % 256), ply := plyNat s }) k) k)

def pinnedIn (s : State) (ks : List Nat) : Nat := (ks.filter (fun k => (getWay s k).pin)).length

/-- Set or clear PIN in tag and FLAGS. -/
def setPin (s : State) (k : Nat) (v : Bool) : State :=
  let w := getWay s k
  setWay s k { w with pin := v, record := setFlag w.record flPIN v, dirty := s.fuse.hbm || w.dirty, ply := plyNat s }

/-- PIN (R259): the answer, or none when the fetch must wait for a way. -/
def pinRec (s : State) (pipe idx : Nat) (r : List Byte) : Option (Nat × State) :=
  let t := rget r oTABLE 1
  let key := slice r 0 (keyW s t)
  let full := fun (p : Nat) => 12 ≤ pinnedIn s (waysOf p (setOf t key))
  match deckByIdx s idx with
  | some k =>
    if (getWay s k).pin then (if k / 65536 = pipe ∨ ¬ s.fuse.hbm then some (ftOK, s) else some (ftBAD_ARG, s))
    else if k / 65536 = pipe ∨ ¬ s.fuse.hbm then (if full (k / 65536) then some (ftPIN_FULL, s) else some (ftOK, setPin s k true))
    else if full pipe then some (ftPIN_FULL, s)
    else
      let a := findTry s pipe t key
      if a.status = 3 then (deckByIdx a.st idx).map (fun k => (ftOK, setPin a.st k true)) else none
  | none =>
    if full pipe then some (ftPIN_FULL, s)
    else
      let a := findTry s pipe t key
      if a.status = 2 ∨ a.status = 3 then (deckByIdx a.st idx).map (fun k => (ftOK, setPin a.st k true))
      else if a.status = 4 then some (ftBAD, a.st)
      else none

/-- Start writing back every dirty record (R277, R279). -/
def flushAll (s : State) : State :=
  let ks := (s.fl.deck.filter (fun e => e.2.valid && e.2.dirty)).map (fun e => e.1)
  setFl (ks.foldl writeBack s) { (ks.foldl writeBack s).fl with flushing := true }

/-- One attempt at a host command; none: it waits. -/
def ftAttempt (s : State) (c : FtCmd) : Option (Nat × State) :=
  let t := rget c.data oTABLE 1
  let key := slice c.data 0 (keyW s t)
  let byAddr := c.op ≠ 3 && c.op ≠ 4 && c.op ≠ 8
  let idx := if c.op = 3 ∨ c.op = 4 then (findKey s t key).getD noFlow else c.addr
  let mine := s.fl.ctxs.any (fun e => match flowReq e.2 with
    | some r => r.waiting && e.2.entry ≤ c.ply && (hostRec s idx != []) && recIs (hostRec s idx) r.table r.key
    | none => false)
  if (c.op = 3 ∨ c.op = 4) ∧ ¬ tableOn s t then some (ftBAD_ARG, s)
  else if c.op ≠ 8 ∧ (isBound s idx = true ∨ mine = true) then none
  else
    let u := if byAddr && s.fuse.hbm && (residentIn s idx).isNone then arrayUsable s idx else (true, s)
    let s := u.2
    let r := hostRec s idx
    if c.op = 9 then (if isBad s idx then some (ftOK, removeRec s idx) else some (ftNOT_FOUND, s))
    else if c.op ≠ 3 && c.op ≠ 8 && isBad s idx then some (ftBAD, s)
    else if byAddr && r.isEmpty then some (ftNOT_FOUND, s)
    else match c.op with
    | 1 => some (ftOK, ftWindow s r)
    | 2 =>
      if t ≠ rget r oTABLE 1 ∨ slice c.data 0 40 ≠ slice r 0 40 then some (ftBAD_ARG, s)
      else some (ftOK, putRec s idx (rset c.data oGEN 1 (rget r oGEN 1)))
    | 3 => if idx ≠ noFlow then some (ftEXISTS, s) else some (insertRec s c.pipe c.data t key)
    | 4 => if idx = noFlow then some (ftNOT_FOUND, s) else some (ftOK, fs s pgFT F.FT_FT_ADDR_INDEX idx)
    | 5 => some (ftOK, removeRec s idx)
    | 6 => pinRec s c.pipe idx r
    | 7 =>
      match deckByIdx s idx with
      | some k => some (ftOK, setPin s k false)
      | none => some (ftOK, putRec s idx (setFlag r flPIN false))
    | _ => some (ftOK, s)

/-- Carry out the waiting host command when it can be. -/
def ftResume (s : State) : State :=
  match s.fl.ft with
  | none => s
  | some c =>
    match ftAttempt s c with
    | none => s
    | some (r, s) => ftDone s r

/-- An FT_CMD write of operation `op`: ignored with ERROR while BUSY. -/
def ftCmdOp (s : State) (op : Nat) (cmd : Word) : Res × State :=
  if fgb s pgFT F.FT_FT_STATUS_BUSY then (.error, s)
  else
    let s := fs s pgFT F.FT_FT_STATUS_BUSY 1
    if op = 8 then
      (.ok, if s.fuse.hbm then flushAll s else ftDone s ftOK)
    else
      let c : FtCmd := {
        op := op, pipe := bitsOf cmd 4 3, addr := fg s pgFT F.FT_FT_ADDR_INDEX,
        data := wordsBytes (rdWords s (pgFT + R.FT_FT_DATA) 32), ply := plyNat s }
      (.ok, ftResume (setFl s { s.fl with ft := some c }))

/-- FLUSH_COMPLETE. -/
def flushDone (s : State) : State :=
  if s.fl.flushing && s.fl.wbq.isEmpty then
    let s := setFl s { s.fl with flushing := false }
    if s.fl.ft.isNone && fgb s pgFT F.FT_FT_STATUS_BUSY then ftDone s ftOK else s
  else s

/-- An edge at which a profile's RATE changes (R266). -/
def throttleEdge (before s : State) (k : Nat) : State :=
  let a := thrAt k
  let old := cg before a F.THR_RATE_RATE
  if k = 0 ∨ old = fg s a F.THR_RATE_RATE then s
  else
    let s := fsBoth s a F.THR_OLD_RATE_OLD old
    setFl s { s.fl with thrPly := tset (fun _ => 0) s.fl.thrPly k (plyNat s) }

end Sys2Proof.Machine
end

