-- ==== Sys2Proof/Machine/Receive.lean ====
section
/-! DEFINITION. Receiving a frame: its capture, the injected frames of the host port, the ingress packet slots, and the
checks at its last bit (R29, R51, R71-R76, R206, R341-R344, R491, R510, R560, R565). -/

namespace Sys2Proof.Machine

/-! Capture (R29, R74, R405, R510, R560, R565). -/

/-- Where a received frame goes in the present mode. -/
inductive Intake where
  | pass | contained | drained | none
deriving DecidableEq, Repr

def intake (s : State) (port : Nat) : Intake :=
  match s.md.mode with
  | .live | .diagnostic => .pass
  | .contained => .contained
  | .calibrate => .drained
  | .drain => if port = 256 ∧ fgb s pgMODE F.MOD_DRAIN_CTRL_HOST_OPEN then .pass else .drained
  | _ => .none

/-- EtherType of the bytes received so far, once known. -/
def etherOf (bs : List Byte) : Option Nat := if 14 ≤ bs.length then some (beAt bs 12 2) else none

/-- Injection on the host port (R491): a frame with EtherType 0x88B6 and 0x72 behind it takes its verdict from the
inject header, which is removed. -/
def tryInject (s : State) (id : Nat) : State :=
  let f := getF s id
  if f.port ≠ 256 ∨ f.injected ∨ f.bytes.length < 22 ∨ ¬ fgb s pgHP F.HP_HP_CTRL_INJECT_EN then s
  else if beAt f.bytes 12 2 ≠ 0x88B6 ∨ beAt f.bytes 14 1 ≠ 0x72 then s
  else
    let v : Verdict := { f.verdict with
      op := 1, fwd := true, egress := beAt f.bytes 16 2, kind := beAt f.bytes 18 1, cls := beAt f.bytes 19 1 % 8 }
    let s := setF s id { f with injected := true, verdict := v, injectHdr := slice f.bytes 12 10,
                                bytes := f.bytes.take 12 ++ f.bytes.drop 22 }
    let s := bump s (pgHP + R.HP_RX_INJECT)
    let bad := match v.kind with
      | 0 => decide (264 < v.egress)
      | 1 => decide (31 < v.egress)
      | 2 => false
      | _ => true
    if bad then endFrame (bump s (pgHP + R.HP_INJECT_BAD)) id else s

/-- A block on the receive path of a front-panel port is idled (R582). -/
def rxIdled (s : State) (port : Nat) : Bool :=
  port < 256 && (idled s (0x020 + port / 8) || (portLanes s port).any (fun l => idled s (0x040 + l)) ||
    (isClient s port && idled s (0x140 + port / 16)))

/-- FRAME_CAPTURE: the frame's reference bit passes the capture point of an UP port. -/
def captureOp (s : State) (port lane bits : Nat) (head : List Byte) (fifoFull : Bool) : State :=
  if ¬ isUp s port ∨ ¬ (portLanes s port).contains lane ∨ intake s port = .none then s
  else
    let c := captureNow s port lane bits
    let s := { s with freeIx := s.freeIx + 1 }
    let a := addF s { bytes := head, port := port, pipe := pipeOf port, cap := c, stage := .fifo, since := plyNat s }
    let s := a.2
    match intake s port with
    | .contained =>
      dropUnparsed (bump s (pb 0x006 + R.FA_CONTAINED_DISCARD + 8 * pipeOf port)) a.1 (portMeter s port) rsnMODE
    | .drained => dropUnparsed (bump s (pgMODE + R.MOD_DRAIN_DISCARD)) a.1 (portMeter s port) rsnMODE
    | _ =>
      if rxIdled s port then dropUnparsed s a.1 (portMeter s port) rsnMODE
      else if fifoFull ∧ port < 256 then
        dropUnparsed (raise (bumpPort s port R.PORT_RX_FIFO_DROP 1) (0x020 + port / 8) 17) a.1 (portMeter s port) rsnFIFO
      else tryInject s a.1

/-! Ingress packet slots (R51). -/

def slotsUsed (s : State) (pipe : Nat) : Nat := tget (fun _ => 0) s.slots pipe
def slotsInt (s : State) (pipe : Nat) : Nat := tget (fun _ => 0) s.slotsInternal pipe

/-- The frame waits for a slot and may be passed on: MAC control frames never are, and a host frame's inject header
must have come. -/
def waitsSlot (f : Frame) : Bool :=
  f.stage == .fifo && etherOf f.bytes != some 0x8808 && (f.port != 256 || f.ended || decide (22 ≤ f.bytes.length))

/-- INGRESS_SLOT_GRANT: one slot of the ply, to an internal port within its share of 8, else to the front-panel frame
whose head came first. -/
def slotGrant (s : State) (pipe : Nat) : State :=
  if 128 ≤ slotsUsed s pipe then s
  else
    let w := framesWhere s (fun _ f => f.pipe == pipe && waitsSlot f)
    let inner := w.find? (fun id => decide (256 ≤ (getF s id).port))
    let outer := w.find? (fun id => decide ((getF s id).port < 256))
    let pick := if slotsInt s pipe < 8 ∧ inner.isSome then inner else outer
    match pick with
    | none => s
    | some id =>
      let f := getF s id
      let n := slotsUsed s pipe
      let s := { s with slots := tset (fun _ => 0) s.slots pipe (n + 1) }
      let s := if f.port < 256 then s
        else { s with slotsInternal := tset (fun _ => 0) s.slotsInternal pipe (slotsInt s pipe + 1) }
      let s := if 256 < f.port then bump s (pipeB pipe + R.PIPE_RECIRC_SLOTS) else s
      setF s id { f with stage := if f.injected then .flowDone else .parse, slot := 128 * plyNat s + n, since := plyNat s }

/-! The last bit (R72, R206, R341-R344). -/

/-- The FCS of a whole frame is right, or the inverse of the right one. -/
def fcsOk (bs : List Byte) : Bool := bs.drop (bs.length - 4) == fcsBytes (crc32 (bs.take (bs.length - 4)))
def fcsStomped (bs : List Byte) : Bool := bs.drop (bs.length - 4) == fcsBytes (~~~ (crc32 (bs.take (bs.length - 4))))

/-- The MAC's checks: whether the frame passes, with its counters. -/
def macChecks (s : State) (p : Nat) (bs : List Byte) : Bool × State :=
  let n := bs.length
  let runt := decide (n < 64)
  let giant := decide (maxFrame s p < n)
  let fcs := !fcsOk bs
  let s := if runt then bumpPort s p R.PORT_RX_RUNT 1 else s
  let s := if giant then bumpPort s p R.PORT_RX_GIANT 1 else s
  let s := if fcs then
      (if p = 256 then bump s (pgHP + R.HP_RX_FCS_ERR) else bumpPort s p R.PORT_RX_FCS_ERR 1)
    else s
  let s := if fcs && fcsStomped bs && p < 256 then bump s (accB p + R.ACC_RX_STOMPED) else s
  let good := !(runt || giant || fcs)
  let s := if good then
      (if p = 256 then bump s (pgHP + R.HP_RX_FRAMES)
       else bumpPort (bumpPort s p R.PORT_RX_FRAMES 1) p R.PORT_RX_BYTES n)
    else s
  (good, s)

/-- The bytes of the whole frame reach one record: the frame itself, or a copy, cut where it is truncated. -/
def wholeBytes (bs : List Byte) (good : Bool) (f : Frame) : Frame :=
  if f.ended then f
  else if f.cutAt ≠ 0 ∧ f.cutAt < bs.length then
    { f with bytes := cutFrame bs f.cutAt, ended := true, fcsGood := true }
  else { f with bytes := bs, ended := true, fcsGood := good }

/-- A frame's end as later stages see it: lengths, reservations and cells. -/
def tellEnd (s : State) (id : Nat) : State :=
  let s := noteActual s id (getF s id).bytes.length false
  pushCells (trimResv s id) id

/-- FRAME_END: the frame's last bit arrives with the bytes `rest`. -/
def frameEndOp (s : State) (id : Nat) (rest : List Byte) : State :=
  let f := getF s id
  if ¬ f.live ∨ f.ended ∨ f.isCopy ∨ f.isMirror then s
  else
    let s := setF s id { f with bytes := f.bytes ++ rest }
    let s := if f.stage = .fifo then tryInject s id else s
    let f := getF s id
    if ¬ f.live then s
    else
      let all := if f.injected then f.bytes.take 12 ++ f.injectHdr ++ f.bytes.drop 12 else f.bytes
      let r := macChecks s f.port all
      let good := r.1
      let bs := if f.injected ∧ good then cutFrame f.bytes f.bytes.length else f.bytes
      let ids := id :: copiesOf r.2 id
      let s := ids.foldl (fun s k => modF s k (wholeBytes bs good)) r.2
      let s := noteDigest s id (getF s id)
      if etherOf all = some 0x8808 then
        let s := if good ∧ beAt all 14 2 = 1 then bumpPort s f.port R.PORT_RX_PAUSE_IGNORED 1 else s
        endFrame s id
      else
        match f.stage with
        | .fifo => if good then s else endFrame s id
        | .parse => if good then s else modF s id (fun f => { f with bad := true, badWhy := rsnBAD })
        | _ =>
          let s := ids.foldl tellEnd s
          let c := frameEndCheck s id
          let s := tryDeliver c.2 id
          let s := if good then s else ids.foldl (fun s k => markBad s k rsnBAD) s
          let s := if c.1.isSome then ids.foldl (fun s k => markBad s k rsnPARSE) s else s
          if (getF s id).live ∧ f.stage = .done then endFrame s id else s

end Sys2Proof.Machine
end

