-- ==== Sys2Proof/Machine/Engine.lean ====
section
/-! DEFINITION. The Uhloz microengines (chapter 05): dispatch, microwords and nanowords, requests and replies, the ends
of a routine, the control store. -/

namespace Sys2Proof.Machine

/-! Places. -/

abbrev fsPage (pipe : Nat) : Nat := 0x208 + 16 * pipe
abbrev evSTORE_CE : Nat := 0
abbrev evSTORE_UE : Nat := 1
abbrev evSTORE_DOUBLE_UE : Nat := 2
abbrev evABORT : Nat := 3
abbrev evNO_CONTEXT : Nat := 4
abbrev evCUSTOMER_AUTH_FAIL : Nat := 5

/-- Reason codes of R190. -/
abbrev abDEADLINE_HIT : Nat := 0x1
abbrev abDEADLINE_MISS : Nat := 0x2
abbrev abJOURNAL_FULL : Nat := 0x3
abbrev abSTACK_OVERFLOW : Nat := 0x4
abbrev abSTACK_UNDERFLOW : Nat := 0x5
abbrev abADDR_FAULT : Nat := 0x6
abbrev abREGION_FAULT : Nat := 0x7
abbrev abILLEGAL_OP : Nat := 0x8
abbrev abSTORE_UE : Nat := 0x9
abbrev abMODE_ABORT : Nat := 0xA
abbrev abNO_CONTEXT : Nat := 0xB
abbrev abROUTINE_EXCEPT : Nat := 0xC
abbrev abFLOW_REBIND : Nat := 0xD
abbrev abUNDECODED : Nat := 0xE

def ctxsOf (pipe : Nat) : List Nat := (List.range 512).map (pipe * 512 + ·)
def busyCount (s : State) (pipe : Nat) : Nat := (s.fl.ctxs.filter (fun e => e.1 / 512 == pipe && e.2.busy)).length

/-- CTX_BUSY and DISPATCH_Q show the pipeline's contexts and queue. -/
def showFlow (s : State) (pipe : Nat) : State :=
  let b := flowB pipe
  let n := busyCount s pipe
  let q := (tget (fun _ => []) s.fl.queue pipe).length
  let s := peak (fs s b F.FS_CTX_BUSY_BUSY n) b F.FS_CTX_BUSY_PEAK n
  peak (fs s b F.FS_DISPATCH_Q_DEPTH q) b F.FS_DISPATCH_Q_PEAK q

/-- The core cycle, counted from ply 0. -/
def cycleNow (s : State) : Nat := plyNat s * 64 + s.tm.cycle

/-! Leaving the flow stage (R184, R186, R189, R216). -/

def setOut (s : State) (id : Nat) (o : FlowOut) : State :=
  setFl s { s.fl with outs := tset (fun _ => none) s.fl.outs id (some o) }

/-- The frame's routine is over: its default action (kind 1) or a drop under R185 (kind 2). -/
def outDefault (s : State) (id entry : Nat) : State :=
  setOut s id { kind := 1, edge := max (entry + 2) (plyNat s + 1) }

/-- The packet's verdict fields as META holds them. -/
def verdictOut (c : Ctx) (edge : Nat) : FlowOut :=
  { kind := 0, verdict := beAt c.metaB 0x84 1, egress := beAt c.metaB 0x80 2, egKind := beAt c.metaB 0x82 1,
    cls := beAt c.metaB 0x83 1 % 8, edge := edge }

/-- One packet leaves the flow stage. -/
def leaveFlow (s : State) (id : Nat) (o : FlowOut) : State :=
  let s := setFl s { s.fl with outs := tset (fun _ => none) s.fl.outs id none }
  let f := getF s id
  if ¬ f.live then s
  else
    let s := modPend s id (fun p => { p with flowIdx := f.flowIdx })
    match o.kind with
    | 2 => dropFrame (modF s id (fun f => { f with verdict := { f.verdict with doMirror := false } })) id rsnMODE
    | 1 => let v := f.verdict
           takeDefault (noteFrag s id (v.defOp == 1) v.defKind v.defEgress v.defCls) id
    | _ =>
      let d := free s
      let odd := decide (3 < o.egKind)
      let s := if odd then d.2 else s
      let kind := if odd then d.1 % 4 else o.egKind
      let s := if o.verdict.testBit 2 then raiseReason s id rCOPY else s
      let s := if o.verdict.testBit 3 then modF s id (fun f => { f with verdict := { f.verdict with doMirror := true } }) else s
      if o.verdict % 4 < 2 then sendTo (noteFrag s id true kind o.egress o.cls) id kind o.egress o.cls
      else dropOut (noteFrag s id false 0 0 0) id rsnROUTINE

/-- Exits at an edge: every packet that may leave, in frame order (R184). -/
def exitEdge (s : State) : State :=
  s.fl.outs.foldl (fun s e => match e.2 with
    | some o => if o.edge ≤ plyNat s then leaveFlow s e.1 o else s
    | none => s) s

/-! Ends and aborts (R183-R190). -/

def countReason (s : State) (pipe r : Nat) : State := bump s (flowB pipe + R.FS_ABORT_COUNT + 8 * r)

/-- A flow-stage reason arises for the frame (R189). -/
def flowReason (s : State) (id r pc code : Nat) : State :=
  raiseReason (modF s id (fun f => { f with excPC := pc, excCode := code })) id r

/-- Let go of everything the context holds; a learn that did not commit is undone (R253). -/
def letGo (s : State) (k : Nat) : State :=
  let c := getC s k
  let got := c.bound.or ((flowReq c).bind (fun r => r.got))
  let s := match got with
    | some i => if c.learned then modF (unlearn s i) c.frame (fun f => { f with flowIdx := noFlow }) else s
    | none => s
  showFlow (freeCtx s k) (ctxPipe k)

/-- Abort the routine of context `k` with reason `r` (R189). -/
def abortCtx (s : State) (k r : Nat) : State :=
  let c := getC s k
  let pipe := ctxPipe k
  let b := flowB pipe
  let s := fs (fs s b F.FS_LAST_ABORT_REASON r) b F.FS_LAST_ABORT_ADDR c.pc
  let s := fs (fs s b F.FS_LAST_ABORT_ENGINE (k / 8 % 64)) b F.FS_LAST_ABORT_CONTEXT (k % 8)
  let s := wr64 s (b + R.FS_LAST_ABORT_PLY) (plyNat s)
  let s := raise (countReason s pipe r) (fsPage pipe) evABORT
  let s := letGo s k
  let s := if r = abMODE_ABORT then setOut s c.frame { kind := 2, edge := plyNat s }
    else outDefault (flowReason s c.frame r c.pc (beAt c.metaB 0x85 1)) c.frame c.entry
  ftResume s

/-- A packet without a routine: its reason is counted and its default action taken. -/
def refusePacket (s : State) (pipe id entry r : Nat) : State :=
  outDefault (flowReason (countReason s pipe r) id r 0 0) id entry

/-- LEARN_FAIL: the routine ends; the packet takes its table action (R254). -/
def learnFail (s : State) (k : Nat) : State :=
  let c := getC s k
  let v := (getF s c.frame).verdict
  let s := raise (bump s (pgFT + R.FT_LEARN_FAILS)) 0x340 evFT_LEARN_FAIL
  let t := ((reqOf c 5).map (fun r => r.table)).getD 0
  let on := 0x40 ≤ t && t < 0x50 && ftc s t F.FT_FT_CFG_LEARN_FAIL_EXC == 1
  let s := if on then flowReason s c.frame 0x30 c.pc (beAt c.metaB 0x85 1) else s
  let s := letGo s k
  ftResume (setOut s c.frame { kind := 0, verdict := 1, egress := v.egress, egKind := v.kind, cls := v.cls,
                               edge := max (c.entry + 2) (plyNat s + 1) })

/-- END of kind `e` (R186). -/
def endRoutine (s : State) (k e : Nat) : State :=
  let c := getC s k
  let pipe := ctxPipe k
  let f := getF s c.frame
  let s := if e = 2 then s else modF s c.frame (fun f => { f with edit := slice c.metaB 0x88 56, record := viewRec c })
  let s := bump s (flowB pipe + (if e = 0 ∨ e = 3 then R.FS_COMMITS else R.FS_DISCARDS))
  let s := if e = 3 then
      flowReason (countReason s pipe abROUTINE_EXCEPT) c.frame abROUTINE_EXCEPT c.pc (beAt c.metaB 0x85 1) else s
  match e with
  | 2 => abortCtx s k abROUTINE_EXCEPT
  | 1 => ftResume (setOut (letGo s k) c.frame (verdictOut c (max (c.entry + 2) (plyNat s + 1))))
  | _ => setC s k { c with ended := e + 1, endLen := endLen f }

/-- JOURNAL_COMMIT of context `k` (R188). -/
def commitCtx (s : State) (k : Nat) : State :=
  let c := getC s k
  if ¬ c.busy ∨ (c.ended ≠ 1 ∧ c.ended ≠ 4) then s
  else
    let s := commitJournal s k
    let s := setOut s c.frame (verdictOut c (max (c.entry + 2) (plyNat s + 1)))
    ftResume (showFlow (freeCtx s k) (ctxPipe k))

/-- The deadline edge of a packet that entered at ply `n` (R182). -/
def deadline (n : Nat) (miss : Bool) : Nat := if miss then n + 16 else n + 4

/-- DEADLINE_EXPIRY of the packet `id`: its routine, or the queued packet (R183). -/
def deadlineOp (s : State) (id : Nat) : State :=
  match s.fl.ctxs.find? (fun e => e.2.busy && e.2.frame == id) with
  | some (k, c) =>
    if c.ended = 0 ∧ deadline c.entry c.missDl ≤ plyNat s then
      abortCtx s k (if c.missDl then abDEADLINE_MISS else abDEADLINE_HIT)
    else s
  | none =>
    let f := getF s id
    let q := tget (fun _ => []) s.fl.queue f.pipe
    if q.contains id ∧ deadline (f.since + 1) false ≤ plyNat s then
      let s := setFl s { s.fl with queue := tset (fun _ => []) s.fl.queue f.pipe (q.filter (· ≠ id)) }
      refusePacket (showFlow s f.pipe) f.pipe id (f.since + 1) abDEADLINE_HIT
    else s

/-- Every routine and queued packet is aborted on entry to CONTAINED, DIAGNOSTIC or RESET (R185). -/
def abortAll (s : State) : State :=
  let s := (s.fl.ctxs.map (fun e => e.1)).foldl (fun s k => if (getC s k).busy then abortCtx s k abMODE_ABORT else s) s
  let waiting := framesWhere s (fun id f => f.stage == .dispatch || (tget (fun _ => []) s.fl.queue f.pipe).contains id)
  let s := waiting.foldl (fun s id =>
    let p := (getF s id).pipe
    setOut (countReason s p abMODE_ABORT) id { kind := 2, edge := plyNat s }) s
  let s := setFl s { s.fl with queue := [] }
  (List.range 8).foldl showFlow (waiting.foldl (fun s id => modF s id (fun f => { f with stage := .flow })) s)

/-! Dispatch (R180, R181, R191, R192). -/

def entryWord (s : State) (pipe e : Nat) : Word := rawRd s (flowB pipe + R.FS_ENTRY + 4 * e)

/-- The engine with the most free contexts, lower number first; its lowest free context. -/
def freeContext (s : State) (pipe : Nat) : Option Nat :=
  let free := (ctxsOf pipe).filter (fun k => !(getC s k).busy)
  let count := fun e => (free.filter (fun k => k / 8 % 64 == e)).length
  let best := (List.range 64).foldl (fun (b : Option Nat) e =>
    if count e = 0 then b else match b with
      | none => some e
      | some x => if count x < count e then some e else b) none
  best.bind (fun e => free.find? (fun k => k / 8 % 64 == e))

/-- Place frame `id` on context `k`. -/
def placeOn (s : State) (k id : Nat) : State :=
  let f := getF s id
  let pipe := ctxPipe k
  let e := entryWord s pipe f.verdict.entry
  let tqm := f.cap.tq + (if f.metered then 4 else 0)
  let s := setFl s { s.fl with order := s.fl.order + 1 }
  let c : Ctx := {
    busy := true, frame := id, entry := f.since + 1, order := s.fl.order, pc := bitsOf e 0 15,
    key := List.replicate 64 0, scratch := List.replicate 64 0, metaB := metaBytes f f.verdict.entry tqm,
    waitCycle := cycleNow s, waitPly := plyNat s }
  let s := modF (setC s k c) id (fun f => { f with stage := .flow })
  showFlow (bump s (flowB pipe + R.FS_ROUTINES)) pipe

/-- The next packet entering the flow stage, in entry order (R180). -/
def entering (s : State) (pipe : Nat) : Option Nat :=
  let l := framesWhere s (fun _ f => f.stage == .dispatch && f.pipe == pipe && decide (f.since < plyNat s))
  l.foldl (fun (b : Option Nat) id => match b with
    | none => some id
    | some x => if (getF s id).since < (getF s x).since ||
        ((getF s id).since == (getF s x).since && decide ((getF s id).slot < (getF s x).slot)) then some id else b) none

/-- ROUTINE_DISPATCH: the queue's head on a free context, else the next packet entering. -/
def dispatchOp (s : State) (pipe : Nat) : State :=
  let q := tget (fun _ => []) s.fl.queue pipe
  if idled s (fsPage pipe) || idled s (fsPage pipe + 1) then
    match entering s pipe with
    | none => s
    | some id => dropFrame (countReason s pipe abMODE_ABORT) id rsnMODE
  else match q, freeContext s pipe with
  | id :: rest, some k =>
    placeOn (setFl s { s.fl with queue := tset (fun _ => []) s.fl.queue pipe rest }) k id
  | _, fc =>
    match entering s pipe with
    | none => s
    | some id =>
      let f := getF s id
      let n := f.since + 1
      let e := entryWord s pipe f.verdict.entry
      let s := modF s id (fun f => { f with stage := .flow })
      if ¬ fgb s (flowB pipe) F.FS_FS_CTRL_DISPATCH_EN ∨ ¬ e.getLsbD 15 then outDefault s id n
      else if s.fl.undecoded = some (bitsOf e 0 15) then
        let s := bump s (flowB pipe + R.FS_UNDECODED)
        if fgb s (flowB pipe) F.FS_FS_CTRL_UNDECODED_EXC then refusePacket s pipe id n abUNDECODED
        else outDefault (countReason s pipe abUNDECODED) id n
      else match fc with
      | some k => placeOn s k id
      | none =>
        if q.length < 256 then
          showFlow (setFl s { s.fl with queue := tset (fun _ => []) s.fl.queue pipe (q ++ [id]) }) pipe
        else raise (refusePacket s pipe id n abNO_CONTEXT) (fsPage pipe) evNO_CONTEXT

/-! Microwords (R169-R172). -/

abbrev sNEXT : Nat := 0
abbrev sJUMP : Nat := 1
abbrev sBRT : Nat := 2
abbrev sBRF : Nat := 3
abbrev sCALL : Nat := 4
abbrev sRET : Nat := 5
abbrev sWAIT : Nat := 6
abbrev sEND : Nat := 7

def microKey (pipe a : Nat) : Nat := pipe * 32768 + a
def nanoKey (pipe a : Nat) : Nat := pipe * 4096 + a
def nanoMark (pipe a : Nat) : Nat := 2 ^ 20 + nanoKey pipe a
def microAt (s : State) (pipe a : Nat) : Word := tget (fun _ => 0) s.fl.micro (microKey pipe a)
def nanoAt (s : State) (pipe a : Nat) : Nat := if a = 0 then 0 else (tget (fun _ => 0) s.fl.nano (nanoKey pipe a)).toNat

def uSeq (w : Word) : Nat := bitsOf w 27 3
def uNano (w : Word) : Nat := bitsOf w 15 12
def uTarget (w : Word) : Nat := bitsOf w 0 15
def uFlag (c : Ctx) (w : Word) : Bool :=
  match bitsOf w 30 2 with
  | 0 => c.t
  | 1 => c.z
  | 2 => c.c
  | _ => c.n

def isVendor (a : Nat) : Bool := a < 0x6000
def isGate (a : Nat) : Bool := 0x5E00 ≤ a && a ≤ 0x5FFC && a % 4 == 0

/-- PC + 1 crosses a region's end (R171). -/
def stepFault (pc : Nat) : Bool := pc == 0x5FFF || pc == 0x7FFF

/-- A transfer from `pc` to `a` is a REGION_FAULT. -/
def jumpFault (pc a : Nat) : Bool := if isVendor pc then !isVendor a else isVendor a && !isGate a

def nanoFault (pc a : Nat) : Bool :=
  if isVendor pc then decide (3072 ≤ a) else decide (256 ≤ a) && decide (a < 3072)

/-! Nanowords (R173, R174). -/

def nb (w lo width : Nat) : Nat := w / 2 ^ lo % 2 ^ width

def getG (c : Ctx) (r : Nat) : Nat := if r = 0 then 0 else (tget (fun _ => 0) c.regs r).toNat
def setG (c : Ctx) (r v : Nat) : Ctx :=
  if r = 0 then c else { c with regs := tset (fun _ => 0) c.regs r (BitVec.ofNat 64 v) }

/-- Result, carry, and the width at which flags are judged, of an ALU operation; none for a code not listed. -/
def alu (op sh wd a b : Nat) (t : Bool) : Option (Nat × Bool × Nat) :=
  let m := 2 ^ wd
  let x := a % m
  let y := b % m
  let ok := fun (r : Nat) => some (r % m, false, wd)
  let cmp := fun (p : Bool) => some (if p then 1 else 0, decide (x < y), wd)
  match op with
  | 0x01 => some ((x + y) % m, decide (m ≤ x + y), wd)
  | 0x02 => some ((x + m - y) % m, decide (x < y), wd)
  | 0x03 => ok (x &&& y)
  | 0x04 => ok (x ||| y)
  | 0x05 => ok (x ^^^ y)
  | 0x06 => ok (x &&& (m - 1 - y))
  | 0x07 => ok (x <<< sh)
  | 0x08 => ok (x >>> sh)
  | 0x09 => ok (trunc wd (sext wd x / 2 ^ sh))
  | 0x0A => let k := sh % wd
            ok ((x <<< k) ||| (x >>> (wd - k)))
  | 0x0B => ok x
  | 0x0C => ok y
  | 0x0D => some (min (m - 1) (x + y), decide (m ≤ x + y), wd)
  | 0x0E => some (x - y, decide (x < y), wd)
  | 0x0F => ok (min x y)
  | 0x10 => ok (max x y)
  | 0x11 =>
    let u := a % 2 ^ 32
    let v := b % 2 ^ 32
    some (trunc 64 (sext 32 ((u + 2 ^ 32 - v) % 2 ^ 32)), decide (u < v), 32)
  | 0x12 => ok ((List.range wd).filter (fun i => x.testBit i)).length
  | 0x13 => ok (if x = 0 then wd else wd - 1 - Nat.log2 x)
  | 0x14 => ok (if t then x else y)
  | 0x18 => cmp (x == y)
  | 0x19 => cmp (x != y)
  | 0x1A => cmp (decide (x < y))
  | 0x1B => cmp (decide (x ≤ y))
  | 0x1C => cmp (decide (sext wd x < sext wd y))
  | 0x1D => cmp (decide (sext wd x ≤ sext wd y))
  | 0x1E => some (if x &&& y = 0 then 0 else 1, false, wd)
  | _ => none

/-- The flags that FLAGS_EN selects. -/
def putFlags (c : Ctx) (en r : Nat) (carry : Bool) (wd : Nat) : Ctx :=
  let z := r % 2 ^ wd == 0
  { c with t := if en.testBit 3 then r != 0 else c.t, z := if en.testBit 2 then z else c.z,
           c := if en.testBit 1 then carry else c.c, n := if en.testBit 0 then r.testBit (wd - 1) else c.n }

/-- Sizes of the spaces of R165. -/
def spaceSize : Nat → Nat
  | 0 => 512
  | 1 => 256
  | 2 => 128
  | 3 => 192
  | 4 => 64
  | 5 => 64
  | _ => 0

/-- META as it reads now: FRAME_LEN and FRAME_STATUS follow the frame (R168). -/
def metaView (c : Ctx) (f : Frame) : List Byte :=
  splice c.metaB 2 (beBytes 2 (if f.ended then f.bytes.length else 0) ++
    beBytes 1 ((if f.ended then 1 else 0) + (if f.fcsGood then 2 else 0) + (if f.trunc then 4 else 0)))

def spaceBytes (c : Ctx) (f : Frame) : Nat → List Byte
  | 0 => slice f.bytes 0 512
  | 1 => slice f.hv 0 256
  | 2 => if c.bound.isSome then viewRec c else List.replicate 128 0
  | 3 => metaView c f
  | 4 => c.key
  | _ => c.scratch

/-- A META byte that routines may store to (R168). -/
def metaRW (o : Nat) : Bool := (0x80 ≤ o && o < 0x86) || (0x88 ≤ o && o < 0xC0)

/-- An aborting cause, or the context after. -/
abbrev Exec := Except Nat Ctx

/-- Add a journal entry (R187). -/
def journal (c : Ctx) (j : JEnt) : Exec :=
  let hit : Nat → JEnt → Bool := fun _ e => match j, e with
    | .store o b, .store p d => o == p && b.length == d.length
    | .add t i _, .add u k _ => t == u && i == k
    | _, _ => false
  let merge : JEnt → JEnt := fun e => match j, e with
    | .add t i n, .add _ _ m => .add t i ((m + n) % 2 ^ 64)
    | _, _ => j
  if c.journal.any (hit 0) then .ok { c with journal := c.journal.map (fun e => if hit 0 e then merge e else e) }
  else if c.journal.length < 32 then .ok { c with journal := c.journal ++ [j] }
  else .error abJOURNAL_FULL

/-- A store of bytes into a space. -/
def storeTo (c : Ctx) (space o : Nat) (bs : List Byte) : Exec :=
  match space with
  | 2 => if c.bound.isSome then journal c (.store o bs) else .error abADDR_FAULT
  | 3 => if (List.range bs.length).all (fun i => metaRW (o + i)) then .ok { c with metaB := splice c.metaB o bs }
         else .error abADDR_FAULT
  | 4 => .ok { c with key := splice c.key o bs }
  | 5 => .ok { c with scratch := splice c.scratch o bs }
  | _ => .error abADDR_FAULT

/-- Byte count of a nanoword's memory access, its space and address. -/
def memN (w : Nat) : Nat := 2 ^ nb w 143 2
def memOp (w : Nat) : Nat := nb w 156 4
def memAddr (c : Ctx) (w : Nat) : Nat :=
  nb w 132 10 + (if memOp w = 3 ∨ memOp w = 4 then getG c (nb w 145 4) % 65536 else 0)

/-- The loaded value, extracted and extended. -/
def loaded (c : Ctx) (f : Frame) (w : Nat) : Nat :=
  let v := beAt (spaceBytes c f (nb w 153 3)) (memAddr c w) (memN w)
  let len := nb w 120 6
  let (x, bits) := if len = 0 then (v, 8 * memN w) else (v / 2 ^ nb w 126 6 % 2 ^ len, len)
  if nb w 142 1 = 1 then trunc 64 (sext bits x) else x

/-- A PKT load waits for bytes that have not arrived (R166). -/
def pktStall (c : Ctx) (f : Frame) (w : Nat) : Bool :=
  (memOp w == 1 || memOp w == 3) && nb w 153 3 == 0 && !f.ended && decide (f.bytes.length < memAddr c w + memN w) &&
    decide (memAddr c w + memN w ≤ 512)

/-- The condition whose kind of request `op` is (R175); 15 = none. -/
def kindOf : Nat → Nat
  | 1 => 0
  | 2 => 5
  | 3 => 1
  | 4 => 1
  | 5 => 2
  | 6 => 2
  | 7 => 3
  | 8 => 4
  | 9 => 6
  | 10 => 6
  | 12 => 11
  | 13 => 12
  | 14 => 12
  | _ => 15

/-- The request finds one of its kind outstanding (R175). -/
def reqStall (c : Ctx) (w : Nat) : Bool := kindOf (nb w 107 5) != 15 && (reqOf c (kindOf (nb w 107 5))).isSome

/-- The ALU, MOV and MEM slots of nanoword `w`: every slot reads the context at the start of the cycle. -/
def slots (c : Ctx) (f : Frame) (w : Nat) : Exec :=
  let imm := nb w 192 64
  let op := nb w 186 6
  let wd := 8 * 2 ^ nb w 171 2
  let b := if nb w 173 1 = 1 then imm else getG c (nb w 174 4)
  let mv := nb w 60 4
  if nb w 107 5 > 14 ∨ 2 < mv ∨ 5 < memOp w then .error abILLEGAL_OP
  else
    let alu1 : Exec := if op = 0 then .ok c else
      match alu op (nb w 161 6) wd (getG c (nb w 178 4)) b c.t with
      | none => .error abILLEGAL_OP
      | some (r, carry, fw) => .ok (setG (putFlags c (nb w 167 4) r carry fw) (nb w 182 4) r)
    match alu1 with
    | .error e => .error e
    | .ok d =>
      let d := match mv with
        | 1 => setG d (nb w 56 4) (getG c (nb w 52 4))
        | 2 => setG d (nb w 56 4) imm
        | _ => d
      if memOp w = 0 then .ok d
      else if spaceSize (nb w 153 3) < memAddr c w + memN w then .error abADDR_FAULT
      else if memOp w = 1 ∨ memOp w = 3 then .ok (setG d (nb w 149 4) (loaded c f w))
      else
        let v := if memOp w = 5 then imm else getG c (nb w 149 4)
        storeTo d (nb w 153 3) (memAddr c w) (beBytes (memN w) (v % 2 ^ (8 * memN w)))

/-! Requests (R175, R177). -/

/-- Issue a FLOW_FIND or FLOW_LEARN for context `k` (R249): a Deck hit that nothing contends for is bound at once. -/
def flowIssue (s : State) (k : Nat) (r : Req) : State :=
  let pipe := ctxPipe k
  let s := modC s k (fun c => { metaPut c 0x14 1 1 with flowAsked := true })
  if ¬ tableOn s r.table then modC s k (fun c => setFlowReq c r)
  else
    let busy := !(rivals s k r.table r.key).isEmpty || (s.fuse.hbm && (pendFind s r.table r.key).isSome)
    match deckFind s pipe r.table r.key with
    | some w =>
      let i := (getWay s w).idx
      if (getWay s w).bad then modC s k (fun c => setFlowReq c r)
      else if busy || isBound s i then modC s k (fun c => setFlowReq c { r with waiting := true })
      else setBound (modC (touchWay s w) k (fun c => setFlowReq c { r with got := some i })) i (some k)
    | none =>
      if ¬ missesDeck s pipe r.table r.key then modC s k (fun c => setFlowReq c { r with waiting := busy })
      else
        let s := perf (bump s (deckB pipe + R.DECK_MISSES)) (0x209 + 16 * pipe) 0x31 1
        let held : Bool := match locate s pipe r.table r.key with
          | .other w => isBound s (getWay s w).idx
          | _ => false
        modC s k (fun c => { setFlowReq c { r with missed := s.fuse.hbm, waiting := busy || held } with
                             missDl := c.missDl || s.fuse.hbm })

/-- Issue the REQ slot of nanoword `w`; `src` is RSRC as read at the start of the cycle. -/
def issueReq (s : State) (k w src : Nat) : Except Nat State :=
  let op := nb w 107 5
  let c := getC s k
  if op = 0 then .ok s
  else
    let klen := nb w 89 6
    let key := slice (c.key.take (if klen = 0 then 64 else klen)) 0 64
    let t := nb w 95 8
    let r : Req := { op := op, key := key, table := t, src := BitVec.ofNat 64 src, arg := if op = 5 then klen else nb w 64 25 }
    let kind := kindOf op
    let put := fun (s : State) (r : Req) =>
      modC s k (fun c => { setReq c kind (some r) with issued := c.issued ||| 2 ^ kind })
    match op with
    | 1 | 2 =>
      if c.flowAsked then .error abFLOW_REBIND
      else
        let s := modC s k (fun c => { c with issued := c.issued ||| 2 ^ kind })
        .ok (flowIssue s k { r with key := flowKey s t key })
    | 9 | 10 =>
      let cur := if c.bound.isSome then some (viewRec c) else none
      let a := if op = 9 then throttle s cur c.entry (src % 2 ^ 32) else histo cur src
      match a.2 with
      | none => .ok (put s { r with src := BitVec.ofNat 64 a.1 })
      | some j =>
        match journal c j with
        | .error e => .error e
        | .ok c => .ok (put (setC s k c) { r with src := BitVec.ofNat 64 a.1 })
    | 11 =>
      match journal c (.add t r.arg src) with
      | .error e => .error e
      | .ok c => .ok (setC s k c)
    | _ => .ok (put s r)

/-! Readiness (R163, R166, R175, R179). -/

/-- The condition of a WAIT. -/
def condHolds (s : State) (k : Nat) (c : Ctx) (f : Frame) (w : Word) : Bool :=
  let cond := bitsOf w 0 4
  let arg := bitsOf w 4 11
  match cond with
  | 7 => f.ended || decide (arg < f.bytes.length) || decide (512 ≤ arg)
  | 8 => f.ended
  | 9 => decide (c.waitPly < plyNat s)
  | 10 => c.reqs.all (fun e => e.2.isNone)
  | 13 => decide (c.waitCycle + max 1 arg ≤ cycleNow s)
  | 14 => c.waitReply || c.reqs.all (fun e => e.2.isNone)
  | 15 => c.waitOthers.all (fun j => !(getC s j).busy || decide ((getC s j).last > c.last) || k == j)
  | n => (reqOf c n).isNone

/-- The context could issue its microword now. -/
def ready (s : State) (k : Nat) : Bool :=
  let c := getC s k
  let f := getF s c.frame
  if ¬ c.busy ∨ c.ended ≠ 0 then false
  else
    let w := microAt s (ctxPipe k) c.pc
    let n := nanoAt s (ctxPipe k) (uNano w)
    (uSeq w != sWAIT || condHolds s k c f w) && !pktStall c f n && !reqStall c n

/-- The ready context of an engine that has waited longest since it last issued (R163). -/
def nextReady (s : State) (pipe engine : Nat) : Option Nat :=
  let ks := (List.range 8).map (pipe * 512 + engine * 8 + ·)
  (ks.filter (ready s)).foldl (fun (b : Option Nat) k => match b with
    | none => some k
    | some j => if (getC s k).last < (getC s j).last then some k else b) none

/-- Arrive at address `pc`: a WAIT there is first evaluated from now on. -/
def arriveAt (s : State) (k pc : Nat) : State :=
  let base := k / 8 * 8
  let others := ((List.range 8).map (base + ·)).filter (fun j => j ≠ k && ready s j)
  modC s k (fun c => { c with pc := pc, waitCycle := cycleNow s, waitPly := plyNat s, waitReply := false,
                              waitOthers := others })

/-! The vendor gates (R264, R269, R270). -/

/-- Journal several stores. -/
def journalAll (c : Ctx) : List (Nat × List Byte) → Exec
  | [] => .ok c
  | x :: xs => match journal c (.store x.1 x.2) with
    | .error e => .error e
    | .ok c => journalAll c xs

/-- SEQ_CHECK. -/
def gateSeq (c : Ctx) : Exec :=
  let out := fun (c : Ctx) (code : Nat) (d : Int) (t : Bool) =>
    { setG (setG c 10 code) 8 (trunc 64 d) with t := t }
  if c.bound.isNone then .ok (out c 4 0 false)
  else
    let r := viewRec c
    let sq := getG c 3 % 2 ^ 32
    let d := sext 32 ((sq + 2 ^ 32 - rget r oEXP_SEQ 4) % 2 ^ 32)
    let nxt := (oEXP_SEQ, beBytes 4 ((sq + 1) % 2 ^ 32))
    let up := fun (o : Nat) => (o, beBytes 2 (min 65535 (rget r o 2 + 1)))
    if ¬ recFlag r flSEQ_EN then
      (journalAll c [nxt, (oFLAGS, beBytes 1 (rget r oFLAGS 1 ||| flSEQ_EN))]).map (fun c => out c 3 0 true)
    else if d = 0 then (journalAll c [nxt]).map (fun c => out c 0 0 true)
    else if 0 < d then (journalAll c [nxt, up oGAP]).map (fun c => out c 1 d false)
    else (journalAll c [up oDUP]).map (fun c => out c 2 d false)

/-- Member `i` of group `g` as the member mirror gives it (R270). -/
def mirrorMember (s : State) (pipe g i : Nat) : Nat :=
  (paramRead s pipe (0x20 + fg s pgFT F.FT_LB_PARAM_TABLE) (g * 16 + i / 4)).toNat / 2 ^ (48 - 16 * (i % 4)) % 65536

def memberBits (s : State) (pipe g : Nat) : Nat := (liveMembers s pipe g).foldl (fun a i => a ||| 2 ^ i) 0

/-- LB_BIND. -/
def gateBind (s : State) (pipe : Nat) (c : Ctx) (f : Frame) : Exec :=
  let g := getG c 4 % 256
  let live := liveMembers s pipe g
  let c := { metaPut c 0x48 8 (memberBits s pipe g) with issued := c.issued ||| 2 ^ 12 }
  let r := viewRec c
  let out := fun (c : Ctx) (code v : Nat) (kind : Nat) =>
    metaPut (metaPut (setG (setG c 10 code) 9 v) 0x80 2 v) 0x82 1 kind
  let li := rget r oLB_INDEX 1
  if live.isEmpty then .ok (setG c 10 3)
  else if c.bound.isSome && recFlag r flLB_BOUND && rget r oLB_GROUP 1 == g && live.contains (li % 64) then
    .ok (out c 0 (rget r oLB_MEMBER 2) (li / 64))
  else
    let h := (hashSym f).toNat
    let c := { metaPut c 0x20 8 h with issued := c.issued ||| 2 ^ 2 }
    let i := live.getD (h * live.length / 2 ^ 32) 0
    let m := mirrorMember s pipe g i
    if c.bound.isNone then .ok (out c 4 (m % 32768) (m / 32768))
    else
      (journalAll c [(oLB_MEMBER, beBytes 2 (m % 32768)), (oLB_GROUP, beBytes 1 g),
        (oLB_INDEX, beBytes 1 (i + 64 * (m / 32768))), (oFLAGS, beBytes 1 (rget r oFLAGS 1 ||| flLB_BOUND))]).map
        (fun c => out c (if recFlag r flLB_BOUND then 2 else 1) (m % 32768) (m / 32768))

/-- Continue at `a`; a gate of this manual does its work and returns. -/
def continueAt (s : State) (k a : Nat) : State :=
  if a ≠ 0x5E00 ∧ a ≠ 0x5E04 then arriveAt s k a
  else
    let c := getC s k
    let s := modC s k (fun c => { c with pc := a })
    match (if a = 0x5E00 then gateSeq c else gateBind s (ctxPipe k) c (getF s c.frame)) with
    | .error e => abortCtx s k e
    | .ok c =>
      match c.stack with
      | [] => abortCtx s k abSTACK_UNDERFLOW
      | r :: rest => arriveAt (setC s k { c with stack := rest }) k r

/-! One microword. -/

/-- The address faults and the next address of a microword, the flags read before its nanoword. -/
def nextAddr (c : Ctx) (w : Word) : Except Nat (Nat × List Nat) :=
  let pc := c.pc
  let fall := if stepFault pc then .error abREGION_FAULT else .ok (pc + 1, c.stack)
  let go := if jumpFault pc (uTarget w) then .error abREGION_FAULT else .ok (uTarget w, c.stack)
  match uSeq w with
  | 1 => go
  | 2 => if uFlag c w then go else fall
  | 3 => if uFlag c w then fall else go
  | 4 =>
    if stepFault pc ∨ jumpFault pc (uTarget w) = true then .error abREGION_FAULT
    else if 8 ≤ c.stack.length then .error abSTACK_OVERFLOW
    else .ok (uTarget w, (pc + 1) :: c.stack)
  | 5 => match c.stack with
    | [] => .error abSTACK_UNDERFLOW
    | a :: rest => .ok (a, rest)
  | 7 => .ok (pc, c.stack)
  | _ => fall

/-- The sampling record of a microword at issue (R533). -/
def microRecord (s : State) (k : Nat) (w : Word) : BitVec 256 :=
  let c := getC s k
  let f := getF s c.frame
  BitVec.ofNat 256 (beNat (beBytes 1 0x81 ++ beBytes 1 (ctxPipe k) ++ beBytes 1 (k / 8 % 64) ++
    beBytes 1 (k % 8 + (if uSeq w = sWAIT then 8 else 0)) ++ beBytes 2 c.pc ++ beBytes 2 (uNano w) ++
    beBytes 8 (plyNat s) ++ beBytes 1 s.tm.cycle ++ beBytes 1 (beAt c.metaB 0x14 1) ++ beBytes 1 (beAt c.metaB 6 2) ++
    beBytes 1 (deadline c.entry c.missDl - plyNat s) ++ beBytes 2 f.cap.port ++ beBytes 4 (beAt c.metaB 0x10 4) ++
    List.replicate 6 0))

/-- A fetch of a marked word raises STORE_UE and aborts the routine (R193). -/
def fetchUE (s : State) (k a : Nat) (nano : Bool) : State :=
  let d : Detail := BitVec.ofNat 128 (a * 2 ^ 112 + (if nano then 2 ^ 104 else 0) + ctxPipe k * 2 ^ 96)
  abortCtx (raiseD s (fsPage (ctxPipe k)) evSTORE_UE d) k abSTORE_UE

/-- Context `k` issues its microword. -/
def issueMicro (s : State) (k : Nat) : State :=
  let pipe := ctxPipe k
  let s := setFl s { s.fl with stamp := s.fl.stamp + 1 }
  let s := modC s k (fun c => { c with last := s.fl.stamp })
  let c := getC s k
  let f := getF s c.frame
  let w := microAt s pipe c.pc
  let n := nanoAt s pipe (uNano w)
  let s := perf (sampleMicro s pipe (k % 512) (microRecord s k w)) (fsPage pipe) 0x10 1
  if s.fl.marks.contains (microKey pipe c.pc) then fetchUE s k c.pc false
  else if nanoFault c.pc (uNano w) then abortCtx s k abREGION_FAULT
  else if uNano w ≠ 0 ∧ s.fl.marks.contains (nanoMark pipe (uNano w)) then fetchUE s k (uNano w) true
  else if uSeq w = sWAIT ∧ bitsOf w 0 4 = 7 ∧ 512 ≤ bitsOf w 4 11 then abortCtx s k abADDR_FAULT
  else match slots c f n, nextAddr c w with
  | .error e, _ => abortCtx s k e
  | .ok _, .error e => abortCtx s k e
  | .ok d, .ok (a, st) =>
    match issueReq (setC s k { d with stack := st }) k n (getG c (nb n 103 4)) with
    | .error e => abortCtx s k e
    | .ok s => if uSeq w = sEND then endRoutine s k (bitsOf w 0 2) else
        if uSeq w = sNEXT ∨ uSeq w = sWAIT ∨ uSeq w = sRET then arriveAt s k a else continueAt s k a

/-- An engine issues a microword whose SEQ is `seq` (and END_KIND `e` for an END). -/
def microOp (s : State) (pipe engine seq e : Nat) : State :=
  match nextReady s pipe engine with
  | none => s
  | some k =>
    let w := microAt s pipe (getC s k).pc
    if uSeq w = seq ∧ (seq ≠ sEND ∨ bitsOf w 0 2 = e) then issueMicro s k else s

/-! Replies. -/

/-- A reply of kind `kind` writes `n` bytes of META at `o`. -/
def reply (s : State) (k kind o n v : Nat) : State :=
  modC s k (fun c => { metaPut (setReq c kind none) o n v with waitReply := true })

def tblReplyOp (s : State) (k : Nat) (upset : List Nat) (corrected : Bool) : State :=
  let c := getC s k
  match reqOf c 1 with
  | none => s
  | some r =>
    let pipe := ctxPipe k
    let s := takeUpsets s pipe upset corrected
    let g := (getF s c.frame).gen % 2
    let res := if r.op = 3 then (if r.table < 8 then emLookup s pipe r.table r.key g else none)
      else if 0x10 ≤ r.table ∧ r.table < 0x18 then ternLookup s pipe (r.table - 0x10) r.key g else none
    reply s k 1 0x18 8 (tblResultOf res)

def hashDoneOp (s : State) (k : Nat) : State :=
  let c := getC s k
  match reqOf c 2 with
  | none => s
  | some r =>
    let h := if r.op = 5 then crc32c (r.key.take (if r.arg = 0 then 64 else r.arg)) else hashSym (getF s c.frame)
    reply s k 2 0x20 8 h.toNat

/-- Internal TT in the 16 bytes of TIME_RESULT. -/
def timeBytes (t : Nat) : Nat :=
  beNat (beBytes 6 (t / sec256) ++ beBytes 4 (t % sec256 / ns256) ++ beBytes 1 (t % ns256) ++ List.replicate 5 0)

def timeReadyOp (s : State) (k dt : Nat) : State :=
  match reqOf (getC s k) 3 with
  | none => s
  | some _ => reply s k 3 0x30 16 (timeBytes (ttNow s dt))

def paramReadyOp (s : State) (k : Nat) : State :=
  match reqOf (getC s k) 4 with
  | none => s
  | some r => reply s k 4 0x28 8 (paramRead s (ctxPipe k) r.table r.src.toNat).toNat

def assistDoneOp (s : State) (k : Nat) : State :=
  match reqOf (getC s k) 6 with
  | none => s
  | some r => reply s k 6 0x40 8 r.src.toNat

def ctrReadyOp (s : State) (k : Nat) : State :=
  match reqOf (getC s k) 11 with
  | none => s
  | some r => reply s k 11 0x50 8 (ctrReadId s (ctxPipe k) r.table r.arg).toNat

/-- Frames in a port's class and release queues, or in a sequenced output's store (R175, R378). -/
def queueDepth (s : State) (v : Nat) : Nat :=
  if v / 32768 % 2 = 1 then (tget (fun _ => []) s.arb.stores (v % 32768)).length
  else
    let P := getP s (v % 32768)
    ((List.range 8).map (fun c => (tget (fun _ => []) P.queue c).length)).foldl (· + ·) 0 + P.release.length

def stateReadyOp (s : State) (k : Nat) : State :=
  match reqOf (getC s k) 12 with
  | none => s
  | some r => reply s k 12 0x48 8 (if r.op = 13 then queueDepth s r.src.toNat else memberBits s (ctxPipe k) r.table)

/-! Replies of FLOW_FIND and FLOW_LEARN. -/

/-- An upset met by the request (R278): the state, and whether the answer must wait (a dropped clean copy is fetched
again). -/
def flowUpset (s : State) (k : Nat) (r : Req) (upset : Nat) : State × Bool :=
  let pipe := ctxPipe k
  let page := 0x209 + 16 * pipe
  let b := ((buckets r.table r.key).head?.getD 0)
  let det := fun (idx : Nat) => (BitVec.ofNat 128 (idx * 2 ^ 96 + b / 64 * 2 ^ 64) : Detail)
  match upset with
  | 1 => (raise s page 0, false)
  | 3 => (raise s 0x340 evINDEX_CE, false)
  | 4 =>
    let a := ((matchesOf s r.table r.key).head?.map (fun e => e.1)).getD b
    (raiseD (setHbm s { s.hbm with poison := (s.hbm.poison.filter (· ≠ a / 16)) ++ [a / 16] }) 0x340 evINDEX_UE (det noFlow),
      false)
  | 2 =>
    let bad := fun (s : State) (w : Nat) =>
      let i := (getWay s w).idx
      let s := setWay s w { getWay s w with bad := true }
      let s := if r.got = some i then modC (setBound s i none) k (fun c => setFlowReq c { r with got := none }) else s
      (raiseD s (0x209 + 16 * (w / 65536)) 1 (det i), false)
    let dropCopy := fun (s : State) (w : Nat) =>
      let i := (getWay s w).idx
      let s := setDir (setWay s w {}) i none
      let s := if r.got = some i then setBound s i none else s
      let s := bump s (deckB pipe + R.DECK_MISSES)
      let s := modC s k (fun c => { setFlowReq c { r with got := none, missed := true, waiting := false } with missDl := true })
      (raiseD s (0x209 + 16 * (w / 65536)) 0 (det i), true)
    let atWay := fun (w : Nat) =>
      if s.fuse.hbm && !(getWay s w).dirty && !(getWay s w).pin then dropCopy s w else bad s w
    match locate s pipe r.table r.key with
    | .deck w | .other w => if isBound s (getWay s w).idx && r.got != some (getWay s w).idx then (s, false) else atWay w
    | .array i => (raiseD (setFl s { s.fl with bad := s.fl.bad ++ [i] }) 0x340 evRECORD_UE (det i), false)
    | _ => (s, false)
  | _ => (s, false)

/-- Deliver the answer of a flow request: META, the binding and the counters. -/
def flowAnswer (s : State) (k kind : Nat) (a : Ans) : State :=
  let pipe := ctxPipe k
  let s := if a.status = 2 then perf (bump s (deckB pipe + R.DECK_HITS)) (0x209 + 16 * pipe) 0x30 1 else s
  if a.status = 4 then reply s k kind 0x14 1 4
  else
    let s := reply (reply s k kind 0x14 1 a.status) k kind 0x10 4 a.idx
    let s := modF s (getC s k).frame (fun f => { f with flowIdx := a.idx })
    bindRec s k a.idx (a.status = 5)

/-- The answer to a request: what it holds already, or an attempt when its turn has come. -/
def flowTry (s : State) (k : Nat) (r : Req) : Ans :=
  match r.got with
  | some i => ⟨s, if r.missed then 3 else 2, i⟩
  | none =>
    if turnOf s k r then
      (if r.op = 2 then learnTry s k (ctxPipe k) r.table r.key else findTry s (ctxPipe k) r.table r.key)
    else ⟨s, 0, noFlow⟩

/-- FLOW_READY (kind 0) or LEARN_DONE (kind 5). -/
def flowReplyOp (s : State) (k kind upset : Nat) : State :=
  match reqOf (getC s k) kind with
  | none => s
  | some r =>
    let u := flowUpset s k r upset
    if u.2 then u.1
    else
      let r := (reqOf (getC u.1 k) kind).getD r
      let a := flowTry u.1 k r
      match a.status with
      | 0 =>
        let held : Bool := match locate u.1 (ctxPipe k) r.table r.key with
          | .deck w | .other w => isBound u.1 (getWay u.1 w).idx
          | .pending => true
          | _ => false
        modC u.1 k (fun c => setFlowReq c { r with waiting := r.waiting || (r.got.isNone && held) })
      | 6 => learnFail a.st k
      | 5 =>
        let s := flowAnswer a.st k kind a
        match journal (getC s k) .learn with
        | .error e => abortCtx s k e
        | .ok c => setC s k c
      | _ => flowAnswer a.st k kind a

/-- DECK_INSTALL: the record of the oldest fetch of the pipeline enters its Deck and is bound for it (R257). -/
def deckInstallOp (s : State) (pipe : Nat) : State :=
  let ks := (s.fl.ctxs.filter (fun e => ctxPipe e.1 == pipe && e.2.busy && (match flowReq e.2 with
    | some r => r.missed && r.got.isNone && turnOf s e.1 r
    | none => false))).map (fun e => e.1)
  match ks.foldl (fun (b : Option Nat) k => match b with
    | none => some k
    | some j => if earlier s k j then some k else b) none with
  | none => s
  | some k =>
    match flowReq (getC s k) with
    | none => s
    | some r =>
      let a := findTry s pipe r.table r.key
      if a.status = 3 then
        setBound (modC a.st k (fun c => setFlowReq c { r with got := some a.idx })) a.idx (some k)
      else s

/-! The control store (R191-R194). -/

def storeAddr (s : State) (pipe : Nat) : Nat := fg s (flowB pipe) F.FS_STORE_ADDR_ADDR
def storeIsNano (s : State) (pipe : Nat) : Bool := fgb s (flowB pipe) F.FS_STORE_ADDR_SPACE

def storeAdvance (s : State) (pipe : Nat) : State :=
  if fgb s (flowB pipe) F.FS_STORE_ADDR_AUTO_INC then
    fs s (flowB pipe) F.FS_STORE_ADDR_ADDR (storeAddr s pipe + 1) else s

/-- Write a word of the control store in all 8 pipelines. -/
def storePut (s : State) (nano : Bool) (a v : Nat) : State :=
  (List.range 8).foldl (fun s p =>
    if nano then setFl s { s.fl with
      nano := tset (fun _ => 0) s.fl.nano (nanoKey p a) (BitVec.ofNat 256 v),
      marks := s.fl.marks.filter (· ≠ nanoMark p a) }
    else setFl s { s.fl with
      micro := tset (fun _ => 0) s.fl.micro (microKey p a) (BitVec.ofNat 32 v),
      marks := s.fl.marks.filter (· ≠ microKey p a) }) s

def storeData (s : State) (pipe : Nat) : Nat := winNum (rdWords s (flowB pipe + R.FS_STORE_DATA) 8) 8

/-- STORE_CMD.WRITE: only boot firmware in BOOT writes the store (R191). -/
def storeWriteOp (s : State) (a : Agent) (pipe : Nat) : Res × State :=
  match a with
  | .sky _ => (.denied, s)
  | .core _ =>
    if s.md.mode ≠ .boot then (.denied, s)
    else
      let n := storeIsNano s pipe
      let i := storeAddr s pipe
      (.ok, storeAdvance (storePut s n (if n then i % 4096 else i) (storeData s pipe)) pipe)

/-- A word of the store as STORE_CMD.READ shows it: the vendor region reads 0 to Skyline. -/
def storeGet (s : State) (pipe : Nat) (nano hide : Bool) (i : Nat) : Nat :=
  if nano then (if hide && decide (i % 4096 < 3072) then 0 else (tget (fun _ => 0) s.fl.nano (nanoKey pipe (i % 4096))).toNat)
  else if hide && isVendor i then 0 else (microAt s pipe i).toNat

/-- STORE_CMD.READ. -/
def storeReadOp (s : State) (a : Agent) (pipe : Nat) : Res × State :=
  let hide : Bool := match a with
    | .sky _ => true
    | .core _ => false
  let low : Bool := match a with
    | .sky l => decide (l.val < 2)
    | .core _ => false
  if low then (.denied, s)
  else
    let v := storeGet s pipe (storeIsNano s pipe) hide (storeAddr s pipe)
    (.ok, storeAdvance (wrWords s (flowB pipe + R.FS_STORE_DATA) (numWords v 8)) pipe)

def storePending (s : State) (pipe : Nat) : State :=
  let mine := fun m => if m < 2 ^ 20 then m / 32768 == pipe else (m - 2 ^ 20) / 4096 == pipe
  fs s (flowB pipe) F.FS_STORE_STATUS_REPAIR_PENDING (if s.fl.marks.any mine then 1 else 0)

/-- The marks of the words of a scrub line: four microwords, or half a nanoword. -/
def lineMarks (pipe line : Nat) (nano : Bool) : List Nat :=
  if nano then [nanoMark pipe (line / 2)] else (List.range 4).map (fun i => microKey pipe (4 * line + i))

/-- STORE_SCRUB (R193). -/
def storeScrubOp (s : State) (pipe line : Nat) (nano ue ce : Bool) : State :=
  if 8192 ≤ line then s
  else
    let d : Detail := BitVec.ofNat 128 ((if nano then line / 2 else 4 * line) * 2 ^ 112 + (if nano then 2 ^ 104 else 0) + pipe * 2 ^ 96)
    if ue then
      let new := (lineMarks pipe line nano).filter (fun m => !s.fl.marks.contains m)
      storePending (raiseD (setFl s { s.fl with marks := s.fl.marks ++ new }) (fsPage pipe) evSTORE_UE d) pipe
    else if ce then raiseD s (fsPage pipe) evSTORE_CE d
    else s

/-- STORE_REPAIR: a marked line is copied from the next pipeline (R193). -/
def storeRepairOp (s : State) (pipe line : Nat) (nano sourceOk : Bool) : State :=
  let ms := (lineMarks pipe line nano).filter (fun m => s.fl.marks.contains m)
  let q := (pipe + 1) % 8
  if ms.isEmpty then s
  else if ¬ sourceOk ∨ (lineMarks q line nano).any (fun m => s.fl.marks.contains m) then
    raise s (fsPage pipe) evSTORE_DOUBLE_UE
  else
    let s := (List.range (if nano then 1 else 4)).foldl (fun s i =>
      if nano then
        setFl s { s.fl with nano := tset (fun _ => 0) s.fl.nano (nanoKey pipe (line / 2))
                              (tget (fun _ => 0) s.fl.nano (nanoKey q (line / 2))) }
      else setFl s { s.fl with micro := tset (fun _ => 0) s.fl.micro (microKey pipe (4 * line + i)) (microAt s q (4 * line + i)) }) s
    storePending (setFl s { s.fl with marks := s.fl.marks.filter (fun m => !ms.contains m) }) pipe

/-- Occupancies of the flow stage for one core cycle (R526). -/
def flowOccupancy (s : State) (n : Nat) : State :=
  (List.range 8).foldl (fun s p =>
    let busy := busyCount s p
    if busy = 0 ∧ (tget (fun _ => []) s.fl.queue p).isEmpty then s
    else
      let waiting := ((ctxsOf p).filter (fun k => (getC s k).busy && (getC s k).ended == 0 && !ready s k)).length
      let s := perf s (fsPage p) 0x11 (busy * n)
      let s := perf s (fsPage p) 0x12 (waiting * n)
      perf s (fsPage p) 0x13 ((tget (fun _ => []) s.fl.queue p).length * n)) s

end Sys2Proof.Machine
end

