-- ==== Sys2Proof/Machine/Hbm.lean ====
section
/-! DEFINITION. The flow memory controllers (chapter 08): requests, ordering, error correction, refresh, training,
probes and self-refresh. -/

namespace Sys2Proof.Machine

def getM (s : State) (c : Nat) : McSt := tget (fun _ => {}) s.hbm.mc c
def setM (s : State) (c : Nat) (m : McSt) : State := setHbm s { s.hbm with mc := tset (fun _ => {}) s.hbm.mc c m }
def modM (s : State) (c : Nat) (f : McSt → McSt) : State := setM s c (f (getM s c))
abbrev mcPage (c : Nat) : Nat := 0x300 + c

/-- Command cycles since ply 0: 1.2 GHz against the core's 1.6 GHz (R285). -/
def cmdNow (s : State) : Nat := cycleNow s * 3 / 4

abbrev srACTIVE : Nat := 0
abbrev srENTERING : Nat := 1
abbrev srSELF : Nat := 2
abbrev srEXITING : Nat := 3

def srState (s : State) (c : Nat) : Nat := fg s (mcB c) F.HBM_MC_STATUS_SR_STATE
def setSr (s : State) (c v : Nat) : State := fs s (mcB c) F.HBM_MC_STATUS_SR_STATE v
def trained (s : State) (c : Nat) : Bool := fgb s (mcB c) F.HBM_MC_STATUS_TRAINED

/-! Ports (R290-R293). -/

def portCfg (s : State) (c k : Nat) (f : FRef) : Nat := fg s (mcB c) (f.fwd (4 * k))
def latTarget (s : State) (c k : Nat) : Nat := max 1 (portCfg s c k F.HBM_PORT_CFG_LAT_TARGET)

/-- Urgency of a queued request (R291). -/
def urgency (s : State) (c : Nat) (r : HReq) : Nat :=
  let a := cmdNow s - r.t
  let t := latTarget s c r.port
  if t ≤ a then 3 else if 3 * t ≤ 4 * a then 2 else if t ≤ 2 * a then 1 else 0

/-- Pseudo-channel, bank and row of an address (R287). -/
def pcOf (a : Nat) : Nat := localOf a / 64 % 4
def bankOf (a : Nat) : Nat := localOf a / 4096 % 64
def rowOf (a : Nat) : Nat := localOf a / 262144
def bankKey (a : Nat) : Nat := pcOf a * 64 + bankOf a

def rowOpen (m : McSt) (k : Nat) : Option Nat :=
  match tget (fun _ => 0) m.rows k with
  | 0 => none
  | n => some (n - 1)

def rowHit (m : McSt) (a : Nat) : Bool := rowOpen m (bankKey a) == some (rowOf a)

def overLimit (s : State) (c : Nat) (r : HReq) : Bool :=
  decide (portCfg s c r.port F.HBM_PORT_CFG_LIMIT ≤ tget (fun _ => 0) (getM s c).used r.port)

/-- Rank of a request, lower first (R292); the list's order is the order of acceptance. -/
def reqRank (s : State) (c : Nat) (r : HReq) : Nat :=
  let u := urgency s c r
  if u = 3 then 0
  else (3 - u) * 32 + (if rowHit (getM s c) r.addr then 0 else 16) + (if overLimit s c r then 8 else 0) +
    (7 - portCfg s c r.port F.HBM_PORT_CFG_PRIO)

/-- The read served next: the first of the best rank; of one granule the oldest comes first anyway (R288). -/
def nextRead (s : State) (c : Nat) : Option HReq :=
  (getM s c).reads.foldl (fun (b : Option HReq) r => match b with
    | none => some r
    | some x => if reqRank s c r < reqRank s c x ∧ r.addr ≠ x.addr then some r else b) none

/-- The request's page hint in force: true = open (R290, R297). -/
def openHint (s : State) (c port : Nat) : Bool :=
  match portCfg s c port F.HBM_PORT_CFG_HINT_MODE with
  | 1 => false
  | 2 => true
  | _ => port == 17 || port == 18 || port == 19 || port == 21

/-- The row after an access (R297, R298). -/
def afterAccess (s : State) (c : Nat) (r : HReq) : State :=
  let m := getM s c
  let k := bankKey r.addr
  let again := m.reads.any (fun x => bankKey x.addr == k && rowOf x.addr == rowOf r.addr)
  let keepOpen := openHint s c r.port || again
  setM s c { m with rows := tset (fun _ => 0) m.rows k (if keepOpen then rowOf r.addr + 1 else 0),
                    rowHit := tset (fun _ => 0) m.rowHit k (cmdNow s) }

/-! Errors (R302-R305, R515). -/

def eccDetail (a cw port synd : Nat) : Detail :=
  BitVec.ofNat 128 (localOf a * 2 ^ 96 + cw * 2 ^ 88 + port * 2 ^ 80 + synd % 65536 * 2 ^ 64)

/-- ECC_LOG (R305). -/
def eccLog (s : State) (c a cw port synd : Nat) (ue : Bool) : State :=
  let b := mcB c
  let valid := fgb s b F.HBM_ECC_LOG_ADDR_VALID
  let put := fun (s : State) =>
    let s := fs (fs s b F.HBM_ECC_LOG_ADDR_L (localOf a)) b F.HBM_ECC_LOG_ADDR_VALID 1
    let s := fs (fs s b F.HBM_ECC_LOG_INFO_SYNDROME synd) b F.HBM_ECC_LOG_INFO_CODEWORD cw
    fs (fs s b F.HBM_ECC_LOG_INFO_PORT port) b F.HBM_ECC_LOG_INFO_UE (if ue then 1 else 0)
  if ¬ valid then fs (put s) b F.HBM_ECC_LOG_INFO_MORE 0
  else if ue && !fgb s b F.HBM_ECC_LOG_INFO_UE then put s
  else fs s b F.HBM_ECC_LOG_INFO_MORE (min 127 (fg s b F.HBM_ECC_LOG_INFO_MORE + 1))

def eccCE (s : State) (c a cw port synd : Nat) : State :=
  let s := raiseD (bump (eccLog s c a cw port synd false) (mcB c + R.HBM_ECC_CE_COUNT)) (mcPage c) evECC_CE
    (eccDetail a cw port synd)
  modM s c (fun m => if m.corr.contains a then m else { m with corr := m.corr ++ [a] })

def eccUE (s : State) (c a cw port synd : Nat) : State :=
  raiseD (bump (eccLog s c a cw port synd true) (mcB c + R.HBM_ECC_UE_COUNT)) (mcPage c) evECC_UE (eccDetail a cw port synd)

def poisonCw (s : State) (w : Nat) : State :=
  if s.hbm.poison.contains w then s else setHbm s { s.hbm with poison := s.hbm.poison ++ [w] }

/-- 16 bytes without a stated value: what three or more bad symbols leave of a codeword. -/
def freeBytes (s : State) : List Byte × State :=
  let f := free s
  (beBytes 16 f.1, f.2)

/-- The check of codeword `cw` of the granule at `a`, with the symbols found in error and their syndrome. -/
def checkCw (c a port : Nat) (s : State) (x : Nat × Nat × Nat) : State :=
  let cw := x.1
  let w := a / 16 + cw
  if s.hbm.poison.contains w then eccUE s c a cw port x.2.2
  else match x.2.1 with
  | 0 => s
  | 1 => eccCE s c a cw port x.2.2
  | 2 => eccUE (poisonCw s w) c a cw port x.2.2
  | _ =>
    let d := free s
    let fb := freeBytes d.2
    match d.1 % 3 with
    | 0 => eccCE (mwr fb.2 (16 * w) fb.1) c a cw port x.2.2
    | 1 => eccUE (poisonCw d.2 w) c a cw port x.2.2
    | _ => mwr fb.2 (16 * w) fb.1

/-- The four codewords of a granule. -/
def checkGranule (s : State) (c a port : Nat) (errs : List (Nat × Nat)) : State :=
  ((List.range 4).map (fun k => (k, errs.getD k (0, 0)))).foldl (checkCw c a port) s

/-! Requests (R286, R288, R304, R312, R314). -/

def useGranule (s : State) (c port : Nat) : State :=
  modM s c (fun m => { m with used := tset (fun _ => 0) m.used port (tget (fun _ => 0) m.used port + 1) })

/-- Accept one request: a write is done, a read is queued. -/
def acceptReq (s : State) (c : Nat) (r : HReq) : State :=
  let s := modM s c (fun m => { m with lastReq := cmdNow s })
  let g := r.addr / 64 * 64
  match r.write with
  | none => modM s c (fun m => { m with reads := m.reads ++ [{ r with addr := g, t := cmdNow s }] })
  | some bs =>
    let s := bump (useGranule s c r.port) (mcB c + R.HBM_WRITES)
    let hit := (touched r.addr bs.length).find? (fun w => s.hbm.poison.contains w && !whole r.addr bs.length w)
    match hit with
    | some w =>
      let s := eccUE s c g (w % 4) r.port 0
      modM s c (fun m => { m with ret := some (r.port, r.addr, [], true) })
    | none =>
      let s := mwr s r.addr bs
      modM s c (fun m => { m with corr := m.corr.filter (· ≠ g), ret := some (r.port, r.addr, [], false) })

/-- HBM_REQUEST. -/
def hbmRequestOp (s : State) (port a : Nat) (write : Option (List Byte)) : State :=
  let c := ctlOf a
  let n := match write with
    | some bs => bs.length
    | none => 1
  if ¬ s.fuse.hbm ∨ n = 0 ∨ 64 < a % 64 + n then s
  else if ¬ portMay port a write.isSome then
    let s := raise s (mcPage c) evREGION_VIOLATION
    modM s c (fun m => { m with ret := some (port, a, [], true) })
  else
    let r : HReq := { port := port, addr := a, t := cmdNow s, write := write }
    let holdIt := modM s c (fun m => { m with held := m.held ++ [r] })
    if ¬ trained s c then holdIt
    else match srState s c with
    | 0 => acceptReq s c r
    | 1 => acceptReq (raise (setSr s c srACTIVE) (mcPage c) evSR_ABORT) c r
    | 2 => setSr holdIt c srEXITING
    | _ => holdIt

/-- An access of a client whose data the model moves at once wakes a controller in self-refresh (R312). -/
def wakeFor (s : State) (a : Nat) : State :=
  let c := ctlOf a
  let s := modM s c (fun m => { m with lastReq := cmdNow s })
  match srState s c with
  | 1 => raise (setSr s c srACTIVE) (mcPage c) evSR_ABORT
  | 2 => setSr s c srEXITING
  | _ => s

/-- HBM_READ_COMPLETE. -/
def readCompleteOp (s : State) (c : Nat) (errs : List (Nat × Nat)) : State :=
  match nextRead s c with
  | none => s
  | some r =>
    let hit := rowHit (getM s c) r.addr
    let s := modM s c (fun m => { m with reads := m.reads.erase r })
    let s := bump (useGranule s c r.port) (mcB c + R.HBM_READS)
    let s := perf s (mcPage c) 0x40 1
    let s := if hit then perf s (mcPage c) 0x41 1 else s
    let s := afterAccess (checkGranule s c r.addr r.port errs) c r
    modM s c (fun m => { m with ret := some (r.port, r.addr, mrd s r.addr 64, poisoned s r.addr 64) })

/-- REQUEST_LATE: the oldest queued request that has reached urgency 3 and is not yet counted. -/
def lateOp (s : State) (c : Nat) : State :=
  let m := getM s c
  match m.reads.find? (fun r => !r.late && urgency s c r == 3) with
  | none => s
  | some r =>
    let s := setM s c { m with reads := m.reads.map (fun x => if x = r then { x with late := true } else x) }
    raise (bump s (mcB c + R.HBM_LATE + 8 * r.port)) (mcPage c) evLATE_REQ

def limitEndOp (s : State) (c : Nat) : State := modM s c (fun m => { m with used := [] })

/-! Refresh (R299), rows (R297), corrective writes and scrub (R300, R301, R303). -/

def refreshOp (s : State) (c pc bank : Nat) : State :=
  if ¬ s.fuse.hbm ∨ ¬ trained s c ∨ srState s c = srSELF then s
  else
    let k := pc * 64 + bank
    let m := getM s c
    let n := tget (fun _ => 0) m.postponed k
    let urgent := m.reads.any (fun r => bankKey r.addr == k && urgency s c r == 3)
    let d := free s
    if urgent ∧ n < d.1 then setM d.2 c { m with postponed := tset (fun _ => 0) m.postponed k (n + 1) }
    else
      let s := if urgent then d.2 else s
      let s := perf s (mcPage c) 0x40 1
      setM s c { m with postponed := tset (fun _ => 0) m.postponed k 0, rows := tset (fun _ => 0) m.rows k 0 }

/-- HOT_REPORTED and HOT_CLEARED, with the temperature the stack reports. -/
def hotOp (s : State) (c : Nat) (on : Bool) (temp : Nat) : State :=
  if ¬ s.fuse.hbm then s
  else
    let s := fs (fs s (mcB c) F.HBM_MC_STATUS_HOT (if on then 1 else 0)) (mcB c) F.HBM_MC_STATUS_TEMP temp
    setLevel s (mcPage c) evHOT on

def rowIdleOp (s : State) (c pc bank : Nat) : State :=
  let k := pc * 64 + bank
  let m := getM s c
  if (rowOpen m k).isSome ∧ tget (fun _ => 0) m.rowHit k + fg s (mcB c) F.HBM_PAGE_CFG_OPEN_IDLE ≤ cmdNow s then
    setM s c { m with rows := tset (fun _ => 0) m.rows k 0 }
  else s

def correctiveOp (s : State) (c : Nat) : State := modM s c (fun m => { m with corr := m.corr.drop 1 })

/-- HBM_SCRUB_READ: the next granule of the controller in address order. -/
def scrubOp (s : State) (c : Nat) (errs : List (Nat × Nat)) : State :=
  if ¬ s.fuse.hbm ∨ ¬ trained s c ∨ srState s c ≠ srACTIVE ∨ ¬ fgb s (mcB c) F.HBM_MC_CTRL_SCRUB_EN then s
  else
    let g := (getM s c).scrub
    let s := checkGranule s c (addrOf c (64 * g)) 21 errs
    let last := decide (33554432 ≤ g + 1)
    let s := modM s c (fun m => { m with scrub := if last then 0 else g + 1 })
    if last then bump s (mcB c + R.HBM_SCRUB_PASSES) else s

/-! Training and probes (R306-R309). -/

def laneRef (q j : Nat) (f : FRef) : FRef := f.fwd (4 * (5 * q + j))
def fDelay (write : Bool) : FRef := if write then F.HBM_LANE_TRAIN_WR_DELAY else F.HBM_LANE_TRAIN_RD_DELAY
def fEye (write : Bool) : FRef := if write then F.HBM_LANE_TRAIN_WR_EYE else F.HBM_LANE_TRAIN_RD_EYE
def fDrift (write : Bool) : FRef := if write then F.HBM_LANE_DRIFT_WR_DRIFT else F.HBM_LANE_DRIFT_RD_DRIFT

/-- Longest run of passing steps, the lower on a tie: its first step and length. `cur` is the run that ends before
step `i`. -/
def longestRun (p : BitVec 128) : Nat → Nat → Nat → Nat × Nat → Nat × Nat
  | 0, _, _, best => best
  | n + 1, i, cur, best =>
    if p.getLsbD i then
      longestRun p n (i + 1) (cur + 1) (if best.2 < cur + 1 then (i - cur, cur + 1) else best)
    else longestRun p n (i + 1) 0 best

def eyeOf (p : BitVec 128) : Nat × Nat := longestRun p 128 0 0 (0, 0)

/-- The RETRAIN_DUE bit of a controller (R574, R577). -/
def retrainDue (s : State) (c : Nat) : Bool := (fg s (pb 0x004) F.AGE_RETRAIN_DUE_DUE).testBit c

/-- MARGIN_LOW (R308), and what re-planning makes of it (R574). -/
def marginLow (s : State) (c : Nat) : State :=
  let s := raise s (mcPage c) evMARGIN_LOW
  raise (fs s (pb 0x004) F.AGE_RETRAIN_DUE_DUE (fg s (pb 0x004) F.AGE_RETRAIN_DUE_DUE ||| 2 ^ c)) 0x004 3

/-- RECENTRE_PROBE (R308). A count that DRIFT cannot hold is not stated: a free value. -/
def probeOp (s : State) (c q j : Nat) (write low high : Bool) : State :=
  let b := mcB c
  if ¬ s.fuse.hbm ∨ ¬ trained s c ∨ ¬ fgb s b F.HBM_MC_CTRL_RECENTRE_EN ∨ (s.md.mode ≠ .live ∧ s.md.mode ≠ .drain) then s
  else if low ∧ high then s
  else if ¬ low ∧ ¬ high then marginLow s c
  else
    let f := laneRef q j (fDrift write)
    let d := sext 8 (fg s b f) + (if high then 1 else -1)
    let v := if -128 ≤ d ∧ d ≤ 127 then (trunc 8 d, s) else free s
    let s := fs v.2 b f v.1
    let s := modM s c (fun m => { m with moves := m.moves ++ [((5 * q + j) * 2 + (if write then 1 else 0), high)] })
    if (fg s b F.HBM_TRAIN_CFG_DRIFT_LIMIT : Int) < d.natAbs then marginLow s c else s

/-- DELAY_CHANGE_APPLY (R309). A move beyond steps 0 to 127 is not stated: a free value. -/
def applyDelay (s : State) (c : Nat) : State :=
  match (getM s c).moves with
  | [] => s
  | (k, up) :: rest =>
    let f := laneRef (k / 2 / 5) (k / 2 % 5) (fDelay (k % 2 == 1))
    let v := fg s (mcB c) f
    let w := if up then (if v < 127 then (v + 1, s) else free s) else if 0 < v then (v - 1, s) else free s
    modM (fs w.2 (mcB c) f w.1) c (fun m => { m with moves := rest })

/-- After training, the regions are written to zero (R310). -/
def zeroRegions (s : State) (c : Nat) : State :=
  let preserved := fgb s (mcB c) F.HBM_MC_STATUS_PRESERVED
  let clear := fun (a : Nat) => ctlOf a == c && (regionOf a == 0 || regionOf a == 2 || regionOf a == 3 ||
    (regionOf a == 1 && !preserved))
  setHbm s { s.hbm with mem := tdropIf clear s.hbm.mem, poison := s.hbm.poison.filter (fun w => !clear (16 * w)) }

/-- HBM_TRAINING_COMPLETE: one lane sweep (R306, R307). What the eye fields show of an eye of all 128 steps is not
stated: a free value. -/
def trainOp (s : State) (c q j : Nat) (write : Bool) (passes : BitVec 128) : State :=
  let b := mcB c
  if ¬ s.fuse.hbm ∨ s.md.mode ≠ .calibrate ∨ srState s c ≠ srACTIVE then s
  else
    let k := (5 * q + j) * 2 + (if write then 1 else 0)
    let e := eyeOf passes
    let m := getM s c
    if e.2 < fg s b F.HBM_TRAIN_CFG_MIN_EYE then
      if m.failedOnce.contains k then raise s (mcPage c) evMC_TRAIN_FAIL
      else setM s c { m with failedOnce := m.failedOnce ++ [k] }
    else
      let s := fs s b (laneRef q j (fDelay write)) ((e.1 + (e.1 + e.2 - 1)) / 2)
      let w := if e.2 < 128 then (e.2, s) else free s
      let s := fs (fs w.2 b (laneRef q j (fEye write)) w.1) b (laneRef q j (fDrift write)) 0
      let swept := if m.swept.contains k then m.swept else m.swept ++ [k]
      let s := modM s c (fun m => { m with swept := swept, failedOnce := m.failedOnce.filter (· ≠ k) })
      if swept.length ≠ 40 then s
      else
        let s := if retrainDue s c then
            fs s (pb 0x004) F.AGE_RETRAIN_DUE_DUE (fg s (pb 0x004) F.AGE_RETRAIN_DUE_DUE - 2 ^ c) else s
        if trained s c then s else zeroRegions (fs s b F.HBM_MC_STATUS_TRAINED 1) c

/-! Self-refresh (R311-R314). -/

def srEnterOp (s : State) (c : Nat) : State :=
  if s.fuse.hbm ∧ trained s c = true ∧ srState s c = srACTIVE then setSr s c srENTERING else s

/-- The commit, once every queued request has been served. -/
def srCommitOp (s : State) (c : Nat) : State :=
  if srState s c = srENTERING ∧ (getM s c).reads = [] then
    let s := bump (setSr s c srSELF) (mcB c + R.HBM_SR_ENTRIES)
    modM s c (fun m => { m with rows := [], byExit := false })
  else s

/-- A write of SR_CTRL (R311, R313). -/
def srExitOp (s : State) (c : Nat) (v : Word) : State :=
  let s := fs s (mcB c) F.HBM_SR_CTRL_SR_IDLE (bitsOf v 16 16)
  let s := if v.getLsbD 0 then srEnterOp s c else s
  if ¬ v.getLsbD 1 then s
  else match srState s c with
  | 1 => setSr s c srACTIVE
  | 2 => modM (setSr s c srEXITING) c (fun m => { m with byExit := true })
  | 3 => modM s c (fun m => { m with byExit := true })
  | _ => s

/-- Serve what was held at the ports, in order. -/
def serveHeld (s : State) (c : Nat) : State :=
  let h := (getM s c).held
  h.foldl (fun s r => acceptReq s c r) (modM s c (fun m => { m with held := [] }))

def srExitDoneOp (s : State) (c : Nat) (probeOk : Bool) : State :=
  if srState s c ≠ srEXITING then s
  else
    let s := setSr s c srACTIVE
    let s := if (getM s c).byExit && !probeOk then marginLow s c else s
    if trained s c then serveHeld s c else s

/-- SR_IDLE_REENTER. -/
def srIdleOp (s : State) (c : Nat) : State :=
  let m := getM s c
  let idle := fg s (mcB c) F.HBM_SR_CTRL_SR_IDLE * 1200
  if s.fuse.hbm ∧ trained s c = true ∧ srState s c = srACTIVE ∧ s.md.mode = .dormant ∧
      fgb s (mcB c) F.HBM_MC_CTRL_AUTO_REENTER = true ∧ m.byExit = false ∧ m.reads = [] ∧ m.lastReq + idle ≤ cmdNow s then
    setSr s c srENTERING
  else s

/-- Residency directory entries in use (R289). -/
def dirCount (s : State) : Nat := s.fl.dir.length

end Sys2Proof.Machine
end

