-- ==== Sys2Proof/Machine/Seal.lean ====
section
/-! DEFINITION. The Tally's timers over pending frames, the audit export, and the seal (R409, R414, R427-R433). -/

namespace Sys2Proof.Machine

/-! WITHHOLD_EXPIRY and OUTCOME_MAX_EXPIRY (R409, R411, R414). -/

/-- The frame and its copies that are still in the device. -/
def liveParts (s : State) (id : Nat) : List Nat :=
  let own := if (getF s id).live && (getF s id).stage ≠ .done then [id] else []
  own ++ (copiesOf s id).filter (fun c => !(getF s c).isMirror)

/-- Drop a metered frame and its copies without a record. -/
def dropUnrecordedFrame (s : State) (id : Nat) : State :=
  let parts := liveParts s id
  let s := dropRecord s id
  parts.foldl (fun s c => dropFrame (modF s c (fun f => { f with tracked := false })) c rsnACTION) s

def withholdOp (s : State) (id : Nat) : State :=
  match pget s id with
  | none => s
  | some p =>
    if p.outcome.isSome then
      if p.places = 0 ∧ p.outPly + withholdMax s ≤ plyNat s then dropRecord s id else s
    else if p.withheldAt = 0 ∨ plyNat s < p.withheldAt - 1 + withholdMax s then s
    else match releaseGate s id true with
    | .hold => if p.places = 0 then dropUnrecordedFrame s id
               else (liveParts s id).foldl (fun s c => dropFrame s c rsnUNTRACEABLE) s
    | _ => s

def outcomeOp (s : State) (id : Nat) : State :=
  match pget s id with
  | none => s
  | some p =>
    if p.outcome.isSome ∨ plyNat s < p.ply + outcomeMax s then s
    else setOutcome (raise (bump s (pgEV + R.EV_UNRESOLVED_COUNT)) 0x014 evUNRESOLVED) id 5 0

/-! Export (R427, R428). -/

def audPort (s : State) : Nat := fg s pgAUD F.AUD_AUDIT_CTRL_PORT
def audOn (s : State) : Bool := fgb s pgAUD F.AUD_AUDIT_CTRL_EN

/-- Some place, epoch record or seal log entry waits for export. -/
def exportWaits (s : State) : Bool :=
  decide (s.ev.nextPlace < s.ev.tierNext) || decide (s.ev.nextBook < s.ev.bookHead) ||
  s.ev.exports.any (fun x => !x.queued)

/-- The next export frame: one to be sent again, else a new one (log entry 20 gives the order of the kinds). -/
def nextExport (s : State) : Option Export :=
  let old := s.ev.exports.filter (fun x => !x.queued && !x.sent)
  match old.foldl (fun (b : Option Export) x => match b with
    | none => some x
    | some y => if x.seq < y.seq then some x else b) none with
  | some x => some x
  | none =>
    let q := s.ev.exportSeq + 1
    let new := fun (kind first count : Nat) => some { seq := q, kind := kind, first := first, count := count, queued := false, sent := false }
    let placeEpoch := fun (i : Nat) => ((tget (fun _ => none) s.ev.tier i).map (fun p => p.epoch)).getD 0
    let bookReady : Bool := match tget (fun _ => none) s.ev.book s.ev.nextBook with
      | some b => decide (s.ev.tierNext ≤ s.ev.nextPlace) || decide (b.epoch < placeEpoch s.ev.nextPlace)
      | none => false
    if bookReady then new 2 s.ev.nextBook 1
    else if s.ev.nextPlace < s.ev.tierNext then new 1 s.ev.nextPlace (min 32 (s.ev.tierNext - s.ev.nextPlace))
    else if s.ev.nextLog < s.sl.logHead then new 3 s.ev.nextLog (min 32 (s.sl.logHead - s.ev.nextLog))
    else none

def exportPayload (s : State) (x : Export) : List Byte :=
  let idx := (List.range x.count).map (x.first + ·)
  match x.kind with
  | 1 => idx.flatMap (fun i => ((tget (fun _ => none) s.ev.tier i).map (fun p => p.bytes)).getD [])
  | 2 => ((tget (fun _ => none) s.ev.book x.first).map (fun b => b.record ++ b.roots)).getD []
  | _ => idx.flatMap (fun i => tget (fun _ => []) s.sl.log (i % 1024))

/-- A MAC address held low word first. -/
def macAt (s : State) (a : Nat) : List Byte := beBytes 6 (rd64 s a % 2 ^ 48)

abbrev pgPTP : Nat := pb 0x012

def exportBytes (s : State) (x : Export) : List Byte :=
  let body := macAt s (pgAUD + R.AUD_AUDIT_DA) ++ macAt s (pgPTP + 0x0C0) ++ beBytes 2 0x88B6 ++
    beBytes 1 0x41 ++ beBytes 1 x.kind ++ beBytes 2 x.count ++ beBytes 8 x.seq ++ beBytes 4 0 ++ exportPayload s x
  body ++ fcsBytes (crc32 body)

/-- Queue a frame that the device itself originates in class `c` of port `p` under account `a`. -/
def originate (s : State) (p c : Nat) (a : Account) (bs : List Byte) (seq : Nat) : State :=
  let n := cellsOf bs.length
  let r := addF s { bytes := bs, ended := true, fcsGood := true, out := p, outCls := c, acct := a, resv := n, passed := n,
                    sprayed := n, stage := .spraying, since := plyNat s, exportSeq := seq }
  enqueue (moveUse r.2 a n) r.1 false

/-- EXPORT_FRAME_QUEUE. -/
def exportOp (s : State) : State :=
  let p := audPort s
  let c := fg s pgAUD F.AUD_AUDIT_CTRL_CLASS
  if ¬ audOn s ∨ ¬ isUp s p ∨ 16 ≤ (framesWhere s (fun _ f => f.exportSeq ≠ 0)).length then s
  else match nextExport s with
  | none => s
  | some x =>
    let bs := exportBytes s x
    if (limitTest s (.queue p c) (cellsOf bs.length)).1 then s
    else
      let isNew := s.ev.exports.all (fun y => decide (y.seq ≠ x.seq))
      let x := { x with queued := true }
      let s := if isNew then
          { s with ev := { s.ev with
              exports := s.ev.exports ++ [x], exportSeq := x.seq,
              nextPlace := if x.kind = 1 then x.first + x.count else s.ev.nextPlace,
              nextBook := if x.kind = 2 then x.first + 1 else s.ev.nextBook,
              nextLog := if x.kind = 3 then x.first + x.count else s.ev.nextLog } }
        else { s with ev := { s.ev with exports := s.ev.exports.map (fun y => if y.seq = x.seq then x else y) } }
      originate s p c (.queue p c) bs (x.seq + 1)

/-- EXPORT_STALL (R439). -/
def exportStall (s : State) : State := setLevel s 0x017 0 (audOn s && exportWaits s && !isUp s (audPort s))

/-- ACK_SEQ, high word (R429). -/
def ackOp (s : State) (hi : Word) : State :=
  let a := pgAUD + R.AUD_ACK_SEQ
  let q := hi.toNat * 2 ^ 32 + (rawRd s a).toNat
  let s := rawWr s (a + 4) hi
  if fgb s pgEV F.EV_EVID_CTRL_ACK_MODE then freeUpTo s q else s

/-- REWIND_SEQ, high word (R429). -/
def rewindOp (s : State) (hi : Word) : Res × State :=
  let q := hi.toNat * 2 ^ 32 + s.ev.rewindStage.toNat
  if s.ev.exports.any (fun x => x.seq == q && x.sent) then
    (.ok, { s with ev := { s.ev with exports := s.ev.exports.map (fun x =>
      if q ≤ x.seq && x.sent then { x with sent := false, queued := false } else x) } })
  else (.error, raise s 0x017 1)

/-! The seal (R431-R433). -/

abbrev evPARAM_EVENT : Nat := 0
abbrev evPARAM_REFUSED : Nat := 1
abbrev evSEAL_CHANGE : Nat := 2
abbrev evSEAL_LOG_FULL : Nat := 3
abbrev evRECAL_LIMIT : Nat := 4

/-- The bits of a register word that hold sealed fields, R114's included. -/
def sealedMask (s : State) (a : Nat) : Nat :=
  let page := a / 0x1000
  let o := a % 0x1000
  let own := (fieldsAt (pageType page) o).foldl (fun m f => if f.acc = .rwS then m ||| (2 ^ f.width - 1) <<< f.lo else m) 0
  if ¬ pagePresent s page ∨ ¬ s.fuse.sealCap then 0
  else if 0x140 ≤ page ∧ page < 0x150 then
    let timed := fgb s (pb page) F.FRM_FRAMER_CTRL_TIME_PATH
    if o = R.FRM_FRAMER_CTRL then 2 ^ F.FRM_FRAMER_CTRL_TIME_PATH.lo
    else if timed ∧ R.FRM_EXP_SAPI ≤ o ∧ o < R.FRM_EXP_SAPI + 0x40 then 2 ^ 32 - 1
    else own
  else own

/-- The registers that hold a sealed field, in ascending address. -/
def sealedRegs (s : State) : List (Nat × Nat) :=
  ((List.range 8).map (0x010 + ·) ++ (List.range 16).map (0x140 + ·)).flatMap (fun p =>
    (List.range 1008).filterMap (fun k =>
      let a := pb p + 0x40 + 4 * k
      let m := sealedMask s a
      if m = 0 then none else some (a, m)))

/-- PARAM_DIGEST (R432) of the values of the registers. -/
def paramDigest (s : State) : List Byte :=
  sha256 ((sealedRegs s).flatMap (fun e => beBytes 4 e.1 ++ beBytes 4 ((rawRd s e.1).toNat &&& e.2)))

def logRoom (s : State) : Bool := decide (s.sl.logHead - s.sl.logFreed < 1024)

/-- Append to the seal log; HEAD follows (R433). -/
def sealLog (s : State) (addr agent old new kind : Nat) : State :=
  let b := beBytes 4 s.sl.eventCount ++ beBytes 8 (brandTT (ttNow s 0)) ++ beBytes 3 addr ++ beBytes 1 agent ++
    beBytes 4 old ++ beBytes 4 new ++ beBytes 1 kind ++ List.replicate 7 0
  let h := s.sl.logHead
  let s := { s with sl := { s.sl with log := tset (fun _ => []) s.sl.log (h % 1024) b, logHead := h + 1 } }
  fs s pgSEAL F.SEAL_LOG_INDEX_HEAD ((h + 1) % 1024)

def setEventCount (s : State) (n : Nat) : State :=
  let s := { s with sl := { s.sl with eventCount := n }, ev := { s.ev with paramEvent := true } }
  fs s pgSEAL F.SEAL_EVENT_COUNT_COUNT n

/-- A field whose change CAL_TOL bounds, read as a number (R432). -/
def tolField (a v : Nat) : Option Int :=
  let o := a % 0x1000
  if a / 0x1000 = 0x013 then
    if 0x400 ≤ o ∧ o < 0xC00 then some (v % 2 ^ 28 : Nat)
    else if 0xC00 ≤ o then some (sext 16 v)
    else if o = R.CAL_PPS_IN_DELAY then some (v % 2 ^ 28 : Nat)
    else none
  else if a / 0x1000 = 0x012 ∧ (o = 0x050 ∨ o = 0x090) then some (sext 32 v)
  else none

/-- The value of a register at sealing. -/
def atSealing (s : State) (a : Nat) : Nat :=
  match s.sl.atSeal.find? (fun e => e.1 == a) with
  | some e => e.2.toNat
  | none => (regReset a).toNat

/-- A change of a sealed field while SEALED (R432, R433): whether it is accepted, and the state after. `agent` is the
AGENT byte of the seal log. -/
def sealedWrite (s : State) (agent a : Nat) (old new : Word) : Bool × State :=
  let m := sealedMask s a
  if ¬ s.sl.isSealed ∨ old.toNat &&& m = new.toNat &&& m then (true, s)
  else if ¬ logRoom s then (false, raise (raise s 0x016 evPARAM_REFUSED) 0x016 evSEAL_LOG_FULL)
  else
    let within : Bool := match tolField a new.toNat, tolField a (atSealing s a) with
      | some x, some y => decide ((x - y).natAbs ≤ s.sl.calTol)
      | _, _ => false
    if within && s.sl.eventCount ≠ 0xFFFFFFFF then
      let s := setEventCount s (s.sl.eventCount + 1)
      (true, raise (sealLog s a agent old.toNat new.toNat 0) 0x016 evPARAM_EVENT)
    else (false, raise (sealLog s a agent old.toNat new.toNat 1) 0x016 evPARAM_REFUSED)

def drawNonce (s : State) : State :=
  let f := free s
  let n := f.1 % 2 ^ 128
  wrWords { f.2 with sl := { f.2.sl with nonce := n } } (pgSEAL + R.SEAL_NONCE) (packWords 4 (beBytes 16 n))

def sealResult (s : State) (r : Nat) : State :=
  let s := { s with sl := { s.sl with result := r, busy := false, waiting := none } }
  drawNonce (fs (fs s pgSEAL F.SEAL_SEAL_RESULT_RESULT r) pgSEAL F.SEAL_SEAL_RESULT_BUSY 0)

/-- SEAL_CMD.GO. -/
def sealGoOp (s : State) : Res × State :=
  if s.sl.busy then (.error, s)
  else (.ok, fs { s with sl := { s.sl with busy := true } } pgSEAL F.SEAL_SEAL_RESULT_BUSY 1)

/-- Checks 1 to 5 of R431: the first that fails. -/
def sealCheck (s : State) : Nat :=
  let req := regBytes s (pgSEAL + R.SEAL_SEAL_REQ) 16
  let sig := regBytes s (pgSEAL + R.SEAL_SEAL_SIG) 96
  let n := regBytes s (pgSEAL + R.SEAL_OFFICER_N) 96
  let officer := (s.fuse.items.find? (fun e => e.1 == 5)).map (fun e => e.2)
  let op := beAt req 1 1
  if officer ≠ some (sha256 n) then 1
  else if ¬ pssVerify n req sig then 2
  else if beAt req 4 16 ≠ s.sl.nonce then 3
  else if slice req 52 8 ≠ slice (sha256 (regBytes s (pgSGN + R.SGN_PUBKEY_N) 96)) 0 8 then 4
  else if beAt req 0 1 ≠ 0x51 ∨ (op ≠ 1 ∧ op ≠ 2) ∨ beAt req 60 4 ≠ 0 ∨ (op = 1 ∧ s.sl.isSealed = true) ∨
      (op = 2 ∧ s.sl.isSealed = false) then 5
  else 0

/-- SEAL_VERIFY_COMPLETE: the first failure is reported; a request that passes waits for the edge. -/
def sealVerifyOp (s : State) : State :=
  if ¬ s.sl.busy ∨ s.sl.waiting.isSome then s
  else
    let r := sealCheck s
    if r ≠ 0 then sealResult s r
    else
      let req := regBytes s (pgSEAL + R.SEAL_SEAL_REQ) 16
      { s with sl := { s.sl with waiting := some (beAt req 1 1, beAt req 2 2, slice req 20 32) } }

/-- The edge at which a verified request takes hold (R431-R433). -/
def sealEdge (s : State) : State :=
  match s.sl.waiting with
  | none => s
  | some (op, tol, digest) =>
    if paramDigest s ≠ digest then sealResult s 6
    else if s.sl.eventCount = 0xFFFFFFFF then sealResult s 7
    else if ¬ logRoom s then sealResult (raise s 0x016 evSEAL_LOG_FULL) 7
    else
      let s := setEventCount s (s.sl.eventCount + 1)
      let s := if op = 1 then
          let s := { s with sl := { s.sl with
              isSealed := true, calTol := tol,
              atSeal := (sealedRegs s).map (fun e => (e.1, rawRd s e.1)) } }
          wrWords (fs s pgSEAL F.SEAL_CAL_TOL_TOL tol) (pgSEAL + R.SEAL_SEALED_DIGEST) (packWords 8 digest)
        else { s with sl := { s.sl with isSealed := false } }
      let s := fs s pgSEAL F.SEAL_SEAL_STATE_SEALED (if op = 1 then 1 else 0)
      let a := free s
      let b := free a.2
      let c := free b.2
      let s := sealLog c.2 (a.1 % 2 ^ 24) 3 (b.1 % 2 ^ 32) (c.1 % 2 ^ 32) (op + 1)
      sealResult (raise s 0x016 evSEAL_CHANGE) 0

/-- RNG_HEALTH_FAIL (R424). -/
def rngFail (s : State) : State := raise (fs s pgSGN F.SGN_SIGN_STATUS_RNG_OK 0) 0x015 2

end Sys2Proof.Machine
end

