-- ==== Sys2Proof/Machine/Faults.lean ====
section
/-! DEFINITION. Fault collection (chapter 15): acknowledgement, injection, classes, the fault log, summaries and the
STATUS byte of Skyline (R488). -/

namespace Sys2Proof.Machine

abbrev pgFA : Nat := pb 0x006

def heldClass (s : State) (page b : Nat) : Nat := tget (fun _ => 0) s.flt.held (evKey page b)
def eventCount (page : Nat) : Nat := (evClasses (pageType page)).length

/-! Acknowledgement (R504-R506). -/

/-- Clear an event bit with what hangs on it. -/
def dropEvent (s : State) (page b : Nat) : State :=
  let k := evKey page b
  let s := setBit s (pb page + oEVT_STATUS) b false
  let s := setBit s (pb page + oEVT_INJECTED) b false
  let s := setBit s (pb page + oEVT_TRANSIENT) b false
  let keep := fun (o : FatalOcc) => !(o.source == sourceOf page && o.event == b)
  { s with flt := { s.flt with
    held := tset (fun _ => 0) s.flt.held k 0
    unread := tset (fun _ => false) s.flt.unread k false
    occ := s.flt.occ.filter keep
    refAlarm := if page = 0x011 && s.flt.refAlarm.testBit b then s.flt.refAlarm - 2 ^ b else s.flt.refAlarm } }

/-- W1C of one event bit; a level event whose condition holds keeps its bit and its held class. -/
def ackEvent (s : State) (page b : Nat) : State :=
  if !evStatus s page b then s
  else if (rawRd s (pb page + oEVT_CAUSE)).getLsbD b then s
  else dropEvent s page b

/-- EVT_STATUS_CLEAR: acknowledgements first, then the occurrences of the same cycle (R505). -/
def evtClear (s : State) (page : Nat) (v same : Word) : State :=
  let n := eventCount page
  let s := upTo n (fun s b => if v.getLsbD b then ackEvent s page b else s) s
  upTo n (fun s b => if same.getLsbD b then raise s page b else s) s

/-! Injection and classes (R501, R508). -/

def tallyPage (page : Nat) : Bool := 0x010 ≤ page && page ≤ 0x017

/-- EVT_INJECT; a refused write replies DENIED. -/
def injectOp (s : State) (a : Agent) (page : Nat) (v : Word) : Res × State :=
  let may := match a with
    | .sky l => decide (2 ≤ l.val)
    | .core _ => fgb s pgFA F.FA_FA_CTRL_CORE_INJECT
  if !may || (tallyPage page && s.sl.isSealed) then (.denied, s)
  else (.ok, upTo (eventCount page) (fun s b => if v.getLsbD b then occurrence s page b true 0 else s) s)

/-- The word that a write of EVT_CLASS or EVT_CLASS_HI leaves: fields of a FATAL default and of no event keep their
reset value. -/
def classWord (page : Nat) (hi : Bool) (v : Word) : Word :=
  let cls := (if hi then (evClasses (pageType page)).drop 16 else (evClasses (pageType page)).take 16)
  let pick := fun (w : Word) (k : Nat) => setBits w (2 * k) 2
    (if cls.getD k 3 = clsFATAL then (if k < cls.length then 3 else 0) else bitsOf v (2 * k) 2)
  (List.range 16).foldl pick 0

/-- EVT_CLASS_WRITE. -/
def classOp (s : State) (page : Nat) (hi : Bool) (v : Word) : Res × State :=
  if tallyPage page && s.sl.isSealed then (.denied, s)
  else (.ok, rawWr s (pb page + (if hi then oEVT_CLASS_HI else oEVT_CLASS)) (classWord page hi v))

/-! The fault log (R512-R514). -/

def logLost (s : State) : State := raise (bump s (pgFA + R.FA_LOG_LOST)) 0x006 8

def putLog (s : State) (k : Nat) (e : LogEnt) : State :=
  { s with flt := { s.flt with slots := tset (fun _ => none) s.flt.slots k (some e) } }

/-- LOG_CLEAR. -/
def logClearOp (s : State) : State :=
  let s := { s with flt := { s.flt with slots := [], general := 0, fatalUsed := 0, frozen := false } }
  setLevel s 0x006 7 false

/-- LOG_ENTRY_WRITE: the oldest entry of the input queue enters a slot. -/
def logWriteOp (s : State) : State :=
  match s.flt.queue with
  | [] => s
  | e :: rest =>
    let s := { s with flt := { s.flt with queue := rest } }
    if !s.flt.frozen then
      let s := putLog s s.flt.general e
      let s := { s with flt := { s.flt with general := s.flt.general + 1 } }
      if s.flt.general = 248 then setLevel { s with flt := { s.flt with frozen := true } } 0x006 7 true else s
    else if e.eff = clsFATAL && s.flt.fatalUsed < 8 then
      let s := putLog s (248 + s.flt.fatalUsed) { e with reserved := true }
      { s with flt := { s.flt with fatalUsed := s.flt.fatalUsed + 1 } }
    else logLost s

/-- A log entry's 32 bytes (R515). -/
def logBytes (e : LogEnt) : List Byte :=
  let flags := e.cls + 4 * e.eff + (if e.esc then 16 else 0) + (if e.inj then 32 else 0) + (if e.reserved then 64 else 0)
  beBytes 8 e.ply.toNat ++ beBytes 2 e.source ++ beBytes 1 e.event ++ beBytes 1 flags ++ beBytes 4 e.seq.toNat ++
    beBytes 16 e.detail.toNat

/-- Bytes of slot `k` of the log; an empty slot reads 0. -/
def logSlot (s : State) (k : Nat) : List Byte :=
  match tget (fun _ => none) s.flt.slots k with
  | some e => logBytes e
  | none => List.replicate 32 0

/-! Summaries (R504, R507, R518). -/

def anyHeld (s : State) (cls : Nat) : Bool := s.flt.held.any (fun e => e.2 == cls)
def fatalHeld (s : State) : Bool := anyHeld s clsFATAL

/-- Pages with some EVT_STATUS bit set. -/
def statusPages (s : State) : List Nat :=
  (s.regs.filter (fun e => e.1 % 0x1000 == oEVT_STATUS)).map (fun e => e.1 / 0x1000)

/-- Event bits of a page that satisfy `p`, as a Bool: some pending event does. -/
def pendingAny (s : State) (page : Nat) (p : Nat → Bool) : Bool :=
  (List.range 32).any (fun b => evStatus s page b && evEnabled s page b && p b)

/-- Word `k` of SUM_FATAL, SUM_UCC or SUM_CE: sources whose events hold the class. -/
def sumHeld (s : State) (cls k : Nat) : Nat :=
  s.flt.held.foldl (fun w e =>
    let src := sourceOf (e.1 / 32)
    if e.2 == cls && src / 32 == k then w ||| 2 ^ (src % 32) else w) 0

/-- Word `k` of SUM_INFO: sources with a pending INFO event. -/
def sumInfo (s : State) (k : Nat) : Nat :=
  (statusPages s).foldl (fun w page =>
    let src := sourceOf page
    if src / 32 == k && pendingAny s page (fun b => heldClass s page b == clsINFO) then w ||| 2 ^ (src % 32) else w) 0

/-- Metrology alarms (R157, R158, R436-R439). -/
def isAlarm (s : State) (page b : Nat) : Bool :=
  match page with
  | 0x010 => 1 ≤ b && b ≤ 5
  | 0x011 => s.flt.refAlarm.testBit b
  | 0x014 => b ≤ 2
  | 0x015 => b == 0
  | 0x016 => b ≤ 4
  | 0x017 => b == 0
  | _ => false

/-- Bits [5:0] of the STATUS byte (R488), before STATUS_MASK. -/
def statusBits (s : State) : Nat :=
  let pages := statusPages s
  let anyP := fun (p : Nat → Nat → Bool) => pages.any (fun page => pendingAny s page (p page))
  let arb := fun (page : Nat) => decide (0x3C0 ≤ page) && decide (page ≤ 0x3DF)
  (if anyHeld s clsFATAL || anyHeld s clsUCC then 32 else 0) +
  (if anyP (fun page b => heldClass s page b == clsCE) then 16 else 0) +
  (if anyP (fun page b => isAlarm s page b) then 8 else 0) +
  (if pages.any (fun page => arb page && pendingAny s page (fun _ => true)) then 4 else 0) +
  (if pendingAny s 0x3E0 (fun _ => true) then 2 else 0) +
  (if anyP (fun page b => heldClass s page b == clsINFO && !isAlarm s page b && !arb page && page != 0x3E0) then 1 else 0)

/-- The STATUS byte with a result in [7:6]; bits [5:1] masked by STATUS_MASK. -/
def statusByte (s : State) (result : Nat) : Nat :=
  let mask := (rawRd s (pb 0x008 + R.SKY_STATUS_MASK)).toNat % 64 / 2 * 2
  result * 64 + (statusBits s &&& (63 - mask))

end Sys2Proof.Machine
end

