-- ==== Sys2Proof/Machine/CoreMem.lean ====
section
/-! DEFINITION. The memory a control core sees (R443): its regions, reads and writes of bytes, reservations of
LR (R441), marked SRAM words (R445). -/

namespace Sys2Proof.Machine

/-- The rows of the table of R443. -/
inductive CoreRegion where
  | rom | loc | sram | regs | ctrl | none
deriving DecidableEq, Repr

/-- The region that holds all of bytes [a, a+n). Control-core memory is absent in D variants (R470). -/
def coreRegion (s : State) (a n : Nat) : CoreRegion :=
  let within := fun (b size : Nat) => decide (b ≤ a) && decide (a + n ≤ b + size)
  if within 0 0x10000 then .rom
  else if within 0x10000000 0x40000 then .loc
  else if within 0x20000000 0x2000000 then .sram
  else if within 0x40000000 0x1000000 then .regs
  else if within 0x100000000 0x200000000 && s.fuse.hbm then .ctrl
  else .none

/-- Flow memory address of a control-core memory address. -/
def ctrlAddr (a : Nat) : Nat := a - 0x100000000 + 0x500000000

def bytesOf (m : List Host.Cell) (a n : Nat) : List Byte := (List.range n).map (fun k => tget (fun _ => 0) m (a + k))

/-- Bytes [a, a+n) as core `c` reads them; a byte that nothing has written reads 0 (log entry 15). -/
def coreRd (s : State) (c a n : Nat) : List Byte :=
  match coreRegion s a n with
  | .rom => (List.range n).map (fun k => Config.bootRom (a + k))
  | .loc => bytesOf s.cores.loc (c * 0x40000 + (a - 0x10000000)) n
  | .sram => bytesOf s.cores.sram (a - 0x20000000) n
  | .ctrl => mrd s (ctrlAddr a) n
  | _ => List.replicate n 0

/-- Place of SRAM byte `a` for core `c`: the number of its 128-bit word in `CoresSt.marked`, and the byte in it. -/
def sramByte (s : State) (c a : Nat) : Option (Nat × Nat) :=
  match coreRegion s a 1 with
  | .loc => some (c * 0x4000 + (a - 0x10000000) / 16, a % 16)
  | .sram => some (0x40000 + (a - 0x20000000) / 16, a % 16)
  | _ => none

def isMarked (s : State) (c a : Nat) : Bool :=
  match sramByte s c a with
  | some w => decide (tget (fun _ => 0) s.cores.marked w.1 ≠ 0)
  | none => false

/-- Mark the SRAM word of byte `a`. -/
def markWord (s : State) (c a : Nat) : State :=
  match sramByte s c a with
  | some w => { s with cores := { s.cores with marked := tset (fun _ => 0) s.cores.marked w.1 0xFFFF } }
  | none => s

/-- A write covers byte `a`: once every byte of a marked word is written, the mark is gone. -/
def coverByte (s : State) (c a : Nat) : State :=
  match sramByte s c a with
  | some w =>
    let m := tget (fun _ => 0) s.cores.marked w.1
    if m.testBit w.2 then
      { s with cores := { s.cores with marked := tset (fun _ => 0) s.cores.marked w.1 (m - 2 ^ w.2) } }
    else s
  | none => s

/-- A read of these bytes meets an uncorrectable word: a marked SRAM word (R445) or a poisoned granule (R303). -/
def coreBad (s : State) (c a n : Nat) : Bool :=
  (List.range n).any (fun k => isMarked s c (a + k)) || (coreRegion s a n == .ctrl && poisoned s (ctrlAddr a) n)

def getH (s : State) (c : Nat) : Hart := tget (fun _ => {}) s.cores.harts c
def setH (s : State) (c : Nat) (h : Hart) : State :=
  { s with cores := { s.cores with harts := tset (fun _ => {}) s.cores.harts c h } }
def modH (s : State) (c : Nat) (f : Hart → Hart) : State := setH s c (f (getH s c))

/-- A write to bytes [a, a+n) of shared memory breaks the reservations it overlaps, but for core `c`'s own. -/
def breakResv (s : State) (c a n : Nat) : State :=
  (List.range 16).foldl (fun s k =>
    if k = c then s
    else match (getH s k).resv with
    | some (b, m) => if a < b + m && b < a + n then modH s k (fun h => { h with resv := none }) else s
    | none => s) s

/-- Write bytes at a core's address. -/
def coreWr (s : State) (c a : Nat) (bs : List Byte) : State :=
  let n := bs.length
  let s := if s.cores.marked.isEmpty then s else (List.range n).foldl (fun s k => coverByte s c (a + k)) s
  match coreRegion s a n with
  | .loc => { s with cores := { s.cores with loc := mput s.cores.loc (c * 0x40000 + (a - 0x10000000)) bs } }
  | .sram =>
    let s := breakResv s c a n
    { s with cores := { s.cores with sram := mput s.cores.sram (a - 0x20000000) bs } }
  | .ctrl => mwr (wakeFor (breakResv s c a n) (ctrlAddr a)) (ctrlAddr a) bs
  | _ => s

end Sys2Proof.Machine
end

