-- ==== Sys2Proof/Machine/Threads.lean ====
section
/-! DEFINITION. The task dispatcher and the exception rings (R449-R470). -/

namespace Sys2Proof.Machine

abbrev pgDSP : Nat := pb 0x3E0
abbrev pgTD : Nat := pb 0x3E1
abbrev rngB (q : Nat) : Nat := pb 0x3E2 + 0x100 + 32 * q

/-- The kernel tick count (R447). -/
def tickNow (s : State) : Nat := plyNat s / 25

def getT (s : State) (t : Nat) : Thread := tget (fun _ => {}) s.dsp.threads t
def setT (s : State) (t : Nat) (x : Thread) : State :=
  { s with dsp := { s.dsp with threads := tset (fun _ => {}) s.dsp.threads t x } }
def modT (s : State) (t : Nat) (f : Thread → Thread) : State := setT s t (f (getT s t))

def queueAt (s : State) (k : Nat) : List Nat := tget (fun _ => []) s.dsp.queues k
def setQueue (s : State) (k : Nat) (q : List Nat) : State :=
  { s with dsp := { s.dsp with queues := tset (fun _ => []) s.dsp.queues k q } }
def slotAt (s : State) (c : Nat) : Option Nat := tget (fun _ => none) s.dsp.slot c
def setSlot (s : State) (c : Nat) (t : Option Nat) : State :=
  { s with dsp := { s.dsp with slot := tset (fun _ => none) s.dsp.slot c t } }
def runAt (s : State) (c : Nat) : Option Nat := tget (fun _ => none) s.dsp.run c
def setRun (s : State) (c : Nat) (t : Option Nat) : State :=
  { s with dsp := { s.dsp with run := tset (fun _ => none) s.dsp.run c t } }

def dspEn (s : State) : Bool := fgb s pgDSP F.DSP_DSP_CTRL_EN
def coreOn (s : State) (c : Nat) : Bool := s.cores.on.contains c

/-- Results of R454. -/
abbrev tdOK : Nat := 0
abbrev tdCOALESCED : Nat := 1
abbrev tdLAPSED : Nat := 2
abbrev tdBAD : Nat := 3
abbrev tdNOTRUN : Nat := 4

/-- A thread enters the queue of its priority, at its head or tail (R459: PEAK and DEPTH_LIMIT). -/
def enqueueTh (s : State) (t : Nat) (head : Bool) : State :=
  let k := (getT s t).prio
  let q := if head then t :: queueAt s k else queueAt s k ++ [t]
  let s := setQueue (modT s t (fun x => { x with st := .ready })) k q
  let s := peak s pgDSP (F.DSP_PRIO_DEPTH_PEAK.fwd (4 * k)) (min 2047 q.length)
  if fg s pgDSP F.DSP_DSP_CTRL_DEPTH_LIMIT < q.length then raise s 0x3E0 1 else s

/-- Take a READY or SLOTTED thread out of its queue or slot. -/
def unqueueTh (s : State) (t : Nat) : State :=
  let x := getT s t
  match x.st with
  | .ready => setQueue s x.prio ((queueAt s x.prio).filter (· ≠ t))
  | .slotted => setSlot s x.core none
  | _ => s

/-- A ready takes effect: the thread enters its queue's tail and its wait begins (R451, R459). -/
def makeReady (s : State) (t : Nat) : State :=
  let s := modT s t (fun x => { x with readyAt := cycleNow s, readied := cycleNow s + 1 })
  bump (enqueueTh s t false) (pgDSP + R.DSP_READIES)

/-- READY (R451, R455). -/
def readyTh (s : State) (t : Nat) : Nat × State :=
  if 1024 ≤ t then (tdBAD, s)
  else
    let x := getT s t
    let coalesce := (tdCOALESCED, bump s (pgDSP + R.DSP_COALESCED))
    match x.st with
    | .disabled => (tdBAD, s)
    | .ready | .slotted => coalesce
    | .running =>
      if x.rearm && x.readied == cycleNow s + 1 then coalesce
      else (tdOK, bump (setT s t { x with rearm := true, readied := cycleNow s + 1 }) (pgDSP + R.DSP_READIES))
    | .idle | .delayed => (tdOK, makeReady s t)

/-- CANCEL (R451). -/
def cancelTh (s : State) (t : Nat) : Nat × State :=
  if 1024 ≤ t then (tdBAD, s)
  else
    let x := getT s t
    match x.st with
    | .disabled => (tdBAD, s)
    | .idle => (tdOK, s)
    | .running => (tdOK, setT s t { x with rearm := false, delay := none })
    | .ready | .slotted | .delayed => (tdOK, modT (unqueueTh s t) t (fun x => { x with st := .idle }))

/-- The thread goes on the delay list for `d` ticks; 0 acts as 1 (R456). -/
def putDelayed (s : State) (t d : Nat) : State :=
  modT s t (fun x => { x with st := .delayed, due := (tickNow s + max 1 d) % 2 ^ 64 })

/-- DELAY (R451). -/
def delayTh (s : State) (t d : Nat) : Nat × State :=
  if 1024 ≤ t then (tdBAD, s)
  else
    match (getT s t).st with
    | .disabled => (tdBAD, s)
    | .running => (tdOK, modT s t (fun x => { x with delay := some d }))
    | .idle | .ready | .slotted | .delayed => (tdOK, putDelayed (unqueueTh s t) t d)

/-- An operation that lost to another of its cycle (R455). -/
def lapseTh (s : State) : Nat × State := (tdLAPSED, bump s (pgDSP + R.DSP_LAPSED))

/-- TD_NEXT (R453, R459, R466). -/
def nextTh (s : State) (c : Nat) : Nat × State :=
  match slotAt s c with
  | none => (0, s)
  | some t =>
    if !dspEn s then (0, s)
    else
      let s := match runAt s c with
        | some u => bump (enqueueTh (modT s u (fun x => { x with readyAt := cycleNow s })) u true) (pgDSP + R.DSP_PREEMPTS)
        | none => s
      let x := getT s t
      let wait := cycleNow s - x.readyAt
      let s := setT (setRun (setSlot s c none) c (some t)) t
        { x with st := .running, core := c, waitLast := min wait 0xFFFFFFFF }
      let s := { s with dsp := { s.dsp with took := s.dsp.took.filter (· ≠ c) ++ [c] } }
      let s := bumpN s (pgDSP + R.DSP_WAIT_SUM + 16 * x.prio) wait
      let s := bump s (pgDSP + R.DSP_TAKES + 8 * x.prio)
      let s := peak s pgDSP (F.DSP_WAIT_MAX_CYCLES.fwd (16 * x.prio)) (min wait 0xFFFFFFFF)
      let s := if fg s pgDSP F.DSP_WAIT_LIMIT_CYCLES < wait then raise s 0x3E0 0 else s
      (0x8000 + x.prio * 1024 + t, s)

/-- TD_DONE (R451, R452). -/
def doneTh (s : State) (c d : Nat) : Nat × State :=
  match runAt s c with
  | none => (tdNOTRUN, s)
  | some t =>
    let x := getT s t
    let s := setRun (setT s t { x with rearm := false, delay := none }) c none
    if !x.enable then (tdOK, modT s t (fun x => { x with st := .disabled }))
    else if x.rearm then
      (tdOK, enqueueTh (modT s t (fun x => { x with readyAt := cycleNow s })) t false)
    else if d ≠ 0 then (tdOK, putDelayed s t d)
    else match x.delay with
    | some p => (tdOK, putDelayed s t p)
    | none => (tdOK, modT s t (fun x => { x with st := .idle }))

/-- A TD_CFG value written to the descriptor that TD_INDEX shows (R451, R458). -/
def cfgTh (s : State) (v : Word) : State :=
  let t := fg s pgTD F.TD_TD_INDEX_THREAD
  let x := getT s t
  let prio := bitsOf v 0 5
  let en := v.getLsbD 5
  let aff := bitsOf v 16 16
  let moved := prio ≠ x.prio ∨ aff ≠ x.affinity
  let put := fun (s : State) (f : Thread → Thread) =>
    modT s t (fun x => f { x with prio := prio, affinity := aff, enable := en })
  match x.st with
  | .disabled => put s (fun x => { x with st := if en then .idle else .disabled })
  | .idle | .delayed => put s (fun x => { x with st := if en then x.st else .disabled })
  | .running => put s (fun x => { x with rearm := x.rearm && en })
  | .ready | .slotted =>
    if !en then put (unqueueTh s t) (fun x => { x with st := .disabled })
    else if moved then enqueueTh (put (unqueueTh s t) id) t false
    else put s id

/-! Slot fill (R457). -/

def affine (s : State) (t c : Nat) : Bool :=
  let a := (getT s t).affinity
  a == 0 || a.testBit c

/-- The eligible thread of a core: of the highest priority, first in its queue. -/
def bestFor (s : State) (c : Nat) : Option Nat :=
  ((List.range 32).reverse.flatMap (queueAt s)).find? (fun t => affine s t c)

/-- Order of preference among cores with empty slots: no running thread, then the lowest running priority, then the
lowest number. -/
def coreRank (s : State) (c : Nat) : Nat :=
  (match runAt s c with
   | none => 0
   | some u => 1 + (getT s u).prio) * 16 + c

def fillOp (s : State) (c : Nat) : State :=
  if !dspEn s || !coreOn s c then s
  else match bestFor s c with
  | none => s
  | some t =>
    let empty := (List.range 16).filter (fun k => coreOn s k && affine s t k && slotAt s k == none && bestFor s k == some t)
    let emptyAny := (List.range 16).any (fun k => coreOn s k && affine s t k && slotAt s k == none)
    let fill := fun (s : State) =>
      let x := getT s t
      let s := setQueue s x.prio ((queueAt s x.prio).filter (· ≠ t))
      perf (setSlot (setT s t { x with st := .slotted, core := c }) c (some t)) 0x3E0 0x71 1
    match slotAt s c with
    | none => if empty.all (fun k => decide (coreRank s c ≤ coreRank s k)) then fill s else s
    | some u =>
      if (getT s u).prio < (getT s t).prio && !emptyAny then fill (enqueueTh (setSlot s c none) u true) else s

/-- WORK is pending on a core (R448, R466). -/
def workPending (s : State) (c : Nat) : Bool :=
  dspEn s && (match slotAt s c, runAt s c with
    | none, _ => false
    | some _, none => true
    | some t, some u => decide ((getT s u).prio < (getT s t).prio))

/-! Ticks and delays (R448, R456). -/

/-- KERNEL_TICK: once for each edge that was one. -/
def kernelTickOp (s : State) : State :=
  if !s.tm.kernelTick then s
  else
    let s := { s with tm := { s.tm with kernelTick := false } }
    let s := upTo 16 (fun s c => modH s c (fun h => { h with tick := true })) s
    { s with dsp := { s.dsp with expiry := s.dsp.expiry || dspEn s } }

/-- Insert in order of due tick, then thread number. -/
def insertDue (x : Nat × Thread) : List (Nat × Thread) → List (Nat × Thread)
  | [] => [x]
  | y :: ys => if x.2.due < y.2.due then x :: y :: ys else y :: insertDue x ys

/-- DELAY_EXPIRY. -/
def expiryOp (s : State) : State :=
  if !s.dsp.expiry then s
  else
    let due := s.dsp.threads.filter (fun e => e.2.st == .delayed && decide (e.2.due ≤ tickNow s))
    let order := (due.foldl (fun l e => insertDue e l) []).map (·.1)
    order.foldl makeReady { s with dsp := { s.dsp with expiry := false } }

/-! Exception rings (R461-R463). -/

/-- The 32-byte header of R461. -/
def excHeader (d : Delivery) (frameLen captured : Nat) : List Byte :=
  let flags := (if captured < frameLen then 1 else 0) + (if d.isNotify then 2 else 0) + (if d.fcsGood then 4 else 0) +
    (if d.metered then 8 else 0)
  [0x71] ++ beBytes 1 d.primary ++ beBytes 1 d.secondary ++ beBytes 1 flags ++ beBytes 2 d.port ++ beBytes 1 d.pipe ++
  beBytes 1 d.gen ++ beBytes 8 d.tt ++ beBytes 4 d.flowIdx ++ beBytes 2 frameLen ++ beBytes 2 captured ++
  beBytes 2 d.pc ++ beBytes 2 d.actionIdx ++ beBytes 1 d.excCode ++ beBytes 1 d.tq ++ [0, 0]

/-- Header and captured bytes, at most `room` of them. -/
def excEntry (d : Delivery) (room : Nat) : List Byte :=
  let frameLen := if d.isNotify then 0 else d.bytes.length
  let captured := min d.bytes.length room
  excHeader d frameLen captured ++ d.bytes.take captured

def ringField (s : State) (q : Nat) (f : FRef) : Nat := fg s (rngB q) f
def ringOrder (s : State) (q : Nat) : Nat := min 14 (ringField s q F.RNG_RING_CFG_ORDER)
def ringBuf (s : State) (q : Nat) : Nat := min 6 (ringField s q F.RNG_RING_CFG_BUF)
def ringBase (s : State) (q : Nat) : Nat := rd64 s (rngB q) % 2 ^ 40

def ringFull (s : State) (q : Nat) : Bool :=
  let prod := ringField s q F.RNG_PROD_PROD
  let cons := ringField s q F.RNG_CONS_CONS
  (prod + 2 ^ 32 - cons) % 2 ^ 32 == 2 ^ ringOrder s q

/-- A ring may take deliveries: enabled, its base in shared SRAM or control-core memory (R463). -/
def ringOpen (s : State) (q : Nat) : Bool :=
  ringField s q F.RNG_RING_CFG_EN == 1 &&
    (match coreRegion s (ringBase s q) 1 with
     | .sram | .ctrl => true
     | _ => false)

/-- EXCEPTION_DELIVERY: the oldest delivery of a pipeline. -/
def deliveryOp (s : State) (p : Nat) : State :=
  match deliveries s.cls.toCores p with
  | [] => s
  | d :: rest =>
    let s := setCls s { s.cls with toCores := tset (fun _ => []) s.cls.toCores p rest }
    let q := d.queue
    if !ringOpen s q || ringFull s q then raise (bump s (rngB q + R.RNG_RING_DROP)) 0x3E2 0
    else
      let size := 2 ^ (8 + ringBuf s q)
      let prod := ringField s q F.RNG_PROD_PROD
      let s := coreWr s 16 (ringBase s q + prod % 2 ^ ringOrder s q * size) (excEntry d (size - 32))
      let s := fs s (rngB q) F.RNG_PROD_PROD (prod + 1)
      let s := bump s (pb 0x3E2 + R.RNG_DELIVERED + 8 * q)
      (readyTh s (ringField s q F.RNG_RING_CFG_THREAD)).2

/-- HOST_EXCEPTION_FRAME: the oldest delivery of a pipeline that is bound for the host (R492). -/
def hostExcOp (s : State) (p : Nat) : State :=
  match deliveries s.cls.toHost p with
  | [] => s
  | d :: rest =>
    if !forwards s then s
    else
      let s := setCls s { s.cls with toHost := tset (fun _ => []) s.cls.toHost p rest }
      let snap := min 160 (max 1 (fg s pgHP F.HP_HP_SNAP_SNAP))
      let room := if d.isNotify then d.bytes.length else snap * 64
      let body := macAt s (pgHP + R.HP_HP_DA) ++ macAt s (pgHP + R.HP_HP_SA) ++ beBytes 2 0x88B6 ++ excEntry d room
      let bs := body ++ fcsBytes (crc32 body)
      let r := limitTest s .host (cellsOf bs.length)
      if r.1 then r.2
      else originate (bump s (pgHP + R.HP_EXC_SENT)) 256 (fg s pgHP F.HP_HP_CTRL_EXC_CLASS) .host bs 0

/-! Leaving modes (R464, R465). -/

/-- Threads of cores 1-15 return to the head of their queues (R464). -/
def returnThreads (s : State) : State :=
  let back := fun (s : State) (t : Nat) => enqueueTh (modT s t (fun x => { x with readyAt := cycleNow s })) t true
  (List.range 16).foldl (fun s c =>
    if c = 0 then s
    else
      let s := match runAt s c with
        | some t => back (setRun s c none) t
        | none => s
      match slotAt s c with
      | some t => enqueueTh (setSlot s c none) t true
      | none => s) s

/-- The status registers that follow the snapshot of an edge (R459, R467), and BUSY_PLY. -/
def dspEdge (s : State) : State :=
  let s := upTo 32 (fun s k => fs s pgDSP (F.DSP_PRIO_DEPTH_DEPTH.fwd (4 * k)) (min 2047 (queueAt s k).length)) s
  let s := upTo 16 (fun s c =>
    let b := pgDSP + 16 * c
    let s := if (runAt s c).isSome || s.dsp.took.contains c then bump s (b + R.DSP_BUSY_PLY) else s
    let s := match runAt s c with
      | some t => fs (fs (fs s b F.DSP_CORE_STATE_THREAD t) b F.DSP_CORE_STATE_PRIO (getT s t).prio)
          b F.DSP_CORE_STATE_RUNNING 1
      | none => fs (fs (fs s b F.DSP_CORE_STATE_THREAD 0) b F.DSP_CORE_STATE_PRIO 0) b F.DSP_CORE_STATE_RUNNING 0
    let s := match slotAt s c with
      | some t => fs (fs s b F.DSP_CORE_STATE_SLOT t) b F.DSP_CORE_STATE_SLOT_VALID 1
      | none => fs (fs s b F.DSP_CORE_STATE_SLOT 0) b F.DSP_CORE_STATE_SLOT_VALID 0
    fs s b F.DSP_CORE_STATE_HALTED (if coreOn s c then 0 else 1)) s
  { s with dsp := { s.dsp with took := [] } }

/-- Start a stopped core at an address in machine mode (R442). -/
def startCore (s : State) (c : Nat) (pc : DWord) : State :=
  let h := getH s c
  let s := setH s c { h with pc := pc, machine := true, mie := false, mprv := false, resv := none, waiting := false }
  { s with cores := { s.cores with on := s.cores.on.filter (· ≠ c) ++ [c] } }

def stopCore (s : State) (c : Nat) : State := { s with cores := { s.cores with on := s.cores.on.filter (· ≠ c) } }

/-- Modes in which cores 1-15 run (R559). -/
def coresEnabled (s : State) : Bool :=
  match s.md.mode with
  | .reset | .boot | .dormant => false
  | _ => true

/-- Start the stopped cores whose bits of CORE_RUN are set. -/
def startCores (s : State) : State :=
  let vec := BitVec.ofNat 64 (rd64 s (pgDSP + R.DSP_CORE_VEC))
  (List.range 16).foldl (fun s c =>
    if c ≠ 0 && (fg s pgDSP F.DSP_CORE_RUN_RUN).testBit c && coresEnabled s && !coreOn s c then startCore s c vec
    else s) s

/-- CORE_RUN (R442): bits set start their stopped cores at CORE_VEC, bits cleared stop theirs; bit 0 reads 1. -/
def coreRunOp (s : State) (v : Word) : State :=
  let s := fs s pgDSP F.DSP_CORE_RUN_RUN ((v.toNat % 0x10000) ||| 1)
  let s := (List.range 16).foldl (fun s c => if c ≠ 0 && !v.getLsbD c then stopCore s c else s) s
  startCores s

end Sys2Proof.Machine
end

