-- ==== Sys2Proof/Machine/Boot.lean ====
section
/-! DEFINITION. Boot and images (R536-R549) and the lifecycle (R550-R556). -/

namespace Sys2Proof.Machine

abbrev pgMOD : Nat := pb 0x001
abbrev pgLC : Nat := pb 0x002
abbrev pgBOOT : Nat := pb 0x003

def setBoot (s : State) (b : BootSt) : State := { s with boot := b }

/-! The lifecycle state (R550, R551). -/

abbrev lcBLANK : Nat := 0
abbrev lcPROVISIONED : Nat := 1
abbrev lcFIELD : Nat := 2
abbrev lcSEALED : Nat := 3
abbrev lcRETURN : Nat := 4
abbrev lcRETIRED : Nat := 5

def lcState (s : State) : Nat :=
  if s.fuse.retired then lcRETIRED
  else if s.fuse.returned then lcRETURN
  else if s.fuse.committed then (if s.sl.isSealed then lcSEALED else lcFIELD)
  else if s.fuse.items.isEmpty then lcBLANK else lcPROVISIONED

def itemOf (s : State) (k : Nat) : Option (List Byte) := (s.fuse.items.find? (fun e => e.1 == k)).map (·.2)
def hasItem (s : State) (k : Nat) : Bool := (itemOf s k).isSome

/-! Images (R536-R543). -/

def vendorKind (k : Nat) : Bool := k == 1 || k == 2 || k == 5

/-- The hash of the slot an image of this kind names, when the slot is present and not revoked. -/
def slotHash (s : State) (kind slot : Nat) : Option (List Byte) :=
  if vendorKind kind then
    if 4 ≤ slot || s.fuse.vendorRevoked.testBit slot || (tget (fun _ => []) s.fuse.vendorHash slot).isEmpty then none
    else some (tget (fun _ => []) s.fuse.vendorHash slot)
  else if 2 ≤ slot || s.fuse.custRevoked.testBit slot then none
  else itemOf s (3 + slot)

abbrev imgFORMAT : Nat := 1
abbrev imgKEY : Nat := 2
abbrev imgSVN : Nat := 3
abbrev imgSIGNATURE : Nat := 4
abbrev imgDECRYPT : Nat := 5
abbrev imgBIND : Nat := 6
abbrev imgSOURCE : Nat := 7

def imgLen (img : List Byte) : Nat := beAt img 12 4
def imgLoad (img : List Byte) : Nat := beAt img 16 4
def imgEntry (img : List Byte) : Nat := beAt img 20 4
def imgPayload (img : List Byte) : List Byte := slice img 64 (imgLen img)
def imgModulus (img : List Byte) : List Byte := slice img (64 + imgLen img) 384

def fits (kind : Nat) (img : List Byte) : Bool :=
  match kind with
  | 2 => imgLen img == 197392
  | 3 => imgLen img == 65792
  | 5 => true
  | _ => decide (imgLoad img + imgLen img ≤ 0x2000000)

/-- Check 1 of R538. -/
def imgFormat (kind : Nat) (img : List Byte) : Bool :=
  beAt img 0 4 == 0x5835494D && beAt img 4 1 == kind && beAt img 5 1 / 4 == 0 &&
  beAt img 5 1 % 2 == (if vendorKind kind then 1 else 0) && imgLen img % 16 == 0 && img.length == imgLen img + 832 &&
  fits kind img && (kind == 1 || kind == 4 || imgLoad img == 0) && (kind == 1 || kind == 4 || kind == 5 || imgEntry img == 0) &&
  (vendorKind kind || beAt img 24 28 == 0) && beAt img 60 4 == 0

/-- The header with TAG taken as zero, the additional data of R539. -/
def imgAad (img : List Byte) : List Byte := splice (slice img 0 64) 36 (List.replicate 16 0)

/-- The plain payload. -/
def imgPlain (s : State) (kind : Nat) (img : List Byte) : List Byte :=
  if vendorKind kind then gcmDecrypt s.fuse.imageKey (slice img 24 12) (imgPayload img) else imgPayload img

/-- A customer image names entries within the customer region only (R192). -/
def customerEntries (img : List Byte) : Bool :=
  (List.range 64).all (fun e =>
    let w := beAt img (64 + 4 * e) 4
    w / 32768 % 2 == 0 || decide (24576 ≤ w % 32768))

/-- The code of the first check that fails, 0 when the image is authentic (R538). -/
def imageCheck (s : State) (kind : Nat) (img : List Byte) : Nat :=
  if !imgFormat kind img then imgFORMAT
  else match slotHash s kind (beAt img 6 1) with
  | none => imgKEY
  | some h =>
    if h ≠ sha256 (imgModulus img) then imgKEY
    else if beAt img 7 1 < tget (fun _ => 0) s.fuse.svnMin kind then imgSVN
    else if !pssVerify (imgModulus img) (slice img 0 (448 + imgLen img)) (slice img (448 + imgLen img) 384) then imgSIGNATURE
    else if vendorKind kind &&
        gcmTag s.fuse.imageKey (slice img 24 12) (imgAad img) (imgPayload img) != slice img 36 16 then imgDECRYPT
    else if beAt img 52 8 ≠ 0 ∧ beAt img 52 8 ≠ s.fuse.uid.toNat then imgBIND
    else if kind = 3 ∧ !customerEntries img then imgFORMAT
    else 0

/-! Loading (R191, R192, R542, R546). -/

/-- ENTRY words `e0` and on of every pipeline. -/
def loadEntries (s : State) (e0 n : Nat) (bs : List Byte) : State :=
  upTo 8 (fun s p => upTo n (fun s k =>
    rawWr s (flowB p + R.FS_ENTRY + 4 * (e0 + k)) (BitVec.ofNat 32 (beAt bs (4 * k) 4 % 2 ^ 17))) s) s

def loadMicro (s : State) (w0 n : Nat) (bs : List Byte) : State :=
  upTo n (fun s k => storePut s false (w0 + k) (beAt bs (4 * k) 4)) s

def loadNano (s : State) (w0 n : Nat) (bs : List Byte) : State :=
  upTo n (fun s k => storePut s true (w0 + k) (beAt bs (32 * k) 32)) s

/-- Write a word, or a run of words, of every flow-stage page. -/
def allFs (s : State) (o : Nat) (ws : List Word) : State := upTo 8 (fun s p => wrWords s (flowB p + o) ws) s

def setStoreBit (s : State) (f : FRef) (v : Bool) : State := upTo 8 (fun s p => fs s (flowB p) f (if v then 1 else 0)) s

def loadVendor (s : State) (img : List Byte) : State :=
  let p := imgPlain s 2 img
  let s := loadNano (loadMicro (loadEntries s 0 192 p) 0 24576 (p.drop 772)) 0 3072 (p.drop 99076)
  let s := setFl s { s.fl with undecoded := some (beAt p 768 4 % 32768) }
  let s := allFs s R.FS_VENDOR_VER [BitVec.ofNat 32 (beAt img 8 4)]
  setStoreBit (setStoreBit (allFs s R.FS_VENDOR_DIGEST (packWords 8 (sha256 img))) F.FS_STORE_STATUS_AUTH_VENDOR true)
    F.FS_STORE_STATUS_LOADED true

def loadCustomer (s : State) (img : List Byte) : State :=
  let p := imgPayload img
  let s := loadNano (loadMicro (loadEntries s 192 64 p) 24576 8192 (p.drop 256)) 3072 1024 (p.drop 33024)
  let s := allFs s R.FS_CUSTOMER_VER [BitVec.ofNat 32 (beAt img 8 4)]
  setStoreBit (allFs s R.FS_CUSTOMER_DIGEST (packWords 8 (sha256 img))) F.FS_STORE_STATUS_AUTH_CUSTOMER true

/-- No authentic customer image: ENTRY[192..255] hold the UNDECODED entry; the event is raised when one was offered. -/
def noCustomer (s : State) : State :=
  let e := (s.fl.undecoded.getD 0) + 2 ^ 15 + 2 ^ 16
  let s := loadEntries s 192 64 ((List.range 64).flatMap (fun _ => beBytes 4 e))
  let offered := fgb s (flowB 0) F.FS_STORE_STATUS_CUSTOMER_OFFERED
  if offered then upTo 8 (fun s p => raise s (fsPage p) 5) s else s

/-- Address at which BOOT_FW or KERNEL starts. -/
def startOf (img : List Byte) : DWord := BitVec.ofNat 64 (0x20000000 + imgLoad img + imgEntry img)

/-- Take an authentic image of a die kind into use (R541, R546). -/
def useImage (s : State) (kind : Nat) (img : List Byte) : State :=
  let s := if beAt img 5 1 / 2 % 2 = 1 then
      setBoot s { s.boot with advance := tset (fun _ => 0) s.boot.advance kind (min 63 (beAt img 7 1)) } else s
  match kind with
  | 1 =>
    let s := coreWr s 16 (0x20000000 + imgLoad img) (imgPlain s 1 img)
    modH s 0 (fun h => { h with pc := startOf img })
  | 2 => loadVendor s img
  | 3 => loadCustomer s img
  | _ =>
    let s := coreWr s 16 (0x20000000 + imgLoad img) (imgPayload img)
    setBoot s { s.boot with kernelEntry := startOf img }

/-! The boot sequence (R544-R547). -/

def bootStep (s : State) : Nat := fg s pgBOOT F.BOOT_BOOT_STATUS_STEP

/-- The image kind of a step. -/
def kindOfStep (st : Nat) : Nat :=
  match st with
  | 3 => 1
  | 5 => 2
  | 6 => 3
  | 7 => 4
  | _ => 0

def awaiting (s : State) : Bool := fgb s pgBOOT F.BOOT_BOOT_STATUS_AWAIT_HOST
def setAwait (s : State) (b : Bool) : State := fs s pgBOOT F.BOOT_BOOT_STATUS_AWAIT_HOST (if b then 1 else 0)

/-- The boot stops in this step (R546, R547). -/
def bootStops (s : State) (ev : Nat) : State :=
  raise (setAwait (setBoot s { s.boot with src := 3 }) false) 0x003 ev

/-- Registers whose Reset column reads "boot" on a page: fields with the free boot value. -/
def freeField (b : Nat) (f : FRef) (s : State) : State := fs s b f (Config.bootValue ((b + f.off) * 32 + f.lo))

/-- PORT_CFG of a controller (R290): LAT_TARGET, PRIO, HINT_MODE, LIMIT of port `k`. -/
def portDefaults (k : Nat) : Nat × Nat × Nat :=
  if k < 8 then (144, 7, 160)
  else if k < 16 then (1200, 2, 53)
  else if k = 16 then (600, 4, 40)
  else if k = 17 then (2400, 3, 106)
  else if k = 18 then (12000, 0, 13)
  else if k = 19 then (360, 5, 26)
  else (1200, 1, 6)

def bootPorts (s : State) (c : Nat) : State :=
  upTo 21 (fun s k =>
    let b := mcB c + 4 * k
    let d := portDefaults k
    fs (fs (fs s b F.HBM_PORT_CFG_LAT_TARGET d.1) b F.HBM_PORT_CFG_PRIO d.2.1) b F.HBM_PORT_CFG_LIMIT d.2.2) s

/-- The default partition of R333 for the ports of the port map in force. -/
def bootPartition (s : State) : State :=
  let s := [(F.SC_SC_CLASS_LL_A_CLASS, 3), (F.SC_SC_CLASS_LL_A_EN, 1), (F.SC_SC_CLASS_LL_B_CLASS, 4),
      (F.SC_SC_CLASS_LL_B_EN, 1), (F.SC_POOL_MIRROR_LIMIT, 4096), (F.SC_POOL_HOST_LIMIT, 4096)].foldl
    (fun s e => fs s pgSC e.1 e.2) s
  let s := upTo 8 (fun s k => fs s (pgSC + 4 * k) F.SC_POOL_RECIRC_LIMIT 1024) s
  upTo 256 (fun s p =>
    let w := mapLanes s p
    if w = 0 then s
    else
      let s := upTo 8 (fun s c => fs s (accB p + 4 * c) F.ACC_QCFG_QLIMIT (if c = 3 ∨ c = 4 then 0 else 160 * w)) s
      [(F.ACC_LL_A_LIMIT_ING_LIMIT, 128), (F.ACC_LL_B_LIMIT_ING_LIMIT, 128), (F.ACC_LL_A_HEADROOM_HEADROOM, 512),
       (F.ACC_LL_B_HEADROOM_HEADROOM, 512), (F.ACC_XON_DELTA_DELTA_A, 32), (F.ACC_XON_DELTA_DELTA_B, 32)].foldl
        (fun s e => fs s (accB p) e.1 (e.2 * w)) s) s

/-- EVT_ENABLE as boot firmware writes it: 1 for every event of default class CE, UCC or FATAL (R581). -/
def enableWord (page : Nat) : Word :=
  let cls := evClasses (pageType page)
  (List.range cls.length).foldl (fun w b => if cls.getD b 0 ≠ 0 then setBits w b 1 1 else w) 0

def bootEnables (s : State) : State :=
  upTo 0x3F0 (fun s page =>
    if pagePresent s page && !tallyPage page && !s.boot.enKeep.contains page then
      rawWr s (pb page + oEVT_ENABLE) (enableWord page) else s) s

/-- Step 8: every register whose Reset column reads "boot" (log entry 24). -/
def bootRegisters (s : State) : State :=
  let s := bootPartition (bootEnables s)
  let s := if s.fuse.hbm then upTo 16 bootPorts s else s
  let s := upTo 256 (fun s l =>
    freeField (pb (0x040 + l)) F.LANE_SER_CTRL_SER_THRESH (freeField (pb (0x040 + l)) F.LANE_LANE_CTRL_TX_POST
      (freeField (pb (0x040 + l)) F.LANE_LANE_CTRL_TX_PRE s))) s
  let s := if s.fuse.longHaul then upTo 16 (fun s f => freeField (frmB f) F.FRM_DEG_CTRL_DEG_THR s) s else s
  let s := upTo 8 (fun s p => upTo 64 (fun s r =>
    let b := frgB p + 8 * r
    freeField b F.FRG_EXC_CFG2_QUEUE (freeField b F.FRG_EXC_CFG2_DEST (freeField b F.FRG_EXC_CFG_BURST
      (freeField b F.FRG_EXC_CFG_RATE s)))) s) s
  fs s (pb 0x004) F.AGE_AVS_STATUS_VREQ (750 + fg s (pb 0x004) F.AGE_AVS_CFG_GB_BASE)

/-- Steps 8 and 9: registers, the CALIBRATE request, KERNEL on core 0. In RETURN the diagnostic routine of BOOT_FW goes
on in KERNEL's place. -/
def bootFinish (s : State) : State :=
  let s := bootRegisters (fs s pgBOOT F.BOOT_BOOT_STATUS_STEP 9)
  let s := setAwait (setBoot s { s.boot with src := 3 }) false
  let s := { s with md := { s.md with req := some { target := .calibrate, force := false } } }
  if s.fuse.returned then s
  else modH s 0 (fun h => { h with pc := s.boot.kernelEntry, machine := true })

/-- Enter a step that loads an image: from Skyline alone the host is awaited at once. -/
def enterStep (s : State) (st : Nat) : State :=
  let s := fs s pgBOOT F.BOOT_BOOT_STATUS_STEP st
  setAwait (setBoot s { s.boot with copy0Failed := false }) (s.boot.src == 1)

/-- Go on to KERNEL: with no kernel to come from a host that wrote END, the step fails (R545). -/
def kernelStep (s : State) : State :=
  let s := enterStep s 7
  if s.boot.noMore && s.boot.src == 1 then bootStops s 2 else s

/-- The step after one whose image was loaded; step 6 also ends without an image. -/
def nextStep (s : State) : State :=
  match bootStep s with
  | 3 => enterStep s 5
  | 5 => if s.fuse.returned then bootFinish s else enterStep s 6
  | 6 => kernelStep s
  | _ => bootFinish s

def orBits (s : State) (f : FRef) (bit : Nat) : State := fs s pgBOOT f (fg s pgBOOT f ||| 2 ^ bit)

/-- Record a failed check (R538). -/
def noteFail (s : State) (kind code : Nat) : State :=
  fs (fs s pgBOOT F.BOOT_BOOT_STATUS_LAST_FAIL_KIND kind) pgBOOT F.BOOT_BOOT_STATUS_LAST_FAIL code

def offerCustomer (s : State) (kind : Nat) : State :=
  if kind = 3 then setStoreBit s F.FS_STORE_STATUS_CUSTOMER_OFFERED true else s

/-- An authentic image: it is used, BOOT_STATUS records it, the boot goes on. -/
def acceptImage (s : State) (kind : Nat) (img : List Byte) (copy1 host : Bool) : State :=
  let s := orBits s F.BOOT_BOOT_STATUS_KIND_OK (kind - 1)
  let s := if copy1 then orBits s F.BOOT_BOOT_STATUS_COPY1_USED (kind - 1) else s
  let s := if host then fs s pgBOOT F.BOOT_BOOT_STATUS_SRC_USED 1 else s
  nextStep (useImage s kind img)

/-- No authentic copy of the kind in flash: the host is awaited under fallback, else the step fails (R544, R546). -/
def flashEnds (s : State) (kind : Nat) : State :=
  let s := if kind = 3 && (s.boot.src = 0 || s.boot.noMore) then noCustomer s else s
  if s.boot.src = 2 && !(s.boot.noMore && 3 ≤ kind) then setAwait s true
  else if kind = 3 then nextStep s
  else bootStops s (if kind = 4 then 2 else 1)

/-- IMAGE_LOAD_COMPLETE and IMAGE_READ_TIMEOUT: a copy in flash was read, or could not be (`img` none). -/
def imageOp (s : State) (kind : Nat) (copy1 : Bool) (img : Option (List Byte)) : State :=
  if s.md.mode ≠ .boot ∨ awaiting s ∨ 3 ≤ s.boot.src ∨ kind ≠ kindOfStep (bootStep s) ∨ kind = 0 ∨
      copy1 ≠ s.boot.copy0Failed then s
  else
    let s := offerCustomer s kind
    let code := match img with
      | some b => imageCheck s kind b
      | none => imgSOURCE
    if code = 0 then acceptImage s kind (img.getD []) copy1 false
    else
      let s := raise (noteFail s kind code) 0x003 3
      if copy1 then flashEnds s kind else setBoot s { s.boot with copy0Failed := true }

def stageAddr (k : Nat) : Nat := 0x20000000 + Config.stagingBase.val + k

/-- BOOT_DATA word `w` (R545). -/
def bootDataOp (s : State) (w : Nat) (v : Word) : Res × State :=
  let at' := fg s pgBOOT F.BOOT_BOOT_ADDR_ADDR / 4 * 4 + 4 * w
  if !awaiting s || 0x1000000 ≤ at' then (.error, s)
  else (.ok, coreWr s 16 (stageAddr at') (wordBytes v))

def stagedImage (s : State) : List Byte :=
  let len := beNat (coreRd s 16 (stageAddr 12) 4)
  if len + 832 ≤ 0x1000000 then coreRd s 16 (stageAddr 0) (len + 832) else []

/-- BOOT_CMD.SUBMIT (R545). -/
def submitOp (s : State) (kind : Nat) : Res × State :=
  if !awaiting s then (.error, s)
  else
    let st := bootStep s
    let s := if st = 6 then offerCustomer s kind else s
    let s := if st = 6 && kind = 4 then
        let s := enterStep (noCustomer s) 7
        setAwait s true
      else s
    let code := if kind ≠ kindOfStep (bootStep s) then imgFORMAT else imageCheck s kind (stagedImage s)
    if code = 0 then (.ok, acceptImage s kind (stagedImage s) false true)
    else (.ok, raise (noteFail s kind code) 0x003 3)

/-- BOOT_CMD.END (R545). -/
def bootEndOp (s : State) : Res × State :=
  if !awaiting s then (.error, s)
  else
    let s := setBoot s { s.boot with noMore := true }
    match bootStep s with
    | 6 => (.ok, nextStep (noCustomer s))
    | 7 => (.ok, bootStops s 2)
    | _ => (.ok, s)

/-! Lifecycle operations (R550-R554). -/

abbrev lcOK : Nat := 0
abbrev lcBAD_STATE : Nat := 1
abbrev lcBAD_ARG : Nat := 2
abbrev lcBAD_SIG : Nat := 3
abbrev lcFUSE_FAIL : Nat := 4

/-- Least Skyline level of an LC_CMD operation (R550, R551, R553). -/
def lcLevel (op : Nat) : Nat := if op = 5 ∨ op = 7 then 3 else 2

def lcBusy (s : State) : Bool := fgb s pgLC F.LC_LC_RESULT_BUSY
def setLcResult (s : State) (r : Nat) (busy : Bool) : State :=
  fs (fs s pgLC F.LC_LC_RESULT_RESULT r) pgLC F.LC_LC_RESULT_BUSY (if busy then 1 else 0)

/-- An LC_CMD write (R550, R554, R603). Operations outside the table have no effect. -/
def lcCmdOp (s : State) (op item : Nat) : Res × State :=
  if lcBusy s then (.error, s)
  else if op = 0 ∨ 8 ≤ op then (.ok, s)
  else if inReset s || !fgb s (pb 0x005) F.CLK_PLY_STATUS_CORE_LOCK then (.ok, setLcResult s lcBAD_STATE false)
  else (.ok, setBoot s { s.boot with lcReq := some { op := op, item := item } })

def fusePower (s : State) : Bool := (fg s (pb 0x005) F.CLK_SUPPLY_STATUS_PGOOD).testBit 9

/-- The check of an operation at the edge of effect: its result, lcOK where its work begins. -/
def lcCheck (s : State) (o : LcOp) : Nat :=
  let st := lcState s
  let quiet := s.md.mode == .boot || s.md.mode == .diagnostic
  let power := if fusePower s then lcOK else lcFUSE_FAIL
  if s.md.mode == .reset || s.md.mode == .dormant then lcBAD_STATE
  else match o.op with
  | 1 =>
    if !(st ≤ 1 || (st == lcFIELD && (o.item == 4 || o.item == 5))) then lcBAD_STATE
    else if o.item = 0 || 6 ≤ o.item || (o.item = 5 && !s.fuse.sealCap) || hasItem s o.item then lcBAD_ARG
    else if 3 ≤ (s.fuse.spent.filter (· == o.item)).length then lcFUSE_FAIL
    else power
  | 2 => if st = lcPROVISIONED && hasItem s 1 && hasItem s 2 && hasItem s 3 then lcOK else lcBAD_STATE
  | 3 => if s.fuse.custRevoked ||| 2 ^ (o.item % 2) = 3 then lcBAD_ARG else power
  | 4 => if st ≤ lcFIELD && quiet then power else lcBAD_STATE
  | 5 => if st = lcRETURN then lcOK else lcBAD_STATE
  | 6 => if st ≠ lcSEALED && st ≠ lcRETIRED && quiet then power else lcBAD_STATE
  | _ => power

/-- A lifecycle operation that the table or its conditions refuse ends at its edge; an accepted one sets BUSY and takes
its staged bytes (R550). -/
def lcStart (s : State) : State :=
  match s.boot.lcReq with
  | none => s
  | some o =>
    let s := setBoot s { s.boot with lcReq := none }
    let r := lcCheck s o
    if r = lcOK then
      setLcResult (setBoot s { s.boot with lcWork := some { o with stage := wordsBytes (rdWords s (pgLC + R.LC_LC_STAGE) 16) } })
        (fg s pgLC F.LC_LC_RESULT_RESULT) true
    else
      let s := setLcResult s r false
      if r = lcFUSE_FAIL then raise s 0x002 1 else s

/-- Draw LC_NONCE (R553). -/
def drawLcNonce (s : State) : State :=
  let f := free s
  wrWords f.2 (pgLC + R.LC_LC_NONCE) (packWords 4 (beBytes 16 (f.1 % 2 ^ 128)))

/-- The verification of VENDOR_UNLOCK (R553). -/
def unlockCheck (s : State) (req : List Byte) : Nat :=
  let modulus := regBytes s (pgLC + R.LC_LC_PUBKEY) 96
  let sig := regBytes s (pgLC + R.LC_LC_SIG) 96
  let known := (List.range 4).any (fun k => slotHash s 1 k == some (sha256 modulus))
  if beAt req 0 1 ≠ 0x52 ∨ beAt req 1 1 ≠ 1 ∨ beAt req 2 8 ≠ s.fuse.uid.toNat ∨
      slice req 10 16 ≠ regBytes s (pgLC + R.LC_LC_NONCE) 4 ∨ beAt req 26 38 ≠ 0 then lcBAD_ARG
  else if known && pssVerify modulus req sig then lcOK
  else lcBAD_SIG

/-- Erase memories (R552 step 3): SRAMs, Decks, every table, flow memory but for evidence spill. -/
def eraseMemories (s : State) : State :=
  let spill := fun (a : Nat) => regionOf a == 1
  { s with
    cores := { s.cores with loc := [], sram := [], marked := [] }
    fl := { s.fl with deck := [], wbuf := [], wbq := [], dir := [], bad := [], ctr := [], insTT := [], pend := [],
                      freeHead := [], fresh := 0, freeTail := [], sel := [], micro := [], nano := [], marks := [] }
    cls := {}
    core := { s.core with groups := [] }
    arb := { s.arb with erGroup := [] }
    tmg := { s.tmg with policers := [] }
    hbm := { s.hbm with mem := s.hbm.mem.filter (fun e => spill e.1), poison := s.hbm.poison.filter (fun c => spill (16 * c)) } }

/-- The fuses after operation `o` (R550-R552). Once the RETURN fuse is blown, no item is provisioned. -/
def lcFuse (f : FuseSt) (o : LcOp) : FuseSt :=
  match o.op with
  | 1 => if f.returned then f else { f with items := f.items ++ [(o.item, slice o.stage 0 32)] }
  | 2 => { f with committed := true }
  | 3 => { f with custRevoked := f.custRevoked ||| 2 ^ (o.item % 2) }
  | 4 => { f with returned := true, items := [] }
  | 6 => { f with retired := true }
  | 7 => { f with vendorRevoked := f.vendorRevoked ||| 2 ^ (o.item % 4) }
  | _ => f

/-- A bank of a one-time item is spent without holding the item (R551). -/
def spendItem (f : FuseSt) (i : Nat) : FuseSt := { f with spent := f.spent ++ [i] }

/-- The fuses that a finished operation leaves (R550, R551). -/
def fuseAfter (f : FuseSt) (o : LcOp) (r : Nat) : FuseSt :=
  if r = lcOK then lcFuse f o
  else if r = lcFUSE_FAIL ∧ o.op = 1 then spendItem f o.item
  else f

/-- LC_OPERATION_COMPLETE: the work of the operation ends; its effects wait for the next edge. -/
def lcCompleteOp (s : State) (fuseOk : Bool) : State :=
  match s.boot.lcWork with
  | none => s
  | some o =>
    let done := fun (s : State) (r : Nat) => setBoot s { s.boot with lcWork := none, lcDone := some (o, r) }
    match o.op with
    | 5 => done (drawLcNonce s) (unlockCheck s o.stage)
    | 4 => if fuseOk then done (eraseMemories s) lcOK else done s lcFUSE_FAIL
    | 2 => done s lcOK
    | _ => done s (if fuseOk then lcOK else lcFUSE_FAIL)

/-- What a finished operation leaves at its edge (R550, R551). -/
def lcFinish (s : State) : State :=
  match s.boot.lcDone with
  | none => s
  | some (o, r) =>
    let t := setLcResult (setBoot s { s.boot with lcDone := none }) r false
    let t := if r = lcOK ∧ o.op = 5 then setBoot t { t.boot with unlocked := true }
      else if r = lcOK ∧ o.op = 4 then { t with md := { t.md with resetWaits := true } }
      else if r = lcFUSE_FAIL then raise t 0x002 1
      else t
    { t with fuse := fuseAfter s.fuse o r }

/-- The lifecycle's part of a ply edge; a change of state raises LC_CHANGE. -/
def lcEdge (s : State) : State :=
  let s := lcFinish s
  holdTime s (lcStart s)

/-- The fuses that a reset which cuts an operation off leaves: PROVISION spends its bank; where ENTER_RETURN was cut off
the spec leaves open (log entry 25), `blown` saying which (R554). -/
def fuseCut (f : FuseSt) (o : LcOp) (blown : Bool) : FuseSt :=
  if o.op = 1 then spendItem f o.item
  else if o.op = 4 ∧ blown then lcFuse f o
  else f

/-- A reset that is not deferred cuts an operation off (R554). A finished one keeps its fuses. -/
def lcCut (s : State) : State :=
  let s := match s.boot.lcDone with
    | some (o, r) => { s with fuse := fuseAfter s.fuse o r }
    | none => s
  match s.boot.lcWork with
  | some o =>
    let f := free s
    { f.2 with fuse := fuseCut s.fuse o (f.1 % 2 == 1) }
  | none => s

/-! SVN minimums at entry to LIVE (R541, R587). -/

/-- The fused minimums after the advances `up` (R541). -/
def raiseSvn (m : Tab Nat) (up : List (Nat × Nat)) : Tab Nat :=
  up.foldl (fun t e => if tget (fun _ => 0) t e.1 < e.2 then tset (fun _ => 0) t e.1 e.2 else t) m

def svnAdvance (s : State) : State :=
  if !fusePower s then s
  else
    let up := s.boot.advance.filter (fun e => decide (tget (fun _ => 0) s.fuse.svnMin e.1 < e.2))
    let t := setBoot s { s.boot with advance := [] }
    let t := if up.isEmpty then t else raise t 0x003 4
    { t with fuse := { s.fuse with svnMin := raiseSvn s.fuse.svnMin up } }

end Sys2Proof.Machine
end

