-- ==== Sys2Proof/Machine/Counters.lean ====
section
/-! DEFINITION. The counter central reader (chapter 16): snapshots, writes of performance counters, the sampling
buffer. -/

namespace Sys2Proof.Machine

/-! Snapshots (R521-R523). -/

/-- The address is the low word of a 64-bit block counter of a present page. -/
def counterLow (s : State) (a : Nat) : Bool :=
  let page := a / 0x1000
  pagePresent s page && a % 8 == 0 && (fieldsAt (pageType page) (a % 0x1000)).any (fun f => f.acc == .cnt)

def pcOvf (s : State) (k : Nat) : Bool := (rawRd s (pgCR + R.CR_PC_OVF + 4 * (k / 32))).getLsbD (k % 32)

def listValid (w : Word) : Bool := w.getLsbD 31
def listPerf (w : Word) : Bool := w.getLsbD 30
def listAddr (w : Word) : Nat := bitsOf w 0 24

/-- The value that a list entry yields (R521). -/
def entryValue (s : State) (w : Word) : Nat :=
  if listPerf w then
    let k := listAddr w % 64
    pcValue s k + (if pcOvf s k then 2 ^ 63 else 0)
  else if counterLow s (listAddr w) then rd64 s (listAddr w)
  else 0

/-- The valid entries, in list order. -/
def validEntries (s : State) : List (Nat × Word) := s.cnt.list.filter (fun e => listValid e.2)

/-- The pages whose PAGE_PLY a snapshot writes: those that entries name, and page 0x007. -/
def snapPages (s : State) : List Nat :=
  let named := (validEntries s).filterMap (fun e =>
    if listPerf e.2 then none else if pagePresent s (listAddr e.2 / 0x1000) then some (listAddr e.2 / 0x1000) else none)
  (named ++ [0x007]).eraseDups

/-- Take a snapshot of the end of ply `n` (R521). -/
def takeSnapshot (s : State) (n : Nat) : State :=
  let data := (validEntries s).foldl (fun t e => tset (fun _ => 0) t e.1 (BitVec.ofNat 64 (entryValue s e.2))) []
  let s := { s with cnt := { s.cnt with snapData := data } }
  let s := wr64 s (pgCR + R.CR_SNAP_PLY) n
  (snapPages s).foldl (fun s page => wr64 s (pb page + oPAGE_PLY) n) s

def snapPending (s : State) : Bool := s.cnt.snapReq || s.cnt.snapBusy

/-- SNAP: answers the reply (R522). -/
def snapOp (s : State) : Res × State :=
  if snapPending s then (.error, s) else (.ok, { s with cnt := { s.cnt with snapReq := true } })

/-- A periodic snapshot falls at the edge that starts ply `m`. -/
def periodicAt (s : State) (m : Nat) : Bool :=
  fgb s pgCR F.CR_CR_CTRL_PERIODIC_EN && m % (max 1 (fg s pgCR F.CR_CR_CTRL_PERIOD)) == 0

/-- Step 1 of the edge that starts ply `m` (R44, R522). -/
def snapEdge (s : State) (m : Nat) : State :=
  let per := periodicAt s m
  if !per && !s.cnt.snapReq then s
  else
    let s := takeSnapshot s (m - 1)
    { s with cnt := { s.cnt with snapBusy := s.cnt.snapReq, snapReq := false, periodicDue := per } }

/-! Performance counter writes (R528). -/

/-- PC_VALUE_HI: both words at once. -/
def pcValueOp (s : State) (k : Nat) (hi : Word) : State :=
  setPc s k ((bitsOf hi 0 16) * 2 ^ 32 + (tget (fun _ => 0) s.cnt.pcStage k).toNat)

/-- PC_CLEAR, high word. -/
def pcClearOp (s : State) (hi : Word) : State :=
  upTo 64 (fun s k =>
    if (if k < 32 then s.cnt.clearStage.getLsbD k else hi.getLsbD (k - 32)) then setPc s k 0 else s) s

/-! The sampling buffer (R529, R532, R533). -/

def bufSlots (s : State) : Nat :=
  if s.fuse.hbm then 2 ^ (min 32 (max 12 (fg s pgCR F.CR_SAMP_SIZE_SIZE))) / 32 else 8192

def bufBase (s : State) : Nat := rd64 s (pgCR + R.CR_SAMP_BASE) % 2 ^ 35

/-- The ring lies in the telemetry region; the on-die buffer of D variants always does. -/
def bufPlaced (s : State) : Bool := !s.fuse.hbm || regionOf (bufBase s) == 2

def bufFree (s : State) : Nat :=
  let used := (fg s pgCR F.CR_SAMP_PROD_PROD + 2 ^ 32 - fg s pgCR F.CR_SAMP_CONS_CONS) % 2 ^ 32
  bufSlots s - used

/-- The buffer is enabled (log entry 23). -/
def bufEnabled (s : State) : Bool := fgb s pgCR F.CR_SAMP_CTRL_UW_EN || fgb s pgCR F.CR_SAMP_CTRL_INSN_EN

/-- Write one 32-byte slot and advance SAMP_PROD. -/
def bufPut (s : State) (r : List Byte) : State :=
  let prod := fg s pgCR F.CR_SAMP_PROD_PROD
  let k := prod % bufSlots s
  let s := if s.fuse.hbm then mwr (wakeFor s (bufBase s + 32 * k)) (bufBase s + 32 * k) (slice r 0 32)
    else { s with cnt := { s.cnt with
      onDie := tset (fun _ => 0) s.cnt.onDie k (BitVec.ofNat 256 (beNat (slice r 0 32))) } }
  fs s pgCR F.CR_SAMP_PROD_PROD (prod + 1)

def sampLost (s : State) (n : Nat) : State :=
  if n = 0 then s else raise (bumpN s (pgCR + R.CR_SAMP_LOST) n) 0x007 evSAMP_LOST

/-- The slots of a snapshot's record: a header, then four values to a slot (R533). -/
def snapSlots (s : State) : List (List Byte) :=
  let vals := (validEntries s).map (fun e => (tget (fun _ => 0) s.cnt.snapData e.1).toNat)
  let n := vals.length
  let head := [0x83] ++ beBytes 1 (n % 256) ++ List.replicate 6 0 ++ beBytes 8 (rd64 s (pgCR + R.CR_SNAP_PLY)) ++
    List.replicate 16 0
  let bytes := vals.flatMap (beBytes 8)
  head :: (List.range ((n + 3) / 4)).map (fun k => slice bytes (32 * k) 32)

/-- Modes in which the buffer is written (R523, R531). -/
def sampModes (s : State) : Bool :=
  match s.md.mode with
  | .live | .drain | .contained | .diagnostic => true
  | _ => false

/-- PERIODIC_SNAPSHOT: the snapshot of the last edge is appended to the buffer. -/
def periodicOp (s : State) : State :=
  if !s.cnt.periodicDue then s
  else
    let s := { s with cnt := { s.cnt with periodicDue := false } }
    if !bufEnabled s || !sampModes s then s
    else
      let sl := snapSlots s
      if !bufPlaced s || bufFree s < sl.length then sampLost s 1
      else bump (sl.foldl bufPut s) (pgCR + R.CR_SAMPLES)

/-- MICROWORD_SAMPLE and INSTRUCTION_SAMPLE: the due record of unit `u` enters the queue (R532). -/
def sampleOp (s : State) (u : Nat) : State :=
  match s.cnt.due.find? (fun d => d.unit == u) with
  | none => s
  | some d =>
    let s := { s with cnt := { s.cnt with due := s.cnt.due.erase d } }
    if 64 ≤ s.cnt.queue.length then sampLost s 1
    else { s with cnt := { s.cnt with queue := s.cnt.queue ++ [d.record] } }

/-- SAMPLE_RECORD_WRITE: the oldest record of the queue reaches the buffer (R532). -/
def recordOp (s : State) : State :=
  match s.cnt.queue with
  | [] => s
  | r :: rest =>
    let s := { s with cnt := { s.cnt with queue := rest } }
    if !bufPlaced s then sampLost s 1
    else if bufFree s = 0 then
      let s := { s with cnt := { s.cnt with queue := [], stopped := true } }
      sampLost (raise (fs s pgCR F.CR_SAMP_STATUS_FULL 1) 0x007 evSAMP_FULL) (1 + rest.length)
    else bump (bufPut s (beBytes 32 r.toNat)) (pgCR + R.CR_SAMPLES)

/-- Sampling resumes at an edge at which FULL reads 0 and the ring has room (R532). -/
def sampEdge (s : State) : State :=
  if s.cnt.stopped && !fgb s pgCR F.CR_SAMP_STATUS_FULL && bufFree s != 0 then
    { s with cnt := { s.cnt with stopped := false } }
  else s

end Sys2Proof.Machine
end

