-- ==== Sys2Proof/Machine/Links.lean ====
section
/-! DEFINITION. Lanes, links, PFC and framers (chapters 02 and 03): the port map check, link states, pauses, defects and
trails, and what of them commits at a ply edge (R62-R116). -/

namespace Sys2Proof.Machine

/-! The port map (R66-R69, R94, R97-R100). -/

/-- Lanes of group word `w` that some port covers, as a bit mask. -/
def mapMask (w : Word) : Nat :=
  (List.range 8).foldl (fun m s => m ||| ((2 ^ codeLanes (mapCode w s) - 1) * 2 ^ s)) 0

/-- A map satisfies R66 and R67: valid width codes, aligned ports that do not overlap, one rate per port. -/
def mapValid (w : Word) : Bool :=
  let n := fun s => codeLanes (mapCode w s)
  (List.range 8).all (fun s => decide (mapCode w s ≤ 4) && (n s == 0 || (decide (s % n s = 0) &&
    (List.range 8).all (fun t => decide (t ≤ s) || decide (s + n s ≤ t) || n t == 0)))) &&
  (n 0 != 8 || bitsOf w 24 1 == bitsOf w 25 1)

/-- Lanes of group `g` that an enabled framer owns, as a bit mask, with the FRAMER_CTRL word `c` of framer g/2 (R97). -/
def ownedMask (s : State) (g : Nat) (c : Word) : Nat :=
  if g % 2 = 1 ∨ !s.fuse.longHaul ∨ bitsOf c 0 1 = 0 then 0
  else if quadsOwned (bitsOf c 1 4) (bitsOf c 5 1) = 2 then 255 else 15

def framerWord (s : State) (f : Nat) : Word := rawRd s (frmB f + R.FRM_FRAMER_CTRL)
def framerWordIn (s : State) (f : Nat) : Word := effRd s (frmB f + R.FRM_FRAMER_CTRL)

/-- Lane rate bit of lane `k` of a group word. -/
def rateBit (w : Word) (k : Nat) : Nat := if k < 4 then bitsOf w 24 1 else bitsOf w 25 1

/-- No enabled port changes its lane set or lane rate from `old` to `new` (R68). -/
def mapKeepsEnabled (s : State) (g : Nat) (old new : Word) : Bool :=
  (List.range 8).all (fun k =>
    let changed := mapCode old k != mapCode new k || (codeLanes (mapCode new k) != 0 && rateBit old k != rateBit new k)
    !changed || !fgb s (portB (8 * g + k)) F.PORT_PORT_CTRL_ENABLE)

/-- The two conditions of R68 with R94, under the FRAMER_CTRL word `c`. -/
def mapAllowed (s : State) (g : Nat) (old new c : Word) : Bool :=
  mapValid new && mapKeepsEnabled s g old new && (mapMask new &&& ownedMask s g c) == 0

def mapReject (s : State) (g : Nat) : State :=
  raise (fs s (pb (0x020 + g)) F.PG_MAP_STATUS_MAP_REJECT 1) (0x020 + g) 16

abbrev mapAddr (g : Nat) : Nat := pb (0x020 + g) + R.PG_PORT_MAP

/-- A PORT_MAP write (R68): refused, or staged for the next ply. -/
def portMapOp (s : State) (g : Nat) (v : Word) : Res × State :=
  let v := v &&& 0x03FFFFFF
  if mapAllowed s g (effRd s (mapAddr g)) v (framerWord s (g / 2)) then (.ok, rawWr s (mapAddr g) v)
  else (.error, mapReject s g)

/-- LANES_ACTIVE of a group (R92, R101). -/
def showLanes (s : State) (g : Nat) : State :=
  let c := 8 * g
  let m := if isClient s c then 2 ^ framerLanes s (c / 16) - 1 else mapMask (groupMap s g)
  fs s (pb (0x020 + g)) F.PG_MAP_STATUS_LANES_ACTIVE m

/-- The staged map of group `g` is checked again at its edge of effect and applied or rejected (R68). `old` is the map
in force until now. -/
def portMapEdge (old : Nat → Word) (s : State) (g : Nat) : State :=
  let o := old g
  let v := rawRd s (mapAddr g)
  if v = o then showLanes s g
  else if mapAllowed s g o v (framerWordIn s (g / 2)) then
    let s := showLanes s g
    upTo 8 (fun s k => if mapCode o k ≠ mapCode v k ∨ rateBit o k ≠ rateBit v k then fillPort s (8 * g + k) else s) s
  else
    let s := rawWr s (mapAddr g) o
    mapReject { s with eff := tset regReset s.eff (mapAddr g) o } g

/-! Framer configuration (R97, R99). -/

def framerReject (s : State) (f : Nat) : State :=
  raise (fs s (frmB f) F.FRM_CFG_STATUS_CFG_REJECT 1) (0x140 + f) 16

/-- A FRAMER_CTRL write (R99, R113, R115). -/
def framerCtrlOp (s : State) (f : Nat) (v : Word) : Res × State :=
  let v := v &&& 0x7FF
  let v := if bitsOf v 9 1 = 1 then v ||| 0x40 else v
  let old := framerWord s f
  let en := bitsOf v 0 1 = 1
  let checked := en ∨ bitsOf v 1 5 ≠ bitsOf old 1 5
  let nOk := 1 ≤ bitsOf v 1 4 ∧ bitsOf v 1 4 ≤ 8
  let first := bitsOf old 0 1 = 0 ∨ ¬ en
  let same := bitsOf v 0 6 = bitsOf old 0 6
  let free_ := mapMask (rawRd s (mapAddr (2 * f))) &&& ownedMask s (2 * f) (v ||| 1) = 0
  if ¬ nOk ∨ (checked ∧ ¬ same ∧ ¬ (first ∧ (free_ ∨ ¬ en))) then (.error, framerReject s f)
  else (.ok, rawWr s (frmB f + R.FRM_FRAMER_CTRL) v)

/-! Framers (R106-R116). -/

def getFr (s : State) (f : Nat) : FramerSt := tget (fun _ => {}) s.framers f
def setFr (s : State) (f : Nat) (v : FramerSt) : State := { s with framers := tset (fun _ => {}) s.framers f v }
def getInst (s : State) (f i : Nat) : FlexO := tget (fun _ => {}) (getFr s f).inst i
def setInst (s : State) (f i : Nat) (v : FlexO) : State :=
  setFr s f { getFr s f with inst := tset (fun _ => {}) (getFr s f).inst i v }

/-- Instance `i` of framer `f` is in frame: bit `i` of the mask the model keeps by position + 1. -/
def inFrame (s : State) (f i : Nat) : Bool := (getInst s f i).pos != 0

def showInFrame (s : State) (f : Nat) : State :=
  let all := (List.range (framerN s f)).all (fun i => inFrame s f i)
  fs s (frmB f) F.FRM_FRAMER_STATUS_IN_FRAME (if all && framerOn s f then 1 else 0)

/-- One candidate meets the exact matches of the next frame period: kept with its multiframe byte, or closed. -/
def stepCand (m : List (Nat × Byte)) (c : Candidate) : Option Candidate :=
  match m.find? (fun x => x.1 == c.pos) with
  | some x => some { c with marks := c.marks ++ [x.2] }
  | none => none

/-- Confirmed with multiframe bytes rising by 1 modulo 256. -/
def candPasses (c : Candidate) : Bool :=
  match c.marks with
  | [a, b, d] => b == a + 1 && d == b + 1
  | _ => false

/-- The exact pattern matches of one frame period of an instance in OOF: position and the multiframe byte that follows
(R106). -/
def search (s : State) (f i : Nat) (m : List (Nat × Byte)) : State :=
  let x := getInst s f i
  if x.pos ≠ 0 then s else
  let kept := x.cands.filterMap (stepCand m)
  let passed := kept.filter candPasses
  let open_ := kept.filter (fun c => c.marks.length < 3)
  let fresh := (m.filter (fun y => !x.cands.any (fun c => c.pos == y.1))).map
    (fun y => ({ pos := y.1, marks := [y.2] } : Candidate))
  match passed with
  | [] => setInst s f i { x with cands := open_ ++ fresh.take (4 - x.cands.length) }
  | [c] =>
    showInFrame (setInst s f i { x with cands := [], pos := c.pos + 1, fails := 0, mf := c.marks.getLastD 0 }) f
  | _ =>
    let s := setInst s f i { x with cands := [] }
    let n := fg s (frmB f) F.FRM_CFG_STATUS_AMBIG_COUNT
    fs s (frmB f) F.FRM_CFG_STATUS_AMBIG_COUNT (min 255 (n + 1))

/-- A check of the pattern at the expected position (R107, R108 LOM). -/
def frameCheck (s : State) (f i errors : Nat) (mf : Byte) : State :=
  let x := getInst s f i
  if x.pos = 0 then s
  else
    let good := errors ≤ fg s (frmB f) F.FRM_ALIGN_CTRL_AM_TOL
    setInst s f i { x with fails := if good then 0 else x.fails + 1, mf := mf,
                           mfBad := if mf == x.mf + 1 then 0 else x.mfBad + 1 }

/-- OOF after 5 consecutive failed checks (R107). -/
def declareOof (s : State) (f i : Nat) : State :=
  let x := getInst s f i
  if x.pos = 0 ∨ x.fails < 5 then s
  else showInFrame (setInst s f i { x with pos := 0, fails := 0, cands := [] }) f

/-- The level of a defect bit (R108). -/
def defectLevel (k : Nat) : Nat :=
  match k with
  | 0 => 1
  | 1 => 2
  | 2 => 3
  | 3 => 4
  | 4 => 5
  | 5 => 5
  | 6 => 5
  | 7 => 6
  | 8 => 6
  | 9 => 6
  | 10 => 7
  | 11 => 7
  | 12 => 7
  | _ => 8

/-- Defect `d` suppresses defect `k` (R108); `act` is TIM_ACT. -/
def suppresses (act : Bool) (d k : Nat) : Bool :=
  let a := defectLevel d
  let b := defectLevel k
  if b ≤ 5 then decide (a < b ∧ a < 5)
  else if b = 6 then decide (a ≤ 4) || (d == 4 && act)
  else if b = 7 then decide (a ≤ 6)
  else decide (a ≤ 7)

/-- Reported defects: raw ones that no reported defect suppresses, in ascending level. -/
def reported (act : Bool) (raw : Nat) : List Nat :=
  (List.range 15).foldl (fun r k =>
    if raw.testBit k && !r.any (fun d => suppresses act d k) then r ++ [k] else r) []

def maskOf (l : List Nat) : Nat := l.foldl (fun m k => m ||| 2 ^ k) 0

/-- The defect has a downstream AIS action, or tells the client of a local fault (R102, R108). -/
def aisDown (act : Bool) (k : Nat) : Bool := k ≤ 3 || ((k == 4 || k == 10) && act) || k == 7 || k == 8 || k == 9 || k == 13

/-- The defect sends BDI backward on SM, on PM. -/
def bdiSm (act : Bool) (k : Nat) : Bool := k ≤ 3 || (k == 4 && act)
def bdiPm (act : Bool) (k : Nat) : Bool := ((k == 4 || k == 10) && act) || k == 7 || k == 8 || k == 9

def timAct (s : State) (f : Nat) : Bool :=
  fgb s (frmB f) F.FRM_FRAMER_CTRL_TIM_ACT || fgb s (frmB f) F.FRM_FRAMER_CTRL_TIME_PATH

/-- A defect that the client port sees as a local fault is reported. -/
def clientFault (s : State) (f : Nat) : Bool :=
  let d := fg s (frmB f) F.FRM_FRAMER_STATUS_DEFECTS
  (List.range 15).any (fun k => d.testBit k && (aisDown (timAct s f) k || k == 14))

/-- Set or clear a detector's output. -/
def setRaw (s : State) (f k : Nat) (on : Bool) : State :=
  let r := fg s (frmB f) F.FRM_DEFECTS_RAW_RAW
  let r' := if on then r ||| 2 ^ k else if r.testBit k then r - 2 ^ k else r
  fs s (frmB f) F.FRM_DEFECTS_RAW_RAW r'

/-- The accepted TTI does not match what TTI_MODE compares (R112). -/
def ttiMismatch (s : State) (f : Nat) (pm : Bool) : Bool :=
  let acc := if pm then R.FRM_ACC_TTI_PM else R.FRM_ACC_TTI_SM
  let es := if pm then R.FRM_EXP_SAPI_PM else R.FRM_EXP_SAPI
  let ed := if pm then R.FRM_EXP_DAPI_PM else R.FRM_EXP_DAPI
  let b := frmB f
  let eq := fun (x y : Nat) => (List.range 4).all (fun k => rawRd s (b + x + 4 * k) == rawRd s (b + y + 4 * k))
  match fg s b F.FRM_FRAMER_CTRL_TTI_MODE with
  | 0 => false
  | 1 => !eq acc es
  | 2 => !eq (acc + 16) ed
  | _ => !eq acc es || !eq (acc + 16) ed

/-- The trace identifier mismatch of one layer as it stands. -/
def timRaw (s : State) (f : Nat) (pm : Bool) : State :=
  let t := if pm then (getFr s f).pm else (getFr s f).sm
  setRaw s f (if pm then 10 else 4) (t.accepted && ttiMismatch s f pm)

/-- A TTI cycle ends with the 64 received bytes; the transmitted TTI restarts (R111). -/
def ttiCycleOp (s : State) (f : Nat) (pm : Bool) (rx : List Byte) : State :=
  let x := getFr s f
  let t := if pm then x.pm else x.sm
  let same := if t.last = rx then t.same + 1 else 1
  let ok := 3 ≤ same
  let tx := (rdWords s (frmB f + (if pm then R.FRM_TX_TTI_PM else R.FRM_TX_TTI_SM)) 16).flatMap wordBytes
  let t := { t with last := rx, same := min 3 same, accepted := t.accepted || decide ok, sending := tx }
  let s := setFr s f (if pm then { x with pm := t } else { x with sm := t })
  if ok then
    let s := wrWords s (frmB f + (if pm then R.FRM_ACC_TTI_PM else R.FRM_ACC_TTI_SM)) (packWords 16 rx)
    let s := if pm then s else fs s (frmB f) F.FRM_FRAMER_STATUS_TTI_ACCEPTED 1
    timRaw s f pm
  else s

/-- A second ends with its BIP-8 block errors (R108). -/
def degSecond (s : State) (f : Nat) (pm : Bool) (errors : Nat) : State :=
  let x := getFr s f
  let t := if pm then x.pm else x.sm
  let m := max 2 (min 10 (fg s (frmB f) F.FRM_DEG_CTRL_DEG_M))
  let bad := fg s (frmB f) F.FRM_DEG_CTRL_DEG_THR < errors
  let t := { t with bad := if bad then t.bad + 1 else 0, good := if bad then 0 else t.good + 1 }
  let s := setFr s f (if pm then { x with pm := t } else { x with sm := t })
  let s := bumpN s (frmB f + (if pm then R.FRM_BIP_PM else R.FRM_BIP_SM)) errors
  let k := if pm then 12 else 6
  if m ≤ t.bad then setRaw s f k true else if m ≤ t.good then setRaw s f k false else s

/-- Tell the Tally that PATH_PROVEN fell (R113, R140). -/
def pathFell (s : State) (f : Nat) : State :=
  let used := fgb s (frmB f) F.FRM_FRAMER_CTRL_TIME_PATH || ptpOn s (16 * f) != none
  if used then raise s 0x011 evPATH_FALL else s

/-- The framer at a ply edge: reported defects and their events, consequent actions, PATH_PROVEN (R108-R113, R116). -/
def framerEdge (s : State) (f : Nat) : State :=
  let b := frmB f
  if !s.fuse.longHaul then s
  else
    let runs := s.md.mode != .reset && s.md.mode != .dormant && s.md.mode != .boot
    let was := fg s b F.FRM_FRAMER_STATUS_DEFECTS
    let proven := fgb s b F.FRM_FRAMER_STATUS_PATH_PROVEN
    if !framerOn s f || !runs then
      let s := rawWr s (b + R.FRM_FRAMER_STATUS) 0
      let s := upTo 15 (fun s k => setLevel s (0x140 + f) k false) s
      let s := rawWr s (b + R.FRM_DEFECTS_RAW) 0
      let s := setFr s f {}
      if proven then pathFell s f else s
    else
      let s := timRaw (timRaw s f false) f true
      let act := timAct s f
      let rep := reported act (fg s b F.FRM_DEFECTS_RAW_RAW)
      let s := if maskOf rep = was then s else
        upTo 15 (fun s k => setLevel s (0x140 + f) k (rep.contains k)) (fs s b F.FRM_FRAMER_STATUS_DEFECTS (maskOf rep))
      let now := fg s b F.FRM_FRAMER_CTRL_TTI_MODE == 3 && fgb s b F.FRM_FRAMER_STATUS_TTI_ACCEPTED &&
        rep.all (fun k => decide (5 < defectLevel k))
      let s := fs s b F.FRM_FRAMER_STATUS_PATH_PROVEN (if now then 1 else 0)
      let s := setFr s f { getFr s f with
        ais := rep.any (aisDown act), bdiSm := rep.any (bdiSm act), bdiPm := rep.any (bdiPm act),
        odu := if fgb s b F.FRM_FRAMER_CTRL_LCK_TX then 2
               else if fgb s (portB (16 * f)) F.PORT_PORT_CTRL_ENABLE then 0 else 1 }
      if proven && !now then pathFell s f else s

/-- FRAMER_CTRL in force changed at this edge from `old`: ownership, and a fresh start on ENABLE (R97, R111, R115). -/
def framerApply (old : Nat → Word) (s : State) (f : Nat) : State :=
  let o := old f
  let v := framerWordIn s f
  if o = v ∨ !s.fuse.longHaul then s
  else
    let own := ownedMask s (2 * f) v
    let s := upTo 8 (fun s k => fs s (laneB (16 * f + k)) F.LANE_LANE_CTRL_OWNER (if own.testBit k then 1 else 0)) s
    let s := if bitsOf o 0 1 = 0 ∧ bitsOf v 0 1 = 1 then
        let s := setFr s f {}
        let s := fs s (frmB f) F.FRM_FRAMER_STATUS_TTI_ACCEPTED 0
        fs s (frmB f) F.FRM_CFG_STATUS_AMBIG_COUNT 0
      else s
    let s := if bitsOf o 0 6 = bitsOf v 0 6 then s else fillPort s (16 * f)
    showLanes s (2 * f)

/-! Link states (R79-R83, R102). -/

def setLink (s : State) (p n : Nat) : State :=
  if p = 256 then fs s pgHP F.HP_HP_STATUS_LINK_STATE n else fs s (portB p) F.PORT_PORT_STATUS_LINK_STATE n

def linkEnabled (s : State) (p : Nat) : Bool :=
  if p = 256 then fgb s pgHP F.HP_HP_CTRL_ENABLE else fgb s (portB p) F.PORT_PORT_CTRL_ENABLE

/-- Modes in which an enabled port leaves DISABLED (R80). -/
def linkMode (s : State) : Bool :=
  match s.md.mode with
  | .reset | .boot | .dormant => false
  | _ => true

def laneBit (s : State) (l : Nat) (f : FRef) : Bool := 256 ≤ l || fgb s (laneB l) f

/-- Delays valid on lane `l`; the host port's two lanes share one bit (R91, R495). -/
def delayValid (s : State) (l : Nat) : Bool :=
  if 256 ≤ l then fgb s pgHP F.HP_HP_STATUS_DELAYS_VALID else fgb s (laneB l) F.LANE_RX_DELAY_DELAY_VALID

/-- The link lost lock on some lane, sees a high symbol error ratio, or a local fault (R80, R102). -/
def linkBroken (s : State) (p : Nat) : Bool :=
  (portLanes s p).any (fun l => !laneBit s l F.LANE_LANE_STATUS_CDR_LOCK ||
    (!isClient s p && !laneBit s l F.LANE_LANE_STATUS_AM_LOCK) ||
    (decide (l < 256) && fgb s (laneB l) F.LANE_LANE_STATUS_HIGH_SER)) ||
  (decide (p < 256) && fgb s (portB p) F.PORT_PORT_STATUS_LOCAL_FAULT) ||
  (isClient s p && clientFault s (p / 16))

/-- Signal or CDR lock is lost on some lane (R80, ALIGNING). -/
def signalLost (s : State) (p : Nat) : Bool :=
  (portLanes s p).any (fun l => !laneBit s l F.LANE_LANE_STATUS_SIGNAL || !laneBit s l F.LANE_LANE_STATUS_CDR_LOCK)

/-- The conditions for UP hold now (R79, R80, R102). -/
def upReady (s : State) (p : Nat) : Bool :=
  !linkBroken s p && (portLanes s p).all (fun l => delayValid s l) &&
  (!isClient s p || fgb s (frmB (p / 16)) F.FRM_FRAMER_STATUS_IN_FRAME)

/-- UP_HOLD in ply (log entry 18: 25 ply a microsecond; R490: 10 µs on the host port). -/
def upHold (s : State) (p : Nat) : Nat := 25 * (if p = 256 then 10 else fg s (portB p) F.PORT_LINK_TIMING_UP_HOLD)

/-- Start or stop the hold before UP in ALIGNING. -/
def evalHold (s : State) (p : Nat) : State :=
  let ready := linkCode s p == 2 && upReady s p
  modP s p (fun P =>
    if linkCode s p = 4 then P
    else { P with holdSince := if ready then P.holdSince.or (some (plyNat s)) else none })

/-- Copies of a truncated frame take its end (R82). -/
def truncateRx (s : State) (id : Nat) : State :=
  let f := getF s id
  let s := bumpPort s f.port R.PORT_RX_TRUNC 1
  let ids := id :: copiesOf s id
  let s := ids.foldl (fun s k => modF s k (fun g => if g.ended then g else { g with ended := true, trunc := true })) s
  noteDigest s id (getF s id)

/-- The frame records still being received on port `p`. -/
def receiving (s : State) (p : Nat) : List Nat := framesWhere s (fun _ f => f.port == p && !f.ended && !f.isCopy && !f.isMirror)

/-- Unpause every class of a port that leaves UP (R88). -/
def clearPauses (s : State) (p : Nat) : State :=
  let s := modP s p (fun P => { P with loads := [], pauseEnd := [], pausedAt := [], wdDrop := 0, pfcA := none, pfcB := none })
  if p < 256 then fs s (portB p) F.PORT_PORT_STATUS_PAUSED 0 else s

/-- LINK_CHANGE of a port (R83). -/
def linkChange (s : State) (p : Nat) : State :=
  if p = 256 then raise s 0x009 0 else raise s (0x020 + p / 8) (p % 8)

/-- Clear what a new training must find again. -/
def restartLanes (s : State) (p : Nat) : State :=
  let s := (portLanes s p).foldl (fun s l => if 256 ≤ l then s else
    let s := fs s (laneB l) F.LANE_LANE_STATUS_AM_LOCK 0
    let s := fs s (laneB l) F.LANE_LANE_STATUS_HIGH_SER 0
    let s := fs s (laneB l) F.LANE_LANE_STATUS_TRAIN_DONE 0
    fs s (laneB l) F.LANE_RX_DELAY_DELAY_VALID 0) s
  if p < 256 then
    let s := fs s (portB p) F.PORT_PORT_STATUS_LOCAL_FAULT 0
    let s := fs s (portB p) F.PORT_PORT_STATUS_REMOTE_FAULT 0
    fs s (portB p) F.PORT_PORT_STATUS_DELAYS_VALID 0
  else fs s pgHP F.HP_HP_STATUS_DELAYS_VALID 0

/-- The state that a port takes at this edge (R80). -/
def nextLink (s : State) (p : Nat) : Nat :=
  let st := linkCode s p
  let P := getP s p
  if !linkEnabled s p || !linkMode s || !portMapped s p then 0
  else
    match st with
    | 0 => 1
    | 1 => if P.next = some .aligning then 2 else 1
    | 2 => if signalLost s p || P.next = some .training then 1 else if P.next = some .up then 3 else 2
    | 3 => if linkBroken s p || P.next = some .training then 1 else if P.next = some .fault then 4 else 3
    | _ => if linkBroken s p || P.next = some .training then 1 else if P.next = some .up then 3 else 4

/-- Effects of leaving UP on frames (R82, R88); `cut` runs the truncation of frames being received. -/
def leaveUp (s : State) (p : Nat) : State :=
  let s := (receiving s p).foldl (fun s id =>
    let f := getF s id
    let s := tryDeliver (truncateRx s id) id
    match f.stage with
    | .fifo | .parse => dropUnparsed s id (portMeter s f.port) rsnTRUNC
    | .done => endFrame ((copiesOf s id).foldl (fun s k => markBad s k rsnTRUNC) s) id
    | _ => (id :: copiesOf s id).foldl (fun s k => markBad s k rsnTRUNC) s) s
  let s := txDown s p
  let s := clearPauses s p
  let lanes := portLanes s p
  let s := lanes.foldl synceLane s
  if p = 256 then fs s pgHP F.HP_HP_STATUS_LINK_DOWN_SEEN 1 else fs s (portB p) F.PORT_PORT_STATUS_LINK_DOWN_SEEN 1

/-- A port's link state commits at an edge (R80, R83). -/
def linkEdge (s : State) (p : Nat) : State :=
  let st := linkCode s p
  let n := nextLink s p
  let again := st = 2 && (getP s p).next == some .training
  let s := modP s p (fun P => { P with next := none })
  if n = st ∧ ¬ again then s
  else
    let s := setLink s p n
    let s := if st = 3 then leaveUp s p else s
    let s := if n = 3 then
        (if p < 256 then fs s (portB p) F.PORT_PORT_STATUS_REMOTE_FAULT 0 else s) else s
    let s := if n = 1 ∨ n = 0 then restartLanes s p else s
    let s := modP s p (fun P => { P with
      holdSince := if n = 4 then some (plyNat s) else none, trained := decide (n = 2 ∨ n = 3 ∨ n = 4),
      retryAt := if n = 0 then none else P.retryAt })
    if st = 3 ∨ n = 3 then linkChange s p else s

/-- Every port's link state at an edge. -/
def linkEdges (s : State) : State :=
  (List.range 257).foldl (fun s p => if linkCode s p = 0 ∧ ¬ linkEnabled s p then s else linkEdge s p) s

/-! PFC (R85-R90). -/

/-- Ply that `quanta` last on port `p`: quanta × 512 bit times at the port's rate, up to the first edge at or after
(R87). -/
def pausePly (s : State) (p quanta : Nat) : Nat :=
  let r := max 1 (portRate s p)
  (quanta * 512 + 40 * r - 1) / (40 * r)

/-- Show PAUSED and follow each class's pause for the watchdog (R90). -/
def pauseEval (s : State) (p : Nat) : State :=
  let mask := (getP s p).pauseEnd.foldl (fun m e => m ||| 2 ^ e.1) 0
  let s := fs s (portB p) F.PORT_PORT_STATUS_PAUSED mask
  upTo 8 (fun s c =>
    modP s p (fun P =>
      if paused s p c then
        { P with pausedAt := if tget (fun _ => 0) P.pausedAt c = 0 then tset (fun _ => 0) P.pausedAt c (plyNat s + 1)
                             else P.pausedAt }
      else { P with pausedAt := tset (fun _ => 0) P.pausedAt c 0,
                    wdDrop := if P.wdDrop.testBit c then P.wdDrop - 2 ^ c else P.wdDrop })) s

/-- A good PFC frame loads its enabled priorities (R85, R88). -/
def pfcReceive (s : State) (p : Nat) (enable : Byte) (quanta : List (BitVec 16)) (good : Bool) : State :=
  if !good then s
  else
    let s := bumpPort s p R.PORT_RX_PFC 1
    let en := fg s (portB p) F.PORT_PORT_CTRL_PFC_RX_EN
    if !isUp s p then s
    else
      upTo 8 (fun s i =>
        if enable.getLsbD i && en.testBit i then
          modP s p (fun P =>
            let kept := P.loads.filter (fun l => !(l.prio == i && l.ply == plyNat s))
            { P with loads := kept ++ [⟨i, (quanta.getD i 0).toNat, plyNat s⟩] })
        else s) s

/-- Loads two ply old take hold (R86, R87). -/
def pfcHold (s : State) (p : Nat) : State :=
  let due := (getP s p).loads.filter (fun l => decide (l.ply + 2 ≤ plyNat s))
  if due.isEmpty then s
  else
    let s := modP s p (fun P => { P with loads := P.loads.filter (fun l => decide (plyNat s < l.ply + 2)) })
    let s := due.foldl (fun s l =>
      let e := if l.quanta = 0 then 0 else l.ply + 2 + pausePly s p l.quanta
      modP s p (fun P => { P with pauseEnd := tset (fun _ => 0) P.pauseEnd l.prio e })) s
    pauseEval s p

/-- A pause timer expires (R87); a frame acted on in the same ply governs (R88). -/
def pfcExpire (s : State) (p i : Nat) : State :=
  let P := getP s p
  let e := tget (fun _ => 0) P.pauseEnd i
  if e = 0 ∨ plyNat s < e ∨ P.loads.any (fun l => l.prio == i && l.ply + 1 == e) then s
  else pauseEval (modP s p (fun P => { P with pauseEnd := tset (fun _ => 0) P.pauseEnd i 0 })) p

def pfcPrio (s : State) (p : Nat) (b : Bool) : Nat :=
  fg s (portB p) (if b then F.PORT_PFC_CTRL_PRIO_B else F.PORT_PFC_CTRL_PRIO_A)

/-- Send one PFC frame (R89). -/
def pfcSend (s : State) (p : Nat) (b : Bool) (quanta : Nat) : State :=
  let s := emit (bumpPort s p R.PORT_TX_PFC 1) (.pfc p (pfcPrio s p b) quanta)
  modP s p (fun P => if b then { P with pfcB := none, pfcLastB := plyNat s } else { P with pfcA := none, pfcLastA := plyNat s })

/-- The PFC frame due on an XOFF change. -/
def pfcSendDue (s : State) (p : Nat) (b : Bool) : State :=
  let P := getP s p
  match (if b then P.pfcB else P.pfcA) with
  | some q => if isUp s p then pfcSend s p b q else s
  | none => s

/-- REFRESH in ply; 0 acts as half the TX_QUANTA time (R93). -/
def pfcInterval (s : State) (p : Nat) : Nat :=
  let r := fg s (portB p) F.PORT_PFC_TIMING_REFRESH
  if r = 0 then fg s (portB p) F.PORT_PFC_TIMING_TX_QUANTA * 512 / (max 1 (portRate s p) * 80) else r

/-- The repeat while XOFF holds (R89). -/
def pfcRefreshOp (s : State) (p : Nat) (b : Bool) : State :=
  let P := getP s p
  let held := fgb s (accB p) (if b then F.ACC_LL_STATUS_XOFF_B else F.ACC_LL_STATUS_XOFF_A)
  let en := fgb s (portB p) (if b then F.PORT_PFC_CTRL_PRIO_B_EN else F.PORT_PFC_CTRL_PRIO_A_EN)
  let last := if b then P.pfcLastB else P.pfcLastA
  if held && en && isUp s p && decide (last + pfcInterval s p ≤ plyNat s) then
    pfcSend s p b (fg s (portB p) F.PORT_PFC_TIMING_TX_QUANTA)
  else s

/-- A class paused for longer than PFC_WD (R90). -/
def pfcWatchdog (s : State) (p c : Nat) : State :=
  let t := tget (fun _ => 0) (getP s p).pausedAt c
  let wd := fg s (portB p) F.PORT_LINK_TIMING_PFC_WD
  if wd = 0 ∨ t = 0 ∨ plyNat s < t + 25 * wd then s
  else
    let s := raise (fs s (portB p) F.PORT_PORT_STATUS_PFC_STORM 1) (0x020 + p / 8) (8 + p % 8)
    if fgb s (portB p) F.PORT_PFC_CTRL_WD_DROP then modP s p (fun P => { P with wdDrop := P.wdDrop ||| 2 ^ c }) else s

/-! Commands of lanes and links. -/

/-- RX_SKEW of a lane: its marker against the marker of its port's lowest lane, when they are of one set (R91). -/
def showSkew (low : Nat) (s : State) (l : Nat) : State :=
  let d : Int := ((getL s l).tam : Int) - (getL s low).tam
  if 256 ≤ l ∨ 2 ^ 19 ≤ d.natAbs then s else fs s (laneB l) F.LANE_RX_SKEW_SKEW (trunc 20 d)

/-- A capture latch takes the time of an alignment marker (R73). -/
def latchMarker (s : State) (l dt : Nat) : State :=
  let s := modL s l (fun L => { L with tam := ttNow s dt })
  match portOfLane s l with
  | none => s
  | some p => ((portLanes s p).filter (fun k => k == l || l == p)).foldl (showSkew p) s

/-- A FlexO marker: the time and the lane rate over the preceding pair (R103, R104). -/
def latchFlexO (s : State) (l dt bits : Nat) : State :=
  modL s l (fun L => { L with ratBits := bits, ratTime := ttNow s dt - L.tam, tam := ttNow s dt })

/-- Alignment markers lock on a lane; its delays are measured and delivered (R77, R78, R149). -/
def amLock (s : State) (l rx tx : Nat) : State :=
  let s := if 256 ≤ l then
      let s := fs s pgHP F.HP_HP_RX_DELAY_RX_PMA_DELAY rx
      let s := fs s pgHP F.HP_HP_TX_DELAY_TX_PMA_DELAY tx
      let s := modL s l (fun L => { L with shiftHold := false })
      deliverDelay s l rx tx
    else
      let far := fun (a b : Nat) => decide (64 < max a b - min a b)
      let orx := fg s (laneB l) F.LANE_RX_DELAY_RX_PMA_DELAY
      let otx := fg s (laneB l) F.LANE_TX_DELAY_TX_PMA_DELAY
      let shift := (getL s l).measured && (far orx rx || far otx tx)
      let s := fs s (laneB l) F.LANE_LANE_STATUS_AM_LOCK 1
      let s := fs s (laneB l) F.LANE_RX_DELAY_RX_PMA_DELAY rx
      let s := fs s (laneB l) F.LANE_TX_DELAY_TX_PMA_DELAY tx
      let s := fs s (laneB l) F.LANE_RX_DELAY_DELAY_VALID 1
      let s := if shift then raise s (0x040 + l) 3 else s
      let s := modL s l (fun L => { L with shiftHold := false })
      deliverDelay s l rx tx
  match portOfLane s l with
  | none => s
  | some p =>
    let s := if p = 256 then
        fs s pgHP F.HP_HP_STATUS_DELAYS_VALID (if (getL s 256).measured && (getL s 257).measured then 1 else 0)
      else fs s (portB p) F.PORT_PORT_STATUS_DELAYS_VALID (if (portLanes s p).all (fun k => delayValid s k) then 1 else 0)
    evalHold s p

/-- CDR lock and link training are complete on all lanes (R80). -/
def trainingDone (s : State) (p : Nat) : State :=
  if linkCode s p ≠ 1 ∨ (getP s p).retryAt.isSome then s
  else
    let s := (portLanes s p).foldl (fun s l => if 256 ≤ l then s else
      let s := fs s (laneB l) F.LANE_LANE_STATUS_SIGNAL 1
      let s := fs s (laneB l) F.LANE_LANE_STATUS_CDR_LOCK 1
      let t := fg s (laneB l) F.LANE_LANE_CTRL_IFTYPE
      if t = 1 ∨ t = 2 then fs s (laneB l) F.LANE_LANE_STATUS_TRAIN_DONE 1 else s) s
    modP s p (fun P => { P with next := some .aligning })

/-- The conditions for UP have held for UP_HOLD, or no remote fault came for it in FAULT (R80). -/
def holdExpired (s : State) (p : Nat) : State :=
  match (getP s p).holdSince with
  | none => s
  | some n =>
    if plyNat s < n + upHold s p then s
    else if (linkCode s p = 2 ∧ upReady s p) ∨ linkCode s p = 4 then modP s p (fun P => { P with next := some .up })
    else s

def remoteFault (s : State) (p : Nat) : State :=
  let s := if p < 256 then fs s (portB p) F.PORT_PORT_STATUS_REMOTE_FAULT 1 else s
  if linkCode s p = 3 then modP s p (fun P => { P with next := some .fault })
  else if linkCode s p = 4 then modP s p (fun P => { P with holdSince := some (plyNat s), next := none })
  else s

/-- Loss of lock or a local fault on a port (R80); the state follows at the edge. -/
def linkLost (s : State) (p l : Nat) (c : LinkCause) : State :=
  let lane := l < 256
  let s := match c with
    | .signal | .cdr =>
      if lane then
        let s := if c = .signal then fs s (laneB l) F.LANE_LANE_STATUS_SIGNAL 0 else s
        let s := if fgb s (laneB l) F.LANE_LANE_STATUS_CDR_LOCK then
            raise (fs s (laneB l) F.LANE_LANE_STATUS_CDR_LOCK 0) (0x040 + l) 2 else s
        synceLane s l
      else modP s p (fun P => { P with next := some .training })
    | .markers =>
      if lane then
        let s := if fgb s (laneB l) F.LANE_LANE_STATUS_AM_LOCK then
            raise (fs (fs s (laneB l) F.LANE_LANE_STATUS_AM_LOCK 0) (laneB l) F.LANE_LANE_STATUS_AM_LOST_SEEN 1)
              (0x040 + l) 0 else s
        fs s (laneB l) F.LANE_RX_DELAY_DELAY_VALID 0
      else modP s p (fun P => { P with next := some .training })
    | .highSer =>
      if lane then
        (if fgb s (laneB l) F.LANE_LANE_STATUS_HIGH_SER then s
         else raise (fs s (laneB l) F.LANE_LANE_STATUS_HIGH_SER 1) (0x040 + l) 1)
      else modP s p (fun P => { P with next := some .training })
    | .localFault =>
      if p < 256 then fs s (portB p) F.PORT_PORT_STATUS_LOCAL_FAULT 1
      else modP s p (fun P => { P with next := some .training })
  evalHold s p

/-- Training fails (R80): TRAIN_FAIL, and a retry 1 ms later. -/
def trainFailed (s : State) (l : Nat) : State :=
  match portOfLane s l with
  | none => s
  | some p =>
    if linkCode s p = 1 ∨ linkCode s p = 2 then
      let s := if l < 256 then raise s (0x040 + l) 4 else s
      modP s p (fun P => { P with next := some .training, retryAt := some (plyNat s + 25000) })
    else s

def trainAgain (s : State) (p : Nat) : State :=
  match (getP s p).retryAt with
  | some n => if n ≤ plyNat s then modP s p (fun P => { P with retryAt := none }) else s
  | none => s

/-- An FEC window ends on a lane (R91, R93, R115). -/
def serWindow (s : State) (l errors corrected uncorrected : Nat) : State :=
  let s := if 256 ≤ l then s else
    let high := fg s (laneB l) F.LANE_SER_CTRL_SER_THRESH < errors
    let was := fgb s (laneB l) F.LANE_LANE_STATUS_HIGH_SER
    let s := fs s (laneB l) F.LANE_LANE_STATUS_HIGH_SER (if high then 1 else 0)
    let s := (addRaw s (laneB l + R.LANE_FEC_SYMBOLS) errors).2
    if high && !was then raise s (0x040 + l) 1 else s
  match portOfLane s l with
  | none => s
  | some p =>
    let s := if isClient s p then
        bumpN (bumpN s (frmB (p / 16) + R.FRM_FEC_CORRECTED) corrected) (frmB (p / 16) + R.FRM_FEC_UNCORRECTED) uncorrected
      else s
    let s := bumpPort (bumpPort s p R.PORT_FEC_CORRECTED corrected) p R.PORT_FEC_UNCORRECTED uncorrected
    evalHold s p

end Sys2Proof.Machine
end

