-- ==== Sys2Proof/Machine/Power.lean ====
section
/-! DEFINITION. Ageing, the guard band and its supply requests (R572-R575, R586), the capture-path recalibration (R575),
supplies, clocks and temperatures (R42, R590, R597, R601). -/

namespace Sys2Proof.Machine

abbrev pgAGE : Nat := pb 0x004
abbrev pgCLK : Nat := pb 0x005

def setElec (s : State) (e : ElecSt) : State := { s with elec := e }

/-! The guard band (R573, R586). -/

/-- GB as the formula plans it, mV. -/
def guardBand (s : State) : Nat :=
  min (fg s pgAGE F.AGE_AVS_CFG_GB_MAX)
    (fg s pgAGE F.AGE_AVS_CFG_GB_BASE + fg s pgAGE F.AGE_AVS_CFG_GB_SLOPE * fg s pgAGE F.AGE_DEG_WORST_DEG / 16000)

/-- The guard band that the present request asks for. -/
def requestedGb (s : State) : Nat := fg s pgAGE F.AGE_AVS_STATUS_VREQ - 750

/-- Request V_NOM + `g` from the core regulator, unless that is what it has acknowledged. -/
def requestGb (s : State) (g : Nat) : State :=
  if ¬ fgb s pgAGE F.AGE_AGE_CTRL_AVS_EN then s
  else if g = requestedGb s ∧ fg s pgAGE F.AGE_AVS_STATUS_GB = g then s
  else
    let s := fs s pgAGE F.AGE_AVS_STATUS_VREQ (750 + g)
    emit (setElec s { s.elec with avsWait := some g }) (.avs (16 * (750 + g)))

/-- Re-planning in CALIBRATE: falls are allowed (R563, R573). -/
def replanGb (s : State) : State := requestGb s (guardBand s)

/-- The step of one second: outside CALIBRATE the request only rises, by at most 5 mV; a request not acknowledged is
retried. -/
def stepGb (s : State) : State :=
  match s.md.mode with
  | .live | .drain | .contained | .diagnostic => requestGb s (max (requestedGb s) (min (requestedGb s + 5) (guardBand s)))
  | .reset => s
  | _ => requestGb s (requestedGb s)

/-- AVS_ACK: the request is in force. -/
def avsAckOp (s : State) : State :=
  match s.elec.avsWait with
  | none => s
  | some g =>
    let hit := decide (fg s pgAGE F.AGE_AVS_CFG_GB_MAX ≤ g) && decide (fg s pgAGE F.AGE_AVS_STATUS_GB < g)
    let s := setElec s { s.elec with avsWait := none, gbAcked := g }
    let s := fs (fs s pgAGE F.AGE_AVS_STATUS_GB g) pgCLK F.CLK_REFCLK_STATUS_AVS_ACK 1
    if hit then raise s 0x004 1 else s

/-- AVS_TIMEOUT: GB is held at the value last acknowledged. -/
def avsTimeoutOp (s : State) : State :=
  if s.elec.avsWait.isNone then s
  else
    let s := setElec s { s.elec with avsWait := none }
    raise (fs (fs s pgAGE F.AGE_AVS_STATUS_GB s.elec.gbAcked) pgCLK F.CLK_REFCLK_STATUS_AVS_ACK 0) 0x005 2

/-! The ageing monitor (R572, R574). -/

/-- The largest of the measured degradations and its sensor pair, from pair `k` on. -/
def worstDeg : List Nat → Nat → Nat × Nat → Nat × Nat
  | [], _, w => w
  | d :: ds, k, w => worstDeg ds (k + 1) (if w.2 < min d 65535 then (k, min d 65535) else w)

def ringMeasure (s : State) (degs : List Nat) : State :=
  match degs with
  | [] => s
  | _ =>
    let s := ((List.range 64).zip degs).foldl (fun s e =>
      fs s (pgAGE + 4 * e.1) F.AGE_RO_DEG_DEG (min e.2 65535)) s
    let old := fg s pgAGE F.AGE_DEG_WORST_DEG
    let w := worstDeg (degs.take 64) 0 (0, 0)
    let s := fs (fs s pgAGE F.AGE_DEG_WORST_PAIR w.1) pgAGE F.AGE_DEG_WORST_DEG w.2
    let warn := fg s pgAGE F.AGE_DEG_WARN_DEG
    if old ≤ warn ∧ warn < w.2 then raise s 0x004 0 else s

/-- One lane's eye measurement. -/
def eyeMeasure (s : State) (e : Nat × Nat × Nat) : State :=
  let l := e.1
  match portOfLane s l with
  | none => s
  | some p =>
    if ¬ isUp s p ∨ 256 ≤ l then s
    else
      let s := fs (fs s (laneB l) F.LANE_EYE_EYE_HEIGHT e.2.1) (laneB l) F.LANE_EYE_EYE_WIDTH e.2.2
      if fg s pgAGE F.AGE_EYE_MIN_EYE_MIN_H ≤ e.2.1 ∧ fg s pgAGE F.AGE_EYE_MIN_EYE_MIN_W ≤ e.2.2 then
        modL s l (fun L => { L with eyeLow := 0 })
      else
        let s := modL s l (fun L => { L with eyeLow := L.eyeLow + 1 })
        if (getL s l).eyeLow ≠ 10 then s
        else
          let s := setBit s (pgAGE + R.AGE_LANE_MARGIN + 4 * (l / 32)) (l % 32) true
          raise (setElec s { s.elec with reEq := s.elec.reEq.filter (· ≠ l) ++ [l] }) 0x004 2

/-- Lanes whose port trains are re-equalized by it (R574). -/
def reEqDone (s : State) : State :=
  setElec s { s.elec with reEq := s.elec.reEq.filter (fun l =>
    match portOfLane s l with
    | some p => linkCode s p != 1
    | none => true) }

/-- AGEING_MEASUREMENT. -/
def ageingOp (s : State) (degs : List Nat) (eyes : List (Nat × Nat × Nat)) : State :=
  if inReset s then s else stepGb (eyes.foldl eyeMeasure (ringMeasure s degs))

/-! Capture-path recalibration (R575). -/

/-- CAPTURE_PATH_RECAL: the drift of a lane beyond its increments is `delta`. -/
def recalOp (s : State) (lane : Nat) (delta : Int) : State :=
  let modeOk : Bool := match s.md.mode with
    | .calibrate | .live | .drain => true
    | _ => false
  let step := max 1 (fg s pgAGE F.AGE_AGE_CTRL_RECAL_STEP)
  let last := tget (fun _ => 0) s.elec.recalAt lane
  let early : Bool := last ≠ 0 && decide (ttNow s 0 + 1 < last + fg s pgAGE F.AGE_AGE_CTRL_RECAL_MIN * sec256)
  if ¬ modeOk ∨ ¬ s.elec.island ∨ ¬ fgb s pgAGE F.AGE_AGE_CTRL_RECAL_EN ∨ delta.natAbs < step ∨ early then s
  else
    let b := pgCAL + 4 * lane
    let a := pgCAL + R.CAL_LANE_TRIM + 4 * lane
    let old := rawRd s a
    let new := BitVec.ofNat 32 (trunc 16 (sext 16 (fg s b F.CAL_LANE_TRIM_TRIM) + delta))
    let apply := fun (s : State) =>
      let tot := sext 16 (fg s (pgAGE + 4 * lane) F.AGE_RECAL_TOTAL_TOTAL) + delta
      let s := fs (rawWr s a new) (pgAGE + 4 * lane) F.AGE_RECAL_TOTAL_TOTAL (trunc 16 tot)
      setElec s { s.elec with recalAt := tset (fun _ => 0) s.elec.recalAt lane (ttNow s 0 + 1) }
    if s.sl.isSealed then
      let r := sealedWrite s 2 a old new
      if r.1 then apply r.2 else raise r.2 0x016 evRECAL_LIMIT
    else if ¬ s.fuse.sealCap then apply s
    else if ¬ logRoom s then raise s 0x016 evSEAL_LOG_FULL
    else apply (sealLog s a 2 old.toNat new.toNat 0)

/-! Clocks (R42, R593, R601). -/

/-- CORE_PLL_LOCK_LOST. -/
def lockLost (s : State) : State :=
  if ¬ fgb s pgCLK F.CLK_PLY_STATUS_CORE_LOCK then s
  else raise (fs (fs s pgCLK F.CLK_PLY_STATUS_CORE_LOCK 0) pgCLK F.CLK_PLY_STATUS_LOCK_LOST 1) 0x005 0

def lockRegained (s : State) : State :=
  if inReset s then s else fs s pgCLK F.CLK_PLY_STATUS_CORE_LOCK 1

/-- The modes in which a reference input is used (log entry 26): the die's inputs in every mode but RESET, the SerDes
references where ports run, Skyline's and the Tally's always. -/
def refclkUsed (s : State) (i : Nat) : Bool :=
  if i = 0 then !inReset s
  else if i < 5 then
    match s.md.mode with
    | .reset | .boot | .dormant => false
    | _ => true
  else true

/-- The condition of REFCLK_LOSS: a used input out of specification. -/
def refclkEval (s : State) : State :=
  let w := rawRd s (pgCLK + R.CLK_REFCLK_STATUS)
  setLevel s 0x005 4 ((List.range 7).any (fun i => refclkUsed s i && !w.getLsbD i))

/-- REFCLK_LOSS and REFCLK_RESTORED. Input 7 of the operand names no input. -/
def refclkOp (s : State) (i : Nat) (ok : Bool) : State :=
  if 7 ≤ i then s else refclkEval (setBit s (pgCLK + R.CLK_REFCLK_STATUS) i ok)

/-! Temperatures (R597). -/

def hottest : List Int → Nat → Nat × Int → Nat × Int
  | [], _, w => w
  | t :: ts, k, w => hottest ts (k + 1) (if w.2 < t then (k, t) else w)

/-- TEMP_MAX, TLY_TEMP and TEMP_ALERT at an edge. -/
def tempEdge (s : State) (temps : List Int) (tly : Int) : State :=
  match temps with
  | [] => s
  | t :: ts =>
    let w := hottest (ts.take 31) 1 (0, t)
    let s := fs (fs s pgCLK F.CLK_TEMP_STATUS_TEMP_MAX (trunc 8 w.2)) pgCLK F.CLK_TEMP_STATUS_TLY_TEMP (trunc 8 tly)
    let s := fs s pgCLK F.CLK_TEMP_STATUS_HOT_SENSOR w.1
    let alert : Int := min 119 (fg s pgCLK F.CLK_TEMP_CTRL_ALERT : Nat)
    setLevel s 0x005 1 (decide (alert < w.2))

/-! The Tally island's power and firmware (R118, R425, R426, R548, R549, R591, R592, R604). -/

/-- Modes in which a restart of the island is the FATAL event TALLY_LOST (R592). -/
def tallyLost (s : State) : State :=
  match s.md.mode with
  | .live | .drain | .diagnostic => raise s 0x005 3
  | _ => s

/-- What a register of the island holds through a power-on of the island: seal state, and while SEALED the sealed fields
(log entry 27). -/
def islandKeeps (s : State) (a : Nat) : Bool :=
  !tallyPage (a / 0x1000) ||
  (a / 0x1000 == 0x016 && (a % 0x1000 == R.SEAL_SEAL_STATE || a % 0x1000 == R.SEAL_EVENT_COUNT ||
    a % 0x1000 == R.SEAL_CAL_TOL || a % 0x1000 == R.SEAL_LOG_INDEX ||
    (decide (R.SEAL_SEALED_DIGEST ≤ a % 0x1000) && decide (a % 0x1000 < R.SEAL_SEALED_DIGEST + 32)))) ||
  (s.sl.isSealed && sealedMask s a != 0)

/-- The evidence state after a power-on of the island: the Book, and in D variants the export buffer, are emptied; the
spill ring of H variants stands in flow memory and is kept. -/
def islandEvidence (s : State) : EvSt :=
  let e := s.ev
  let h := s.fuse.hbm
  { flowSeq := e.flowSeq, tierNext := e.tierNext, tier := if h then e.tier else [],
    tierUsed := if h then e.tierUsed else 0, exportSeq := e.exportSeq, dieStart := e.dieStart,
    exports := e.exports.filter (fun x => x.kind != 2 && (h || x.kind != 1)),
    nextPlace := if h then e.nextPlace else e.tierNext, nextLog := e.nextLog }

/-- TALLY_POWER_ON. -/
def tallyPowerOp (s : State) : State :=
  let s := tallyLost s
  let kept := fun (t : Tab Word) => tdropIf (fun a => !islandKeeps s a) t
  let s := { s with
    regs := kept s.regs
    eff := kept s.eff
    ref := {}
    ev := islandEvidence s
    sl := { s.sl with busy := false, waiting := none, result := 0 }
    tm := { s.tm with ttAcc := 0, edgeTT := 0, tickTT := 0 }
    flt := { s.flt with
      held := tdropIf (fun k => tallyPage (k / 32)) s.flt.held
      unread := tdropIf (fun k => tallyPage (k / 32)) s.flt.unread
      refAlarm := 0
      occ := s.flt.occ.filter (fun o => !tallyPage (pageOfSource o.source)) } }
  let s := (s.lanes.map (fun e => e.1)).foldl (fun s l =>
    modL s l (fun L => { L with shiftHold := false, failed := false, failures := 0, held := false })) s
  let s := setBit (setBit s (pgCLK + R.CLK_SUPPLY_STATUS) 7 true) (pgCLK + R.CLK_SUPPLY_STATUS) 8 true
  let s := setElec s { s.elec with island := true, firmware := false }
  refclkEval (setBit s (pgCLK + R.CLK_REFCLK_STATUS) 6 true)

/-- TALLY_RAIL_LOSS: rails 7 and 8. -/
def tallyRailOp (s : State) (rail : Nat) : State :=
  if rail ≠ 7 ∧ rail ≠ 8 then s
  else
    let s := tallyLost (setBit s (pgCLK + R.CLK_SUPPLY_STATUS) rail false)
    fs (setElec s { s.elec with island := false, firmware := false }) pgTT F.TT_TIME_STATE_TIME_SET 0

/-- The start of an authentic Tally firmware image, unless R549 refuses its change. -/
def firmwareStart (s : State) (img : List Byte) (keyOk e0 e1 : Bool) : State :=
  let digest := sha256 img
  let ver := beAt img 8 4
  let change := s.sl.isSealed && !s.elec.lastDigest.isEmpty && digest != s.elec.lastDigest
  if change && !logRoom s then raise s 0x016 evSEAL_LOG_FULL
  else if change && s.sl.eventCount == 0xFFFFFFFF then s
  else
    let s := if change then
        let s := setEventCount s (s.sl.eventCount + 1)
        raise (sealLog s 0x015044 2 s.elec.lastVersion ver 0) 0x016 evPARAM_EVENT
      else s
    let s := setElec s { s.elec with firmware := true, lastDigest := digest, lastVersion := ver }
    let s := if beAt img 5 1 / 2 % 2 = 1 then
        setBoot s { s.boot with advance := tset (fun _ => 0) s.boot.advance 5 (min 63 (beAt img 7 1)) } else s
    let s := orBits s F.BOOT_BOOT_STATUS_KIND_OK 4
    let s := wrWords (rawWr s (pgSGN + R.SGN_SW_VERSION) (BitVec.ofNat 32 ver)) (pgSGN + R.SGN_SW_DIGEST) (packWords 8 digest)
    let s := wrWords s (pgSGN + R.SGN_PUBKEY_N) (packWords 96 s.fuse.tallyKey)
    let s := wrWords s (pgSGN + R.SGN_TALLY_CERT) (packWords 292 s.fuse.tallyCert)
    let s := upTo 8 (fun s k => rawWr s (pb (0x010 + k) + oEVT_ENABLE) (enableWord (0x010 + k))) s
    let s := fs s pgSGN F.SGN_SIGN_STATUS_RNG_OK 1
    let s := fs (fs s pgSGN F.SGN_SIGN_STATUS_ENGINE0_OK (if e0 then 1 else 0)) pgSGN F.SGN_SIGN_STATUS_ENGINE1_OK
      (if e1 then 1 else 0)
    let s := if e0 && e1 then s else raise s 0x015 0
    let s := if keyOk then fs s pgSGN F.SGN_SIGN_STATUS_KEY_READY 1 else raise s 0x015 1
    drawNonce s

/-- TALLY_FIRMWARE_LOADED: the first authentic copy of TALLY_FW runs; with none the island stays in its ROM. -/
def firmwareOp (s : State) (copy0 copy1 : List Byte) (keyOk e0 e1 : Bool) : State :=
  if ¬ s.elec.island ∨ s.elec.firmware then s
  else if imageCheck s 5 copy0 = 0 then firmwareStart s copy0 keyOk e0 e1
  else if imageCheck s 5 copy1 = 0 then firmwareStart s copy1 keyOk e0 e1
  else s

end Sys2Proof.Machine
end

