-- ==== Sys2Proof/Machine/Modes.lean ====
section
/-! DEFINITION. The operating modes (R559-R570): requests, their check at the edge, entry to each mode, the DORMANT and
CALIBRATE procedures, and the reset of the die (R509, R570, R589, R590, R597, R604, R605). -/

namespace Sys2Proof.Machine

/-- MODE_STATUS.MODE (R559). -/
def Mode.code : Mode → Nat
  | .reset => 0 | .boot => 1 | .calibrate => 2 | .live => 3 | .drain => 4 | .dormant => 5 | .contained => 6
  | .diagnostic => 7

/-- The mode that MODE_REQ.TARGET names. -/
def Mode.ofCode : Nat → Mode
  | 0 => .reset | 1 => .boot | 2 => .calibrate | 3 => .live | 4 => .drain | 5 => .dormant | 6 => .contained
  | _ => .diagnostic

def setMd (s : State) (m : ModeSt) : State := { s with md := m }

/-- No ply edge falls (R603). -/
def plyStopped (s : State) : Bool := inReset s || !fgb s pgCLK F.CLK_PLY_STATUS_CORE_LOCK

/-! Requests (R562). -/

abbrev mrBAD_TRANSITION : Nat := 1
abbrev mrBUSY : Nat := 2
abbrev mrFATAL_HELD : Nat := 3
abbrev mrNOT_READY : Nat := 4
abbrev mrLIFECYCLE : Nat := 5
abbrev mrDENIED : Nat := 6

def refuseMode (s : State) (r : Nat) : State := raise (fs s pgMOD F.MOD_MODE_STATUS_RESULT r) 0x001 1

/-- A write to MODE_REQ: it waits for the edge; with the ply counter stopped it is refused at once; of a Skyline and a
core request of one cycle the Skyline one governs. Otherwise the last write of a ply is the request. -/
def modeReqOp (s : State) (bySky : Bool) (target : Mode) (force : Bool) : State :=
  let r : ModeReq := { target := target, force := force, bySky := bySky, cycle := cycleNow s }
  if plyStopped s then refuseMode s mrBUSY
  else match s.md.req with
  | some p =>
    if p.cycle = r.cycle ∧ p.bySky ≠ bySky then
      refuseMode (if bySky then setMd s { s.md with req := some r } else s) mrBUSY
    else setMd s { s.md with req := some r }
  | none => setMd s { s.md with req := some r }

/-! DRAIN_DONE (R566). -/

/-- The five conditions. -/
def drainDone (s : State) : Bool :=
  s.frames.all (fun e => !e.2.live || e.2.stage == .done || e.2.exportSeq != 0) &&
  s.arb.stores.all (fun e => e.2.isEmpty) && s.arb.erStore.isEmpty && s.ev.pend.isEmpty &&
  (!fgb s pgMOD F.MOD_DRAIN_CTRL_WAIT_EXPORT || (s.ev.bookUsed == 0 && s.ev.tierUsed == 0 && s.ev.tierReserved == 0))

/-- DRAIN_DONE at an edge; once it has read 1 the timeout is no longer due. -/
def drainEdge (s : State) : State :=
  let d := s.md.mode == .drain && drainDone s
  let s := fs s pgMOD F.MOD_MODE_STATUS_DRAIN_DONE (if d then 1 else 0)
  if d then setMd s { s.md with drainWarned := true } else s

/-- DRAIN_TIMEOUT. -/
def drainTimeoutOp (s : State) : State :=
  if s.md.mode = .drain ∧ ¬ s.md.drainWarned ∧
      s.md.drainPly + 25 * fg s pgMOD F.MOD_DRAIN_CTRL_DRAIN_MAX ≤ plyNat s then
    raise (setMd s { s.md with drainWarned := true }) 0x001 2
  else s

/-! The check at the edge (R561): 0 when the request is accepted. With several conditions unmet the order is lifecycle,
FATAL_HELD, NOT_READY (log entry 28). -/

def kernelOk (s : State) : Bool := (fg s pgBOOT F.BOOT_BOOT_STATUS_KIND_OK).testBit 3

def modeCheck (s : State) (r : ModeReq) : Nat :=
  let calDone := fgb s pgMOD F.MOD_MODE_STATUS_CAL_DONE
  let timeSet := fgb s pgTT F.TT_TIME_STATE_TIME_SET
  let first := fun (l : List (Bool × Nat)) => match l.find? (fun e => !e.1) with
    | some e => e.2
    | none => 0
  let field : Bool × Nat := (!s.fuse.returned, mrLIFECYCLE)
  let noFatal : Bool × Nat := (!fatalHeld s, mrFATAL_HELD)
  if s.md.busy then mrBUSY
  else if r.target = .reset then 0
  else if s.md.stay then mrFATAL_HELD
  else match s.md.mode, r.target with
  | .boot, .calibrate => first [(kernelOk s || s.fuse.returned, mrNOT_READY)]
  | .calibrate, .live => first [field, noFatal, (calDone, mrNOT_READY), (timeSet, mrNOT_READY)]
  | .calibrate, .diagnostic => first [noFatal, (calDone, mrNOT_READY)]
  | .live, .drain => first [field]
  | .drain, .live => first [field, (timeSet, mrNOT_READY)]
  | .drain, .dormant => first [(r.force || drainDone s, mrNOT_READY)]
  | .dormant, .calibrate => 0
  | .contained, .live => first [field, noFatal, (timeSet, mrNOT_READY)]
  | .contained, .drain => first [field, noFatal]
  | .contained, .diagnostic => first [noFatal]
  | .diagnostic, .calibrate => 0
  | _, _ => mrBAD_TRANSITION

/-! Entry to the modes. -/

/-- The mode changes: MODE_PLY and MODE_CHANGE. -/
def setMode (s : State) (m : Mode) : State :=
  let s := setMd s { s.md with mode := m, busy := false, step := 0 }
  let s := fs s pgMOD F.MOD_MODE_STATUS_DRAIN_DONE 0
  refclkEval (raise (wr64 s (pgMOD + R.MOD_MODE_PLY) (plyNat s)) 0x001 0)

/-- CONTAINED by occurrence `o` (R509, R510, R185). -/
def enterContained (s : State) (o : Option FatalOcc) : State :=
  let s := setMode (abortAll s) .contained
  let s := match o with
    | some o =>
      if fgb s pgFA F.FA_FIRST_FATAL_VALID then s
      else
        let s := fs (fs s pgFA F.FA_FIRST_FATAL_SOURCE o.source) pgFA F.FA_FIRST_FATAL_EVENT o.event
        let s := fs (fs s pgFA F.FA_FIRST_FATAL_INJECTED (if o.inj then 1 else 0)) pgFA F.FA_FIRST_FATAL_ESCALATED
          (if o.esc then 1 else 0)
        wr64 (fs s pgFA F.FA_FIRST_FATAL_VALID 1) (pgFA + R.FA_FIRST_FATAL_PLY) o.ply
    | none => s
  raise (bump s (pgFA + R.FA_CONTAINMENTS)) 0x006 9

/-- The earliest FATAL occurrence still held (R509). -/
def firstHeld (s : State) : Option FatalOcc :=
  s.flt.occ.foldl (fun a o =>
    if heldClass s (pageOfSource o.source) o.event ≠ clsFATAL then a
    else match a with
      | none => some o
      | some p => if o.before p then some o else a) none

/-- LIVE (R564): buckets full, deficits 0, the age floor. -/
def enterLive (s : State) : State :=
  let s := setMode s .live
  let s := upTo 8 fillPolicers (upTo 265 fillPort s)
  setMd s { s.md with ageFloor := s.tm.edgeTT }

/-- DRAIN (R565). -/
def enterDrain (s : State) : State :=
  let s := setMode s .drain
  setMd s { s.md with drainPly := plyNat s, drainWarned := false }

/-- DIAGNOSTIC: routines and queued packets are aborted (R185). -/
def enterDiagnostic (s : State) : State := setMode (abortAll s) .diagnostic

/-- Discard every frame and copy in the device; the Tally records metered ones as dropped with reason MODE (R346). Frames
not yet classified take their port's class (R560). -/
def discardEvery (s : State) : State :=
  let s := (framesWhere s (fun _ f => f.live && f.stage != .done)).foldl (fun s id =>
    let f := getF s id
    match f.stage with
    | .fifo | .parse | .classify => dropUnparsed s id (portMeter s f.cap.port) rsnMODE
    | _ => dropFrame s id rsnMODE) s
  { s with
    core := { s.core with flight := [], lost := [], spray := [], reseq := [], nextSeq := [] }
    cls := { s.cls with hold := [], fragDue := [] }
    fl := { s.fl with outs := [], queue := [] } }

/-! DORMANT (R567, R568). -/

/-- Step 5 and 6 in the order of the table; D variants have no work in step 5. -/
def dormantPower (s : State) : State :=
  let s := if s.fuse.hbm then
      setFl s { s.fl with deck := [], wbuf := [], dir := [], bound := [] }
    else s
  let s := returnThreads s
  let s := (List.range 16).foldl (fun s c => if c = 0 then s else stopCore s c) s
  let s := fs s pgDSP F.DSP_CORE_RUN_RUN 1
  if s.fuse.hbm then upTo 16 srEnterOp (setMd s { s.md with step := 5 }) else setMd s { s.md with step := 6 }

def enterDormant (s : State) : State :=
  let s := setMode (discardEvery (abortAll s)) .dormant
  if s.fuse.hbm then flushAll (setMd s { s.md with busy := true, step := 2, srTries := [] })
  else dormantPower (setMd s { s.md with busy := true })

/-- The last flushed record has been acknowledged: the procedure goes on. -/
def dormantFlushed (s : State) : State :=
  if s.md.mode = .dormant ∧ s.md.busy ∧ s.md.step = 2 ∧ ¬ s.fl.flushing then dormantPower s else s

/-- FLUSH_COMPLETE. -/
def flushCompleteOp (s : State) : State := dormantFlushed (flushDone s)

def srTries (s : State) (c : Nat) : Nat := tget (fun _ => 0) s.md.srTries c

/-- SR_ENTER_RETRY: ENTER again while the controller is ACTIVE; after the last attempt SR_ENTRY_FAIL, once. -/
def srRetryOp (s : State) (c : Nat) : State :=
  if s.md.mode ≠ .dormant ∨ ¬ s.md.busy ∨ s.md.step ≠ 5 ∨ srState s c ≠ srACTIVE ∨ ¬ trained s c then s
  else
    let n := srTries s c
    let s := setMd s { s.md with srTries := tset (fun _ => 0) s.md.srTries c (min 1001 (n + 1)) }
    if n < 1000 then srEnterOp (bump s (pgMOD + R.MOD_SR_RETRIES)) c
    else if n = 1000 then raise s 0x001 3
    else s

/-- The controller has done its part of step 5. -/
def srSettled (s : State) (c : Nat) : Bool :=
  !trained s c || srState s c == srSELF || srState s c == srEXITING || srTries s c == 1001

/-- DORMANT_COMPLETE. -/
def dormantDoneOp (s : State) : State :=
  if s.md.mode = .dormant ∧ s.md.busy ∧ 5 ≤ s.md.step ∧ (¬ s.fuse.hbm ∨ (List.range 16).all (srSettled s)) then
    setMd s { s.md with busy := false, step := 0 }
  else s

/-! CALIBRATE (R563, R569). -/

/-- Controllers enter their work: out of self-refresh, and on a cold pass untrained. -/
def calController (warm : Bool) (s : State) (c : Nat) : State :=
  let s := if srState s c = srACTIVE then s
    else srExitOp s c (setBits (rawRd s (mcB c + R.HBM_SR_CTRL)) 1 1 1)
  if warm then (if retrainDue s c then modM s c (fun m => { m with swept := [], failedOnce := [] }) else s)
  else modM (fs s (mcB c) F.HBM_MC_STATUS_TRAINED 0) c (fun m => { m with swept := [], failedOnce := [] })

/-- Places of the spill ring not yet freed are lost: LOST_RECORDS, EVIDENCE_LOST (R430). -/
def loseRing (s : State) : State :=
  if ¬ s.fuse.hbm then s
  else
    let n := s.ev.tierUsed
    let s := { s with ev := { s.ev with
      tier := [], tierUsed := 0, nextPlace := s.ev.tierNext, exports := s.ev.exports.filter (fun x => x.kind != 1) } }
    if n = 0 then s else raise (bumpN s (pgEV + R.EV_LOST_RECORDS) n) 0x014 evEVIDENCE_LOST

def ringPreserved (s : State) : Bool := (List.range 16).all (fun c => fgb s (mcB c) F.HBM_MC_STATUS_PRESERVED)

/-- The flow-state tables that a cold pass clears with flow memory and the Decks. -/
def clearFlows (s : State) : State :=
  setFl s { s.fl with
    deck := [], wbuf := [], wbq := [], dir := [], bound := [], bad := [], pend := [], freeHead := [], fresh := 0,
    freeTail := [], sel := [], ageDue := [], insTT := [], flushing := false }

def enterCalibrate (s : State) (warm : Bool) : State :=
  let fromBoot := s.md.mode == .boot
  let s := if warm || fromBoot then s else abortAll s
  let s := if warm || fromBoot || ringPreserved s then s else loseRing s
  let s := setMode s .calibrate
  let s := fs (fs s pgMOD F.MOD_MODE_STATUS_CAL_DONE 0) pgMOD F.MOD_MODE_STATUS_WARM (if warm then 1 else 0)
  let s := setMd (fs s pgCAL F.CAL_CAL_STATE_LATCH_CAL_DONE 0) { s.md with latchFailed := false }
  let s := if s.fuse.hbm then upTo 16 (calController warm) s else s
  let s := if warm then s else clearFlows s
  if fromBoot then startCores s else s

/-- Every item of the pass but the latches is done: controllers trained and ACTIVE, sweeps that were due made. -/
def hbmReady (s : State) : Bool :=
  !s.fuse.hbm || (List.range 16).all (fun c => trained s c && srState s c == srACTIVE && !retrainDue s c)

/-- CALIBRATE_COMPLETE: the latches' holds end with the pass (R145), the guard band is re-planned. -/
def calibrateDoneOp (s : State) : State :=
  if s.md.mode ≠ .calibrate ∨ fgb s pgMOD F.MOD_MODE_STATUS_CAL_DONE ∨ s.md.latchFailed ∨ ¬ hbmReady s then s
  else
    let s := fs (fs s pgMOD F.MOD_MODE_STATUS_CAL_DONE 1) pgCAL F.CAL_CAL_STATE_LATCH_CAL_DONE 1
    let s := (s.lanes.map (fun e => e.1)).foldl (fun s l =>
      modL s l (fun L => { L with failed := false, failures := 0, held := false })) s
    replanGb (setLevel s 0x010 evLATCH_HELD false)

/-- LATCH_CAL_FAIL. -/
def latchFailOp (s : State) : State :=
  if s.md.mode ≠ .calibrate ∨ fgb s pgMOD F.MOD_MODE_STATUS_CAL_DONE then s
  else raise (setMd s { s.md with latchFailed := true }) 0x001 4

/-! RESET (R570, R589, R590, R604, R605). -/

/-- Registers that a reset of the die keeps: `hard` for RST_N, under-voltage and trips; `rails`: the die rails stayed
valid. -/
def resetKeeps (hard rails : Bool) (a : Nat) : Bool :=
  let page := a / 0x1000
  let o := a % 0x1000
  if tallyPage page then true
  else if page = 0x005 then rails && o != oPAGE_CTRL && o != R.CLK_TEMP_CTRL
  else if page = 0x006 then rails && o != oPAGE_CTRL && o != R.FA_FA_CTRL && o != R.FA_LOG_INDEX
  else if page = 0x008 then !hard
  else if page = 0x003 then o == R.BOOT_STRAP || (!hard && o == R.BOOT_BOOT_CTRL)
  else page == 0x004 && decide (R.AGE_RECAL_TOTAL ≤ o) && decide (o < R.AGE_RECAL_TOTAL + 0x400)

/-- Pages whose event state the reset keeps (R604). -/
def eventsKept (hard rails : Bool) (page : Nat) : Bool :=
  tallyPage page || (rails && (page == 0x005 || page == 0x006)) || (!hard && page == 0x008)

/-- The lane's part that stands at the Tally. -/
def laneKept (L : LaneSt) : LaneSt :=
  { rxDelay := L.rxDelay, txDelay := L.txDelay, newDelay := L.newDelay, measured := L.measured, shiftHold := L.shiftHold,
    failed := L.failed, failures := L.failures, held := L.held }

/-- The fault aggregator after a reset: the log and what is held of kept pages (R514, R604). -/
def faultKept (hard rails : Bool) (f : FaultSt) : FaultSt :=
  let kept := fun (k : Nat) => eventsKept hard rails (k / 32)
  let f' : FaultSt := if rails then f else {}
  { f' with
    held := tdropIf (fun k => !kept k) f.held
    unread := tdropIf (fun k => !kept k) f.unread
    refAlarm := f.refAlarm, contain := none
    occ := f.occ.filter (fun o => eventsKept hard rails (pageOfSource o.source)) }

/-- The state after the die has entered RESET: everything not listed here is at its reset value. `pres`: the controllers
whose memory is preserved (R310). -/
def dieReset (s : State) (hard rails : Bool) (pres : Nat → Bool) : State :=
  let t : State := {
    tm := { s.tm with ply := 0, cycle := 0, firstEdge := true, kernelTick := false }
    regs := tdropIf (fun a => !resetKeeps hard rails a) s.regs
    eff := tdropIf (fun a => !resetKeeps hard rails a) s.eff
    latch := s.latch, reply := s.reply, out := s.out, freeIx := s.freeIx
    flt := faultKept hard rails s.flt
    lanes := (s.lanes.map (fun e => (e.1, laneKept e.2))).filter (fun e => e.2 != {})
    nextFrame := s.nextFrame
    ev := { s.ev with dieStart := true, recording := false, flowSeq := [] }
    sl := s.sl, ref := s.ref
    fl := if hard then {} else { deck := s.fl.deck, wbuf := s.fl.wbuf, dir := s.fl.dir, bad := s.fl.bad,
                                 freeHead := s.fl.freeHead, fresh := s.fl.fresh, freeTail := s.fl.freeTail,
                                 insTT := s.fl.insTT }
    hbm := { mem := s.hbm.mem.filter (fun e => pres (ctlOf e.1)), poison := s.hbm.poison.filter (fun w => pres (ctlOf (16 * w))) }
    boot := { enKeep := (List.range 0x3F0).filter (eventsKept hard rails), hard := hard }
    elec := { s.elec with reEq := [], avsWait := none, gbAcked := 0 }
    sky := if hard then {} else s.sky
    fuse := s.fuse, pending := s.pending }
  let t := upTo 16 (fun t c => if pres c then fs (setSr t c srSELF) (mcB c) F.HBM_MC_STATUS_PRESERVED 1 else t) t
  if rails then refclkEval t else t

/-- What every entry to RESET does first: routines are aborted, the buffer is discarded, the cut epoch is closed, a spill
ring that is not preserved is lost. -/
def resetWork (s : State) (edge keepRing : Bool) : State :=
  if inReset s then s
  else
    let s := discardEvery (abortAll s)
    let s := if s.tm.firstEdge then s else cutEpoch s edge
    if keepRing then s else loseRing s

/-- A RESET that software requested takes hold at the edge (R570). -/
def softReset (s : State) : State :=
  let pres := fun c => s.fuse.hbm && trained s c && srState s c == srACTIVE
  dieReset (resetWork s true ((List.range 16).all pres)) false true pres

/-- RST_N, under-voltage and thermal trip (R589, R590, R597). -/
def hardReset (s : State) (rails : Bool) : State :=
  let s := lcCut s
  hold s (dieReset (resetWork s false false) true rails (fun _ => false))

/-- RST_N_ASSERT. -/
def rstOp (s : State) : State := hardReset s true

/-- UNDER_VOLTAGE: the die rails; rails 7 and 8 belong to the Tally island. -/
def underVoltageOp (s : State) (rail : Nat) : State :=
  if rail = 7 ∨ rail = 8 then s
  else
    let b := pgCLK + R.CLK_SUPPLY_STATUS
    let s := hardReset s true
    hold s (setBit (setBit s b rail false) b (10 + rail) true)

/-- THERMAL_TRIP. -/
def tripOp (s : State) : State := fs (hardReset s true) pgCLK F.CLK_TEMP_STATUS_TRIP_SEEN 1

/-- The rails of the die and its reference clocks are within tolerance. -/
def railsGood (s : State) : State :=
  let s := [0, 1, 2, 3, 4, 5, 6, 9].foldl (fun s r => setBit s (pgCLK + R.CLK_SUPPLY_STATUS) r true) s
  refclkEval ((List.range 6).foldl (fun s i => setBit s (pgCLK + R.CLK_REFCLK_STATUS) i true) s)

/-- DIE_POWER_ON (R588, R601, R604). -/
def powerOnOp (s : State) : State :=
  let s := hardReset s false
  hold s (railsGood s)

/-- The boot source of this start (R544). -/
def bootSource (s : State) : Nat :=
  match fg s pgBOOT F.BOOT_BOOT_CTRL_SRC_OVERRIDE with
  | 1 => 0
  | 2 => 1
  | _ =>
    match fg s pgBOOT F.BOOT_STRAP_BOOT_SRC with
    | 1 => 1
    | 2 => 2
    | _ => 0

/-- RESET_RELEASE (R561, R546 steps 1 to 3, R552): the die enters BOOT. After a reset by ball, supply or trip the straps
are sampled (R589), the rails and clocks are good and the core PLL locks. -/
def releaseOp (s : State) (strap : Nat) : State :=
  if s.md.mode ≠ .reset then s
  else
    let s := if s.boot.hard then
        fs (fs (railsGood s) pgCLK F.CLK_PLY_STATUS_CORE_LOCK 1) pgBOOT F.BOOT_STRAP_BOOT_SRC strap
      else s
    let s := setMode s .boot
    let s := drawLcNonce (startCore s 0 Config.resetVector)
    let s := setBoot s { s.boot with src := bootSource s, hard := false }
    if s.fuse.retired then setBoot (fs s pgBOOT F.BOOT_BOOT_STATUS_STEP 2) { s.boot with src := 3 }
    else enterStep s 3

/-! The modes' part of a ply edge (R44 step 2, R509, R561, R562, R570). -/

/-- A containment due at this edge. Answers whether a FATAL of the ply just ended governs. -/
def containEdge (s : State) : Bool × State :=
  match s.flt.contain with
  | none => (false, s)
  | some o => (true, enterContained { s with flt := { s.flt with contain := none } } (some o))

/-- An accepted request. -/
def acceptMode (s : State) (r : ModeReq) : State :=
  let s := fs s pgMOD F.MOD_MODE_STATUS_RESULT 0
  match r.target with
  | .reset => setMd s { s.md with resetWaits := true }
  | .calibrate =>
    if s.md.mode = .dormant ∧ fatalHeld s = true then enterContained s (firstHeld s)
    else enterCalibrate s (s.md.mode == .dormant)
  | .live => enterLive s
  | .drain => enterDrain s
  | .dormant => enterDormant s
  | .diagnostic => enterDiagnostic s
  | _ => s

def requestEdge (s : State) (fatal : Bool) : State :=
  match s.md.req with
  | none => s
  | some r =>
    let s := setMd s { s.md with req := none }
    let c := if fatal then mrFATAL_HELD else modeCheck s r
    if c = 0 then acceptMode s r else refuseMode s c

/-- Containment, then the request; an entry to LIVE advances the SVN minimums (R541). -/
def modeEdge (s : State) : State :=
  let c := containEdge s
  let t := holdTime s (requestEdge c.2 c.1)
  if t.md.mode = .live ∧ s.md.mode ≠ .live then svnAdvance t else t

def resetDue (s : State) : Bool := s.md.resetWaits && !lcBusy s

end Sys2Proof.Machine
end

