-- ==== Sys2Proof/Machine/PageReset.lean ====
section
/-! DEFINITION. PAGE_CTRL.SOFT_RESET taking hold at a ply edge (R582, R583): the block's queues and stores are emptied,
their frames discarded with reason MODE, its counters zeroed. -/

namespace Sys2Proof.Machine

/-- Zero the page's 64-bit counters. -/
def zeroCounters (s : State) (page : Nat) : State :=
  let ty := pageType page
  { s with regs := s.regs.filter (fun e =>
      !(e.1 / 0x1000 == page && (fieldsAt ty (e.1 % 0x1000)).any (fun f => f.acc == .cnt))) }

/-- Discard frames with reason MODE; those not yet classified take their port's meter class (R560). -/
def discardModes (s : State) (ids : List Nat) : State :=
  ids.foldl (fun s id =>
    let f := getF s id
    match f.stage with
    | .fifo | .parse | .classify => dropUnparsed s id (portMeter s f.cap.port) rsnMODE
    | _ => dropFrame s id rsnMODE) s

/-- The block of page `page` holds frame `f`. -/
def heldBy (page : Nat) (f : Frame) : Bool :=
  let ty := pageType page
  let pipe := (page - 0x200) / 16
  let waits := f.stage == .queued || f.stage == .released || f.stage == .granted
  match ty with
  | 0x20 => f.stage == .fifo && f.port < 256 && f.port / 8 == page - 0x020
  | 0x30 => f.stage == .fifo && f.port == 257 + pipe
  | 0x31 => f.stage == .parse && f.pipe == pipe
  | 0x32 => f.stage == .classify && f.pipe == pipe
  | 0x33 => f.stage == .fragHold && f.pipe == pipe
  | 0x34 => (f.stage == .dispatch || f.stage == .flow) && f.pipe == pipe
  | 0x50 => stored f.stage
  | 0x52 => (waits && pipeOf f.out == page - 0x388) || (f.stage == .spraying && pipeOf f.port == page - 0x388)
  | 0x59 => waits && f.out / 17 == page - 0x3B0
  | 0x60 => f.stage == .store && f.erGroup.isSome
  | 0x62 => f.stage == .store && (match f.seqOut with
    | some o => o / 2 == page - 0x3D0
    | none => false)
  | _ => false

/-- The streams of R323 that end at egress pipeline `p`. -/
def intoPipe (p st : Nat) : Bool := st / 8 % 8 == p

/-- Empty the stores of the block that hold no frame. -/
def emptyStores (s : State) (page : Nat) : State :=
  let pipe := (page - 0x200) / 16
  match pageType page with
  | 0x33 => setCls s { s.cls with
      frag := tset (fun _ => []) s.cls.frag pipe [], fragDue := s.cls.fragDue.filter (fun e => e.1 ≠ pipe),
      hold := tset (fun _ => []) s.cls.hold pipe [], toCores := tset (fun _ => []) s.cls.toCores pipe [],
      toHost := tset (fun _ => []) s.cls.toHost pipe [] }
  | 0x34 => setFl s { s.fl with queue := tset (fun _ => []) s.fl.queue pipe [] }
  | 0x35 => setFl s { s.fl with
      deck := tdropIf (fun k => k / 65536 == pipe) s.fl.deck, wbuf := tset (fun _ => []) s.fl.wbuf pipe [],
      wbq := s.fl.wbq.filter (fun w => w.pipe ≠ pipe), dir := s.fl.dir.filter (fun e => e.2 ≠ pipe + 1) }
  | 0x50 => { s with core := { s.core with flight := [], lost := [], spray := [], reseq := [], nextSeq := [] } }
  | 0x52 =>
    let p := page - 0x388
    { s with core := { s.core with
        flight := s.core.flight.filter (fun c => !intoPipe p c.stream), lost := s.core.lost.filter (fun c => !intoPipe p c.stream),
        reseq := tdropIf (intoPipe p) s.core.reseq, nextSeq := tdropIf (intoPipe p) s.core.nextSeq } }
  | 0x58 => { s with tmg := { s.tmg with policers := s.tmg.policers.map (fun e =>
      if e.1 / 1024 = page - 0x3A0 then (e.1, { e.2 with green := 0, yellow := 0, red := 0, redDropped := 0 }) else e) } }
  | _ => s

/-- The flow stage's routines end before its packets are discarded. -/
def endRoutines (s : State) (page : Nat) : State :=
  if pageType page ≠ 0x34 then s
  else
    let pipe := (page - 0x200) / 16
    (s.fl.ctxs.map (fun e => e.1)).foldl (fun s k => if ctxPipe k == pipe && (getC s k).busy then letGo s k else s) s

/-- SOFT_RESET of one page at the edge. -/
def softResetPage (s : State) (page : Nat) : State :=
  let s := endRoutines s page
  let ids := framesWhere s (fun _ f => f.live && heldBy page f)
  let s := discardModes s ids
  let s := setFl s { s.fl with outs := tdropIf (fun id => ids.contains id) s.fl.outs }
  zeroCounters (emptyStores s page) page

/-- Step 2 of an edge: every page under SOFT_RESET; RESET_BUSY clears. -/
def softResetEdge (s : State) : State :=
  let pages := s.md.softReset
  pages.foldl softResetPage (setMd s { s.md with softReset := [] })

end Sys2Proof.Machine
end

