-- ==== Sys2Proof/Machine/Windows.lean ====
section
/-! DEFINITION. The command windows of the switch core, the traffic manager and the Arbiter: multicast groups (R348),
policers (R362, R373), even-release groups (R400), and the check of a SEQ_CFG write (R376, R389). -/

namespace Sys2Proof.Machine

/-! Multicast groups (R337, R348). -/

def windowGroup (s : State) : Group :=
  { members := BitVec.ofNat 256 ((List.range 8).foldl (fun n k => n + (rawRd s (pgMC + R.MCM_MC_MEMBERS + 4 * k)).toNat * 2 ^ (32 * k)) 0)
    valid := fgb s pgMC F.MCM_MC_FLAGS_VALID
    srcPrune := fgb s pgMC F.MCM_MC_FLAGS_SRC_PRUNE
    evenRelease := fgb s pgMC F.MCM_MC_FLAGS_EVEN_RELEASE }

def showGroup (s : State) (g : Group) : State :=
  let s := wrWords s (pgMC + R.MCM_MC_MEMBERS) (numWords g.members.toNat 8)
  let s := fs s pgMC F.MCM_MC_FLAGS_VALID (if g.valid then 1 else 0)
  let s := fs s pgMC F.MCM_MC_FLAGS_SRC_PRUNE (if g.srcPrune then 1 else 0)
  fs s pgMC F.MCM_MC_FLAGS_EVEN_RELEASE (if g.evenRelease then 1 else 0)

/-- An MC_CMD write (R348): WRITE is taken now and takes hold at the next edge; READ fills the window at once. -/
def mcCmdOp (s : State) (v : Word) : Res × State :=
  if fgb s pgMC F.MCM_MC_STATUS_BUSY then (.error, s)
  else
    let i := fg s pgMC F.MCM_MC_INDEX_GROUP
    let s := if v.getLsbD 0 then
        let g := windowGroup s
        fs { s with core := { s.core with groupWrite := some (i, g) } } pgMC F.MCM_MC_STATUS_BUSY 1
      else s
    (.ok, if v.getLsbD 1 then showGroup s (getGroup s i) else s)

/-- The waiting WRITE takes hold (R348): step 2. -/
def groupEdge (s : State) : State :=
  match s.core.groupWrite with
  | none => s
  | some (i, g) =>
    fs { s with core := { s.core with groupWrite := none, groups := tset (fun _ => {}) s.core.groups i g } }
      pgMC F.MCM_MC_STATUS_BUSY 0

/-! Even-release groups (R391, R400). -/

/-- An ER_CMD write (R400). -/
def erCmdOp (s : State) (v : Word) : Res × State :=
  if fgb s pgARB F.ARB_ER_STATUS_BUSY then (.error, s)
  else
    let i := fg s pgARB F.ARB_ER_INDEX_GROUP
    let s := if v.getLsbD 0 then
        let p := fg s pgARB F.ARB_ER_GROUP_PROFILE
        fs { s with arb := { s.arb with erWrite := some (i, p) } } pgARB F.ARB_ER_STATUS_BUSY 1
      else s
    (.ok, if v.getLsbD 1 then fs s pgARB F.ARB_ER_GROUP_PROFILE (tget (fun _ => 0) s.arb.erGroup i) else s)

def erEdge (s : State) : State :=
  match s.arb.erWrite with
  | none => s
  | some (i, p) =>
    fs { s with arb := { s.arb with erWrite := none, erGroup := tset (fun _ => 0) s.arb.erGroup i p } }
      pgARB F.ARB_ER_STATUS_BUSY 0

/-! Policers (R362, R373). -/

/-- The window of a policer page, as WRITE takes it. -/
def windowPol (s : State) (b : Nat) : Word × Word × Word × Word × Word :=
  (rawRd s (b + R.POL_POL_CTRL), rawRd s (b + R.POL_CIR), rawRd s (b + R.POL_CBS), rawRd s (b + R.POL_PIR_EIR),
   rawRd s (b + R.POL_PBS_EBS))

def showPol (s : State) (b : Nat) (p : Policer) : State :=
  let s := rawWr s (b + R.POL_POL_CTRL) p.ctrl
  let s := rawWr s (b + R.POL_CIR) p.cir
  let s := rawWr s (b + R.POL_CBS) p.cbs
  let s := rawWr s (b + R.POL_PIR_EIR) p.pir
  let s := rawWr s (b + R.POL_PBS_EBS) p.pbs
  let s := fs s b F.POL_LEVEL_1_LEVEL (shownLevel p.edge1)
  let s := fs s b F.POL_LEVEL_2_LEVEL (shownLevel p.edge2)
  let s := wr64 s (b + R.POL_GREEN) p.edgeG.toNat
  let s := wr64 s (b + R.POL_YELLOW) p.edgeY.toNat
  let s := wr64 s (b + R.POL_RED) p.edgeR.toNat
  wr64 s (b + R.POL_RED_DROPPED) p.edgeD.toNat

/-- A POL_CMD write (R362, R373). -/
def polCmdOp (s : State) (pipe : Nat) (v : Word) : Res × State :=
  let b := pb (0x3A0 + pipe)
  if fgb s b F.POL_POL_STATUS_BUSY then (.error, s)
  else
    let i := fg s b F.POL_POL_INDEX_INDEX
    let pipes := if v.getLsbD 4 then List.range 8 else [pipe]
    let w := if v.getLsbD 0 then some (windowPol s b) else none
    let s := if v.getLsbD 1 then showPol s b (getPol s pipe i) else s
    let s := if v.getLsbD 0 || v.getLsbD 2 then
        let ks := pipes.map (fun p => { pipe := p, idx := i, write := w, resetLevels := v.getLsbD 3, clear := v.getLsbD 2 : PolCmd })
        fs { s with tmg := { s.tmg with pend := s.tmg.pend ++ ks } } b F.POL_POL_STATUS_BUSY 1
      else s
    (.ok, s)

/-! Sequenced outputs (R376, R389). -/

def seqReject (s : State) (o : Nat) : State :=
  raise (fs s (seqB o) F.SEQ_SEQ_STATUS_CFG_REJECT 1) (seqPage o) 4

def seqEnBit (w : Word) : Bool := w.getLsbD 0
def seqTie (w : Word) : Nat × Nat := (bitsOf w 2 3, bitsOf w 16 8)

/-- A SEQ_CFG write (R376, R389): checked against the registers as written so far, and again at its edge of effect. -/
def seqCfgOp (s : State) (o : Nat) (v : Word) : Res × State :=
  let a := seqB o + R.SEQ_SEQ_CFG
  let v := v &&& 0x00FF001F
  let old := rawRd s a
  let moved := seqEnBit old && decide (seqTie old ≠ seqTie v)
  let mapped := portMapped { s with eff := s.regs } (bitsOf v 16 8)
  if moved || (seqEnBit v && !mapped) then (.error, seqReject s o)
  else (.ok, rawWr s a v)

/-- A SEQ_CFG written since the last edge is checked at its edge of effect (R376). `old` is the word in force until
now. -/
def seqCfgEdge (old : Nat → Word) (s : State) (o : Nat) : State :=
  let a := seqB o + R.SEQ_SEQ_CFG
  let v := rawRd s a
  if v = old a then s
  else if seqEnBit v && !portMapped s (bitsOf v 16 8) then
    let s := rawWr s a (old a)
    seqReject { s with eff := tset regReset s.eff a (old a) } o
  else s

end Sys2Proof.Machine
end

