-- ==== Sys2Proof/Machine/PlyEdge.lean ====
section
/-! DEFINITION. Time's passing: a core cycle (R36, R526), the ply edge in the order of R44, and the island tick of
R603. -/

namespace Sys2Proof.Machine

/-! Core cycles. -/

/-- What an event reports in every cycle: CYCLES and the occupancies (R526). Events that happen are counted where they
happen. -/
def occupancy (s : State) (page ev : Nat) : Nat :=
  let ty := pageType page
  let pipe := (page - 0x200) / 16
  let ctxs := fun (p : Ctx → Nat → Bool) => ((ctxsOf pipe).filter (fun k => (getC s k).busy && p (getC s k) k)).length
  match ev with
  | 0x00 => 1
  | 0x11 => if ty = 0x34 then ctxs (fun _ _ => true) else 0
  | 0x12 => if ty = 0x34 then ctxs (fun c k => c.ended == 0 && !ready s k) else 0
  | 0x13 => if ty = 0x34 then (tget (fun _ => []) s.fl.queue pipe).length else 0
  | 0x21 =>
    if ty = 0x31 then
      (framesWhere s (fun _ f => f.stage == .parse && f.pipe == pipe &&
        (walk s pipe f.bytes f.ended (transOf s pipe) 65 (fg s (prsB pipe) F.PRS_PG_CTRL_START_NODE) {}).isNone)).length
    else 0
  | 0x32 =>
    if ty = 0x35 then ctxs (fun c _ => match flowReq c with
      | some r => r.missed && r.got.isNone
      | none => false)
    else 0
  | 0x42 => if ty = 0x40 then ((getM s (page - 0x300)).reads.filter (fun r => urgency s (page - 0x300) r == 3)).length else 0
  | 0x50 =>
    if ty = 0x52 then
      s.core.reseq.foldl (fun n e => if e.1 / 8 % 8 = page - 0x388 then n + e.2.held.length else n) 0
    else 0
  | 0x61 => if ty = 0x60 then s.arb.stores.foldl (fun n e => n + e.2.length) 0 else 0
  | 0x70 => if ty = 0x70 then (List.range 32).foldl (fun n k => n + (queueAt s k).length) 0 else 0
  | _ => 0

/-- The performance counters over `n` cycles in which nothing else happens. -/
def countCycles (n : Nat) (s : State) : State :=
  upTo 64 (fun s k =>
    let page := pcSel s k F.CR_PC_SEL_SOURCE
    if pcSel s k F.CR_PC_SEL_EN == 1 && pagePresent s page then
      pcAdd s k (n * occupancy s page (pcSel s k F.CR_PC_SEL_EVENT))
    else s) s

/-- `n` core cycles pass: cells that wait are sprayed, occupancies counted (R320, R526), a snapshot's BUSY clears
(R522). -/
def runCycles (n : Nat) (s : State) : State :=
  let s := iter sprayCycle n (countCycles n s)
  { s with cnt := { s.cnt with snapBusy := false } }

/-- One core cycle of the ply; after the last the device waits for the edge. -/
def coreCycle (s : State) : State :=
  if plyStopped s || s.tm.firstEdge || decide (63 ≤ s.tm.cycle) then s
  else
    let s := runCycles 1 s
    { s with tm := { s.tm with cycle := s.tm.cycle + 1 } }

/-! Tally Time at an edge or tick (R38, R118, R123, R130). -/

/-- The master counter runs while the island has power; the firmware's work follows. -/
def tallyAdvance (s : State) (cycles : Nat) : State :=
  if !s.elec.island then s
  else
    let s := advanceTT s cycles
    if s.elec.firmware then tallyTick s else { s with tm := { s.tm with tickTT := ttOf s.tm.ttAcc } }

/-- ISLAND_TICK: only while the ply counter is stopped. -/
def islandTickOp (s : State) (cycles : Nat) : State := if plyStopped s then tallyAdvance s cycles else s

/-! The parts of an edge. -/

/-- The die's first edge: it starts ply 0, and EPOCH_BASE goes on from the highest epoch assigned (R22, R128). -/
def firstEdge (s : State) : State :=
  { s with
    tm := { s.tm with firstEdge := false }
    ev := { s.ev with epochBase := match s.ev.highest with
              | some h => h + 1
              | none => s.ev.epochBase } }

/-- What a ply starts from: shares of slots, grants and learns unused. -/
def freshPly (s : State) : State :=
  { s with slots := [], slotsInternal := [], tmg := { s.tmg with grantsPly := [] }, fl := { s.fl with learnPly := 0 } }

/-- Configuration whose write completed in the ply that ends takes hold (R21), with what the change itself does. -/
def configEdge (s : State) : State :=
  if s.eff = s.regs then s
  else
    let before := s
    let s := { s with eff := s.regs }
    let s := upTo 16 (framerApply (fun f => framerWordIn before f)) s
    let s := upTo 32 (portMapEdge (fun g => effRd before (mapAddr g))) s
    let s := upTo 32 (seqCfgEdge (effRd before)) s
    let s := upTo 265 (fun s p => applyShaper before s p) s
    upTo 256 (fun s k => throttleEdge before s k) s

/-- Commands that take hold at an edge. -/
def commandEdge (m : Nat) (s : State) : State :=
  let s := if s.core.seedDue then
      let seed := rawRd s (pgSC + R.SC_WRED_SEED)
      { s with core := { s.core with
          seedDue := false, lfsr := (List.range 8).foldl (fun t p => tset (fun _ => 1) t p seed) s.core.lfsr } }
    else s
  let s := applyPols (erEdge (groupEdge s))
  let s := upTo 8 (fun s p => tblEdge s p m) s
  let s := upTo 8 retireEdge s
  let s := upTo 8 flipEdge s
  planeStep (ctrClearEdge s)

/-- A change of the lifecycle state raises LC_CHANGE (R556). -/
def lcChange (before s : State) : State := if lcState before = lcState s then s else raise s 0x002 0

/-- The Tally's part: recording, TT_START and WORST_TQ of the epoch (R420, R421). -/
def epochEdge (first : Bool) (m : Nat) (s : State) : State :=
  let tq := fg s pgTT F.TT_TIME_STATE_TQ
  let on : Bool := match s.md.mode with
    | .live | .drain | .contained | .diagnostic => true
    | _ => false
  let fresh := first || m % 25600 == 0
  { s with ev := { s.ev with
      recording := s.ev.recording || on,
      ttStart := if fresh then s.tm.edgeTT else s.ev.ttStart,
      worstTQ := if fresh then tq else max s.ev.worstTQ tq } }

/-- WITHHOLDING shows the ply that ends (R436). -/
def withholdEdge (s : State) : State :=
  fs { s with ev := { s.ev with withholding := false } } pgEV F.EV_EVID_STATUS_WITHHOLDING
    (if s.ev.withholding then 1 else 0)

/-- Step 5: charge corrections, then every bucket's refill (R353, R356, R233). -/
def refillEdge (first : Bool) (s : State) : State :=
  refillExc (refillPolicers (upTo 265 refillPort (corrections s))) first

/-- What leaves or resumes at an edge. -/
def flowEdge (s : State) : State := ftResume (ageEdge (fragEdge (exitEdge s)))

/-- Status that follows an edge. -/
def statusEdge (e : EdgeIn) (s : State) : State :=
  let s := tempEdge (sampEdge (dspEdge s)) e.temps e.tlyTemp
  exportStall (withholdEdge (drainEdge (reEqDone s)))

/-- Steps 4 to 8, for the edge that starts ply `m`. -/
def workEdge (e : EdgeIn) (first : Bool) (prevTT m : Nat) (s : State) : State :=
  let s := if first || !s.elec.island then s else latchStep s (m - 1) e.deviations
  let s := refillEdge first s
  let s := flowEdge s
  let s := arbiterStep s prevTT
  let s := deckSelect (s.ports.foldl (fun s p => setBegun s p.1) s)
  statusEdge e s

/-- What ends ply n, up to step 1 of the edge: the rest of its core cycles, the snapshot, ply `m`'s number, Tally Time. -/
def openEdge (e : EdgeIn) (first : Bool) (m : Nat) (s : State) : State :=
  let s := if first then firstEdge s else runCycles (64 - s.tm.cycle) s
  let s := wredAverages (snapEdge s m)
  let s := freshPly { s with tm := { s.tm with ply := BitVec.ofNat 64 m, cycle := 0 } }
  let s := tallyAdvance s e.tallyCycles
  { s with tm := { s.tm with edgeTT := s.tm.tickTT } }

/-- Steps 2 and 3 but for the lifecycle and the modes: configuration and commands take hold. -/
def holdEdge (m : Nat) (s : State) : State :=
  softResetEdge (linkEdges (upTo 16 framerEdge (takeDelays (commandEdge m (configEdge s)))))

/-- The evidence of the ply that ended, then, unless a RESET takes hold, the work of steps 4 to 8; every 25th ply a kernel
tick falls due (R39). -/
def closeEdge (e : EdgeIn) (first : Bool) (prevTT m : Nat) (s : State) : State :=
  let s := if first || !s.elec.island then s else holdTime s (tallyClose s (m - 1))
  if resetDue s then hold s (softReset s)
  else
    let t := if s.elec.island && !first then evidenceGrant s (m - 1) else s
    let t := holdTime s (workEdge e first prevTT m (epochEdge first m t))
    { t with tm := { t.tm with kernelTick := t.tm.kernelTick || m % 25 == 0 } }

/-- PLY_EDGE: the edge that ends ply n and starts ply n + 1, or the die's first edge, which starts ply 0. A seal takes hold
before a lifecycle operation, which then sees SEALED (R550). Only the lifecycle's and the modes' parts blow fuses. -/
def plyEdgeOp (e : EdgeIn) (s : State) : State :=
  if plyStopped s then s
  else
    let first := s.tm.firstEdge
    let m := if first then plyNat s else (plyNat s + 1) % 2 ^ 64
    let prevTT := s.tm.edgeTT
    let s := hold s (openEdge e first m s)
    let before := s
    let s := lcEdge (holdTime s (sealEdge (holdEdge m s)))
    let s := modeEdge (holdTime s (lcChange before s))
    closeEdge e first prevTT m s

end Sys2Proof.Machine
end

