-- ==== Sys2Proof/Machine/RegRead.lean ====
section
/-! DEFINITION. Reading a register: the values that registers show (chapters 00-20), the latches of R16, RC fields
(R17, R20), the pages that answer (R9, R10, R480), and the credential level of a read (R484, R520). -/

namespace Sys2Proof.Machine

/-! Pages that answer (R9, R10, R480, R570). -/

/-- Pages that are never held in mode RESET. -/
def alwaysPage (page : Nat) : Bool := page ≤ 0x008 || (0x010 ≤ page && page ≤ 0x017)

/-- What an access to a page meets before its registers: an unallocated page, an absent one, a block held in RESET. -/
inductive PageGate where
  | unallocated | absent | held | opened
deriving DecidableEq, Repr

def pageGate (s : State) (page : Nat) : PageGate :=
  match pageInfo page with
  | none => .unallocated
  | some pi =>
    if !presentIn s pi.absentIn then .absent
    else if inReset s && !alwaysPage page then .held
    else .opened

/-- The agent's number: 0 Skyline, 1 + n for core n (R16). -/
def agentIx : Agent → Nat
  | .sky _ => 0
  | .core n => n.val + 1

def agentLevel : Agent → Nat
  | .sky l => l.val
  | .core _ => 3

def isCore : Agent → Bool
  | .sky _ => false
  | .core _ => true

/-- A refused core access raises REG_DENIED (R444). -/
def regDenied (s : State) : State := raise s 0x3E0 4

/-- An access beyond its Skyline level counts in DENIED (R484). -/
def skyDenied (s : State) : State := bump s (pb 0x008 + R.SKY_DENIED)

/-! Composing a word. -/

def put (f : FRef) (x : Nat) (w : Word) : Word := setBits w f.lo f.width x
def putB (f : FRef) (b : Bool) (w : Word) : Word := put f (if b then 1 else 0) w

/-- Word `k` of a byte string, byte 0 in [31:24]. -/
def byteWord (bs : List Byte) (k : Nat) : Word := BitVec.ofNat 32 (beAt bs (4 * k) 4)

/-- Word 0 or 1 of a 64-bit value. -/
def half (v : Nat) (hi : Bool) : Word := BitVec.ofNat 32 (if hi then v / 2 ^ 32 else v)

/-! The common layout (R580-R582). -/

/-- The block is powered down by the mode or the map (R65, R116, R568): lanes without a port; lanes, framers and Decks in
DORMANT. -/
def poweredDown (s : State) (page ty : Nat) : Bool :=
  if ty = 0x21 then s.md.mode == .dormant || (portOfLane s (page - 0x040)).isNone
  else if ty = 0x22 || ty = 0x35 then s.md.mode == .dormant
  else false

def showCommon (s : State) (pi : PageInfo) (page o : Nat) : Option Word :=
  if o = oPAGE_ID then some (BitVec.ofNat 32 (pi.type * 2 ^ 24 + pi.inst * 2 ^ 16 + 0x101))
  else if o = oPAGE_CAP then
    some (BitVec.ofNat 32 ((evClasses pi.type).length + (if hasCounters pi.type then 64 else 0) +
      (if ctrlCap pi.type then 128 else 0)))
  else if o = oPAGE_STATE then
    some (BitVec.ofNat 32 ((if poweredDown s page pi.type then 1 else if idled s page then 3 else 2) +
      (if s.md.softReset.contains page then 4 else 0)))
  else none

/-! Registers that show other state. -/

/-- Page 0x000 (R6). -/
def showId (s : State) (o : Nat) (w : Word) : Word :=
  if o = R.ID_DEVICE_ID then put F.ID_DEVICE_ID_STEP s.fuse.step w
  else if o = R.ID_VARIANT then
    let w := putB F.ID_VARIANT_SEAL_CAP s.fuse.sealCap w
    let w := putB F.ID_VARIANT_HBM s.fuse.hbm w
    let w := putB F.ID_VARIANT_LONG_HAUL s.fuse.longHaul w
    put F.ID_VARIANT_FRAMERS (if s.fuse.longHaul then 16 else 0) (put F.ID_VARIANT_HBM_STACKS (if s.fuse.hbm then 2 else 0) w)
  else w

/-- Page 0x001 (R576). -/
def showMode (s : State) (o : Nat) (w : Word) : Word :=
  if o = R.MOD_MODE_STATUS then
    put F.MOD_MODE_STATUS_STEP s.md.step (putB F.MOD_MODE_STATUS_BUSY s.md.busy (put F.MOD_MODE_STATUS_MODE s.md.mode.code w))
  else w

/-- Page 0x002 (R556): LC_STAGE reads 0 at levels 0 and 1. -/
def showLc (s : State) (level o : Nat) (w : Word) : Word :=
  if o = R.LC_LC_STATE then
    let items := (List.range 5).foldl (fun n k => n + (if hasItem s (k + 1) then 2 ^ k else 0)) 0
    let w := putB F.LC_LC_STATE_VENDOR_UNLOCKED s.boot.unlocked (put F.LC_LC_STATE_STATE (lcState s) w)
    let w := put F.LC_LC_STATE_CUST_REVOKED s.fuse.custRevoked (put F.LC_LC_STATE_ITEMS items w)
    put F.LC_LC_STATE_VENDOR_REVOKED s.fuse.vendorRevoked w
  else if o = R.LC_DEVICE_UID then half s.fuse.uid.toNat false
  else if o = R.LC_DEVICE_UID + 4 then half s.fuse.uid.toNat true
  else if R.LC_LC_STAGE ≤ o ∧ o < R.LC_LC_STAGE + 0x40 ∧ level < 2 then 0
  else w

/-- Page 0x003 (R557). -/
def showBoot (s : State) (o : Nat) (w : Word) : Word :=
  if R.BOOT_SVN_MIN + 4 ≤ o ∧ o ≤ R.BOOT_SVN_MIN + 20 then
    put F.BOOT_SVN_MIN_MIN (tget (fun _ => 0) s.fuse.svnMin ((o - R.BOOT_SVN_MIN) / 4)) w
  else w

/-- Page 0x006 (R504, R507, R514, R518). -/
def showFault (s : State) (o : Nat) (w : Word) : Word :=
  if o = R.FA_FA_STATUS then
    let w := putB F.FA_FA_STATUS_UCC_HELD (anyHeld s clsUCC) (putB F.FA_FA_STATUS_FATAL_HELD (fatalHeld s) w)
    let w := putB F.FA_FA_STATUS_CONTAINED (s.md.mode == .contained) (putB F.FA_FA_STATUS_CE_HELD (anyHeld s clsCE) w)
    putB F.FA_FA_STATUS_LOG_FROZEN s.flt.frozen w
  else if o = R.FA_LOG_STATE then
    put F.FA_LOG_STATE_FATAL_USED s.flt.fatalUsed (put F.FA_LOG_STATE_COUNT (s.flt.general + s.flt.fatalUsed) w)
  else if R.FA_LOG_ENTRY ≤ o ∧ o < R.FA_LOG_ENTRY + 0x20 then
    byteWord (logSlot s (fg s pgFA F.FA_LOG_INDEX_SLOT)) ((o - R.FA_LOG_ENTRY) / 4)
  else if R.FA_SUM_FATAL ≤ o ∧ o < R.FA_SUM_FATAL + 96 then BitVec.ofNat 32 (sumHeld s clsFATAL ((o - R.FA_SUM_FATAL) / 4))
  else if R.FA_SUM_UCC ≤ o ∧ o < R.FA_SUM_UCC + 96 then BitVec.ofNat 32 (sumHeld s clsUCC ((o - R.FA_SUM_UCC) / 4))
  else if R.FA_SUM_CE ≤ o ∧ o < R.FA_SUM_CE + 96 then BitVec.ofNat 32 (sumHeld s clsCE ((o - R.FA_SUM_CE) / 4))
  else if R.FA_SUM_INFO ≤ o ∧ o < R.FA_SUM_INFO + 96 then BitVec.ofNat 32 (sumInfo s ((o - R.FA_SUM_INFO) / 4))
  else w

/-- The counter of a PC_VALUE_LO offset of page 0x007. -/
def pcLoOf (o : Nat) : Option Nat :=
  if R.CR_PC_VALUE_LO ≤ o ∧ o < R.CR_PC_VALUE_LO + 0x400 ∧ (o - R.CR_PC_VALUE_LO) % 16 = 0 then some ((o - R.CR_PC_VALUE_LO) / 16)
  else none

/-- Page 0x007 (R534). -/
def showReader (s : State) (o : Nat) (w : Word) : Word :=
  if o = R.CR_SNAP_STATUS then putB F.CR_SNAP_STATUS_BUSY (snapPending s) w
  else if o = R.CR_LIST_ENTRY then tget (fun _ => 0) s.cnt.list (fg s pgCR F.CR_LIST_INDEX_ENTRY)
  else if o = R.CR_SAMP_STATUS then
    putB F.CR_SAMP_STATUS_ACTIVE (sampling s && (fgb s pgCR F.CR_SAMP_CTRL_UW_EN || fgb s pgCR F.CR_SAMP_CTRL_INSN_EN)) w
  else w

/-- Page 0x008 (R494). -/
def showSky (s : State) (o : Nat) (w : Word) : Word :=
  if o = R.SKY_SKY_STATUS then
    put F.SKY_SKY_STATUS_KEY_PRESENT ((if hasItem s 1 then 1 else 0) + (if hasItem s 2 then 2 else 0) +
      (if s.fuse.level3Key.isEmpty then 0 else 4)) w
  else if o = R.SKY_IN_PROGRESS then put F.SKY_IN_PROGRESS_COUNT s.sky.prog.length w
  else w

/-- The Book slot that BOOK_INDEX shows: the latest epoch record written to it (R436). -/
def bookShown (s : State) : List Byte × List Byte :=
  let slot := fg s pgEV F.EV_BOOK_INDEX_SLOT
  let h := s.ev.bookHead
  let back := (h + 16383 - slot) % 16384
  if h ≤ back then ([], [])
  else match tget (fun _ => none) s.ev.book (h - 1 - back) with
  | some b => (b.record, b.roots)
  | none => ([], [])

/-- Page 0x014 (R436). -/
def showEvidence (s : State) (o : Nat) (w : Word) : Word :=
  if o = R.EV_EVID_STATUS then
    putB F.EV_EVID_STATUS_RECORDING s.ev.recording w
  else if o = R.EV_TIER_FREE then put F.EV_TIER_FREE_PLACES (tierSize s - s.ev.tierUsed - s.ev.tierReserved) w
  else if o = R.EV_PENDING then put F.EV_PENDING_COUNT s.ev.pend.length w
  else if o = R.EV_EPOCH_BASE then half s.ev.epochBase false
  else if o = R.EV_EPOCH_BASE + 4 then half s.ev.epochBase true
  else if R.EV_BOOK_RECORD ≤ o ∧ o < R.EV_BOOK_RECORD + 0x200 then byteWord (bookShown s).1 ((o - R.EV_BOOK_RECORD) / 4)
  else if R.EV_BOOK_ROOTS ≤ o ∧ o < R.EV_BOOK_ROOTS + 0x100 then byteWord (bookShown s).2 ((o - R.EV_BOOK_ROOTS) / 4)
  else w

/-- Page 0x016 (R438). -/
def showSeal (s : State) (o : Nat) (w : Word) : Word :=
  if o = R.SEAL_SEAL_STATE then putB F.SEAL_SEAL_STATE_OFFICER_FUSED (hasItem s 5) w
  else if R.SEAL_PARAM_DIGEST ≤ o ∧ o < R.SEAL_PARAM_DIGEST + 0x20 then
    byteWord (paramDigest s) ((o - R.SEAL_PARAM_DIGEST) / 4)
  else if R.SEAL_LOG_ENTRY ≤ o ∧ o < R.SEAL_LOG_ENTRY + 0x20 then
    byteWord (tget (fun _ => []) s.sl.log (fg s pgSEAL F.SEAL_LOG_INDEX_ENTRY)) ((o - R.SEAL_LOG_ENTRY) / 4)
  else w

/-- A lane page: the status of a lane that no port covers reads 0 (R65). -/
def showLane (s : State) (page o : Nat) (w : Word) : Word :=
  if o = R.LANE_LANE_STATUS ∧ (portOfLane s (page - 0x040)).isNone then 0 else w

/-- Ways of a pipeline's Deck that satisfy `p` (R282). -/
def countWays (s : State) (pipe : Nat) (p : Way → Bool) : Nat :=
  (s.fl.deck.filter (fun e => e.1 / 65536 == pipe && e.2.valid && p e.2)).length

/-- A Deck page. -/
def showDeck (s : State) (page o : Nat) (w : Word) : Word :=
  let pipe := (page - 0x200) / 16
  if o = R.DECK_DECK_RESIDENT then put F.DECK_DECK_RESIDENT_COUNT (countWays s pipe (fun _ => true)) w
  else if o = R.DECK_DECK_DIRTY then put F.DECK_DECK_DIRTY_COUNT (countWays s pipe (·.dirty)) w
  else if o = R.DECK_DECK_PINNED then put F.DECK_DECK_PINNED_COUNT (countWays s pipe (·.pin)) w
  else w

/-- A classifier page: INFLIGHT_OLD (R219, R237). -/
def showClassifier (s : State) (page o : Nat) (w : Word) : Word :=
  if o = R.CLS_GEN_STATUS then put F.CLS_GEN_STATUS_INFLIGHT_OLD (min 0xFFFFF (inflightOld s ((page - 0x200) / 16))) w else w

/-- The thread descriptor window (R468). -/
def showThread (s : State) (o : Nat) (w : Word) : Word :=
  let x := getT s (fg s pgTD F.TD_TD_INDEX_THREAD)
  if o = R.TD_TD_CFG then put F.TD_TD_CFG_AFFINITY x.affinity (putB F.TD_TD_CFG_ENABLE x.enable (put F.TD_TD_CFG_PRIO x.prio 0))
  else if o = R.TD_TD_STATE then
    let st := match x.st with
      | .disabled => 0
      | .idle => 1
      | .ready => 2
      | .slotted => 3
      | .running => 4
      | .delayed => 5
    let w := put F.TD_TD_STATE_CORE x.core (put F.TD_TD_STATE_STATE st w)
    putB F.TD_TD_STATE_DELAY_PENDING x.delay.isSome (putB F.TD_TD_STATE_REARM x.rearm w)
  else if o = R.TD_TD_DUE then half x.due false
  else if o = R.TD_TD_DUE + 4 then half x.due true
  else if o = R.TD_TD_WAIT_LAST then BitVec.ofNat 32 x.waitLast
  else if o = R.TD_TD_RESULT then put F.TD_TD_RESULT_RESULT (tget (fun _ => 0) s.dsp.result 16) w
  else w

/-- The value that a word of a present page shows, latches and Tally Time apart. -/
def showWord (s : State) (level : Nat) (pi : PageInfo) (page o : Nat) : Word :=
  let w := rawRd s (pb page + o)
  match showCommon s pi page o with
  | some c => c
  | none =>
    if o < 0x040 then w
    else match pi.type with
    | 0x01 => showId s o w
    | 0x02 => showMode s o w
    | 0x03 => showLc s level o w
    | 0x04 => showBoot s o w
    | 0x07 => showFault s o w
    | 0x08 => showReader s o w
    | 0x09 => showSky s o w
    | 0x14 => showEvidence s o w
    | 0x16 => showSeal s o w
    | 0x21 => showLane s page o w
    | 0x32 => showClassifier s page o w
    | 0x35 => showDeck s page o w
    | 0x40 => if o = R.HBM_DIR_COUNT then BitVec.ofNat 32 (dirCount s) else w
    | 0x41 => if o = R.FT_FREE_COUNT then BitVec.ofNat 32 (if s.fuse.hbm then freeCount s else 0) else w
    | 0x50 => if o = R.SC_PARTITION then put F.SC_PARTITION_SUM (partitionSum s) w else w
    | 0x71 => showThread s o w
    | _ => w

/-! Latches (R16, R41, R157, R583). -/

/-- The 64-bit value whose low word stands at `addr`, where reading that word latches the high word. -/
def low64 (s : State) (addr : Nat) : Option Nat :=
  let page := addr / 0x1000
  let o := addr % 0x1000
  if page = 0x005 ∧ o = R.CLK_PLY_COUNT_LO then some s.tm.ply.toNat
  else if o = oPAGE_PLY then some (rd64 s addr)
  else if page = 0x007 ∧ (pcLoOf o).isSome then some (pcValue s ((pcLoOf o).getD 0))
  else if page = 0x007 ∧ 0x800 ≤ o ∧ o % 8 = 0 then some (tget (fun _ => 0) s.cnt.snapData ((o - 0x800) / 8)).toNat
  else if counterLow s addr then some (rd64 s addr)
  else none

def latchKey (a : Agent) (addr : Nat) : Nat := agentIx a * 2 ^ 24 + addr
def getLatch (s : State) (a : Agent) (addr : Nat) : Word := tget (fun _ => 0) s.latch (latchKey a addr)
def setLatch (s : State) (a : Agent) (addr : Nat) (v : Word) : State :=
  { s with latch := tset (fun _ => 0) s.latch (latchKey a addr) v }

/-- TT_NS: the nanoseconds of Tally Time, the rest latched (R157). -/
def readTT (s : State) (a : Agent) (dt : Nat) : Word × State :=
  let t := ttNow s dt
  let s := setLatch s a (pgTT + R.TT_TT_FRAC) (BitVec.ofNat 32 (t % 256))
  let s := setLatch s a (pgTT + R.TT_TT_SEC_LO) (BitVec.ofNat 32 (t / sec256))
  let s := setLatch s a (pgTT + R.TT_TT_SEC_HI) (BitVec.ofNat 32 (t / sec256 / 2 ^ 32 % 2 ^ 16))
  (BitVec.ofNat 32 (t % sec256 / 256), s)

def isTTRest (addr : Nat) : Bool :=
  addr == pgTT + R.TT_TT_FRAC || addr == pgTT + R.TT_TT_SEC_LO || addr == pgTT + R.TT_TT_SEC_HI

/-! RC fields (R17, R20). -/

def fieldMask (fs : List FieldSpec) (p : Acc → Bool) : Nat :=
  fs.foldl (fun m f => if p f.acc then m ||| (2 ^ f.width - 1) <<< f.lo else m) 0

/-- Clear the RC fields of a word that was read; a hardware update of the same cycle is kept (R20). -/
def clearRc (s : State) (addr : Nat) (hw : Option Word) : State :=
  let m := fieldMask (fieldsAt (pageType (addr / 0x1000)) (addr % 0x1000)) (fun a => a == .rc)
  if m = 0 then s
  else
    let keep := (rawRd s addr).toNat &&& (0xFFFFFFFF - m)
    let new := match hw with
      | some h => h.toNat &&& m
      | none => 0
    rawWr s addr (BitVec.ofNat 32 (keep ||| new))

/-! The read. -/

/-- Words of a Skyline level (R484, R520). -/
def mayRead (level addr : Nat) : Bool := !(addr / 0x1000 == 0x007 && decide (0x100 ≤ addr % 0x1000)) || decide (2 ≤ level)

/-- A core's load is refused (R444, R520). -/
def coreLoadRefused (s : State) (page : Nat) : Bool :=
  (0x014 ≤ page && page ≤ 0x017) || (page == 0x007 && !fgb s pgCR F.CR_CR_CTRL_CORE_EN)

/-- Read a word of an open page: its value, and the effects of the read. `dt` is the time since the last edge or tick,
for TT_NS; `hw` a hardware update of an RC field in the same cycle. -/
def readOpen (s : State) (a : Agent) (pi : PageInfo) (addr dt : Nat) (hw : Option Word) : Word × State :=
  let page := addr / 0x1000
  let o := addr % 0x1000
  if addr = pgTT + R.TT_TT_NS then readTT s a dt
  else if isTTRest addr then (getLatch s a addr, s)
  else match low64 s addr with
  | some v => (half v false, setLatch s a addr (half v true))
  | none =>
    if 4 ≤ o ∧ (low64 s (addr - 4)).isSome then (getLatch s a (addr - 4), s)
    else
      let w := showWord s (agentLevel a) pi page o
      if o = oEVT_STATUS then
        (w, { s with flt := { s.flt with unread := tdropIf (fun k => k / 32 == page) s.flt.unread } })
      else if isCore a || agentLevel a ≠ 0 then (w, clearRc s addr hw)
      else (w, s)

/-- One register read by an agent whose level has been checked (R480). -/
def readWord (s : State) (a : Agent) (addr dt : Nat) (hw : Option Word) : (Res × Word) × State :=
  let page := addr / 0x1000
  if addr % 4 ≠ 0 then ((.error, 0), s)
  else match pageGate s page, pageInfo page with
  | .opened, some pi =>
    if isCore a && coreLoadRefused s page then ((.denied, 0), regDenied s)
    else
      let r := readOpen s a pi addr dt hw
      ((.ok, r.1), r.2)
  | .absent, _ => ((.ok, 0), s)
  | .held, _ => ((.retry, 0), s)
  | _, _ => ((.error, 0), s)

/-- A register read, and its reply. -/
def regRead (s : State) (a : Agent) (addr dt : Nat) (hw : Option Word) : State :=
  if !isCore a && !mayRead (agentLevel a) addr then
    let s := skyDenied s
    { s with reply := { res := .denied, data := 0 } }
  else
    let r := readWord s a addr dt hw
    { r.2 with reply := { res := r.1.1, data := r.1.2 } }

/-- Tally Time since the last edge or tick at the present cycle: 40 ns of Tally Time hold 64 cycles. -/
def cycleTT (s : State) : Nat := s.tm.cycle * 160

end Sys2Proof.Machine
end

