-- ==== Sys2Proof/Machine/RegWrite.lean ====
section
/-! DEFINITION. Writing a register: the merge of a written word by access code (R17), sealed fields (R432), the registers
whose write is a command of its block, the common layout's PAGE_CTRL (R582), and the checks of R444, R480, R484. -/

namespace Sys2Proof.Machine

/-! The generic write (R17-R19). -/

def mergeField (old v : Word) (f : FieldSpec) (w : Word) : Word :=
  let x := bitsOf v f.lo f.width
  let o := bitsOf old f.lo f.width
  match f.acc with
  | .rw | .rwS => setBits w f.lo f.width x
  | .w1c => setBits w f.lo f.width (o - (o &&& x))
  | .w1s => setBits w f.lo f.width (o ||| x)
  | .ro | .cnt | .rc | .wo => w

/-- The word that a write of `v` leaves where `old` stood. -/
def mergeWord (fs : List FieldSpec) (old v : Word) : Word := fs.foldl (fun w f => mergeField old v f w) old

/-- The AGENT byte of a sealed change (R433): 0 and 1 for Skyline levels 2 and 3; the rule gives a lower level or a core,
which can reach only a framer page, no code, so theirs is free. -/
def sealAgent (s : State) (a : Agent) : Nat × State :=
  match a with
  | .sky l => if 2 ≤ l.val then (l.val - 2, s) else let f := free s; (f.1 % 256, f.2)
  | .core _ => let f := free s; (f.1 % 256, f.2)

/-- A change of a word, its sealed fields decided by R432 first. -/
def putSealed (s : State) (a : Agent) (addr : Nat) (new : Word) (go : State → Res × State) : Res × State :=
  let old := rawRd s addr
  let m := sealedMask s addr
  if ¬ s.sl.isSealed ∨ old.toNat &&& m = new.toNat &&& m then go s
  else
    let g := sealAgent s a
    let r := sealedWrite g.2 g.1 addr old new
    if r.1 then go r.2 else (.denied, r.2)

/-- A register without an operation of its own. -/
def writeGeneric (s : State) (a : Agent) (addr : Nat) (v : Word) : Res × State :=
  let new := mergeWord (fieldsAt (pageType (addr / 0x1000)) (addr % 0x1000)) (rawRd s addr) v
  putSealed s a addr new (fun s => (.ok, rawWr s addr new))

/-! PAGE_CTRL (R582). -/

def pageCtrlOp (s : State) (page : Nat) (v : Word) : Res × State :=
  let cap := ctrlCap (pageType page)
  let soft := v.getLsbD 1
  if soft && !(cap && s.md.mode == .diagnostic) then (.error, s)
  else
    let a := pb page + oPAGE_CTRL
    let en := if cap then bitsOf v 0 1 else 1
    let s := rawWr s a (BitVec.ofNat 32 (en + 4 * bitsOf v 2 1))
    (.ok, if soft && !s.md.softReset.contains page then setMd s { s.md with softReset := s.md.softReset ++ [page] } else s)

def writeCommon (s : State) (a : Agent) (page o : Nat) (v : Word) : Res × State :=
  if o = oPAGE_CTRL then pageCtrlOp s page v
  else if o = oEVT_STATUS then (.ok, evtClear s page v 0)
  else if o = oEVT_ENABLE then (.ok, rawWr s (pb page + o) (BitVec.ofNat 32 (v.toNat % 2 ^ eventCount page)))
  else if o = oEVT_INJECT then injectOp s a page v
  else if o = oEVT_CLASS then classOp s page false v
  else if o = oEVT_CLASS_HI then classOp s page true v
  else (.ok, s)

/-! Registers whose write is a command. -/

/-- MODE_REQ (R562). -/
def writeMode (s : State) (a : Agent) (v : Word) : Res × State :=
  (.ok, modeReqOp s (!isCore a) (Mode.ofCode (bitsOf v 0 3)) (v.getLsbD 3))

/-- LC_CMD (R550): lifecycle operations are accepted over Skyline alone. -/
def writeLc (s : State) (a : Agent) (v : Word) : Res × State :=
  if isCore a then (.denied, s) else lcCmdOp s (bitsOf v 0 4) (bitsOf v 4 3)

/-- BOOT_CMD (R545): SUBMIT, then END. -/
def writeBootCmd (s : State) (v : Word) : Res × State :=
  if !awaiting s then (.error, s)
  else
    let r := if v.getLsbD 0 then submitOp s (bitsOf v 1 3) else (.ok, s)
    if v.getLsbD 4 && awaiting r.2 then bootEndOp r.2 else r

/-- STORE_CMD (R194): WRITE, then READ. -/
def writeStoreCmd (s : State) (a : Agent) (pipe : Nat) (v : Word) : Res × State :=
  let r := if v.getLsbD 0 then storeWriteOp s a pipe else (.ok, s)
  if r.1 = .ok ∧ v.getLsbD 1 then storeReadOp r.2 a pipe else r

/-- TBL_CMD (R214, R237). -/
def writeTblCmd (s : State) (pipe : Nat) (v : Word) : Res × State :=
  match bitsOf v 0 3 with
  | 4 => tblReadOp s pipe v
  | 0 | 7 => (if tblBusy s pipe then .error else .ok, s)
  | op => tblUpdate s pipe v op

/-- FT_CMD (R277, R280). -/
def writeFtCmd (s : State) (v : Word) : Res × State :=
  let op := bitsOf v 0 4
  if op = 0 ∨ 9 < op then (if fgb s pgFT F.FT_FT_STATUS_BUSY then .error else .ok, s) else ftCmdOp s op v

/-- CTR_CMD (R282): WRITE, READ, CLEAR_BANK. -/
def writeCtrCmd (s : State) (pipe : Nat) (v : Word) (add : Option Nat) : Res × State :=
  let s := if v.getLsbD 1 then ctrWriteOp s pipe add else s
  let s := if v.getLsbD 0 then ctrReadOp s pipe else s
  (.ok, if v.getLsbD 2 then clearBankOp s pipe else s)

/-- TD_OP (R451, R468): the result stands in TD_RESULT. -/
def tdResult (k : Nat) (r : Nat × State) : State :=
  { r.2 with dsp := { r.2.dsp with result := tset (fun _ => 0) r.2.dsp.result k r.1 } }

def writeTdOp (s : State) (v : Word) : Res × State :=
  let t := bitsOf v 0 10
  match bitsOf v 10 2 with
  | 1 => (.ok, tdResult 16 (readyTh s t))
  | 2 => (.ok, tdResult 16 (cancelTh s t))
  | 3 => (.ok, tdResult 16 (delayTh s t (bitsOf v 12 20)))
  | _ => (.ok, s)

/-- Page 0x007. -/
def writeReader (s : State) (a : Agent) (o : Nat) (v : Word) : Res × State :=
  if o = R.CR_SNAP_CMD then (if v.getLsbD 0 then snapOp s else if snapPending s then (.error, s) else (.ok, s))
  else if o = R.CR_LIST_ENTRY then
    let k := fg s pgCR F.CR_LIST_INDEX_ENTRY
    (.ok, { s with cnt := { s.cnt with list := tset (fun _ => 0) s.cnt.list k (v &&& 0xC0FFFFFF) } })
  else match pcLoOf o, (if 4 ≤ o then pcLoOf (o - 4) else none) with
  | some k, _ => (.ok, { s with cnt := { s.cnt with pcStage := tset (fun _ => 0) s.cnt.pcStage k v } })
  | none, some k => (.ok, pcValueOp s k v)
  | none, none =>
    if o = R.CR_PC_CLEAR then (.ok, { s with cnt := { s.cnt with clearStage := v } })
    else if o = R.CR_PC_CLEAR + 4 then (.ok, pcClearOp s v)
    else writeGeneric s a (pb 0x007 + o) v

/-- Page 0x017: ACK_SEQ and REWIND_SEQ act at their high words (R429). -/
def writeAudit (s : State) (a : Agent) (o : Nat) (v : Word) : Res × State :=
  if o = R.AUD_ACK_SEQ + 4 then (.ok, ackOp s v)
  else if o = R.AUD_REWIND_SEQ then (.ok, { s with ev := { s.ev with rewindStage := v } })
  else if o = R.AUD_REWIND_SEQ + 4 then rewindOp s v
  else writeGeneric s a (pb 0x017 + o) v

/-- A framer page: FRAMER_CTRL is checked (R99), TIME_PATH being sealed (R114). -/
def writeFramer (s : State) (a : Agent) (page o : Nat) (v : Word) : Res × State :=
  if o = R.FRM_FRAMER_CTRL then
    putSealed s a (pb page + o) (v &&& 0x7FF) (fun s => framerCtrlOp s (page - 0x140) v)
  else writeGeneric s a (pb page + o) v

/-- A classifier page. -/
def writeClassifier (s : State) (a : Agent) (page o : Nat) (v : Word) : Res × State :=
  let pipe := (page - 0x200) / 16
  if o = R.CLS_GEN_CTRL then flipOp s pipe v
  else if o = R.CLS_TBL_CMD then writeTblCmd s pipe v
  else if R.CLS_EM_CFG ≤ o ∧ o < R.CLS_EM_CFG + 0x20 then tableConfigOp s pipe false ((o - R.CLS_EM_CFG) / 4) v
  else if R.CLS_TERN_CFG ≤ o ∧ o < R.CLS_TERN_CFG + 0x20 then tableConfigOp s pipe true ((o - R.CLS_TERN_CFG) / 4) v
  else writeGeneric s a (pb page + o) v

/-- The switch core's global page: pool limits are checked (R331); a WRED seed is due at the next edge (R335). -/
def writeSwitch (s : State) (a : Agent) (o : Nat) (v : Word) : Res × State :=
  if o = R.SC_POOL_MIRROR ∨ o = R.SC_POOL_HOST ∨ (R.SC_POOL_RECIRC ≤ o ∧ o < R.SC_POOL_RECIRC + 0x20) then
    limitOp s (pgSC + o) (v &&& 0xFFFFF)
  else if o = R.SC_WRED_SEED then (.ok, rawWr { s with core := { s.core with seedDue := true } } (pgSC + o) v)
  else writeGeneric s a (pgSC + o) v

/-- The register offset within a port's account block is a checked limit. -/
def isAccLimit (o : Nat) : Bool :=
  let r := (o - 0x400) % 0xC0
  decide (0x400 ≤ o) && (r < 0x20 || r == R.ACC_LL_A_LIMIT || r == R.ACC_LL_A_HEADROOM || r == R.ACC_LL_B_LIMIT ||
    r == R.ACC_LL_B_HEADROOM)

def writeAccount (s : State) (a : Agent) (page o : Nat) (v : Word) : Res × State :=
  let addr := pb page + o
  if isAccLimit o then limitOp s addr (mergeWord (fieldsAt 0x53 o) (rawRd s addr) v) else writeGeneric s a addr v

/-- The dispatcher's page (R442, R460). -/
def writeDispatcher (s : State) (a : Agent) (o : Nat) (v : Word) : Res × State :=
  if o = R.DSP_CORE_RUN then (.ok, coreRunOp s v)
  else if o = R.DSP_DOORBELL then
    let r := writeGeneric s a (pgDSP + o) v
    (r.1, if v.getLsbD 0 then raise r.2 0x3E0 5 else r.2)
  else writeGeneric s a (pgDSP + o) v

/-- The rings' page: base and shape are fixed while EN is 1 (R469). -/
def writeRings (s : State) (a : Agent) (o : Nat) (v : Word) : Res × State :=
  let addr := pb 0x3E2 + o
  let q := (o - 0x100) / 32
  let r := (o - 0x100) % 32
  if o < 0x100 ∨ 0x300 ≤ o then writeGeneric s a addr v
  else
    let on := fgb s (rngB q) F.RNG_RING_CFG_EN
    let new := mergeWord (fieldsAt 0x72 o) (rawRd s addr) v
    if on && (r == 0 || r == 4) then (.error, s)
    else if on && r == 8 && bitsOf new 1 31 != bitsOf (rawRd s addr) 1 31 then (.error, s)
    else writeGeneric s a addr v

/-- A write of a word of an open page that the agent may write. -/
def writeOpen (s : State) (a : Agent) (pi : PageInfo) (page o : Nat) (v : Word) : Res × State :=
  let addr := pb page + o
  let pipe := (page - 0x200) / 16
  if o < 0x040 then writeCommon s a page o v
  else match pi.type with
  | 0x02 => if o = R.MOD_MODE_REQ then writeMode s a v else writeGeneric s a addr v
  | 0x03 => if o = R.LC_LC_CMD then writeLc s a v else writeGeneric s a addr v
  | 0x04 =>
    if o = R.BOOT_BOOT_CMD then writeBootCmd s v
    else if o = R.BOOT_BOOT_ADDR then writeGeneric s a addr (v &&& 0xFFFFFC)
    else if R.BOOT_BOOT_DATA ≤ o then bootDataOp s ((o - R.BOOT_BOOT_DATA) / 4) v
    else writeGeneric s a addr v
  | 0x07 => if o = R.FA_LOG_CTRL then (.ok, if v.getLsbD 0 then logClearOp s else s) else writeGeneric s a addr v
  | 0x08 => writeReader s a o v
  | 0x16 => if o = R.SEAL_SEAL_CMD then (if v.getLsbD 0 then sealGoOp s else (.ok, s)) else writeGeneric s a addr v
  | 0x17 => writeAudit s a o v
  | 0x20 => if o = R.PG_PORT_MAP then portMapOp s (page - 0x020) v else writeGeneric s a addr v
  | 0x22 => writeFramer s a page o v
  | 0x31 => if o = R.PRS_PG_CMD then pgCmdOp s pipe (v.getLsbD 0) (v.getLsbD 1) else writeGeneric s a addr v
  | 0x32 => writeClassifier s a page o v
  | 0x34 => if o = R.FS_STORE_CMD then writeStoreCmd s a pipe v else writeGeneric s a addr v
  | 0x35 => if o = R.DECK_CTR_CMD then writeCtrCmd s pipe v none else writeGeneric s a addr v
  | 0x40 => if o = R.HBM_SR_CTRL then (.ok, srExitOp s (page - 0x300) v) else writeGeneric s a addr v
  | 0x41 => if o = R.FT_FT_CMD then writeFtCmd s v else writeGeneric s a addr v
  | 0x50 => writeSwitch s a o v
  | 0x51 => if o = R.MCM_MC_CMD then mcCmdOp s v else writeGeneric s a addr v
  | 0x53 => writeAccount s a page o v
  | 0x58 => if o = R.POL_POL_CMD then polCmdOp s (page - 0x3A0) v else writeGeneric s a addr v
  | 0x60 => if o = R.ARB_ER_CMD then erCmdOp s v else writeGeneric s a addr v
  | 0x62 =>
    if 0x100 ≤ o ∧ (o - 0x100) % 0x400 = R.SEQ_SEQ_CFG then seqCfgOp s (2 * (page - 0x3D0) + (o - 0x100) / 0x400) v
    else writeGeneric s a addr v
  | 0x70 => writeDispatcher s a o v
  | 0x71 =>
    if o = R.TD_TD_CFG then (.ok, cfgTh s v)
    else if o = R.TD_TD_OP then writeTdOp s v
    else writeGeneric s a addr v
  | 0x72 => writeRings s a o v
  | _ => writeGeneric s a addr v

/-! Credentials (R444, R484, R520, R550, R562). -/

/-- Pages whose writes are reserved to level 2 (R484). -/
def level2Page (page : Nat) : Bool :=
  page == 0x002 || page == 0x003 || page == 0x007 || page == 0x008 || (0x010 ≤ page && page ≤ 0x017)

/-- The least Skyline level that may write `v` at `addr`. -/
def writeLevel (addr : Nat) (v : Word) : Nat :=
  let page := addr / 0x1000
  let o := addr % 0x1000
  if page = 0x002 ∧ o = R.LC_LC_CMD then lcLevel (bitsOf v 0 4)
  else if page = 0x001 ∧ o = R.MOD_MODE_REQ ∧ bitsOf v 0 3 = 0 then 2
  else if pageType page = 0x34 ∧ o = R.FS_STORE_CMD ∧ bitsOf v 0 2 = 2 then 2
  else if level2Page page then 2
  else 1

/-- A Skyline write beyond its level: it counts in DENIED, and a refused RESET request is recorded (R484, R562). -/
def writeBeyond (s : State) (addr : Nat) (v : Word) : State :=
  let s := skyDenied s
  if addr = pgMOD + R.MOD_MODE_REQ ∧ bitsOf v 0 3 = 0 then refuseMode s mrDENIED else s

/-- A core's store is refused (R444, R520). -/
def coreStoreRefused (s : State) (page : Nat) : Bool :=
  (0x010 ≤ page && page ≤ 0x017) || (page == 0x007 && !fgb s pgCR F.CR_CR_CTRL_CORE_EN)

/-- One register write by an agent whose level has been checked. -/
def writeWord (s : State) (a : Agent) (addr : Nat) (v : Word) : Res × State :=
  let page := addr / 0x1000
  if addr % 4 ≠ 0 then (.error, s)
  else match pageGate s page, pageInfo page with
  | .opened, some pi =>
    if isCore a && coreStoreRefused s page then (.denied, regDenied s)
    else
      let r := writeOpen s a pi page (addr % 0x1000) v
      if isCore a && r.1 == .denied then (r.1, regDenied r.2) else r
  | .absent, _ => (.ok, s)
  | .held, _ => (.retry, s)
  | _, _ => (.error, s)

/-- A write whose level is checked first: its result and the state after. -/
def checkedWrite (s : State) (a : Agent) (addr : Nat) (v : Word) : Res × State :=
  if !isCore a && decide (agentLevel a < writeLevel addr v) then (.denied, writeBeyond s addr v)
  else writeWord s a addr v

/-- A register write, and its reply. -/
def regWrite (s : State) (a : Agent) (addr : Nat) (v : Word) : State :=
  let r := checkedWrite s a addr v
  { r.2 with reply := { res := r.1, data := 0 } }

/-- An operation on a page that the rows with operands beyond the written word perform in place of `writeOpen`: the same
gates, levels and reply. -/
def regOp (s : State) (a : Agent) (addr : Nat) (v : Word) (op : State → Res × State) : State :=
  let page := addr / 0x1000
  let r : Res × State :=
    if !isCore a && decide (agentLevel a < writeLevel addr v) then (.denied, writeBeyond s addr v)
    else match pageGate s page with
    | .opened => if isCore a && coreStoreRefused s page then (.denied, regDenied s) else op s
    | .absent => (.ok, s)
    | .held => (.retry, s)
    | .unallocated => (.error, s)
  { r.2 with reply := { res := r.1, data := 0 } }

end Sys2Proof.Machine
end

