-- ==== Sys2Proof/Machine/ExecClassify.lean ====
section
/-! DEFINITION. The meanings of the commands of parse, classification, its tables and fragments (chapter 06). Each is its operation's effect on everything but the
queue. -/

namespace Sys2Proof.Machine

/-- PARSE (R197): The parse graph walks the frame's window into a header vector, waiting for bytes as needed. -/
def execParse (frame : Nat) (more : List Byte) (s : State) : Host.Outcome State Fault Refusal :=
  keep s (parseOp s frame more)

/-- CLASSIFY (R213): The key is built and looked up, and the frame's action, generation and metering are resolved. -/
def execClassify (frame : Nat) (more : List Byte) (upset : List Nat) (corrected : Bool) (s : State) : Host.Outcome State Fault Refusal :=
  keep s (classifyOp s frame more upset corrected)

/-- PG_WRITE (R202): PG_CMD.WRITE writes a parse graph node or transition, refused while PARSE_EN = 1. -/
def execPgWrite (a : Agent) (pipe : Fin 8) (cmd : Word) (s : State) : Host.Outcome State Fault Refusal :=
  keep s (regWrite s a (prsB pipe + R.PRS_PG_CMD) (setBits cmd 0 2 1))

/-- PG_READ (R236): PG_CMD.READ reads a node or transition into PG_DATA. -/
def execPgRead (a : Agent) (pipe : Fin 8) (cmd : Word) (s : State) : Host.Outcome State Fault Refusal :=
  keep s (regWrite s a (prsB pipe + R.PRS_PG_CMD) (setBits cmd 0 2 2))

/-- TBL_INSERT (R210): TBL_CMD INSERT places an exact-match entry in a candidate bucket, or fails FULL. -/
def execTblInsert (a : Agent) (pipe : Fin 8) (cmd : Word) (s : State) : Host.Outcome State Fault Refusal :=
  keep s (regWrite s a (clsB pipe + R.CLS_TBL_CMD) (setBits cmd 0 3 1))

/-- TBL_DELETE (R214): TBL_CMD DELETE clears an entry's VALID at an edge. -/
def execTblDelete (a : Agent) (pipe : Fin 8) (cmd : Word) (s : State) : Host.Outcome State Fault Refusal :=
  keep s (regWrite s a (clsB pipe + R.CLS_TBL_CMD) (setBits cmd 0 3 2))

/-- TBL_MODIFY (R214): TBL_CMD MODIFY replaces an entry's result word at an edge. -/
def execTblModify (a : Agent) (pipe : Fin 8) (cmd : Word) (s : State) : Host.Outcome State Fault Refusal :=
  keep s (regWrite s a (clsB pipe + R.CLS_TBL_CMD) (setBits cmd 0 3 3))

/-- TBL_READ (R237): TBL_CMD READ returns an entry into the window. -/
def execTblRead (a : Agent) (pipe : Fin 8) (cmd : Word) (s : State) : Host.Outcome State Fault Refusal :=
  keep s (regWrite s a (clsB pipe + R.CLS_TBL_CMD) (setBits cmd 0 3 4))

/-- TBL_WRITE (R214): TBL_CMD WRITE writes an entry by index, taking hold at an edge. -/
def execTblWrite (a : Agent) (pipe : Fin 8) (cmd : Word) (s : State) : Host.Outcome State Fault Refusal :=
  keep s (regWrite s a (clsB pipe + R.CLS_TBL_CMD) (setBits cmd 0 3 5))

/-- TBL_CLEAR (R214): TBL_CMD CLEAR clears an entry by index at an edge. -/
def execTblClear (a : Agent) (pipe : Fin 8) (cmd : Word) (s : State) : Host.Outcome State Fault Refusal :=
  keep s (regWrite s a (clsB pipe + R.CLS_TBL_CMD) (setBits cmd 0 3 6))

/-- TABLE_CONFIG_WRITE (R607): A write to EM_CFG or TERN_CFG is checked for overlap and size, then accepted or
refused. -/
def execTableConfigWrite (a : Agent) (pipe : Fin 8) (tern : Bool) (idx : Fin 8) (v : Word) (s : State) : Host.Outcome State Fault Refusal :=
  keep s (regWrite s a (clsB pipe + (if tern then R.CLS_TERN_CFG else R.CLS_EM_CFG) + 4 * idx) v)

/-- FLIP (R219): GEN_CTRL.FLIP increments ACTIVE_GEN at the next ply and starts retirement of the old bank. -/
def execFlip (a : Agent) (pipe : Fin 8) (v : Word) (s : State) : Host.Outcome State Fault Refusal :=
  keep s (regWrite s a (clsB pipe + R.CLS_GEN_CTRL) v)

/-- FRAG_ENTRY_EXPIRY (R226): A fragment entry's LIFE elapses and the entry is removed. -/
def execFragEntryExpiry (pipe : Fin 8) (s : State) : Host.Outcome State Fault Refusal :=
  keep s (fragExpire s pipe)

/-- FRAG_HOLD_RELEASE (R228): A held non-first fragment is released with the stored outcome once its entry exists. -/
def execFragHoldRelease (pipe : Fin 8) (s : State) : Host.Outcome State Fault Refusal :=
  keep s (fragRelease s pipe)

/-- FRAG_TIMEOUT (R228): A held fragment's HOLD elapses and it is dropped with FRAG_TIMEOUT. -/
def execFragTimeout (pipe : Fin 8) (s : State) : Host.Outcome State Fault Refusal :=
  keep s (fragTimeoutOp s pipe)

end Sys2Proof.Machine
end

