-- ==== Sys2Proof/Machine/Rv64.lean ====
section
/-! DEFINITION. The instructions of a control core, RV64IMAC with Zicsr (R441), as the published instruction set lays them
out (log entry 8): the decoded form, the arithmetic, the decoding of 32-bit and 16-bit encodings. -/

namespace Sys2Proof.Machine

/-- Arithmetic of the I and M extensions. -/
inductive AluOp where
  | add | sub | sll | slt | sltu | xor | srl | sra | or | and
  | mul | mulh | mulhsu | mulhu | div | divu | rem | remu
deriving DecidableEq, Repr

/-- Read-modify-write operations of the A extension. -/
inductive AmoOp where
  | swap | add | xor | and | or | min | max | minu | maxu
deriving DecidableEq, Repr

/-- Conditions of branches. -/
inductive Cond where
  | eq | ne | lt | ge | ltu | geu
deriving DecidableEq, Repr

/-- What a CSR instruction does with its source. -/
inductive CsrOp where
  | write | set | clear
deriving DecidableEq, Repr

/-- A decoded instruction. Register operands are numbers 0-31; `w` marks a 32-bit form; sizes are in bytes. -/
inductive Rv where
  | lui (rd : Nat) (imm : DWord)
  | auipc (rd : Nat) (imm : DWord)
  | jal (rd : Nat) (off : DWord)
  | jalr (rd rs1 : Nat) (off : DWord)
  | branch (c : Cond) (rs1 rs2 : Nat) (off : DWord)
  | load (size : Nat) (signed : Bool) (rd rs1 : Nat) (off : DWord)
  | store (size : Nat) (rs1 rs2 : Nat) (off : DWord)
  | alui (op : AluOp) (w : Bool) (rd rs1 : Nat) (imm : DWord)
  | alu (op : AluOp) (w : Bool) (rd rs1 rs2 : Nat)
  | lr (size rd rs1 : Nat)
  | sc (size rd rs1 rs2 : Nat)
  | amo (op : AmoOp) (size rd rs1 rs2 : Nat)
  | csr (op : CsrOp) (rd : Nat) (useImm : Bool) (rs1 : Nat) (csr : Nat)
  | fence | ecall | ebreak | mret | wfi
deriving DecidableEq, Repr

/-! Arithmetic. -/

def sx32 (v : Word) : DWord := v.signExtend 64

def alu64 (op : AluOp) (a b : DWord) : DWord :=
  match op with
  | .add => a + b
  | .sub => a - b
  | .sll => a <<< (b.toNat % 64)
  | .slt => if a.slt b then 1 else 0
  | .sltu => if a.ult b then 1 else 0
  | .xor => a ^^^ b
  | .srl => a >>> (b.toNat % 64)
  | .sra => a.sshiftRight (b.toNat % 64)
  | .or => a ||| b
  | .and => a &&& b
  | .mul => a * b
  | .mulh => BitVec.ofInt 64 (a.toInt * b.toInt / 2 ^ 64)
  | .mulhsu => BitVec.ofInt 64 (a.toInt * (b.toNat : Int) / 2 ^ 64)
  | .mulhu => BitVec.ofNat 64 (a.toNat * b.toNat / 2 ^ 64)
  | .div => if b = 0 then BitVec.allOnes 64 else a.sdiv b
  | .divu => if b = 0 then BitVec.allOnes 64 else a.udiv b
  | .rem => if b = 0 then a else a.srem b
  | .remu => if b = 0 then a else a.umod b

/-- The 32-bit forms: on the low words, the result sign-extended. -/
def alu32 (op : AluOp) (a b : Word) : DWord :=
  sx32 (match op with
    | .sub => a - b
    | .sll => a <<< (b.toNat % 32)
    | .srl => a >>> (b.toNat % 32)
    | .sra => a.sshiftRight (b.toNat % 32)
    | .mul => a * b
    | .div => if b = 0 then BitVec.allOnes 32 else a.sdiv b
    | .divu => if b = 0 then BitVec.allOnes 32 else a.udiv b
    | .rem => if b = 0 then a else a.srem b
    | .remu => if b = 0 then a else a.umod b
    | _ => a + b)

def aluOp (op : AluOp) (w : Bool) (a b : DWord) : DWord :=
  if w then alu32 op (a.truncate 32) (b.truncate 32) else alu64 op a b

def rvCond (c : Cond) (a b : DWord) : Bool :=
  match c with
  | .eq => a == b
  | .ne => a != b
  | .lt => a.slt b
  | .ge => !a.slt b
  | .ltu => a.ult b
  | .geu => !a.ult b

/-- Both operands are `size` bytes wide, sign-extended. -/
def amoOp (op : AmoOp) (size : Nat) (a b : DWord) : DWord :=
  let zx := fun (x : DWord) => x.toNat % 2 ^ (8 * size)
  match op with
  | .swap => b
  | .add => a + b
  | .xor => a ^^^ b
  | .and => a &&& b
  | .or => a ||| b
  | .min => if b.slt a then b else a
  | .max => if a.slt b then b else a
  | .minu => if zx b < zx a then b else a
  | .maxu => if zx a < zx b then b else a

/-! Fields of an encoding held as a number. -/

/-- Bits [lo+n-1:lo]. -/
def bf (i lo n : Nat) : Nat := i / 2 ^ lo % 2 ^ n

/-- A `w`-bit two's complement number as 64 bits. -/
def imm (w v : Nat) : DWord := (BitVec.ofNat w v).signExtend 64

/-! 32-bit encodings. -/

def condOf : Nat → Option Cond
  | 0 => some .eq
  | 1 => some .ne
  | 4 => some .lt
  | 5 => some .ge
  | 6 => some .ltu
  | 7 => some .geu
  | _ => none

/-- OP and OP-32 by funct7 and funct3. -/
def opOf (w : Bool) (f7 f3 : Nat) : Option AluOp :=
  match w, f7, f3 with
  | _, 0, 0 => some .add
  | _, 0x20, 0 => some .sub
  | _, 0, 1 => some .sll
  | false, 0, 2 => some .slt
  | false, 0, 3 => some .sltu
  | false, 0, 4 => some .xor
  | _, 0, 5 => some .srl
  | _, 0x20, 5 => some .sra
  | false, 0, 6 => some .or
  | false, 0, 7 => some .and
  | _, 1, 0 => some .mul
  | false, 1, 1 => some .mulh
  | false, 1, 2 => some .mulhsu
  | false, 1, 3 => some .mulhu
  | _, 1, 4 => some .div
  | _, 1, 5 => some .divu
  | _, 1, 6 => some .rem
  | _, 1, 7 => some .remu
  | _, _, _ => none

/-- OP-IMM and OP-IMM-32. -/
def opImmOf (w : Bool) (i : Nat) : Option Rv :=
  let rd := bf i 7 5
  let rs1 := bf i 15 5
  let im := imm 12 (bf i 20 12)
  let sh : DWord := BitVec.ofNat 64 (bf i 20 6)
  let top := bf i 26 6
  let wide := w && bf i 25 1 == 1
  match bf i 12 3, w with
  | 0, _ => some (.alui .add w rd rs1 im)
  | 1, _ => if top = 0 ∧ ¬ wide then some (.alui .sll w rd rs1 sh) else none
  | 5, _ =>
    if wide then none
    else if top = 0 then some (.alui .srl w rd rs1 sh)
    else if top = 0x10 then some (.alui .sra w rd rs1 sh)
    else none
  | 2, false => some (.alui .slt w rd rs1 im)
  | 3, false => some (.alui .sltu w rd rs1 im)
  | 4, false => some (.alui .xor w rd rs1 im)
  | 6, false => some (.alui .or w rd rs1 im)
  | 7, false => some (.alui .and w rd rs1 im)
  | _, _ => none

/-- The A extension. -/
def amoOf (i : Nat) : Option Rv :=
  let rd := bf i 7 5
  let rs1 := bf i 15 5
  let rs2 := bf i 20 5
  let go := fun (size : Nat) =>
    match bf i 27 5 with
    | 0x02 => if rs2 = 0 then some (.lr size rd rs1) else none
    | 0x03 => some (.sc size rd rs1 rs2)
    | 0x01 => some (.amo .swap size rd rs1 rs2)
    | 0x00 => some (.amo .add size rd rs1 rs2)
    | 0x04 => some (.amo .xor size rd rs1 rs2)
    | 0x0C => some (.amo .and size rd rs1 rs2)
    | 0x08 => some (.amo .or size rd rs1 rs2)
    | 0x10 => some (.amo .min size rd rs1 rs2)
    | 0x14 => some (.amo .max size rd rs1 rs2)
    | 0x18 => some (.amo .minu size rd rs1 rs2)
    | 0x1C => some (.amo .maxu size rd rs1 rs2)
    | _ => (none : Option Rv)
  match bf i 12 3 with
  | 2 => go 4
  | 3 => go 8
  | _ => none

/-- The SYSTEM opcode. -/
def systemOf (i : Nat) : Option Rv :=
  let rd := bf i 7 5
  let rs1 := bf i 15 5
  let c := bf i 20 12
  match bf i 12 3 with
  | 0 =>
    if i = 0x00000073 then some .ecall
    else if i = 0x00100073 then some .ebreak
    else if i = 0x30200073 then some .mret
    else if i = 0x10500073 then some .wfi
    else none
  | 1 => some (.csr .write rd false rs1 c)
  | 2 => some (.csr .set rd false rs1 c)
  | 3 => some (.csr .clear rd false rs1 c)
  | 5 => some (.csr .write rd true rs1 c)
  | 6 => some (.csr .set rd true rs1 c)
  | 7 => some (.csr .clear rd true rs1 c)
  | _ => none

/-- A 32-bit encoding; none where it is no instruction of RV64IMA with Zicsr. -/
def decode32 (i : Nat) : Option Rv :=
  let rd := bf i 7 5
  let f3 := bf i 12 3
  let rs1 := bf i 15 5
  let rs2 := bf i 20 5
  match bf i 0 7 with
  | 0x37 => some (.lui rd (imm 32 (bf i 12 20 * 4096)))
  | 0x17 => some (.auipc rd (imm 32 (bf i 12 20 * 4096)))
  | 0x6F =>
    some (.jal rd (imm 21 (bf i 31 1 * 2 ^ 20 + bf i 12 8 * 2 ^ 12 + bf i 20 1 * 2 ^ 11 + bf i 21 10 * 2)))
  | 0x67 => if f3 = 0 then some (.jalr rd rs1 (imm 12 (bf i 20 12))) else none
  | 0x63 =>
    (condOf f3).map (fun c =>
      .branch c rs1 rs2 (imm 13 (bf i 31 1 * 2 ^ 12 + bf i 7 1 * 2 ^ 11 + bf i 25 6 * 2 ^ 5 + bf i 8 4 * 2)))
  | 0x03 => if f3 = 7 then none else some (.load (2 ^ (f3 % 4)) (decide (f3 < 4)) rd rs1 (imm 12 (bf i 20 12)))
  | 0x23 => if f3 < 4 then some (.store (2 ^ f3) rs1 rs2 (imm 12 (bf i 25 7 * 32 + rd))) else none
  | 0x13 => opImmOf false i
  | 0x1B => opImmOf true i
  | 0x33 => (opOf false (bf i 25 7) f3).map (fun o => .alu o false rd rs1 rs2)
  | 0x3B => (opOf true (bf i 25 7) f3).map (fun o => .alu o true rd rs1 rs2)
  | 0x0F => if f3 = 0 then some .fence else none
  | 0x2F => amoOf i
  | 0x73 => systemOf i
  | _ => none

/-! 16-bit encodings (the C extension without floating point). -/

/-- Quadrant 0. -/
def decodeC0 (i : Nat) : Option Rv :=
  let rd := 8 + bf i 2 3
  let rs1 := 8 + bf i 7 3
  let o4 : DWord := BitVec.ofNat 64 (bf i 10 3 * 8 + bf i 6 1 * 4 + bf i 5 1 * 64)
  let o8 : DWord := BitVec.ofNat 64 (bf i 10 3 * 8 + bf i 5 2 * 64)
  match bf i 13 3 with
  | 0 =>
    let n := bf i 11 2 * 16 + bf i 7 4 * 64 + bf i 6 1 * 4 + bf i 5 1 * 8
    if n = 0 then none else some (.alui .add false rd 2 (BitVec.ofNat 64 n))
  | 2 => some (.load 4 true rd rs1 o4)
  | 3 => some (.load 8 true rd rs1 o8)
  | 6 => some (.store 4 rs1 rd o4)
  | 7 => some (.store 8 rs1 rd o8)
  | _ => none

/-- The arithmetic row of quadrant 1. -/
def decodeCA (i : Nat) : Option Rv :=
  let rd := 8 + bf i 7 3
  let rs2 := 8 + bf i 2 3
  let sh : DWord := BitVec.ofNat 64 (bf i 12 1 * 32 + bf i 2 5)
  match bf i 10 2, bf i 12 1, bf i 5 2 with
  | 0, _, _ => some (.alui .srl false rd rd sh)
  | 1, _, _ => some (.alui .sra false rd rd sh)
  | 2, _, _ => some (.alui .and false rd rd (imm 6 (bf i 12 1 * 32 + bf i 2 5)))
  | 3, 0, 0 => some (.alu .sub false rd rd rs2)
  | 3, 0, 1 => some (.alu .xor false rd rd rs2)
  | 3, 0, 2 => some (.alu .or false rd rd rs2)
  | 3, 0, 3 => some (.alu .and false rd rd rs2)
  | 3, 1, 0 => some (.alu .sub true rd rd rs2)
  | 3, 1, 1 => some (.alu .add true rd rd rs2)
  | _, _, _ => none

/-- Quadrant 1. -/
def decodeC1 (i : Nat) : Option Rv :=
  let rd := bf i 7 5
  let im := imm 6 (bf i 12 1 * 32 + bf i 2 5)
  let boff := imm 9 (bf i 12 1 * 256 + bf i 10 2 * 8 + bf i 5 2 * 64 + bf i 3 2 * 2 + bf i 2 1 * 32)
  match bf i 13 3 with
  | 0 => some (.alui .add false rd rd im)
  | 1 => if rd = 0 then none else some (.alui .add true rd rd im)
  | 2 => some (.alui .add false rd 0 im)
  | 3 =>
    if rd = 2 then
      let n := bf i 12 1 * 512 + bf i 6 1 * 16 + bf i 5 1 * 64 + bf i 3 2 * 128 + bf i 2 1 * 32
      if n = 0 then none else some (.alui .add false 2 2 (imm 10 n))
    else
      let n := bf i 12 1 * 2 ^ 17 + bf i 2 5 * 2 ^ 12
      if n = 0 then none else some (.lui rd (imm 18 n))
  | 4 => decodeCA i
  | 5 =>
    some (.jal 0 (imm 12 (bf i 12 1 * 2048 + bf i 11 1 * 16 + bf i 9 2 * 256 + bf i 8 1 * 1024 + bf i 7 1 * 64 +
      bf i 6 1 * 128 + bf i 3 3 * 2 + bf i 2 1 * 32)))
  | 6 => some (.branch .eq (8 + bf i 7 3) 0 boff)
  | _ => some (.branch .ne (8 + bf i 7 3) 0 boff)

/-- Quadrant 2. -/
def decodeC2 (i : Nat) : Option Rv :=
  let rd := bf i 7 5
  let rs2 := bf i 2 5
  match bf i 13 3 with
  | 0 => some (.alui .sll false rd rd (BitVec.ofNat 64 (bf i 12 1 * 32 + rs2)))
  | 2 =>
    if rd = 0 then none
    else some (.load 4 true rd 2 (BitVec.ofNat 64 (bf i 12 1 * 32 + bf i 4 3 * 4 + bf i 2 2 * 64)))
  | 3 =>
    if rd = 0 then none
    else some (.load 8 true rd 2 (BitVec.ofNat 64 (bf i 12 1 * 32 + bf i 5 2 * 8 + bf i 2 3 * 64)))
  | 4 =>
    if bf i 12 1 = 0 then
      if rs2 ≠ 0 then some (.alu .add false rd 0 rs2)
      else if rd = 0 then none
      else some (.jalr 0 rd 0)
    else if rs2 ≠ 0 then some (.alu .add false rd rd rs2)
    else if rd = 0 then some .ebreak
    else some (.jalr 1 rd 0)
  | 6 => some (.store 4 2 rs2 (BitVec.ofNat 64 (bf i 9 4 * 4 + bf i 7 2 * 64)))
  | 7 => some (.store 8 2 rs2 (BitVec.ofNat 64 (bf i 10 3 * 8 + bf i 7 3 * 64)))
  | _ => none

/-- A 16-bit encoding (low two bits not 11). -/
def decode16 (i : Nat) : Option Rv :=
  match bf i 0 2 with
  | 0 => decodeC0 i
  | 1 => decodeC1 i
  | 2 => decodeC2 i
  | _ => none

end Sys2Proof.Machine
end

