-- ==== Sys2Proof/Machine/Cores.lean ====
section
/-! DEFINITION. The control cores (R441-R448): fetch, data accesses with the map of R443 and the windows of R446, the
device CSRs of R447, traps and interrupts, and one instruction of a core. -/

namespace Sys2Proof.Machine

/-- What follows an instruction: the next one, another place, or an exception with its cause and mtval. -/
inductive Flow where
  | next
  | jump (pc : DWord) (branch : Bool)
  | trap (cause : Nat) (tval : Nat)
deriving DecidableEq, Repr

abbrev exIFETCH : Nat := 1
abbrev exILLEGAL : Nat := 2
abbrev exBREAK : Nat := 3
abbrev exLALIGN : Nat := 4
abbrev exLACCESS : Nat := 5
abbrev exSALIGN : Nat := 6
abbrev exSACCESS : Nat := 7
abbrev exECALLU : Nat := 8
abbrev exECALLM : Nat := 11

/-! Integer registers: x0 reads 0 and discards writes. -/

def xget (h : Hart) (r : Nat) : DWord := if r = 0 then 0 else tget (fun _ => 0) h.x r
def xset (h : Hart) (r : Nat) (v : DWord) : Hart := if r = 0 then h else { h with x := tset (fun _ => 0) h.x r v }

def setX (s : State) (c r : Nat) (v : DWord) : State := modH s c (fun h => xset h r v)

/-! What a core reaches (R443, R446). -/

/-- Bytes [a, a+n) lie in an enabled window (R447). -/
def inWindow (w : DWord) (a n : Nat) : Bool :=
  let size := w.toNat / 2 % 64
  let base := w.toNat / 2 ^ 16 % 2 ^ 24 * 2 ^ 16
  w.getLsbD 0 && decide (16 ≤ size) && decide (size ≤ 33) && decide (base / 2 ^ size * 2 ^ size ≤ a) &&
    decide (a + n ≤ base / 2 ^ size * 2 ^ size + 2 ^ size)

/-- The region an access of privilege `m` (machine) reaches; none where it is refused. -/
def reach (s : State) (h : Hart) (m : Bool) (a n : Nat) : CoreRegion :=
  let r := coreRegion s a n
  if m then r
  else match r with
  | .sram | .ctrl => if inWindow h.win0 a n || inWindow h.win1 a n then r else .none
  | _ => .none

/-- The privilege of data accesses: mstatus.MPRV takes MPP's. -/
def dataMachine (h : Hart) : Bool := if h.machine && h.mprv then h.mpp else h.machine

/-- Errors met by a read of SRAM (R445). `upset` is the soft error of the access: 1 correctable, 2 uncorrectable in a
clean line, 3 uncorrectable in the SRAM or a dirty line. Answers whether the read fails. -/
def sramErrors (s : State) (c a n : Nat) (upset : Nat) : Bool × State :=
  let sramHit := (sramByte s c a).isSome
  let s := if !sramHit then s
    else if upset = 1 ∨ upset = 2 then raise s 0x3E0 2
    else if upset = 3 then raise (markWord s c a) 0x3E0 3
    else s
  (coreBad s c a n, s)

/-- Reach control-core memory: an access exits self-refresh (R312, R464). -/
def touchCtrl (s : State) (r : CoreRegion) (a : Nat) : State := if r = .ctrl then wakeFor s (ctrlAddr a) else s

def leNat (bs : List Byte) : Nat := beNat bs.reverse
def leBytes (n v : Nat) : List Byte := (beBytes n v).reverse

/-- A load of `n` bytes: the value, or the cause of the exception. -/
def coreLoad (s : State) (c a n upset : Nat) : Except Nat Nat × State :=
  let h := getH s c
  match reach s h (dataMachine h) a n with
  | .none => (.error exLACCESS, s)
  | .regs =>
    if n ≠ 4 ∨ a % 4 ≠ 0 then (.error exLACCESS, s)
    else
      let r := readWord s (.core (Fin.ofNat 16 c)) (a - 0x40000000) (cycleTT s) none
      (.ok r.1.2.toNat, r.2)
  | r =>
    if a % n ≠ 0 ∧ ¬ Config.coreChoice 0 then (.error exLALIGN, s)
    else
      let e := sramErrors (touchCtrl s r a) c a n upset
      if e.1 then (.error exLACCESS, e.2) else (.ok (leNat (coreRd e.2 c a n)), e.2)

/-- A store of `n` bytes; the cause where it is refused. -/
def coreStore (s : State) (c a n v : Nat) : Option Nat × State :=
  let h := getH s c
  match reach s h (dataMachine h) a n with
  | .none | .rom => (some exSACCESS, s)
  | .regs =>
    if n ≠ 4 ∨ a % 4 ≠ 0 then (some exSACCESS, s)
    else (none, (writeWord s (.core (Fin.ofNat 16 c)) (a - 0x40000000) (BitVec.ofNat 32 v)).2)
  | _ =>
    if a % n ≠ 0 ∧ ¬ Config.coreChoice 0 then (some exSALIGN, s)
    else (none, coreWr s c a (leBytes n v))

/-- The parcels of an instruction: 16 or 32 bits, or where and how the fetch fails. -/
def coreFetch (s : State) (c upset : Nat) : Except Nat (Nat × Bool) × State :=
  let h := getH s c
  let pc := h.pc.toNat
  let half := fun (s : State) (a up : Nat) =>
    match reach s h h.machine a 2 with
    | .none | .regs => ((.error a : Except Nat Nat), s)
    | r =>
      let e := sramErrors (touchCtrl s r a) c a 2 up
      if e.1 then (.error a, e.2) else (.ok (leNat (coreRd e.2 c a 2)), e.2)
  match half s pc upset with
  | (.error a, s) => (.error a, s)
  | (.ok lo, s) =>
    if lo % 4 ≠ 3 then (.ok (lo, true), s)
    else match half s ((pc + 2) % 2 ^ 64) 0 with
    | (.error a, s) => (.error a, s)
    | (.ok hi, s) => (.ok (lo + hi * 65536, false), s)

/-! Control and status registers. -/

/-- Core clock cycles at 2.0 GHz (R441) for the model's cycles of 0.625 ns. -/
def coreClock (s : State) : Nat := cycleNow s * 5 / 4

def b2 (b : Bool) (n : Nat) : Nat := if b then 2 ^ n else 0

def mstatusOf (h : Hart) : Nat :=
  b2 h.mie 3 + b2 h.mpie 7 + (if h.mpp then 3 * 2 ^ 11 else 0) + b2 h.mprv 17 + b2 h.tw 21 + 2 * 2 ^ 32

/-- MPP takes machine (3) or user (0); another value leaves it. -/
def setMstatus (h : Hart) (v : DWord) : Hart :=
  let mpp := v.toNat / 2 ^ 11 % 4
  { h with mie := v.getLsbD 3, mpie := v.getLsbD 7, mprv := v.getLsbD 17, tw := v.getLsbD 21,
           mpp := if mpp = 3 then true else if mpp = 0 then false else h.mpp }

/-- RV64 with I, M, A, C and user mode. -/
def misaValue : Nat := 2 * 2 ^ 62 + 2 ^ 0 + 2 ^ 2 + 2 ^ 8 + 2 ^ 12 + 2 ^ 20

/-- Registers that read 0 and ignore writes: mcounteren, menvcfg, mcountinhibit, mconfigptr, the event counters. -/
def zeroCsr (n : Nat) : Bool :=
  n == 0x306 || n == 0x30A || n == 0x320 || n == 0xF15 || (0x323 ≤ n && n ≤ 0x33F) || (0xB03 ≤ n && n ≤ 0xB1F)

/-- TD_SELF: the thread that runs on the core (R447). -/
def tdSelf (s : State) (c : Nat) : Nat :=
  match runAt s c with
  | some t => 0x8000 + (getT s t).prio * 1024 + t
  | none => 0

/-- What a read of a CSR answers; none where no such register exists. TD_NEXT's read is an operation of its own. -/
def csrValue (s : State) (c n : Nat) : Option Nat :=
  let h := getH s c
  let result := tget (fun _ => 0) s.dsp.result c
  match n with
  | 0xF11 => some (Config.coreId 0).toNat
  | 0xF12 => some (Config.coreId 1).toNat
  | 0xF13 => some (Config.coreId 2).toNat
  | 0xF14 => some c
  | 0x300 => some (mstatusOf h)
  | 0x301 => some misaValue
  | 0x304 => some (b2 h.workEn 16 + b2 h.tickEn 17)
  | 0x305 => some h.mtvec.toNat
  | 0x340 => some h.mscratch.toNat
  | 0x341 => some h.mepc.toNat
  | 0x342 => some h.mcause.toNat
  | 0x343 => some h.mtval.toNat
  | 0x344 => some (b2 (workPending s c) 16 + b2 h.tick 17)
  | 0xB00 => some ((h.mcycle + BitVec.ofNat 64 (coreClock s)).toNat)
  | 0xB02 => some h.minstret.toNat
  | 0xFC0 | 0xCC0 => some (plyNat s)
  | 0xFC1 => some (tickNow s)
  | 0xFC2 => some (tdSelf s c)
  | 0x7C0 | 0x7C1 | 0x7C2 | 0x7C4 => some result
  | 0x7C3 => some 0
  | 0x7C5 => some h.win0.toNat
  | 0x7C6 => some h.win1.toNat
  | _ => if zeroCsr n then some 0 else none

/-- U_WIN0 and U_WIN1 hold EN, SIZE and BASE. -/
def winMask : DWord := 0xFFFFFF007F

/-- A write of a CSR that is no dispatcher operation. -/
def csrWrite (s : State) (c n : Nat) (v : DWord) : State :=
  modH s c (fun h => match n with
    | 0x300 => setMstatus h v
    | 0x304 => { h with workEn := v.getLsbD 16, tickEn := v.getLsbD 17 }
    | 0x305 => { h with mtvec := v &&& ~~~2 }
    | 0x340 => { h with mscratch := v }
    | 0x341 => { h with mepc := v &&& ~~~1 }
    | 0x342 => { h with mcause := v }
    | 0x343 => { h with mtval := v }
    | 0x344 => { h with tick := h.tick && v.getLsbD 17 }
    | 0xB00 => { h with mcycle := v - BitVec.ofNat 64 (coreClock s) }
    | 0xB02 => { h with minstret := v - 1 }
    | 0x7C5 => { h with win0 := v &&& winMask }
    | 0x7C6 => { h with win1 := v &&& winMask }
    | _ => h)

/-- A dispatcher operation of a core on its operand (R447, R451, R452); none for another register. -/
def tdCsr (s : State) (c n : Nat) (v : DWord) : Option (Nat × State) :=
  let t := v.toNat % 2 ^ 32
  match n with
  | 0x7C0 => some (readyTh s t)
  | 0x7C1 => some (cancelTh s t)
  | 0x7C2 => some (delayTh s t (v.toNat / 2 ^ 32))
  | 0x7C4 => some (doneTh s c t)
  | _ => none

/-- A CSR instruction: `rd` takes the old value, or the result of a dispatcher operation. -/
def csrExec (s : State) (c : Nat) (op : CsrOp) (rd : Nat) (useImm : Bool) (rs1 n : Nat) (bits : Nat) : State × Flow :=
  let h := getH s c
  let illegal := (s, Flow.trap exILLEGAL (if Config.coreChoice 1 then bits else 0))
  let src : DWord := if useImm then BitVec.ofNat 64 rs1 else xget h rs1
  let writes := op = .write ∨ rs1 ≠ 0
  let allowed := (h.machine || n / 256 % 4 == 0) && !(decide writes && n / 1024 == 3)
  if !allowed then illegal
  else match csrValue s c n with
  | none => illegal
  | some old =>
    if n = 0x7C3 then
      if rd = 0 ∧ op = .write then (s, .next)
      else
        let r := nextTh s c
        (setX r.2 c rd (BitVec.ofNat 64 r.1), .next)
    else
      let o : DWord := BitVec.ofNat 64 old
      let v := match op with
        | .write => src
        | .set => o ||| src
        | .clear => o &&& ~~~src
      if !decide writes then (setX s c rd o, .next)
      else match tdCsr s c n v with
      | some r => (setX (tdResult c r) c rd (BitVec.ofNat 64 r.1), .next)
      | none => (setX (csrWrite s c n v) c rd o, .next)

/-! Instructions. -/

/-- LR, SC and AMO reach shared SRAM and control-core memory alone (R443). -/
def atomicReach (s : State) (c a n : Nat) : Bool :=
  let h := getH s c
  match reach s h (dataMachine h) a n with
  | .sram | .ctrl => true
  | _ => false

/-- A number of `n` bytes, sign-extended. -/
def sxBytes (n v : Nat) : DWord := imm (8 * n) v

/-- mtval of an access at `a`. -/
def faultAt (a : Nat) : Nat := if Config.coreChoice 2 then a else 0

/-- An atomic access: its alignment and its reach, then the operation. -/
def atomically (s : State) (c a n align access : Nat) (go : Unit → State × Flow) : State × Flow :=
  if !atomicReach s c a n then (s, .trap access (faultAt a))
  else if a % n ≠ 0 then (s, .trap align (faultAt a))
  else go ()

/-- One decoded instruction of core `c` with its encoding `bits` and length `len`. -/
def rvExec (s : State) (c : Nat) (i : Rv) (bits len upset : Nat) : State × Flow :=
  let h := getH s c
  let x := xget h
  let ret := fun (rd : Nat) (v : DWord) => (setX s c rd v, Flow.next)
  let illegal := (s, Flow.trap exILLEGAL (if Config.coreChoice 1 then bits else 0))
  let addr := fun (r : Nat) (off : DWord) => (x r + off).toNat
  match i with
  | .lui rd v => ret rd v
  | .auipc rd v => ret rd (h.pc + v)
  | .jal rd off => (setX s c rd (h.pc + BitVec.ofNat 64 len), .jump (h.pc + off) false)
  | .jalr rd rs1 off => (setX s c rd (h.pc + BitVec.ofNat 64 len), .jump ((x rs1 + off) &&& ~~~1) false)
  | .branch k rs1 rs2 off => (s, if rvCond k (x rs1) (x rs2) then .jump (h.pc + off) true else .next)
  | .alui op w rd rs1 v => ret rd (aluOp op w (x rs1) v)
  | .alu op w rd rs1 rs2 => ret rd (aluOp op w (x rs1) (x rs2))
  | .load n sg rd rs1 off =>
    let a := addr rs1 off
    match coreLoad s c a n upset with
    | (.error e, s) => (s, .trap e (faultAt a))
    | (.ok v, s) => (setX s c rd (if sg then sxBytes n v else BitVec.ofNat 64 v), .next)
  | .store n rs1 rs2 off =>
    let a := addr rs1 off
    match coreStore s c a n ((x rs2).toNat % 2 ^ (8 * n)) with
    | (some e, s) => (s, .trap e (faultAt a))
    | (none, s) => (s, .next)
  | .lr n rd rs1 =>
    let a := (x rs1).toNat
    atomically s c a n exLALIGN exLACCESS (fun _ =>
      match coreLoad s c a n upset with
      | (.error e, s) => (s, .trap e (faultAt a))
      | (.ok v, s) => (modH s c (fun h => { xset h rd (sxBytes n v) with resv := some (a, n) }), .next))
  | .sc n rd rs1 rs2 =>
    let a := (x rs1).toNat
    atomically s c a n exSALIGN exSACCESS (fun _ =>
      let holds := match h.resv with
        | some (b, m) => decide (b ≤ a) && decide (a + n ≤ b + m)
        | none => false
      let s := modH s c (fun h => { h with resv := none })
      if holds then (setX (coreStore s c a n ((x rs2).toNat % 2 ^ (8 * n))).2 c rd 0, .next)
      else (setX s c rd 1, .next))
  | .amo op n rd rs1 rs2 =>
    let a := (x rs1).toNat
    atomically s c a n exSALIGN exSACCESS (fun _ =>
      match coreLoad s c a n upset with
      | (.error _, s) => (s, .trap exSACCESS (faultAt a))
      | (.ok v, s) =>
        let old := sxBytes n v
        let new := amoOp op n old (sxBytes n (x rs2).toNat)
        (setX (coreStore s c a n (new.toNat % 2 ^ (8 * n))).2 c rd old, .next))
  | .csr op rd im rs1 n => csrExec s c op rd im rs1 n bits
  | .fence => (s, .next)
  | .ecall => (s, .trap (if h.machine then exECALLM else exECALLU) 0)
  | .ebreak => (s, .trap exBREAK (faultAt h.pc.toNat))
  | .mret =>
    if !h.machine then illegal
    else
      (modH s c (fun h =>
        { h with machine := h.mpp, mie := h.mpie, mpie := true, mpp := false, mprv := h.mprv && h.mpp }),
       .jump h.mepc false)
  | .wfi =>
    if !h.machine && h.tw then illegal
    else (modH s c (fun h => { h with waiting := true }), .next)

/-! Traps and interrupts (R448). -/

/-- Take a trap: mepc, mcause, mtval and the stacked status; the pc goes to mtvec, vectored for interrupts where its
mode is 1. -/
def takeTrap (s : State) (c : Nat) (interrupt : Bool) (cause tval : Nat) : State :=
  modH s c (fun h =>
    let base := h.mtvec &&& ~~~3
    { h with
      mepc := h.pc, mcause := BitVec.ofNat 64 (cause + (if interrupt then 2 ^ 63 else 0)), mtval := BitVec.ofNat 64 tval,
      mpie := h.mie, mie := false, mpp := h.machine, machine := true, waiting := false,
      pc := if interrupt && h.mtvec.getLsbD 0 then base + BitVec.ofNat 64 (4 * cause) else base })

/-- Interrupts pending and enabled in mie: WORK and TICK. -/
def pendWork (s : State) (c : Nat) : Bool := (getH s c).workEn && workPending s c
def pendTick (s : State) (c : Nat) : Bool := (getH s c).tickEn && (getH s c).tick

/-- Wake from WFI, then the interrupt that the core takes before its next instruction. -/
def takeInterrupt (s : State) (c : Nat) : State :=
  let work := pendWork s c
  let tick := pendTick s c
  if !work && !tick then s
  else
    let s := modH s c (fun h => { h with waiting := false })
    let h := getH s c
    if h.machine && !h.mie then s
    else takeTrap s c true (if tick && (!work || Config.coreChoice 3) then 17 else 16) 0

/-! One instruction. -/

/-- The sample record of an instruction (R533). Whether it missed a cache is a free value: the spec gives the caches no
replacement rule. R533 gives byte 16 both to the flags and to the PC, whose top byte is 0 in every region of R443: it
holds the flags. -/
def insnRecord (s : State) (c : Nat) (user : Bool) (self bits : Nat) (short : Bool) (pc : DWord) (misses : Nat) (f : Flow) :
    BitVec 256 :=
  let flags := b2 short 0 + misses % 4 * 2 +
    (match f with
     | .trap _ _ => 8
     | .jump _ true => 16
     | _ => 0)
  BitVec.ofNat 256 (beNat ([0x82] ++ beBytes 1 (c + (if user then 16 else 0)) ++ beBytes 2 self ++
    beBytes 2 (bits / 65536) ++ beBytes 2 (bits % 65536) ++ beBytes 8 (plyNat s) ++ beBytes 1 flags ++
    beBytes 7 pc.toNat ++ List.replicate 8 0))

/-- Instruction sampling counts an instruction of core `c`. -/
def sampled (s : State) (c : Nat) : Bool :=
  sampling s && fgb s pgCR F.CR_SAMP_CTRL_INSN_EN && (fg s pgCR F.CR_SAMP_CTRL_CORE_MASK).testBit c

/-- CORE_INSTRUCTION: an interrupt where one is due, then one instruction. -/
def coreInsn (s : State) (c upset : Nat) (onFetch : Bool) : State :=
  if !coreOn s c || inReset s then s
  else
    let s := takeInterrupt s c
    if (getH s c).waiting then s
    else
      let h := getH s c
      match coreFetch s c (if onFetch then upset else 0) with
      | (.error a, s) => takeTrap s c false exIFETCH (faultAt a)
      | (.ok (bits, short), s) =>
        let len := if short then 2 else 4
        let self := tdSelf s c
        let r := match (if short then decode16 bits else decode32 bits) with
          | some i => rvExec s c i bits len (if onFetch then 0 else upset)
          | none => (s, Flow.trap exILLEGAL (if Config.coreChoice 1 then bits else 0))
        let retire := fun (s : State) (pc : DWord) => modH s c (fun h => { h with pc := pc, minstret := h.minstret + 1 })
        let s := match r.2 with
          | .next => retire r.1 (h.pc + BitVec.ofNat 64 len)
          | .jump pc _ => retire r.1 pc
          | .trap e v => takeTrap r.1 c false e v
        if sampled s c then
          let m := free s
          sampleInsn m.2 c (insnRecord s c (!h.machine) self bits short h.pc m.1 r.2)
        else s

end Sys2Proof.Machine
end

