-- ==== Sys2Proof/Machine/Skyline.lean ====
section
/-! DEFINITION. The Skyline node (R471-R489): forwarding, ENUM and POLL, authentication, register and window operations,
retransmission, replies. -/

namespace Sys2Proof.Machine

abbrev pgSKY : Nat := pb 0x008
abbrev evCRC_ERR : Nat := 0
abbrev evAUTH_FAIL : Nat := 1
abbrev evFWD_DROP : Nat := 2
abbrev evSKY_LINK_LOSS : Nat := 3

abbrev opREAD : Nat := 1
abbrev opWRITE : Nat := 2
abbrev opMASKED : Nat := 3
abbrev opBREAD : Nat := 4
abbrev opBWRITE : Nat := 5
abbrev opWREAD : Nat := 6
abbrev opWWRITE : Nat := 7
abbrev opPOLL : Nat := 8
abbrev opENUM : Nat := 9

/-! Frames (R474, R477, R479). -/

def crcTail (bs : List Byte) (good : Bool) : List Byte :=
  beBytes 4 (if good then (crc32c bs).toNat else (~~~ (crc32c bs)).toNat)

def opLevel (op : Nat) (r : SkyReq) : Nat := op + r.level.val * 16 + (if r.bcast then 64 else 0)

/-- The bytes of a request up to its AUTH field (R477). -/
def reqHead (op : Nat) (r : SkyReq) : List Byte :=
  [0x51] ++ beBytes 1 (opLevel op r) ++ [r.dest, 0] ++ beBytes 2 r.tag.toNat ++ beBytes 2 r.count.toNat ++
  beBytes 4 r.addr.toNat ++ beBytes 8 r.nonce.toNat ++ wordsBytes r.payload

/-- The bytes of a request up to its CRC. -/
def reqBody (op : Nat) (r : SkyReq) : List Byte := reqHead op r ++ (if r.level = 0 then [] else r.auth.take 8)

def reqCrcGood (op : Nat) (r : SkyReq) : Bool := crc32c (reqBody op r) == r.crc

def addressed (s : State) : Bool := fgb s pgSKY F.SKY_SKY_STATUS_ASSIGNED
def nodeAddr (s : State) : Nat := fg s pgSKY F.SKY_SKY_STATUS_ADDR

def crcErr (s : State) : State := raise (bump s (pgSKY + R.SKY_CRC_ERR)) 0x008 evCRC_ERR

/-! Forwarding (R472-R474). -/

/-- A frame passes; found bad, it is counted and ended with the inverse of its correct CRC. In bypass it is only
retimed. -/
def skyPass (s : State) (bs : List Byte) : State :=
  if s.sky.bypass then emit s (.skyline bs)
  else
    let body := bs.take (bs.length - 4)
    if bs.drop (bs.length - 4) = crcTail body true then emit s (.skyline bs)
    else emit (crcErr s) (.skyline (body ++ crcTail body false))

/-- SKYLINE_FORWARD: `waiting` bytes already stand in the forwarding buffer, when the node's own frame is on the link. -/
def forwardOp (s : State) (bs : List Byte) (waiting : Option Nat) : State :=
  match waiting with
  | some n => if 8192 < n + bs.length then raise (bump s (pgSKY + R.SKY_FWD_DROP)) 0x008 evFWD_DROP else skyPass s bs
  | none => skyPass s bs

/-- A broadcast frame that the node changes: a new CRC, inverted when the one received was bad. -/
def passChanged (s : State) (op : Nat) (r : SkyReq) (payload : List Word) : State :=
  let body := reqBody op { r with payload := payload }
  let good := reqCrcGood op r
  let s := if good then s else crcErr s
  emit s (.skyline (body ++ crcTail body good))

/-- The frame passes unchanged. -/
def passReq (s : State) (op : Nat) (r : SkyReq) : State := skyPass s (reqBody op r ++ wordBytes r.crc)

/-! Levels and keys (R482, R483, R555). -/

/-- How a level is accepted: refused, open (without AUTH), or authenticated with a key. -/
inductive LevelRule where
  | refused | noAuth | keyed (key : List Byte)
deriving DecidableEq, Repr

def levelKey (s : State) (l : Nat) : Option (List Byte) :=
  if l = 3 then (if s.fuse.level3Key.isEmpty then none else some s.fuse.level3Key) else itemOf s l

def levelRule (s : State) (l : Nat) : LevelRule :=
  let st := lcState s
  let byKey := match levelKey s l with
    | some k => .keyed k
    | none => .refused
  if l = 0 then .noAuth
  else if l = 3 then byKey
  else if st = lcBLANK then .noAuth
  else if st = lcRETURN ∨ st = lcRETIRED then .refused
  else byKey

/-- AUTH of a frame: the first 8 bytes of its GMAC tag. -/
def authOf (key : List Byte) (node level : Nat) (isReply : Bool) (nonce : DWord) (head : List Byte) : List Byte :=
  (gcmTag key (beBytes 1 node ++ beBytes 1 level ++ [0, if isReply then 1 else 0] ++ beBytes 8 nonce.toNat) head []).take 8

def lastNonce (s : State) (l : Nat) : Nat := rd64 s (pgSKY + R.SKY_LAST_NONCE + 8 * l)

/-- RESULT of the STATUS byte (R488). -/
def resCode : Res → Nat
  | .ok => 0
  | .retry => 1
  | .error => 2
  | .denied => 3

/-! Replies (R479, R482, R485, R487, R488). -/

def skyReply (s : State) (op : Nat) (r : SkyReq) (auth : Bool) (res : Res) (done : Nat) (data : List Word) : State :=
  let head := [0x61] ++ beBytes 1 (opLevel op r) ++ beBytes 1 (nodeAddr s) ++ beBytes 1 (statusByte s (resCode res)) ++
    beBytes 2 r.tag.toNat ++ beBytes 2 done ++ beBytes 8 r.nonce.toNat ++ wordsBytes data
  let tag := if r.level = 0 || !auth then []
    else match levelRule s r.level.val with
    | .keyed k => authOf k (nodeAddr s) r.level.val true r.nonce head
    | _ => List.replicate 8 0
  let s := bump s (pgSKY + R.SKY_REPLIES)
  let s := if res = .retry then bump s (pgSKY + R.SKY_RETRIES) else s
  emit s (.skyline (head ++ tag ++ crcTail (head ++ tag) true))

/-! Register operations (R480, R484). -/

/-- Words read in ascending order up to the first that does not reply OK: its result, and the data. -/
def readWords (a : Agent) : Nat → Nat → State → (Res × List Word) × State
  | 0, _, s => ((.ok, []), s)
  | n + 1, addr, s =>
    let r := readWord s a addr (cycleTT s) none
    if r.1.1 = .ok then
      let t := readWords a n (addr + 4) r.2
      ((t.1.1, r.1.2 :: t.1.2), t.2)
    else ((r.1.1, []), r.2)

/-- Words written in ascending order up to the first that does not reply OK: its result, and how many were written. -/
def writeWords (a : Agent) : List Word → Nat → State → (Res × Nat) × State
  | [], _, s => ((.ok, 0), s)
  | v :: vs, addr, s =>
    let r := writeWord s a addr v
    if r.1 = .ok then
      let t := writeWords a vs (addr + 4) r.2
      ((t.1.1, t.1.2 + 1), t.2)
    else ((r.1, 0), r.2)

/-- The value of a register's bits as its RW fields stand, for MASKED_WRITE. -/
def maskedValue (s : State) (a : Agent) (addr : Nat) (data mask : Word) : Word :=
  let page := addr / 0x1000
  let rw := BitVec.ofNat 32 (fieldMask (fieldsAt (pageType page) (addr % 0x1000)) (fun x => x == .rw || x == .rwS))
  let old := match low64 s addr, pageInfo page with
    | some v, _ => half v false
    | none, some pi => showWord s (agentLevel a) pi page (addr % 0x1000)
    | none, none => 0
  (data &&& mask) ||| (old &&& ~~~ mask &&& rw)

/-- The words of a register operation that its credential check covers, as (address, value written). -/
def opWords (s : State) (op : Nat) (r : SkyReq) : List (Nat × Word) :=
  let a := r.addr.toNat
  let a' : Agent := .sky r.level
  if op = opMASKED then [(a, maskedValue s a' a (r.payload.getD 0 0) (r.payload.getD 1 0))]
  else (List.range r.count.toNat).map (fun k => (a + 4 * k, r.payload.getD k 0))

/-- The first word of the request that its level does not permit. -/
def deniedWord (s : State) (op : Nat) (r : SkyReq) : Option (Nat × Word) :=
  let l := r.level.val
  if op = opREAD ∨ op = opBREAD then (opWords s op r).find? (fun w => !mayRead l w.1)
  else (opWords s op r).find? (fun w => decide (l < writeLevel w.1 w.2))

/-! Window operations (R481, R286, R303, R304). -/

def winAddr (r : SkyReq) : Nat := r.addr.toNat * 64

/-- The granules of a window operation: address and number of words. -/
def winGranules (r : SkyReq) : List (Nat × Nat) :=
  (List.range ((r.count.toNat + 15) / 16)).map (fun k => (winAddr r + 64 * k, min 16 (r.count.toNat - 16 * k)))

def winRefused (s : State) (op : Nat) (r : SkyReq) : Option Nat :=
  ((winGranules r).find? (fun g => !portMay 20 g.1 (op == opWWRITE))).map (·.1) |>.filter (fun _ => s.fuse.hbm)

/-- Every controller of the window serves requests now. -/
def winReady (s : State) (r : SkyReq) : Bool :=
  (winGranules r).all (fun g => trained s (ctlOf g.1) && srState s (ctlOf g.1) < 2)

def winWake (s : State) (r : SkyReq) : State := (winGranules r).foldl (fun s g => wakeFor s g.1) s

/-- Read the granules up to a poisoned one. -/
def winReads : List (Nat × Nat) → State → (Res × List Word) × State
  | [], s => ((.ok, []), s)
  | (a, n) :: gs, s =>
    let c := ctlOf a
    let s := checkGranule (bump (useGranule s c 20) (mcB c + R.HBM_READS)) c a 20 []
    if poisoned s a 64 then ((.error, []), s)
    else
      let t := winReads gs s
      ((t.1.1, packWords n (mrd s a (4 * n)) ++ t.1.2), t.2)

/-- Write the granules up to one whose partly written codeword is uncorrectable. -/
def winWrites : List (Nat × Nat) → List Word → State → (Res × Nat) × State
  | [], _, s => ((.ok, 0), s)
  | (a, n) :: gs, ws, s =>
    let c := ctlOf a
    let bs := wordsBytes (ws.take n)
    let bad := (touched a bs.length).any (fun w => s.hbm.poison.contains w && !whole a bs.length w)
    let s := acceptReq s c { port := 20, addr := a, t := cmdNow s, write := some bs }
    if bad then ((.error, 0), s)
    else
      let s := if regionOf a = 3 then breakResv s 16 (a - 0x500000000 + 0x100000000) bs.length else s
      let t := winWrites gs (ws.drop n) s
      ((t.1.1, t.1.2 + n), t.2)

/-! One access. -/

/-- COUNT or ADDR out of range (R478). -/
def malformed (op : Nat) (r : SkyReq) : Bool :=
  let n := r.count.toNat
  if op = opPOLL ∨ op = opENUM then true
  else if n = 0 ∨ 64 < n ∨ (op ≤ opMASKED ∧ n ≠ 1) then true
  else if op = opWREAD ∨ op = opWWRITE then decide (2 ^ 29 ≤ r.addr.toNat)
  else decide (2 ^ 24 ≤ r.addr.toNat) || r.addr.toNat % 4 != 0

/-- The least level of an operation (R478). -/
def leastLevel (op : Nat) : Nat :=
  if op = opWWRITE then 2 else if op = opREAD ∨ op = opBREAD then 0 else 1

def winDenied (op : Nat) (r : SkyReq) : Bool :=
  op == opWREAD && decide (r.level.val < 2) && (winGranules r).any (fun g => regionOf g.1 == 2)

/-- What an access answers: result, DONE, data. -/
structure SkyDone where
  res : Res
  done : Nat
  data : List Word

/-- Perform an access: the checks of the whole request, then its words. -/
def skyAccess (s : State) (op : Nat) (r : SkyReq) : SkyDone × State :=
  let a : Agent := .sky r.level
  let addr := r.addr.toNat
  if malformed op r then (⟨.error, 0, []⟩, s)
  else if r.level.val < leastLevel op then (⟨.denied, 0, []⟩, skyDenied s)
  else if op = opWREAD ∨ op = opWWRITE then
    if winDenied op r then (⟨.denied, 0, []⟩, skyDenied s)
    else if !s.fuse.hbm then (⟨.error, 0, []⟩, s)
    else match winRefused s op r with
    | some g => (⟨.error, 0, []⟩, raise s (mcPage (ctlOf g)) evREGION_VIOLATION)
    | none =>
      let s := winWake s r
      if op = opWREAD then
        let t := winReads (winGranules r) s
        (⟨t.1.1, t.1.2.length, t.1.2⟩, t.2)
      else
        let t := winWrites (winGranules r) r.payload s
        (⟨t.1.1, t.1.2, []⟩, t.2)
  else match deniedWord s op r with
  | some w => (⟨.denied, 0, []⟩, if op = opREAD ∨ op = opBREAD then skyDenied s else writeBeyond s w.1 w.2)
  | none =>
    if op = opREAD ∨ op = opBREAD then
      let t := readWords a r.count.toNat addr s
      (⟨t.1.1, t.1.2.length, t.1.2⟩, t.2)
    else
      let t := writeWords a ((opWords s op r).map (·.2)) addr s
      (⟨t.1.1, t.1.2, []⟩, t.2)

/-- The access waits for a controller (R313, R314). -/
def skyWaits (s : State) (op : Nat) (r : SkyReq) : Bool :=
  (op == opWREAD || op == opWWRITE) && s.fuse.hbm && !malformed op r && decide (leastLevel op ≤ r.level.val) &&
    !winDenied op r && (winRefused s op r).isNone && !winReady s r

/-! Requests in progress and kept replies (R485, R486). -/

def sameReq (r : SkyReq) (tag : BitVec 16) (nonce : DWord) : Bool := r.tag == tag && r.nonce == nonce

/-- Keep a completed request among the last 2 of its level. -/
def keepReply (s : State) (op : Nat) (r : SkyReq) (d : SkyDone) : State :=
  let l := r.level.val
  let k : SkyKept := { level := l, tag := r.tag, nonce := r.nonce, op := op, res := d.res, data := d.data, done := d.done,
                       auth := true }
  let own := s.sky.kept.filter (fun e => e.level == l)
  let others := s.sky.kept.filter (fun e => e.level != l)
  { s with sky := { s.sky with kept := others ++ own.drop (own.length - 1) ++ [k] } }

def completeReq (s : State) (op : Nat) (r : SkyReq) (retried : Bool) : State :=
  let d := skyAccess s op r
  let s := keepReply d.2 op r d.1
  if retried then s else skyReply s op r true d.1.res d.1.done d.1.data

/-- Take a new request in: performed at once when no access is in progress and its memory answers. -/
def takeReq (s : State) (op : Nat) (r : SkyReq) : State :=
  if s.sky.prog.isEmpty && !skyWaits s op r then completeReq s op r false
  else
    let s := if s.sky.prog.isEmpty then winWake s r else s
    { s with sky := { s.sky with prog := s.sky.prog ++ [{ op := op, req := r }] } }

/-- A request whose AUTH is settled: retransmission, freshness, room (R482, R485, R486). -/
def admitReq (s : State) (op : Nat) (r : SkyReq) (fresh : Bool) : State :=
  let l := r.level.val
  if s.sky.prog.any (fun p => p.req.level.val == l && sameReq p.req r.tag r.nonce) then skyReply s op r true .retry 0 []
  else match s.sky.kept.find? (fun k => k.level == l && sameReq r k.tag k.nonce) with
  | some k => skyReply s k.op r k.auth k.res k.done k.data
  | none =>
    if fresh && r.nonce.toNat ≤ lastNonce s l then skyReply s op r false .denied 0 []
    else if 2 ≤ s.sky.prog.length then skyReply s op r true .retry 0 []
    else
      let s := if fresh then wr64 s (pgSKY + R.SKY_LAST_NONCE + 8 * l) r.nonce.toNat else s
      takeReq s op r

/-- A request frame addressed to some node. -/
def skyRequest (s : State) (op : Nat) (r : SkyReq) : State :=
  if s.sky.bypass || !addressed s || r.bcast || r.dest.toNat != nodeAddr s then passReq s op r
  else
    let s := bump s (pgSKY + R.SKY_REQUESTS)
    if !reqCrcGood op r then crcErr s
    else match levelRule s r.level.val with
    | .refused => skyReply s op r false .denied 0 []
    | .noAuth => admitReq s op r false
    | .keyed k =>
      if authOf k (nodeAddr s) r.level.val false r.nonce (reqHead op r) = r.auth.take 8 then admitReq s op r true
      else
        let s := raise (bump s (pgSKY + R.SKY_AUTH_FAIL)) 0x008 evAUTH_FAIL
        skyReply s op r false .denied 0 []

/-- RETRY_DEADLINE: of the oldest access in progress that has had none. -/
def retryOp (s : State) : State :=
  match s.sky.prog.find? (fun p => !p.retried) with
  | none => s
  | some p =>
    let s := { s with sky := { s.sky with prog := s.sky.prog.map (fun q => if q = p then { q with retried := true } else q) } }
    skyReply s p.op p.req true .retry 0 []

/-- SKYLINE_ACCESS_COMPLETE: the oldest access in progress. -/
def accessDone (s : State) : State :=
  match s.sky.prog with
  | [] => s
  | p :: rest =>
    if skyWaits s p.op p.req then winWake s p.req
    else completeReq { s with sky := { s.sky with prog := rest } } p.op p.req p.retried

/-! Broadcasts (R475, R489). -/

def broadcast (r : SkyReq) : Bool := r.bcast && r.level == 0 && r.count == 0

/-- POLL. -/
def pollOp (s : State) (r : SkyReq) : State :=
  if !broadcast r then skyRequest s opPOLL r
  else if s.sky.bypass || !addressed s then passReq s opPOLL r
  else
    let k := nodeAddr s
    let bs := splice (wordsBytes r.payload) k (beBytes 1 (statusByte s 0))
    passChanged s opPOLL r (packWords r.payload.length bs)

/-- ENUM. -/
def enumOp (s : State) (r : SkyReq) : State :=
  if !broadcast r then skyRequest s opENUM r
  else
    let w := r.payload.getD 0 0
    let next := bitsOf w 24 8
    if s.sky.bypass || addressed s || 64 ≤ next then passReq s opENUM r
    else
      let t := passChanged s opENUM r (setBits w 24 8 (next + 1) :: r.payload.drop 1)
      if reqCrcGood opENUM r then fs (fs t pgSKY F.SKY_SKY_STATUS_ADDR next) pgSKY F.SKY_SKY_STATUS_ASSIGNED 1 else t

/-! The link (R471, R473, R494). -/

/-- SKYLINE_BYPASS_EXIT. -/
def bypassExit (s : State) : State :=
  if !s.sky.bypass then s
  else
    let s := fs (fs s pgSKY F.SKY_SKY_STATUS_ADDR 0) pgSKY F.SKY_SKY_STATUS_ASSIGNED 0
    let s := [1, 2, 3].foldl (fun s v => wr64 s (pgSKY + R.SKY_LAST_NONCE + 8 * v) 0) s
    { s with sky := { bypass := false } }

/-- SKYLINE_LANE_LOCK. -/
def laneLockOp (s : State) (lane : Nat) (lock aligned : Bool) : State :=
  let old := fg s pgSKY F.SKY_SKY_STATUS_LANE_LOCK
  let bit := 2 ^ (lane % 2)
  let new := if old / bit % 2 = 1 then (if lock then old else old - bit) else (if lock then old + bit else old)
  fs (fs s pgSKY F.SKY_SKY_STATUS_LANE_LOCK new) pgSKY F.SKY_SKY_STATUS_ALIGNED (if aligned then 1 else 0)

/-- SKYLINE_LINK_LOSS: `lock` is the block lock that remains. -/
def skyLinkLossOp (s : State) (lock : Nat) : State :=
  let s := fs (fs s pgSKY F.SKY_SKY_STATUS_LANE_LOCK lock) pgSKY F.SKY_SKY_STATUS_ALIGNED 0
  raise s 0x008 evSKY_LINK_LOSS

end Sys2Proof.Machine
end

