-- ==== Sys2Proof/Machine/ExecCores.lean ====
section
/-! DEFINITION. The meanings of the commands of the control cores, the thread dispatcher, the rings and the Skyline bus (chapters 14 and 15). Each is its operation's effect on everything but the
queue. -/

namespace Sys2Proof.Machine

/-- A dispatcher operation over an agent's own path: a core's CSR (R447), or TD_OP (R451, R468). -/
def tdAct (s : State) (a : Agent) (op : Nat) (thread ticks : BitVec 32) (go : State → Nat × State) : State :=
  match a with
  | .core n => tdResult n (go s)
  | .sky _ =>
    regOp s a (pgTD + R.TD_TD_OP) (BitVec.ofNat 32 (thread.toNat % 1024 + 1024 * op + 4096 * (ticks.toNat % 2 ^ 20)))
      (fun s => (.ok, tdResult 16 (go s)))

/-- CORE_INSTRUCTION (R441): A control core executes one RISC-V instruction. -/
def execCoreInstruction (core : Fin 16) (upset : Fin 4) (onFetch : Bool) (s : State) : Host.Outcome State Fault Refusal :=
  keep s (coreInsn s core upset onFetch)

/-- TD_READY (R451): A ready operation moves a thread toward READY, coalesces or sets REARM. -/
def execTdReady (a : Agent) (thread : BitVec 32) (lapse : Bool) (s : State) : Host.Outcome State Fault Refusal :=
  keep s (tdAct s a 1 thread 0 (fun s => if lapse then lapseTh s else readyTh s thread.toNat))

/-- TD_CANCEL (R451): A cancel operation returns a thread to IDLE or clears REARM. -/
def execTdCancel (a : Agent) (thread : BitVec 32) (s : State) : Host.Outcome State Fault Refusal :=
  keep s (tdAct s a 2 thread 0 (fun s => cancelTh s thread.toNat))

/-- TD_DELAY (R451): A delay operation places a thread on the delay list or records a pending delay. -/
def execTdDelay (a : Agent) (thread : BitVec 32) (ticks : BitVec 32) (lapse : Bool) (s : State) : Host.Outcome State Fault Refusal :=
  keep s (tdAct s a 3 thread ticks (fun s => if lapse then lapseTh s else delayTh s thread.toNat ticks.toNat))

/-- TD_NEXT (R453): A read of TD_NEXT takes the slotted thread to RUNNING and may preempt the running one. -/
def execTdNext (core : Fin 16) (s : State) : Host.Outcome State Fault Refusal :=
  keep s (tdResult core (nextTh s core))

/-- TD_DONE (R452): TD_DONE ends the running thread into READY, DELAYED or IDLE. -/
def execTdDone (core : Fin 16) (ticks : BitVec 32) (s : State) : Host.Outcome State Fault Refusal :=
  keep s (tdResult core (doneTh s core ticks.toNat))

/-- TD_CFG_WRITE (R458): A TD_CFG write changes a thread's priority, affinity or enable and requeues it. -/
def execTdCfgWrite (a : Agent) (v : Word) (s : State) : Host.Outcome State Fault Refusal :=
  keep s (regWrite s a (pgTD + R.TD_TD_CFG) v)

/-- SLOT_FILL (R457): The dispatcher fills a core's work slot with the best eligible READY thread. -/
def execSlotFill (core : Fin 16) (s : State) : Host.Outcome State Fault Refusal :=
  keep s (fillOp s core)

/-- DELAY_EXPIRY (R456): A delayed thread's due tick comes and it enters its priority queue. -/
def execDelayExpiry (s : State) : Host.Outcome State Fault Refusal :=
  keep s (expiryOp s)

/-- EXCEPTION_DELIVERY (R463): A delivery engine writes an exception or notification entry into its ring and readies
the bound thread. -/
def execExceptionDelivery (pipe : Fin 8) (s : State) : Host.Outcome State Fault Refusal :=
  keep s (deliveryOp s pipe)

/-- RING_CONS_WRITE (R462): A write of CONS frees ring entries. -/
def execRingConsWrite (a : Agent) (ring : Fin 16) (v : Word) (s : State) : Host.Outcome State Fault Refusal :=
  keep s (regWrite s a (rngB ring + R.RNG_CONS) v)

/-- DOORBELL (R460): A write of 1 to DOORBELL raises DOORBELL for the host. -/
def execDoorbell (a : Agent) (v : Word) (s : State) : Host.Outcome State Fault Refusal :=
  keep s (regWrite s a (pgDSP + R.DSP_DOORBELL) v)

/-- CORE_RUN_WRITE (R442): A CORE_RUN write starts stopped cores at CORE_VEC. -/
def execCoreRunWrite (a : Agent) (v : Word) (s : State) : Host.Outcome State Fault Refusal :=
  keep s (regWrite s a (pgDSP + R.DSP_CORE_RUN) v)

/-- HOST_EXCEPTION_FRAME (R492): An exception bound for the host is built into a frame and queued on port 256. -/
def execHostExceptionFrame (pipe : Fin 8) (s : State) : Host.Outcome State Fault Refusal :=
  keep s (hostExcOp s pipe)

/-- SKYLINE_FORWARD (R472): A node forwards a frame it neither consumes nor originates, buffering or dropping it as
needed. -/
def execSkylineForward (frame : List Byte) (waiting : Option Nat) (s : State) : Host.Outcome State Fault Refusal :=
  keep s (forwardOp s frame waiting)

/-- READ (R480): A Skyline READ request reads one register and replies. -/
def execSkyRead (r : SkyReq) (s : State) : Host.Outcome State Fault Refusal :=
  keep s (skyRequest s opREAD r)

/-- WRITE (R480): A Skyline WRITE request writes one register and replies. -/
def execSkyWrite (r : SkyReq) (s : State) : Host.Outcome State Fault Refusal :=
  keep s (skyRequest s opWRITE r)

/-- MASKED_WRITE (R480): A Skyline MASKED_WRITE writes the masked bits of one register in one cycle. -/
def execSkyMaskedWrite (r : SkyReq) (s : State) : Host.Outcome State Fault Refusal :=
  keep s (skyRequest s opMASKED r)

/-- BURST_READ (R480): A Skyline BURST_READ reads up to 64 registers in ascending order. -/
def execSkyBurstRead (r : SkyReq) (s : State) : Host.Outcome State Fault Refusal :=
  keep s (skyRequest s opBREAD r)

/-- BURST_WRITE (R480): A Skyline BURST_WRITE writes up to 64 registers in ascending order. -/
def execSkyBurstWrite (r : SkyReq) (s : State) : Host.Outcome State Fault Refusal :=
  keep s (skyRequest s opBWRITE r)

/-- WIN_READ (R481): A Skyline WIN_READ reads flow memory words through port 20. -/
def execSkyWinRead (r : SkyReq) (s : State) : Host.Outcome State Fault Refusal :=
  keep s (skyRequest s opWREAD r)

/-- WIN_WRITE (R481): A Skyline WIN_WRITE writes flow memory words through port 20. -/
def execSkyWinWrite (r : SkyReq) (s : State) : Host.Outcome State Fault Refusal :=
  keep s (skyRequest s opWWRITE r)

/-- POLL (R489): A POLL frame passes and each addressed node writes its STATUS byte into the vector. -/
def execSkyPoll (r : SkyReq) (s : State) : Host.Outcome State Fault Refusal :=
  keep s (pollOp s r)

/-- ENUM (R475): An ENUM frame passes and each unaddressed node takes NEXT as its address. -/
def execSkyEnum (r : SkyReq) (s : State) : Host.Outcome State Fault Refusal :=
  keep s (enumOp s r)

/-- RETRY_DEADLINE (R485): An access not complete 760 ns after its request gets a RETRY reply and continues. -/
def execRetryDeadline (s : State) : Host.Outcome State Fault Refusal :=
  keep s (retryOp s)

/-- SKYLINE_ACCESS_COMPLETE (R486): A Skyline access completes; its reply is sent or kept for retransmission. -/
def execSkylineAccessComplete (s : State) : Host.Outcome State Fault Refusal :=
  keep s (accessDone s)

/-- SKYLINE_BYPASS_EXIT (R473): Node supplies are valid and reset is released, so the node leaves bypass without an
address. -/
def execSkylineBypassExit (s : State) : Host.Outcome State Fault Refusal :=
  keep s (bypassExit s)

/-- SKYLINE_LANE_LOCK (R471): The Skyline receive lanes gain block lock and are deskewed, so LANE_LOCK and ALIGNED
read 1. -/
def execSkylineLaneLock (lane : Fin 2) (lock : Bool) (aligned : Bool) (s : State) : Host.Outcome State Fault Refusal :=
  keep s (laneLockOp s lane lock aligned)

/-- SKYLINE_LINK_LOSS (R494): The Skyline receive link loses block lock or alignment, and LINK_LOSS of page 0x008 is
raised. -/
def execSkylineLinkLoss (lock : Fin 4) (s : State) : Host.Outcome State Fault Refusal :=
  keep s (skyLinkLossOp s lock)

end Sys2Proof.Machine
end

