-- ==== Sys2Proof/Machine/ExecDevice.lean ====
section
/-! DEFINITION. The meanings of the commands of the fault log, snapshots and sampling, boot, lifecycle, modes and supplies (chapters 16 to 20). Each is its operation's effect on everything but the
queue. -/

namespace Sys2Proof.Machine

/-- An LC_CMD write of operation `op` (R550). -/
def lcWrite (s : State) (a : Agent) (op item : Nat) : State :=
  regWrite s a (pgLC + R.LC_LC_CMD) (BitVec.ofNat 32 (op + 16 * item))

/-- A MODE_REQ write (R562). -/
def modeWrite (s : State) (a : Agent) (m : Mode) (force : Bool) : State :=
  regWrite s a (pgMOD + R.MOD_MODE_REQ) (BitVec.ofNat 32 (m.code + (if force then 8 else 0)))

/-- LOG_CLEAR (R514): LOG_CTRL.CLEAR empties the fault log and unfreezes it. -/
def execLogClear (a : Agent) (s : State) : Host.Outcome State Fault Refusal :=
  keep s (regWrite s a (pgFA + R.FA_LOG_CTRL) 1)

/-- LOG_ENTRY_WRITE (R512): The log input queue writes one entry into the next slot, or counts it lost. -/
def execLogEntryWrite (s : State) : Host.Outcome State Fault Refusal :=
  keep s (logWriteOp s)

/-- SNAP (R522): SNAP_CMD.SNAP requests a snapshot at the next edge. -/
def execSnap (a : Agent) (s : State) : Host.Outcome State Fault Refusal :=
  keep s (regWrite s a (pgCR + R.CR_SNAP_CMD) 1)

/-- PERIODIC_SNAPSHOT (R522): At each edge whose ply is a multiple of PERIOD, a snapshot is taken and may be appended
to the buffer. -/
def execPeriodicSnapshot (s : State) : Host.Outcome State Fault Refusal :=
  keep s (periodicOp s)

/-- PC_VALUE_WRITE (R528): A PC_VALUE_HI write stores both staged words of a performance counter at once. -/
def execPcValueWrite (a : Agent) (k : Fin 64) (hi : Word) (s : State) : Host.Outcome State Fault Refusal :=
  keep s (regWrite s a (pgCR + R.CR_PC_VALUE_LO + 16 * k + 4) hi)

/-- PC_CLEAR (R528): A PC_CLEAR high-word write zeroes the selected performance counters. -/
def execPcClear (a : Agent) (hi : Word) (s : State) : Host.Outcome State Fault Refusal :=
  keep s (regWrite s a (pgCR + R.CR_PC_CLEAR + 4) hi)

/-- MICROWORD_SAMPLE (R530): A pipeline's sample count reaches 0; the microword is sampled and the count restarts. -/
def execMicrowordSample (pipe : Fin 8) (s : State) : Host.Outcome State Fault Refusal :=
  keep s (sampleOp s pipe)

/-- INSTRUCTION_SAMPLE (R530): A core's sample count reaches 0; the instruction is sampled and the count restarts. -/
def execInstructionSample (core : Fin 16) (s : State) : Host.Outcome State Fault Refusal :=
  keep s (sampleOp s (8 + core))

/-- SAMPLE_RECORD_WRITE (R532): A queued sample record is written to the ring, or is lost and stops sampling when the
ring is full. -/
def execSampleRecordWrite (s : State) : Host.Outcome State Fault Refusal :=
  keep s (recordOp s)

/-- SAMP_CONS_WRITE (R532): A SAMP_CONS write frees sampling buffer slots. -/
def execSampConsWrite (a : Agent) (v : Word) (s : State) : Host.Outcome State Fault Refusal :=
  keep s (regWrite s a (pgCR + R.CR_SAMP_CONS) v)

/-- RESET_RELEASE (R561): Reset is released and the die enters BOOT and runs its boot sequence. -/
def execResetRelease (strap : Fin 4) (s : State) : Host.Outcome State Fault Refusal :=
  keep s (releaseOp s strap)

/-- IMAGE_LOAD_COMPLETE (R538): An image read completes and is checked for authenticity, then loaded or rejected. -/
def execImageLoadComplete (kind : Fin 8) (copy1 : Bool) (image : List Byte) (readOk : Bool) (s : State) : Host.Outcome State Fault Refusal :=
  keep s (imageOp s kind copy1 (if readOk then some image else none))

/-- IMAGE_READ_TIMEOUT (R538): An image read not complete within 500 ms fails with SOURCE. -/
def execImageReadTimeout (kind : Fin 8) (copy1 : Bool) (s : State) : Host.Outcome State Fault Refusal :=
  keep s (imageOp s kind copy1 none)

/-- BOOT_DATA_WRITE (R545): A BOOT_DATA write stores a word into the staging area while AWAIT_HOST reads 1. -/
def execBootDataWrite (a : Agent) (w : Fin 512) (v : Word) (s : State) : Host.Outcome State Fault Refusal :=
  keep s (regWrite s a (pgBOOT + R.BOOT_BOOT_DATA + 4 * w) v)

/-- BOOT_SUBMIT (R545): BOOT_CMD.SUBMIT verifies the staged image of the given kind. -/
def execBootSubmit (a : Agent) (kind : Fin 8) (s : State) : Host.Outcome State Fault Refusal :=
  keep s (regWrite s a (pgBOOT + R.BOOT_BOOT_CMD) (BitVec.ofNat 32 (1 + 2 * kind)))

/-- BOOT_END (R545): BOOT_CMD.END tells the device that no further customer image is offered. -/
def execBootEnd (a : Agent) (s : State) : Host.Outcome State Fault Refusal :=
  keep s (regWrite s a (pgBOOT + R.BOOT_BOOT_CMD) 16)

/-- PROVISION (R551): LC_CMD PROVISION fuses a staged item. -/
def execProvision (a : Agent) (item : Fin 8) (s : State) : Host.Outcome State Fault Refusal :=
  keep s (lcWrite s a 1 item)

/-- COMMIT_FIELD (R550): LC_CMD COMMIT_FIELD moves PROVISIONED to FIELD. -/
def execCommitField (a : Agent) (s : State) : Host.Outcome State Fault Refusal :=
  keep s (lcWrite s a 2 0)

/-- REVOKE_CUST (R551): LC_CMD REVOKE_CUST revokes a customer key slot. -/
def execRevokeCust (a : Agent) (item : Fin 8) (s : State) : Host.Outcome State Fault Refusal :=
  keep s (lcWrite s a 3 item)

/-- ENTER_RETURN (R552): LC_CMD ENTER_RETURN blows the RETURN fuse, kills items, zeroes memories and requests RESET.
-/
def execEnterReturn (a : Agent) (s : State) : Host.Outcome State Fault Refusal :=
  keep s (lcWrite s a 4 0)

/-- VENDOR_UNLOCK (R553): LC_CMD VENDOR_UNLOCK verifies a vendor-signed request and opens vendor debug. -/
def execVendorUnlock (a : Agent) (s : State) : Host.Outcome State Fault Refusal :=
  keep s (lcWrite s a 5 0)

/-- RETIRE (R550): LC_CMD RETIRE moves the device to RETIRED. -/
def execRetire (a : Agent) (s : State) : Host.Outcome State Fault Refusal :=
  keep s (lcWrite s a 6 0)

/-- REVOKE_VENDOR (R540): LC_CMD REVOKE_VENDOR revokes a vendor key slot at level 3. -/
def execRevokeVendor (a : Agent) (item : Fin 8) (s : State) : Host.Outcome State Fault Refusal :=
  keep s (lcWrite s a 7 item)

/-- LC_OPERATION_COMPLETE (R550): A lifecycle operation's work ends and its state, items and result take effect at the
next edge. -/
def execLcOperationComplete (fuseOk : Bool) (s : State) : Host.Outcome State Fault Refusal :=
  keep s (lcCompleteOp s fuseOk)

/-- MODE_REQ_RESET (R570): A MODE_REQ with target RESET requests a die reset. -/
def execModeReqReset (a : Agent) (s : State) : Host.Outcome State Fault Refusal :=
  keep s (modeWrite s a .reset false)

/-- MODE_REQ_CALIBRATE (R561): A MODE_REQ with target CALIBRATE requests a cold or warm calibration pass. -/
def execModeReqCalibrate (a : Agent) (s : State) : Host.Outcome State Fault Refusal :=
  keep s (modeWrite s a .calibrate false)

/-- MODE_REQ_LIVE (R561): A MODE_REQ with target LIVE requests forwarding. -/
def execModeReqLive (a : Agent) (s : State) : Host.Outcome State Fault Refusal :=
  keep s (modeWrite s a .live false)

/-- MODE_REQ_DRAIN (R565): A MODE_REQ with target DRAIN requests draining. -/
def execModeReqDrain (a : Agent) (s : State) : Host.Outcome State Fault Refusal :=
  keep s (modeWrite s a .drain false)

/-- MODE_REQ_DORMANT (R567): A MODE_REQ with target DORMANT requests the DORMANT procedure. -/
def execModeReqDormant (a : Agent) (force : Bool) (s : State) : Host.Outcome State Fault Refusal :=
  keep s (modeWrite s a .dormant force)

/-- MODE_REQ_DIAGNOSTIC (R561): A MODE_REQ with target DIAGNOSTIC requests diagnostic mode. -/
def execModeReqDiagnostic (a : Agent) (s : State) : Host.Outcome State Fault Refusal :=
  keep s (modeWrite s a .diagnostic false)

/-- CALIBRATE_COMPLETE (R563): Every item of the calibration pass is done and CAL_DONE reads 1. -/
def execCalibrateComplete (s : State) : Host.Outcome State Fault Refusal :=
  keep s (calibrateDoneOp s)

/-- DORMANT_COMPLETE (R568): The DORMANT steps complete and BUSY clears. -/
def execDormantComplete (s : State) : Host.Outcome State Fault Refusal :=
  keep s (dormantDoneOp s)

/-- SR_ENTER_RETRY (R568): After SR_ABORT, ENTER is written again at the next kernel tick, up to 1,000 times. -/
def execSrEnterRetry (c : Fin 16) (s : State) : Host.Outcome State Fault Refusal :=
  keep s (srRetryOp s c)

/-- DRAIN_TIMEOUT (R566): DRAIN_DONE has not read 1 within DRAIN_MAX µs and DRAIN_TIMEOUT is raised. -/
def execDrainTimeout (s : State) : Host.Outcome State Fault Refusal :=
  keep s (drainTimeoutOp s)

/-- AGEING_MEASUREMENT (R572): The once-per-second ring-oscillator and eye measurements update DEG_WORST and lane
margins. -/
def execAgeingMeasurement (degs : List Nat) (eyes : List (Nat × Nat × Nat)) (s : State) : Host.Outcome State Fault Refusal :=
  keep s (ageingOp s degs eyes)

/-- CAPTURE_PATH_RECAL (R575): A lane's capture-path drift reaches RECAL_STEP, and the Tally writes a LANE_TRIM
increment. -/
def execCapturePathRecal (lane : Fin 256) (delta : Int) (s : State) : Host.Outcome State Fault Refusal :=
  keep s (recalOp s lane delta)

/-- AVS_ACK (R586): The core regulator acknowledges an AVSBus voltage request. -/
def execAvsAck (s : State) : Host.Outcome State Fault Refusal :=
  keep s (avsAckOp s)

/-- AVS_TIMEOUT (R586): A voltage request is not acknowledged within 1 ms; AVS_FAIL is raised and the request retried
each second. -/
def execAvsTimeout (s : State) : Host.Outcome State Fault Refusal :=
  keep s (avsTimeoutOp s)

/-- RST_N_ASSERT (R589): The RST_N ball is asserted, and the die enters RESET with its Skyline node in bypass. -/
def execRstNAssert (s : State) : Host.Outcome State Fault Refusal :=
  keepQueue s (rstOp s)

/-- UNDER_VOLTAGE (R590): A die rail falls below its threshold and the die enters RESET with UV_SEEN set. -/
def execUnderVoltage (rail : Fin 10) (s : State) : Host.Outcome State Fault Refusal :=
  keepQueue s (underVoltageOp s rail)

/-- THERMAL_TRIP (R597): The die reaches 120 °C and enters RESET with TRIP_SEEN set. -/
def execThermalTrip (s : State) : Host.Outcome State Fault Refusal :=
  keepQueue s (tripOp s)

/-- REFCLK_LOSS (R601): A reference clock input leaves its specification and REFCLK_LOSS is raised. -/
def execRefclkLoss (input : Fin 8) (s : State) : Host.Outcome State Fault Refusal :=
  keep s (refclkOp s input false)

/-- DIE_POWER_ON (R588): The die rails ramp in sequence and become valid, which is the power-on of the die and clears
the fault log, FIRST_FATAL, page 0x005 sticky fields and the kept event state. -/
def execDiePowerOn (s : State) : Host.Outcome State Fault Refusal :=
  keepQueue s (powerOnOp s)

/-- REFCLK_RESTORED (R601): A reference clock input returns within its specification, its REFCLK_STATUS bit reads 1
and the cause of the REFCLK_LOSS level event falls. -/
def execRefclkRestored (input : Fin 8) (s : State) : Host.Outcome State Fault Refusal :=
  keep s (refclkOp s input true)

/-- LATCH_CAL_FAIL (R563): A Tally latch calibration in CALIBRATE cannot complete, CAL_FAIL is raised as FATAL and the
device stays in CALIBRATE. -/
def execLatchCalFail (s : State) : Host.Outcome State Fault Refusal :=
  keep s (latchFailOp s)

end Sys2Proof.Machine
end

