-- ==== Sys2Proof/Machine/ExecFlows.lean ====
section
/-! DEFINITION. The meanings of the commands of the Decks, flow memory, its host port and the counter banks (chapter 07). Each is its operation's effect on everything but the
queue. -/

namespace Sys2Proof.Machine

/-- DECK_INSTALL (R257): A fetched or learned record is installed into a Deck way, evicting a victim when needed. -/
def execDeckInstall (pipe : Fin 8) (s : State) : Host.Outcome State Fault Refusal :=
  keep s (deckInstallOp s pipe)

/-- DECK_WRITEBACK (R255): A writeback slot reads a selected record, queues it for flow memory and marks it clean. -/
def execDeckWriteback (pipe : Fin 8) (bank : Fin 16) (s : State) : Host.Outcome State Fault Refusal :=
  keep s (writebackSlot s pipe bank)

/-- WRITEBACK_ACK (R257): Flow memory acknowledges a writeback or victim write and residency is cleared. -/
def execWritebackAck (pipe : Fin 8) (s : State) : Host.Outcome State Fault Refusal :=
  keep s (writebackAckOp s pipe)

/-- INDEX_WRITE_ACK (R253): Flow memory acknowledges a learned index write and the pending entry is removed. -/
def execIndexWriteAck (s : State) : Host.Outcome State Fault Refusal :=
  keep s (indexAck s)

/-- CRUISE_AGE_VISIT (R272): The Cruise visits a record or bucket in background slots to age or refresh it. -/
def execCruiseAgeVisit (target : CruiseTarget) (s : State) : Host.Outcome State Fault Refusal :=
  keep s (cruiseVisit s target)

/-- DORMANT_REFRESH_PASS (R267): Every 2^45 ply in DORMANT, the Cruise runs one throttle refresh pass. -/
def execDormantRefreshPass (s : State) : Host.Outcome State Fault Refusal :=
  keep s (dormantPass s)

/-- FT_READ (R277): FT_CMD READ copies the current record into FT_DATA. -/
def execFtRead (a : Agent) (cmd : Word) (s : State) : Host.Outcome State Fault Refusal :=
  keep s (regWrite s a (pgFT + R.FT_FT_CMD) (setBits cmd 0 4 1))

/-- FT_WRITE (R277): FT_CMD WRITE replaces a record except GEN. -/
def execFtWrite (a : Agent) (cmd : Word) (s : State) : Host.Outcome State Fault Refusal :=
  keep s (regWrite s a (pgFT + R.FT_FT_CMD) (setBits cmd 0 4 2))

/-- FT_INSERT (R277): FT_CMD INSERT allocates and inserts a host record. -/
def execFtInsert (a : Agent) (cmd : Word) (s : State) : Host.Outcome State Fault Refusal :=
  keep s (regWrite s a (pgFT + R.FT_FT_CMD) (setBits cmd 0 4 3))

/-- FT_FIND (R277): FT_CMD FIND returns the flow index of a key. -/
def execFtFind (a : Agent) (cmd : Word) (s : State) : Host.Outcome State Fault Refusal :=
  keep s (regWrite s a (pgFT + R.FT_FT_CMD) (setBits cmd 0 4 4))

/-- FT_DELETE (R277): FT_CMD DELETE clears a record's index entry and frees its index. -/
def execFtDelete (a : Agent) (cmd : Word) (s : State) : Host.Outcome State Fault Refusal :=
  keep s (regWrite s a (pgFT + R.FT_FT_CMD) (setBits cmd 0 4 5))

/-- PIN (R259): FT_CMD PIN fetches a record into a pipeline's Deck and pins it. -/
def execPin (a : Agent) (cmd : Word) (s : State) : Host.Outcome State Fault Refusal :=
  keep s (regWrite s a (pgFT + R.FT_FT_CMD) (setBits cmd 0 4 6))

/-- UNPIN (R259): FT_CMD UNPIN clears a record's PIN. -/
def execUnpin (a : Agent) (cmd : Word) (s : State) : Host.Outcome State Fault Refusal :=
  keep s (regWrite s a (pgFT + R.FT_FT_CMD) (setBits cmd 0 4 7))

/-- FLUSH (R277): FT_CMD FLUSH starts writing back every dirty record of every Deck. -/
def execFlush (a : Agent) (cmd : Word) (s : State) : Host.Outcome State Fault Refusal :=
  keep s (regWrite s a (pgFT + R.FT_FT_CMD) (setBits cmd 0 4 8))

/-- FLUSH_COMPLETE (R277): The last flushed record is acknowledged and BUSY clears. -/
def execFlushComplete (s : State) : Host.Outcome State Fault Refusal :=
  keep s (flushCompleteOp s)

/-- CLEAR_BAD (R277): FT_CMD CLEAR_BAD removes a record marked BAD and frees its index. -/
def execClearBad (a : Agent) (cmd : Word) (s : State) : Host.Outcome State Fault Refusal :=
  keep s (regWrite s a (pgFT + R.FT_FT_CMD) (setBits cmd 0 4 9))

/-- CTR_READ (R282): CTR_CMD.READ reads a bank counter into CTR_DATA. -/
def execCtrRead (a : Agent) (pipe : Fin 8) (cmd : Word) (s : State) : Host.Outcome State Fault Refusal :=
  keep s (regWrite s a (deckB pipe + R.DECK_CTR_CMD) (setBits cmd 0 3 1))

/-- CTR_WRITE (R263): CTR_CMD.WRITE writes CTR_DATA into a counter, winning over a same-cycle add. -/
def execCtrWrite (a : Agent) (pipe : Fin 8) (cmd : Word) (sameCycleAdd : Option Nat) (s : State) : Host.Outcome State Fault Refusal :=
  keep s (regOp s a (deckB pipe + R.DECK_CTR_CMD) cmd
    (fun s => writeCtrCmd s pipe (setBits cmd 0 3 2) sameCycleAdd))

/-- CLEAR_BANK (R282): CTR_CMD.CLEAR_BANK zeroes a whole bank atomically at the next ply. -/
def execClearBank (a : Agent) (pipe : Fin 8) (cmd : Word) (s : State) : Host.Outcome State Fault Refusal :=
  keep s (regWrite s a (deckB pipe + R.DECK_CTR_CMD) (setBits cmd 0 3 4))

/-- THROTTLE_RATE_WRITE (R266): A profile RATE write takes effect at the next ply and records OLD_RATE and the change
ply. -/
def execThrottleRateWrite (a : Agent) (profile : Fin 256) (v : Word) (s : State) : Host.Outcome State Fault Refusal :=
  keep s (regWrite s a (thrAt profile) v)

end Sys2Proof.Machine
end

