-- ==== Sys2Proof/Machine/ExecHbm.lean ====
section
/-! DEFINITION. The meanings of the commands of the HBM controllers (chapter 08). Each is its operation's effect on everything but the
queue. -/

namespace Sys2Proof.Machine

/-- HBM_REQUEST (R288): A requester port's request is accepted by a controller, with writes acknowledged at
acceptance. -/
def execHbmRequest (port : Fin 21) (addr : Nat) (write : Option (List Byte)) (s : State) : Host.Outcome State Fault Refusal :=
  keep s (hbmRequestOp s port addr write)

/-- HBM_READ_COMPLETE (R303): Read data returns, corrected or poisoned, to its requester. -/
def execHbmReadComplete (c : Fin 16) (errs : List (Nat × Nat)) (s : State) : Host.Outcome State Fault Refusal :=
  keep s (readCompleteOp s c errs)

/-- REQUEST_LATE (R291): A queued request reaches urgency 3, counts LATE and raises LATE. -/
def execRequestLate (c : Fin 16) (s : State) : Host.Outcome State Fault Refusal :=
  keep s (lateOp s c)

/-- LIMIT_WINDOW_END (R293): A window of 1,024 command cycles ends and every port's LIMIT count restarts. -/
def execLimitWindowEnd (c : Fin 16) (s : State) : Host.Outcome State Fault Refusal :=
  keep s (limitEndOp s c)

/-- HBM_REFRESH (R299): A bank refresh falls due and is issued or postponed. -/
def execHbmRefresh (c : Fin 16) (pc : Fin 4) (bank : Fin 64) (s : State) : Host.Outcome State Fault Refusal :=
  keep s (refreshOp s c pc bank)

/-- HOT_REPORTED (R299): The stack reports the doubled-refresh temperature band and HOT is set. -/
def execHotReported (c : Fin 16) (temp : BitVec 8) (s : State) : Host.Outcome State Fault Refusal :=
  keep s (hotOp s c true temp.toNat)

/-- ROW_IDLE_CLOSE (R297): An open row closes after OPEN_IDLE command cycles without a hit. -/
def execRowIdleClose (c : Fin 16) (pc : Fin 4) (bank : Nat) (s : State) : Host.Outcome State Fault Refusal :=
  keep s (rowIdleOp s c pc bank)

/-- CORRECTIVE_WRITE (R303): A queued corrective write of a granule is issued in an odd background cycle. -/
def execCorrectiveWrite (c : Fin 16) (s : State) : Host.Outcome State Fault Refusal :=
  keep s (correctiveOp s c)

/-- HBM_SCRUB_READ (R301): A background cycle scrubs the next granule. -/
def execHbmScrubRead (c : Fin 16) (errs : List (Nat × Nat)) (s : State) : Host.Outcome State Fault Refusal :=
  keep s (scrubOp s c errs)

/-- RECENTRE_PROBE (R308): A lane is probed at ±h and its delay is moved or MARGIN_LOW raised. -/
def execRecentreProbe (c : Fin 16) (q : Fin 4) (lane : Fin 5) (write : Bool) (low : Bool) (high : Bool) (s : State) : Host.Outcome State Fault Refusal :=
  keep s (probeOp s c q lane write low high)

/-- DELAY_CHANGE_APPLY (R309): A changed delay takes effect in the next quiet background cycle. -/
def execDelayChangeApply (c : Fin 16) (s : State) : Host.Outcome State Fault Refusal :=
  keep s (applyDelay s c)

/-- HBM_TRAINING_COMPLETE (R307): A lane sweep completes and its delay and eye are chosen, or TRAIN_FAIL is raised. -/
def execHbmTrainingComplete (c : Fin 16) (q : Fin 4) (lane : Fin 5) (write : Bool) (passes : BitVec 128) (s : State) : Host.Outcome State Fault Refusal :=
  keep s (trainOp s c q lane write passes)

/-- SR_ENTER (R311): SR_CTRL.ENTER starts self-refresh entry. -/
def execSrEnter (c : Fin 16) (s : State) : Host.Outcome State Fault Refusal :=
  keep s (srEnterOp s c)

/-- SR_COMMIT (R311): Queued work is served and self-refresh entry is committed on all pseudo-channels. -/
def execSrCommit (c : Fin 16) (s : State) : Host.Outcome State Fault Refusal :=
  keep s (srCommitOp s c)

/-- SR_EXIT (R313): SR_CTRL.EXIT starts a self-refresh exit or stops an entry. -/
def execSrExit (a : Agent) (c : Fin 16) (v : Word) (s : State) : Host.Outcome State Fault Refusal :=
  keep s (regWrite s a (mcB c + R.HBM_SR_CTRL) v)

/-- SR_EXIT_COMPLETE (R313): A self-refresh exit completes and held requests are served. -/
def execSrExitComplete (c : Fin 16) (probeOk : Bool) (s : State) : Host.Outcome State Fault Refusal :=
  keep s (srExitDoneOp s c probeOk)

/-- SR_IDLE_REENTER (R313): After an automatic exit in DORMANT, SR_IDLE passes with no request and self-refresh is re-
entered. -/
def execSrIdleReenter (c : Fin 16) (s : State) : Host.Outcome State Fault Refusal :=
  keep s (srIdleOp s c)

/-- HOT_CLEARED (R299): The HBM stack stops reporting the doubled-refresh temperature band, MC_STATUS.HOT clears and
the fetch bound returns to 11 ply. -/
def execHotCleared (c : Fin 16) (temp : BitVec 8) (s : State) : Host.Outcome State Fault Refusal :=
  keep s (hotOp s c false temp.toNat)

end Sys2Proof.Machine
end

