-- ==== Sys2Proof/Machine/ExecPorts.lean ====
section
/-! DEFINITION. The meanings of the commands of ports, lanes, FEC, pause and framers (chapters 02 and 03). Each is its operation's effect on everything but the
queue. -/

namespace Sys2Proof.Machine

/-- ALIGNMENT_MARKER_LATCH (R73): A lane's capture latch takes the Tally Time of an alignment marker's first bit at
the alignment point. -/
def execAlignmentMarkerLatch (lane : Fin 258) (dt : Nat) (s : State) : Host.Outcome State Fault Refusal :=
  keep s (latchMarker s lane dt)

/-- FRAME_CAPTURE (R74): A frame's reference bit arrives, and its arrival time is computed and delivered to the Tally.
-/
def execFrameCapture (port : Fin 257) (lane : Fin 258) (bits : Nat) (head : List Byte) (fifoFull : Bool) (s : State) : Host.Outcome State Fault Refusal :=
  keep s (captureOp s port lane bits head fifoFull)

/-- INGRESS_SLOT_GRANT (R51): A waiting frame head is granted an ingress packet slot and passed on to parse. -/
def execIngressSlotGrant (pipe : Fin 8) (s : State) : Host.Outcome State Fault Refusal :=
  keep s (slotGrant s pipe)

/-- FRAME_END (R72): A frame's last bit arrives and the MAC makes its runt, giant and FCS checks. -/
def execFrameEnd (frame : Nat) (rest : List Byte) (s : State) : Host.Outcome State Fault Refusal :=
  keep s (frameEndOp s frame rest)

/-- AM_LOCK_ACQUIRED (R77): A lane's alignment markers lock and the lane measures its receive and transmit PMA delays.
-/
def execAmLockAcquired (lane : Fin 258) (rx : BitVec 24) (tx : BitVec 24) (s : State) : Host.Outcome State Fault Refusal :=
  keep s (amLock s lane rx.toNat tx.toNat)

/-- PORT_ENABLE_WRITE (R80): A write of PORT_CTRL.ENABLE moves the port to TRAINING or DISABLED at the next ply. -/
def execPortEnableWrite (a : Agent) (port : Fin 257) (v : Word) (s : State) : Host.Outcome State Fault Refusal :=
  keep s (regWrite s a (if port.val = 256 then pgHP + R.HP_HP_CTRL else portB port + R.PORT_PORT_CTRL) v)

/-- LINK_TRAINING_COMPLETE (R80): CDR lock and link training complete on all lanes, and the port moves to ALIGNING. -/
def execLinkTrainingComplete (port : Fin 257) (s : State) : Host.Outcome State Fault Refusal :=
  keep s (trainingDone s port)

/-- UP_HOLD_EXPIRY (R80): UP conditions have held for UP_HOLD, and the port enters UP, or returns to UP from FAULT. -/
def execUpHoldExpiry (port : Fin 257) (s : State) : Host.Outcome State Fault Refusal :=
  keep s (holdExpired s port)

/-- REMOTE_FAULT_RECEIVED (R80): An UP port receives remote fault and moves to FAULT. -/
def execRemoteFaultReceived (port : Fin 257) (s : State) : Host.Outcome State Fault Refusal :=
  keep s (remoteFault s port)

/-- LINK_LOSS (R80): CDR, signal or marker lock is lost, high SER is seen or a local fault is received, and the port
returns to TRAINING. -/
def execLinkLoss (port : Fin 257) (lane : Fin 258) (cause : LinkCause) (s : State) : Host.Outcome State Fault Refusal :=
  keep s (linkLost s port lane cause)

/-- TRAIN_FAIL (R80): Link training fails and TRAIN_FAIL is raised. -/
def execTrainFail (lane : Fin 258) (s : State) : Host.Outcome State Fault Refusal :=
  keep s (trainFailed s lane)

/-- TRAIN_RETRY (R80): Training is retried 1 ms after a failure. -/
def execTrainRetry (port : Fin 257) (s : State) : Host.Outcome State Fault Refusal :=
  keep s (trainAgain s port)

/-- SER_WINDOW_END (R91): At the end of an FEC window, HIGH_SER is judged from the symbol errors against SER_THRESH.
-/
def execSerWindowEnd (lane : Fin 258) (errors : Nat) (corrected : Nat) (uncorrected : Nat) (s : State) : Host.Outcome State Fault Refusal :=
  keep s (serWindow s lane errors corrected uncorrected)

/-- PORT_MAP_WRITE (R68): A PORT_MAP write is checked against the lane and enable rules; it is refused or staged for
the next ply. -/
def execPortMapWrite (a : Agent) (group : Fin 32) (v : Word) (s : State) : Host.Outcome State Fault Refusal :=
  keep s (regWrite s a (pb (0x020 + group) + R.PG_PORT_MAP) v)

/-- PFC_FRAME_RECEIVED (R85): A good PFC frame for an enabled priority is decoded and its pause timers are loaded. -/
def execPfcFrameReceived (port : Fin 256) (enable : Byte) (quanta : List (BitVec 16)) (fcsGood : Bool) (s : State) : Host.Outcome State Fault Refusal :=
  keep s (pfcReceive s port enable quanta fcsGood)

/-- PFC_PAUSE_HOLD (R86): The pause takes hold at the edge two ply after the PFC frame, and grants to the paused
classes stop. -/
def execPfcPauseHold (port : Fin 256) (s : State) : Host.Outcome State Fault Refusal :=
  keep s (pfcHold s port)

/-- PFC_PAUSE_EXPIRY (R87): A pause timer expires and its class resumes at the first edge at or after expiry. -/
def execPfcPauseExpiry (port : Fin 256) (prio : Fin 8) (s : State) : Host.Outcome State Fault Refusal :=
  keep s (pfcExpire s port prio)

/-- PFC_FRAME_SEND (R89): On XOFF assert or release, the port sends a PFC frame with TX_QUANTA or 0 within 2 ply. -/
def execPfcFrameSend (port : Fin 256) (classB : Bool) (s : State) : Host.Outcome State Fault Refusal :=
  keep s (pfcSendDue s port classB)

/-- PFC_REFRESH (R89): While XOFF holds, the PFC frame is repeated every REFRESH. -/
def execPfcRefresh (port : Fin 256) (classB : Bool) (s : State) : Host.Outcome State Fault Refusal :=
  keep s (pfcRefreshOp s port classB)

/-- PFC_WATCHDOG_EXPIRY (R90): A class paused longer than PFC_WD sets PFC_STORM, and with WD_DROP its frames are
discarded. -/
def execPfcWatchdogExpiry (port : Fin 256) (cls : Fin 8) (s : State) : Host.Outcome State Fault Refusal :=
  keep s (pfcWatchdog s port cls)

/-- FRAMER_CTRL_WRITE (R99): A FRAMER_CTRL write changing enable, N or lane mode is checked against ownership and
accepted or rejected. -/
def execFramerCtrlWrite (a : Agent) (f : Fin 16) (v : Word) (s : State) : Host.Outcome State Fault Refusal :=
  keep s (regWrite s a (pb (0x140 + f) + R.FRM_FRAMER_CTRL) v)

/-- FLEXO_MARKER_LATCH (R103): The capture latch takes the time of a FlexO alignment marker, and the lane rate is
measured. -/
def execFlexoMarkerLatch (lane : Fin 256) (dt : Nat) (bits : Nat) (s : State) : Host.Outcome State Fault Refusal :=
  keep s (latchFlexO s lane dt bits)

/-- FLEXO_PATTERN_SIGHTING (R106): In OOF, a pattern match opens, confirms or closes an alignment candidate. -/
def execFlexoPatternSighting (f : Fin 16) (inst : Fin 8) (sightings : List (Nat × Byte)) (s : State) : Host.Outcome State Fault Refusal :=
  keep s (search s f inst sightings)

/-- FLEXO_FRAME_CHECK (R107): In frame, the pattern is checked at the expected position with AM_TOL errors allowed. -/
def execFlexoFrameCheck (f : Fin 16) (inst : Fin 8) (errors : Nat) (mfbyte : Byte) (s : State) : Host.Outcome State Fault Refusal :=
  keep s (frameCheck s f inst errors mfbyte)

/-- OOF_DECLARE (R107): Five consecutive failed in-frame checks declare OOF. -/
def execOofDeclare (f : Fin 16) (inst : Fin 8) (s : State) : Host.Outcome State Fault Refusal :=
  keep s (declareOof s f inst)

/-- DEFECT_DECLARE (R108): A defect's declare time elapses; it is reported unless suppressed, and its consequent
actions begin. -/
def execDefectDeclare (f : Fin 16) (defect : Fin 16) (s : State) : Host.Outcome State Fault Refusal :=
  keep s (setRaw s f defect true)

/-- DEFECT_CLEAR (R108): A defect's clear time elapses and it is no longer reported. -/
def execDefectClear (f : Fin 16) (defect : Fin 16) (s : State) : Host.Outcome State Fault Refusal :=
  keep s (setRaw s f defect false)

/-- DEG_SECOND_END (R108): A second ends and is judged bad or good against DEG_THR for DEG detection. -/
def execDegSecondEnd (f : Fin 16) (pm : Bool) (errors : Nat) (s : State) : Host.Outcome State Fault Refusal :=
  keep s (degSecond s f pm errors)

/-- TTI_CYCLE (R111): A 64-frame TTI cycle ends; the received TTI is compared and the transmitted TTI restarts. -/
def execTtiCycle (f : Fin 16) (pm : Bool) (received : List Byte) (s : State) : Host.Outcome State Fault Refusal :=
  keep s (ttiCycleOp s f pm received)

end Sys2Proof.Machine
end

