-- ==== Sys2Proof/Machine/ExecRegisters.lean ====
section
/-! DEFINITION. The meanings of the register commands of all pages (R16-R21), PAGE_CTRL and the event registers. Each is its operation's effect on everything but the
queue. -/

namespace Sys2Proof.Machine

/-- REGISTER_WRITE (R21): A write to a register that has no row of its own takes its new value, and takes effect at
once or at the next ply as its field states. -/
def execRegisterWrite (a : Agent) (addr : Nat) (v : Word) (s : State) : Host.Outcome State Fault Refusal :=
  keep s (regWrite s a addr v)

/-- COUNTER_LOW_READ (R16): A read of the low word of a 64-bit counter returns it and latches the high word for the
reading agent. -/
def execCounterLowRead (a : Agent) (addr : Nat) (s : State) : Host.Outcome State Fault Refusal :=
  keep s (regRead s a addr (cycleTT s) none)

/-- RC_FIELD_READ (R17): A read of an RC field returns its value and then clears it, unless a hardware update falls in
the same cycle. -/
def execRcFieldRead (a : Agent) (addr : Nat) (hw : Option Word) (s : State) : Host.Outcome State Fault Refusal :=
  keep s (regRead s a addr (cycleTT s) hw)

/-- TT_NS_READ (R157): A read of TT_NS returns the nanoseconds and latches the fraction and seconds for the agent. -/
def execTtNsRead (a : Agent) (dt : Nat) (s : State) : Host.Outcome State Fault Refusal :=
  keep s (regRead s a (pgTT + R.TT_TT_NS) dt none)

/-- SOFT_RESET (R582): PAGE_CTRL.SOFT_RESET in DIAGNOSTIC empties a block's queues and counters, and is refused
elsewhere. -/
def execSoftReset (a : Agent) (page : Nat) (v : Word) (s : State) : Host.Outcome State Fault Refusal :=
  keep s (regWrite s a (pb page + oPAGE_CTRL) (v ||| 2))

/-- EVT_STATUS_CLEAR (R506): A W1C of EVT_STATUS clears pulse events; level events with a live cause re-assert. -/
def execEvtStatusClear (a : Agent) (page : Nat) (v : Word) (same : Word) (s : State) : Host.Outcome State Fault Refusal :=
  keep s (regOp s a (pb page + oEVT_STATUS) v (fun s => (.ok, evtClear s page v same)))

/-- EVT_INJECT (R508): A write to EVT_INJECT makes an injected occurrence of each event selected. -/
def execEvtInject (a : Agent) (page : Nat) (v : Word) (s : State) : Host.Outcome State Fault Refusal :=
  keep s (regWrite s a (pb page + oEVT_INJECT) v)

/-- EVT_CLASS_WRITE (R501): An EVT_CLASS write takes effect at the next ply, except for FATAL defaults and sealed
Tally pages. -/
def execEvtClassWrite (a : Agent) (page : Nat) (hi : Bool) (v : Word) (s : State) : Host.Outcome State Fault Refusal :=
  keep s (regWrite s a (pb page + (if hi then oEVT_CLASS_HI else oEVT_CLASS)) v)

end Sys2Proof.Machine
end

