-- ==== Sys2Proof/Machine/ExecRoutines.lean ====
section
/-! DEFINITION. The meanings of the commands of the flow stage: contexts, microwords, replies, journals, control stores (chapter 05). Each is its operation's effect on everything but the
queue. -/

namespace Sys2Proof.Machine

/-- ROUTINE_DISPATCH (R180): The dispatcher places a packet on a free context, or queues it. -/
def execRoutineDispatch (pipe : Fin 8) (s : State) : Host.Outcome State Fault Refusal :=
  keep s (dispatchOp s pipe)

/-- NEXT (R170): A microword with SEQ NEXT executes its nanoword and continues at PC + 1. -/
def execUwNext (pipe : Fin 8) (engine : Fin 64) (s : State) : Host.Outcome State Fault Refusal :=
  keep s (microOp s pipe engine sNEXT 0)

/-- JUMP (R170): A microword with SEQ JUMP executes its nanoword and continues at TARGET. -/
def execUwJump (pipe : Fin 8) (engine : Fin 64) (s : State) : Host.Outcome State Fault Refusal :=
  keep s (microOp s pipe engine sJUMP 0)

/-- BRT (R170): A microword with SEQ BRT branches to TARGET when its flag is 1. -/
def execUwBrt (pipe : Fin 8) (engine : Fin 64) (s : State) : Host.Outcome State Fault Refusal :=
  keep s (microOp s pipe engine sBRT 0)

/-- BRF (R170): A microword with SEQ BRF branches to TARGET when its flag is 0. -/
def execUwBrf (pipe : Fin 8) (engine : Fin 64) (s : State) : Host.Outcome State Fault Refusal :=
  keep s (microOp s pipe engine sBRF 0)

/-- CALL (R170): A microword with SEQ CALL pushes PC + 1 and continues at TARGET. -/
def execUwCall (pipe : Fin 8) (engine : Fin 64) (s : State) : Host.Outcome State Fault Refusal :=
  keep s (microOp s pipe engine sCALL 0)

/-- RET (R170): A microword with SEQ RET continues at the popped address. -/
def execUwRet (pipe : Fin 8) (engine : Fin 64) (s : State) : Host.Outcome State Fault Refusal :=
  keep s (microOp s pipe engine sRET 0)

/-- WAIT (R179): A WAIT microword executes in the cycle its condition is first found true. -/
def execUwWait (pipe : Fin 8) (engine : Fin 64) (s : State) : Host.Outcome State Fault Refusal :=
  keep s (microOp s pipe engine sWAIT 0)

/-- COMMIT (R186): END COMMIT ends the routine; the journal is committed and the packet follows the META verdict. -/
def execUwCommit (pipe : Fin 8) (engine : Fin 64) (s : State) : Host.Outcome State Fault Refusal :=
  keep s (microOp s pipe engine sEND 0)

/-- DISCARD (R186): END DISCARD ends the routine; the journal is discarded and the packet follows the META verdict. -/
def execUwDiscard (pipe : Fin 8) (engine : Fin 64) (s : State) : Host.Outcome State Fault Refusal :=
  keep s (microOp s pipe engine sEND 1)

/-- EXCEPT (R186): END EXCEPT discards the journal; the packet takes its default action with ROUTINE_EXCEPT. -/
def execUwExcept (pipe : Fin 8) (engine : Fin 64) (s : State) : Host.Outcome State Fault Refusal :=
  keep s (microOp s pipe engine sEND 2)

/-- COMMIT_EXCEPT (R186): END COMMIT_EXCEPT commits the journal, follows the verdict and raises ROUTINE_EXCEPT. -/
def execUwCommitExcept (pipe : Fin 8) (engine : Fin 64) (s : State) : Host.Outcome State Fault Refusal :=
  keep s (microOp s pipe engine sEND 3)

/-- FLOW_READY (R249): The FLOW_FIND reply binds a record (HIT or FETCHED) or reports ABSENT. -/
def execFlowReady (ctx : Fin 4096) (upset : Fin 5) (s : State) : Host.Outcome State Fault Refusal :=
  keep s (flowReplyOp s ctx 0 upset)

/-- LEARN_DONE (R251): The FLOW_LEARN reply binds an existing or newly learned record. -/
def execLearnDone (ctx : Fin 4096) (upset : Fin 5) (s : State) : Host.Outcome State Fault Refusal :=
  keep s (flowReplyOp s ctx 5 upset)

/-- TBL_REPLY (R213): A table lookup reply writes TBL_RESULT. -/
def execTblReply (ctx : Fin 4096) (upset : List Nat) (corrected : Bool) (s : State) : Host.Outcome State Fault Refusal :=
  keep s (tblReplyOp s ctx upset corrected)

/-- HASH_DONE (R224): A hash reply writes HASH_RESULT. -/
def execHashDone (ctx : Fin 4096) (s : State) : Host.Outcome State Fault Refusal :=
  keep s (hashDoneOp s ctx)

/-- TIME_READY (R175): A TIME_READ reply writes TIME_RESULT. -/
def execTimeReady (ctx : Fin 4096) (dt : Nat) (s : State) : Host.Outcome State Fault Refusal :=
  keep s (timeReadyOp s ctx dt)

/-- PARAM_READY (R209): A PARAM_READ reply writes PARAM_RESULT. -/
def execParamReady (ctx : Fin 4096) (s : State) : Host.Outcome State Fault Refusal :=
  keep s (paramReadyOp s ctx)

/-- ASSIST_DONE (R265): A THROTTLE or HISTO reply writes ASSIST_RESULT. -/
def execAssistDone (ctx : Fin 4096) (s : State) : Host.Outcome State Fault Refusal :=
  keep s (assistDoneOp s ctx)

/-- CTR_READY (R262): A COUNTER_READ reply writes CTR_RESULT. -/
def execCtrReady (ctx : Fin 4096) (s : State) : Host.Outcome State Fault Refusal :=
  keep s (ctrReadyOp s ctx)

/-- STATE_READY (R225): A QDEPTH or MEMBER_STATE reply writes STATE_RESULT. -/
def execStateReady (ctx : Fin 4096) (s : State) : Host.Outcome State Fault Refusal :=
  keep s (stateReadyOp s ctx)

/-- JOURNAL_COMMIT (R188): A commit takes its Deck slot and applies the journal and automatic updates atomically,
freeing the context. -/
def execJournalCommit (ctx : Fin 4096) (s : State) : Host.Outcome State Fault Refusal :=
  keep s (commitCtx s ctx)

/-- DEADLINE_EXPIRY (R183): A routine or queued packet reaches its deadline edge unfinished, and is aborted with
DEADLINE_HIT or DEADLINE_MISS. -/
def execDeadlineExpiry (frame : Nat) (s : State) : Host.Outcome State Fault Refusal :=
  keep s (deadlineOp s frame)

/-- STORE_WRITE (R194): STORE_CMD.WRITE writes STORE_DATA to the addressed word in all 8 pipelines, under R191. -/
def execStoreWrite (a : Agent) (pipe : Fin 8) (cmd : Word) (s : State) : Host.Outcome State Fault Refusal :=
  keep s (regWrite s a (flowB pipe + R.FS_STORE_CMD) (setBits cmd 0 2 1))

/-- STORE_READ (R194): STORE_CMD.READ reads this pipeline's addressed word into STORE_DATA. -/
def execStoreRead (a : Agent) (pipe : Fin 8) (cmd : Word) (s : State) : Host.Outcome State Fault Refusal :=
  keep s (regWrite s a (flowB pipe + R.FS_STORE_CMD) (setBits cmd 0 2 2))

/-- STORE_SCRUB (R193): A background slot scrubs a control store line, correcting or marking errors. -/
def execStoreScrub (pipe : Fin 8) (nano : Bool) (line : Nat) (uncorrectable : Bool) (corrected : Bool) (s : State) : Host.Outcome State Fault Refusal :=
  keep s (storeScrubOp s pipe line nano uncorrectable corrected)

/-- STORE_REPAIR (R193): The Cruise copies a marked word from the next pipeline and clears the mark. -/
def execStoreRepair (pipe : Fin 8) (nano : Bool) (line : Nat) (sourceOk : Bool) (s : State) : Host.Outcome State Fault Refusal :=
  keep s (storeRepairOp s pipe line nano sourceOk)

end Sys2Proof.Machine
end

