-- ==== Sys2Proof/Machine/ExecSwitch.lean ====
section
/-! DEFINITION. The meanings of the commands of the switch core, traffic management and the Arbiter (chapters 09 to 11). Each is its operation's effect on everything but the
queue. -/

namespace Sys2Proof.Machine

/-- A cell that is on its way to its resequencer arrives (R323). -/
def cellArrivesOp (s : State) (stream seq : Nat) : State :=
  match s.core.flight.find? (fun c => c.stream == stream && c.seq == seq) with
  | some c => cellArrives s c
  | none => s

/-- A late copy has not begun within LATE_MAX ply: it is dropped, and counted as EXPIRED beside its first reason
(R396). -/
def expireCopy (s : State) (id : Nat) : State :=
  if s.md.mode ≠ .contained ∧ lateExpired s id then dropCopy (countMiss s 7) id rsnLATE_DROP else s

/-- SWITCH_CORE_ADMISSION (R328): A frame or copy's first cell is written and it reserves cells of its account, or is
dropped. -/
def execSwitchCoreAdmission (frame : Nat) (s : State) : Host.Outcome State Fault Refusal :=
  keep s (admitFrame s frame)

/-- RESEQ_CELL_ARRIVAL (R323): A cell reaches its stream's resequencer and is held, passed on or discarded. -/
def execReseqCellArrival (stream : Fin 512) (seq : Fin 4096) (s : State) : Host.Outcome State Fault Refusal :=
  keep s (cellArrivesOp s stream seq)

/-- RESEQ_TIMEOUT (R324): A missing cell's timeout expires; it is declared lost and its frame marked bad. -/
def execReseqTimeout (stream : Fin 512) (s : State) : Host.Outcome State Fault Refusal :=
  keep s (if timeoutDue s stream then declareLost s stream else s)

/-- PLANE_FAULT (R322): A crossbar plane reports an uncorrectable fault and becomes unusable from the next ply. -/
def execPlaneFault (plane : Fin 8) (s : State) : Host.Outcome State Fault Refusal :=
  keep s (planeFaulted s plane)

/-- LIMIT_WRITE (R331): A write of a buffer limit is checked against the whole partition and accepted or refused. -/
def execLimitWrite (a : Agent) (addr : Nat) (v : Word) (s : State) : Host.Outcome State Fault Refusal :=
  keep s (regWrite s a addr v)

/-- MC_WRITE (R348): MC_CMD.WRITE writes a multicast group entry, taking hold at the next edge. -/
def execMcWrite (a : Agent) (cmd : Word) (s : State) : Host.Outcome State Fault Refusal :=
  keep s (regWrite s a (pgMC + R.MCM_MC_CMD) (setBits cmd 0 2 1))

/-- MC_READ (R348): MC_CMD.READ reads a group entry into the window. -/
def execMcRead (a : Agent) (cmd : Word) (s : State) : Host.Outcome State Fault Refusal :=
  keep s (regWrite s a (pgMC + R.MCM_MC_CMD) (setBits cmd 0 2 2))

/-- FREE_LIST_CHECK (R319): The Cruise finds unowned cells after a broken chain and frees them. -/
def execFreeListCheck (s : State) : Host.Outcome State Fault Refusal :=
  keep s (freeUnowned s)

/-- EGRESS_GRANT (R368): The egress scheduler grants a frame from a port's release or class queues. -/
def execEgressGrant (pipe : Fin 8) (s : State) : Host.Outcome State Fault Refusal :=
  keep s (Sys2Proof.Machine.egressGrant s pipe)

/-- FRAME_TRANSMITTED (R339): A frame's last byte passes the egress capture point and its outcome is reported. -/
def execFrameTransmitted (port : Fin 265) (s : State) : Host.Outcome State Fault Refusal :=
  keep s (finishTx s port)

/-- POL_WRITE (R362): POL_CMD.WRITE replaces a policer configuration at the next edge. -/
def execPolWrite (a : Agent) (pipe : Fin 8) (cmd : Word) (s : State) : Host.Outcome State Fault Refusal :=
  keep s (regWrite s a (pb (0x3A0 + pipe) + R.POL_POL_CMD) (setBits cmd 0 3 1))

/-- POL_READ (R373): POL_CMD.READ fills the window with a policer's configuration, levels and counters. -/
def execPolRead (a : Agent) (pipe : Fin 8) (cmd : Word) (s : State) : Host.Outcome State Fault Refusal :=
  keep s (regWrite s a (pb (0x3A0 + pipe) + R.POL_POL_CMD) (setBits cmd 0 3 2))

/-- POL_CLEAR_COUNTERS (R373): POL_CMD.CLEAR_COUNTERS zeroes a policer's counters at the next ply. -/
def execPolClearCounters (a : Agent) (pipe : Fin 8) (cmd : Word) (s : State) : Host.Outcome State Fault Refusal :=
  keep s (regWrite s a (pb (0x3A0 + pipe) + R.POL_POL_CMD) (setBits cmd 0 3 4))

/-- POL_RESET_LEVELS (R362): RESET_LEVELS sets both buckets full at the edge of the write. -/
def execPolResetLevels (a : Agent) (pipe : Fin 8) (cmd : Word) (s : State) : Host.Outcome State Fault Refusal :=
  keep s (regWrite s a (pb (0x3A0 + pipe) + R.POL_POL_CMD) (setBits cmd 0 4 9))

/-- SEQ_CFG_WRITE (R389): A SEQ_CFG write is checked against EN and port mapping and accepted or refused. -/
def execSeqCfgWrite (a : Agent) (out : Fin 32) (v : Word) (s : State) : Host.Outcome State Fault Refusal :=
  keep s (regWrite s a (seqB out + R.SEQ_SEQ_CFG) v)

/-- ER_WRITE (R400): ER_CMD.WRITE writes a group's even-release profile at the next edge. -/
def execErWrite (a : Agent) (cmd : Word) (s : State) : Host.Outcome State Fault Refusal :=
  keep s (regWrite s a (pgARB + R.ARB_ER_CMD) (setBits cmd 0 2 1))

/-- ER_READ (R400): ER_CMD.READ reads a group's even-release entry into ER_GROUP. -/
def execErRead (a : Agent) (cmd : Word) (s : State) : Host.Outcome State Fault Refusal :=
  keep s (regWrite s a (pgARB + R.ARB_ER_CMD) (setBits cmd 0 2 2))

/-- COPY_LAUNCH (R394): A handed-off copy leaves the launch gate at A, or a late copy launches when its cause clears.
-/
def execCopyLaunch (port : Fin 256) (s : State) : Host.Outcome State Fault Refusal :=
  keep s (launch s port)

/-- LATE_MAX_EXPIRY (R396): A late copy not begun within LATE_MAX ply is dropped as EXPIRED. -/
def execLateMaxExpiry (frame : Nat) (s : State) : Host.Outcome State Fault Refusal :=
  keep s (expireCopy s frame)

end Sys2Proof.Machine
end

