-- ==== Sys2Proof/Machine/ExecTally.lean ====
section
/-! DEFINITION. The meanings of the commands of evidence, export, the seal and the Tally island (chapters 12 and 13). Each is its operation's effect on everything but the
queue. -/

namespace Sys2Proof.Machine

/-- WITHHOLD_EXPIRY (R409): A withheld frame passes WITHHOLD_MAX ply without release and is dropped. -/
def execWithholdExpiry (frame : Nat) (s : State) : Host.Outcome State Fault Refusal :=
  keep s (withholdOp s frame)

/-- OUTCOME_MAX_EXPIRY (R414): A metered frame lacking an outcome after OUTCOME_MAX ply is recorded UNRESOLVED. -/
def execOutcomeMaxExpiry (frame : Nat) (s : State) : Host.Outcome State Fault Refusal :=
  keep s (outcomeOp s frame)

/-- EPOCH_CLOSE (R421): An epoch ends, and its record is produced or lapses, or no record is due. -/
def execEpochClose (s : State) : Host.Outcome State Fault Refusal :=
  keep s (closeEpoch s)

/-- EPOCH_RECORD_SIGNED (R423): A signature and its verification complete, and the epoch record enters the Book. -/
def execEpochRecordSigned (firstOk : Bool) (secondOk : Bool) (s : State) : Host.Outcome State Fault Refusal :=
  keep s (signEpoch s firstOk secondOk)

/-- EXPORT_FRAME_QUEUE (R427): An export frame of places, an epoch record or log entries is queued on the audit port
when it fits. -/
def execExportFrameQueue (s : State) : Host.Outcome State Fault Refusal :=
  keep s (exportOp s)

/-- ACK_SEQ_WRITE (R429): The high-word write of ACK_SEQ frees places and Book slots up to that sequence. -/
def execAckSeqWrite (a : Agent) (hi : Word) (s : State) : Host.Outcome State Fault Refusal :=
  keep s (regWrite s a (pgAUD + R.AUD_ACK_SEQ + 4) hi)

/-- REWIND_SEQ_WRITE (R429): The high-word write of REWIND_SEQ restarts export from a sequence, or is refused. -/
def execRewindSeqWrite (a : Agent) (hi : Word) (s : State) : Host.Outcome State Fault Refusal :=
  keep s (regWrite s a (pgAUD + R.AUD_REWIND_SEQ + 4) hi)

/-- SEAL_GO (R431): SEAL_CMD.GO starts verification of a seal or unseal request. -/
def execSealGo (a : Agent) (s : State) : Host.Outcome State Fault Refusal :=
  keep s (regWrite s a (pgSEAL + R.SEAL_SEAL_CMD) 1)

/-- SEAL_VERIFY_COMPLETE (R431): Seal verification ends with a result, and on success the seal state changes at the
edge. -/
def execSealVerifyComplete (s : State) : Host.Outcome State Fault Refusal :=
  keep s (sealVerifyOp s)

/-- SEALED_FIELD_WRITE (R432): While SEALED, a write to a sealed field is accepted within CAL_TOL or refused, and
logged. -/
def execSealedFieldWrite (a : Agent) (addr : Nat) (v : Word) (s : State) : Host.Outcome State Fault Refusal :=
  keep s (regWrite s a addr v)

/-- TALLY_POWER_ON (R591): A power-on or TLY_RST_N of the Tally island clears its time and Book and reloads its key
and firmware. -/
def execTallyPowerOn (s : State) : Host.Outcome State Fault Refusal :=
  keep s (tallyPowerOp s)

/-- TALLY_FIRMWARE_LOADED (R548): The Tally ROM finishes loading and verifying TALLY_FW, or stays in ROM. -/
def execTallyFirmwareLoaded (copy0 : List Byte) (copy1 : List Byte) (keyOk : Bool) (engine0Ok : Bool) (engine1Ok : Bool) (s : State) : Host.Outcome State Fault Refusal :=
  keep s (firmwareOp s copy0 copy1 keyOk engine0Ok engine1Ok)

/-- RNG_HEALTH_FAIL (R424): The random bit generator fails its health test and RNG_FAIL is raised. -/
def execRngHealthFail (s : State) : Host.Outcome State Fault Refusal :=
  keep s (rngFail s)

/-- TALLY_RAIL_LOSS (R592): A Tally rail is lost, so the island stops keeping time, and in LIVE, DRAIN or DIAGNOSTIC
the die raises the FATAL event TALLY_LOST. -/
def execTallyRailLoss (rail : Fin 10) (s : State) : Host.Outcome State Fault Refusal :=
  keep s (tallyRailOp s rail)

end Sys2Proof.Machine
end

