-- ==== Sys2Proof/Machine/ExecTime.lean ====
section
/-! DEFINITION. The meanings of the commands of the ply, of Tally Time and its references (chapters 01 and 04). Each is its operation's effect on everything but the
queue. -/

namespace Sys2Proof.Machine

/-- PTP_FRAME_DIVERT: a message of a port that is one of the Tally's PTP ports, received while the port is UP, with its
capture's corrected time as t2 (R137, R139). -/
def ptpDivertOp (s : State) (port lane bits : Nat) (msg : List Byte) : State :=
  match ptpOn s port with
  | none => s
  | some b =>
    if ¬ isUp s port ∨ ¬ (portLanes s port).contains lane then s
    else
      let c := captureNow s port lane bits
      ptpReceive { s with freeIx := s.freeIx + 1 } b msg c.t

/-- PTP_MESSAGE_SEND: a message starts at a frame boundary of an UP port; a Delay_Req leaves its sequence number and
its departure time t3, the ball departure plus DEMARC_TX (R76, R137, R139). -/
def ptpSendOp (s : State) (portB : Bool) (dt : Nat) (msg : List Byte) : State :=
  let p := ptpPort s portB
  if ptpOn s p ≠ some portB ∨ ¬ isUp s p then s
  else
    let l := refLane s p
    let s := bump (emit l.2 (.ptp p msg)) (ptpB portB + R.PTP_PTP_TX)
    let t3 : Int := (ttNow s dt + txDelay s l.1 + cg s pgCAL (F.CAL_DEMARC_TX_DELAY.fwd (4 * p)) : Nat)
    if beAt msg 0 1 % 16 = 1 then setPtp s portB { getPtp s portB with reqSeq := some (beAt msg 30 2), t3 := t3 }
    else s

/-- PLY_EDGE (R44): At each ply edge the ply counter advances and the ply-synchronous work commits in its fixed order.
-/
def execPlyEdge (e : EdgeIn) (s : State) : Host.Outcome State Fault Refusal :=
  keepQueue s (plyEdgeOp e s)

/-- KERNEL_TICK (R39): Every 25 ply a kernel tick falls and sets the TICK interrupt of each core. -/
def execKernelTick (s : State) : Host.Outcome State Fault Refusal :=
  keep s (kernelTickOp s)

/-- ISLAND_TICK (R603): While the ply counter is stopped, the Tally runs its edge-timed work at 40 ns island ticks. -/
def execIslandTick (tallyCycles : Nat) (s : State) : Host.Outcome State Fault Refusal :=
  keep s (islandTickOp s tallyCycles)

/-- CORE_PLL_LOCK_LOST (R42): The core PLL loses lock; the ply counter stops, LOCK_LOST is set, and in LIVE this is
FATAL. -/
def execCorePllLockLost (s : State) : Host.Outcome State Fault Refusal :=
  keep s (lockLost s)

/-- CORE_PLL_LOCK_REGAINED (R42): The core PLL regains lock and the ply counter resumes at its held value. -/
def execCorePllLockRegained (s : State) : Host.Outcome State Fault Refusal :=
  keep s (lockRegained s)

/-- PPS_RISING_EDGE (R131): A rising 1PPS edge is stamped; it may be discarded as PPS_FAST and may open a ToD window.
-/
def execPpsRisingEdge (dt : Nat) (s : State) : Host.Outcome State Fault Refusal :=
  keep s (ppsRise s (ttNow s dt))

/-- PPS_FALLING_EDGE (R131): A falling 1PPS edge is stamped and the pulse is judged good or bad. -/
def execPpsFallingEdge (dt : Nat) (s : State) : Host.Outcome State Fault Refusal :=
  keep s (ppsFall s (ttNow s dt))

/-- PPS_WIDTH_TIMEOUT (R131): PPS_WMAX elapses with the input still high, and the pulse is judged too wide. -/
def execPpsWidthTimeout (s : State) : Host.Outcome State Fault Refusal :=
  keep s (ppsTimeout s)

/-- PPS_MISSING (R132): No rising edge arrives within 1.001 s of the last accepted edge, and 1PPS is disqualified. -/
def execPpsMissing (s : State) : Host.Outcome State Fault Refusal :=
  keep s (Sys2Proof.Machine.ppsMissing s)

/-- TOD_MESSAGE (R135): A ToD message is received and judged good or not good. -/
def execTodMessage (begins : Nat) (ends : Nat) (msg : List Byte) (s : State) : Host.Outcome State Fault Refusal :=
  keep s (todMessageOp s begins ends msg)

/-- TOD_WINDOW_CLOSE (R135): A ToD window closes without a good message and TOD_OK falls. -/
def execTodWindowClose (s : State) : Host.Outcome State Fault Refusal :=
  keep s (todClose s)

/-- FREQ_GATE_END (R136): A 10 ms gate ends; the 10 MHz and SyncE offsets are measured and qualification is updated.
-/
def execFreqGateEnd (synce : Bool) (dev : Int) (s : State) : Host.Outcome State Fault Refusal :=
  keep s (freqGate s synce dev)

/-- FREQ_EDGE_LOSS (R136): A frequency input shows no edge for 1 µs and is disqualified. -/
def execFreqEdgeLoss (synce : Bool) (s : State) : Host.Outcome State Fault Refusal :=
  keep s (freqLose s synce)

/-- PTP_FRAME_DIVERT (R137): A matching PTP frame is diverted to the Tally before parse and processed. -/
def execPtpFrameDivert (port : Fin 256) (lane : Fin 256) (bits : Nat) (msg : List Byte) (s : State) : Host.Outcome State Fault Refusal :=
  keep s (ptpDivertOp s port lane bits msg)

/-- PTP_MESSAGE_SEND (R137): The Tally injects a PTP message at the first frame boundary of the port. -/
def execPtpMessageSend (portB : Bool) (dt : Nat) (msg : List Byte) (s : State) : Host.Outcome State Fault Refusal :=
  keep s (ptpSendOp s portB dt msg)

/-- PTP_RECEIPT_TIMEOUT (R140): Sync or Delay_Resp is missing for 3 intervals and the PTP port is disqualified. -/
def execPtpReceiptTimeout (portB : Bool) (which : PtpTimer) (s : State) : Host.Outcome State Fault Refusal :=
  keep s (ptpTimeout s portB which)

/-- TE_MEASUREMENT (R141): Once per second the time error against the selected reference is measured into TE_LAST. -/
def execTeMeasurement (te : Int) (s : State) : Host.Outcome State Fault Refusal :=
  keep s (measureTE s te)

end Sys2Proof.Machine
end

