-- ==== Sys2Proof/Machine/Dispatch.lean ====
section
/-! DEFINITION. The dispatch: one arm per command, each a direct call of its meaning. -/

namespace Sys2Proof.Machine

/-- The effect of a command on everything but the queue of waiting commands. -/
def exec (i : Instr) (s : State) : Host.Outcome State Fault Refusal :=
  match i with
  | .registerWrite a addr v => Sys2Proof.Machine.execRegisterWrite a addr v s
  | .counterLowRead a addr => Sys2Proof.Machine.execCounterLowRead a addr s
  | .rcFieldRead a addr hw => Sys2Proof.Machine.execRcFieldRead a addr hw s
  | .plyEdge e => Sys2Proof.Machine.execPlyEdge e s
  | .kernelTick => Sys2Proof.Machine.execKernelTick s
  | .islandTick tallyCycles => Sys2Proof.Machine.execIslandTick tallyCycles s
  | .corePllLockLost => Sys2Proof.Machine.execCorePllLockLost s
  | .corePllLockRegained => Sys2Proof.Machine.execCorePllLockRegained s
  | .alignmentMarkerLatch lane dt => Sys2Proof.Machine.execAlignmentMarkerLatch lane dt s
  | .frameCapture port lane bits head fifoFull => Sys2Proof.Machine.execFrameCapture port lane bits head fifoFull s
  | .ingressSlotGrant pipe => Sys2Proof.Machine.execIngressSlotGrant pipe s
  | .frameEnd frame rest => Sys2Proof.Machine.execFrameEnd frame rest s
  | .amLockAcquired lane rx tx => Sys2Proof.Machine.execAmLockAcquired lane rx tx s
  | .portEnableWrite a port v => Sys2Proof.Machine.execPortEnableWrite a port v s
  | .linkTrainingComplete port => Sys2Proof.Machine.execLinkTrainingComplete port s
  | .upHoldExpiry port => Sys2Proof.Machine.execUpHoldExpiry port s
  | .remoteFaultReceived port => Sys2Proof.Machine.execRemoteFaultReceived port s
  | .linkLoss port lane cause => Sys2Proof.Machine.execLinkLoss port lane cause s
  | .trainFail lane => Sys2Proof.Machine.execTrainFail lane s
  | .trainRetry port => Sys2Proof.Machine.execTrainRetry port s
  | .serWindowEnd lane errors corrected uncorrected => Sys2Proof.Machine.execSerWindowEnd lane errors corrected uncorrected s
  | .portMapWrite a group v => Sys2Proof.Machine.execPortMapWrite a group v s
  | .pfcFrameReceived port enable quanta fcsGood => Sys2Proof.Machine.execPfcFrameReceived port enable quanta fcsGood s
  | .pfcPauseHold port => Sys2Proof.Machine.execPfcPauseHold port s
  | .pfcPauseExpiry port prio => Sys2Proof.Machine.execPfcPauseExpiry port prio s
  | .pfcFrameSend port classB => Sys2Proof.Machine.execPfcFrameSend port classB s
  | .pfcRefresh port classB => Sys2Proof.Machine.execPfcRefresh port classB s
  | .pfcWatchdogExpiry port cls => Sys2Proof.Machine.execPfcWatchdogExpiry port cls s
  | .framerCtrlWrite a f v => Sys2Proof.Machine.execFramerCtrlWrite a f v s
  | .flexoMarkerLatch lane dt bits => Sys2Proof.Machine.execFlexoMarkerLatch lane dt bits s
  | .flexoPatternSighting f inst sightings => Sys2Proof.Machine.execFlexoPatternSighting f inst sightings s
  | .flexoFrameCheck f inst errors mfbyte => Sys2Proof.Machine.execFlexoFrameCheck f inst errors mfbyte s
  | .oofDeclare f inst => Sys2Proof.Machine.execOofDeclare f inst s
  | .defectDeclare f defect => Sys2Proof.Machine.execDefectDeclare f defect s
  | .defectClear f defect => Sys2Proof.Machine.execDefectClear f defect s
  | .degSecondEnd f pm errors => Sys2Proof.Machine.execDegSecondEnd f pm errors s
  | .ttiCycle f pm received => Sys2Proof.Machine.execTtiCycle f pm received s
  | .ppsRisingEdge dt => Sys2Proof.Machine.execPpsRisingEdge dt s
  | .ppsFallingEdge dt => Sys2Proof.Machine.execPpsFallingEdge dt s
  | .ppsWidthTimeout => Sys2Proof.Machine.execPpsWidthTimeout s
  | .ppsMissing => Sys2Proof.Machine.execPpsMissing s
  | .todMessage begins ends msg => Sys2Proof.Machine.execTodMessage begins ends msg s
  | .todWindowClose => Sys2Proof.Machine.execTodWindowClose s
  | .freqGateEnd synce dev => Sys2Proof.Machine.execFreqGateEnd synce dev s
  | .freqEdgeLoss synce => Sys2Proof.Machine.execFreqEdgeLoss synce s
  | .ptpFrameDivert port lane bits msg => Sys2Proof.Machine.execPtpFrameDivert port lane bits msg s
  | .ptpMessageSend portB dt msg => Sys2Proof.Machine.execPtpMessageSend portB dt msg s
  | .ptpReceiptTimeout portB which => Sys2Proof.Machine.execPtpReceiptTimeout portB which s
  | .teMeasurement te => Sys2Proof.Machine.execTeMeasurement te s
  | .ttNsRead a dt => Sys2Proof.Machine.execTtNsRead a dt s
  | .routineDispatch pipe => Sys2Proof.Machine.execRoutineDispatch pipe s
  | .uwNext pipe engine => Sys2Proof.Machine.execUwNext pipe engine s
  | .uwJump pipe engine => Sys2Proof.Machine.execUwJump pipe engine s
  | .uwBrt pipe engine => Sys2Proof.Machine.execUwBrt pipe engine s
  | .uwBrf pipe engine => Sys2Proof.Machine.execUwBrf pipe engine s
  | .uwCall pipe engine => Sys2Proof.Machine.execUwCall pipe engine s
  | .uwRet pipe engine => Sys2Proof.Machine.execUwRet pipe engine s
  | .uwWait pipe engine => Sys2Proof.Machine.execUwWait pipe engine s
  | .uwCommit pipe engine => Sys2Proof.Machine.execUwCommit pipe engine s
  | .uwDiscard pipe engine => Sys2Proof.Machine.execUwDiscard pipe engine s
  | .uwExcept pipe engine => Sys2Proof.Machine.execUwExcept pipe engine s
  | .uwCommitExcept pipe engine => Sys2Proof.Machine.execUwCommitExcept pipe engine s
  | .flowReady ctx upset => Sys2Proof.Machine.execFlowReady ctx upset s
  | .learnDone ctx upset => Sys2Proof.Machine.execLearnDone ctx upset s
  | .tblReply ctx upset corrected => Sys2Proof.Machine.execTblReply ctx upset corrected s
  | .hashDone ctx => Sys2Proof.Machine.execHashDone ctx s
  | .timeReady ctx dt => Sys2Proof.Machine.execTimeReady ctx dt s
  | .paramReady ctx => Sys2Proof.Machine.execParamReady ctx s
  | .assistDone ctx => Sys2Proof.Machine.execAssistDone ctx s
  | .ctrReady ctx => Sys2Proof.Machine.execCtrReady ctx s
  | .stateReady ctx => Sys2Proof.Machine.execStateReady ctx s
  | .journalCommit ctx => Sys2Proof.Machine.execJournalCommit ctx s
  | .deadlineExpiry frame => Sys2Proof.Machine.execDeadlineExpiry frame s
  | .storeWrite a pipe cmd => Sys2Proof.Machine.execStoreWrite a pipe cmd s
  | .storeRead a pipe cmd => Sys2Proof.Machine.execStoreRead a pipe cmd s
  | .storeScrub pipe nano line uncorrectable corrected => Sys2Proof.Machine.execStoreScrub pipe nano line uncorrectable corrected s
  | .storeRepair pipe nano line sourceOk => Sys2Proof.Machine.execStoreRepair pipe nano line sourceOk s
  | .parse frame more => Sys2Proof.Machine.execParse frame more s
  | .classify frame more upset corrected => Sys2Proof.Machine.execClassify frame more upset corrected s
  | .pgWrite a pipe cmd => Sys2Proof.Machine.execPgWrite a pipe cmd s
  | .pgRead a pipe cmd => Sys2Proof.Machine.execPgRead a pipe cmd s
  | .tblInsert a pipe cmd => Sys2Proof.Machine.execTblInsert a pipe cmd s
  | .tblDelete a pipe cmd => Sys2Proof.Machine.execTblDelete a pipe cmd s
  | .tblModify a pipe cmd => Sys2Proof.Machine.execTblModify a pipe cmd s
  | .tblRead a pipe cmd => Sys2Proof.Machine.execTblRead a pipe cmd s
  | .tblWrite a pipe cmd => Sys2Proof.Machine.execTblWrite a pipe cmd s
  | .tblClear a pipe cmd => Sys2Proof.Machine.execTblClear a pipe cmd s
  | .tableConfigWrite a pipe tern idx v => Sys2Proof.Machine.execTableConfigWrite a pipe tern idx v s
  | .flip a pipe v => Sys2Proof.Machine.execFlip a pipe v s
  | .fragEntryExpiry pipe => Sys2Proof.Machine.execFragEntryExpiry pipe s
  | .fragHoldRelease pipe => Sys2Proof.Machine.execFragHoldRelease pipe s
  | .fragTimeout pipe => Sys2Proof.Machine.execFragTimeout pipe s
  | .deckInstall pipe => Sys2Proof.Machine.execDeckInstall pipe s
  | .deckWriteback pipe bank => Sys2Proof.Machine.execDeckWriteback pipe bank s
  | .writebackAck pipe => Sys2Proof.Machine.execWritebackAck pipe s
  | .indexWriteAck => Sys2Proof.Machine.execIndexWriteAck s
  | .cruiseAgeVisit target => Sys2Proof.Machine.execCruiseAgeVisit target s
  | .dormantRefreshPass => Sys2Proof.Machine.execDormantRefreshPass s
  | .ftRead a cmd => Sys2Proof.Machine.execFtRead a cmd s
  | .ftWrite a cmd => Sys2Proof.Machine.execFtWrite a cmd s
  | .ftInsert a cmd => Sys2Proof.Machine.execFtInsert a cmd s
  | .ftFind a cmd => Sys2Proof.Machine.execFtFind a cmd s
  | .ftDelete a cmd => Sys2Proof.Machine.execFtDelete a cmd s
  | .pin a cmd => Sys2Proof.Machine.execPin a cmd s
  | .unpin a cmd => Sys2Proof.Machine.execUnpin a cmd s
  | .flush a cmd => Sys2Proof.Machine.execFlush a cmd s
  | .flushComplete => Sys2Proof.Machine.execFlushComplete s
  | .clearBad a cmd => Sys2Proof.Machine.execClearBad a cmd s
  | .ctrRead a pipe cmd => Sys2Proof.Machine.execCtrRead a pipe cmd s
  | .ctrWrite a pipe cmd sameCycleAdd => Sys2Proof.Machine.execCtrWrite a pipe cmd sameCycleAdd s
  | .clearBank a pipe cmd => Sys2Proof.Machine.execClearBank a pipe cmd s
  | .throttleRateWrite a profile v => Sys2Proof.Machine.execThrottleRateWrite a profile v s
  | .hbmRequest port addr write => Sys2Proof.Machine.execHbmRequest port addr write s
  | .hbmReadComplete c errs => Sys2Proof.Machine.execHbmReadComplete c errs s
  | .requestLate c => Sys2Proof.Machine.execRequestLate c s
  | .limitWindowEnd c => Sys2Proof.Machine.execLimitWindowEnd c s
  | .hbmRefresh c pc bank => Sys2Proof.Machine.execHbmRefresh c pc bank s
  | .hotReported c temp => Sys2Proof.Machine.execHotReported c temp s
  | .rowIdleClose c pc bank => Sys2Proof.Machine.execRowIdleClose c pc bank s
  | .correctiveWrite c => Sys2Proof.Machine.execCorrectiveWrite c s
  | .hbmScrubRead c errs => Sys2Proof.Machine.execHbmScrubRead c errs s
  | .recentreProbe c q lane write low high => Sys2Proof.Machine.execRecentreProbe c q lane write low high s
  | .delayChangeApply c => Sys2Proof.Machine.execDelayChangeApply c s
  | .hbmTrainingComplete c q lane write passes => Sys2Proof.Machine.execHbmTrainingComplete c q lane write passes s
  | .srEnter c => Sys2Proof.Machine.execSrEnter c s
  | .srCommit c => Sys2Proof.Machine.execSrCommit c s
  | .srExit a c v => Sys2Proof.Machine.execSrExit a c v s
  | .srExitComplete c probeOk => Sys2Proof.Machine.execSrExitComplete c probeOk s
  | .srIdleReenter c => Sys2Proof.Machine.execSrIdleReenter c s
  | .switchCoreAdmission frame => Sys2Proof.Machine.execSwitchCoreAdmission frame s
  | .reseqCellArrival stream seq => Sys2Proof.Machine.execReseqCellArrival stream seq s
  | .reseqTimeout stream => Sys2Proof.Machine.execReseqTimeout stream s
  | .planeFault plane => Sys2Proof.Machine.execPlaneFault plane s
  | .limitWrite a addr v => Sys2Proof.Machine.execLimitWrite a addr v s
  | .mcWrite a cmd => Sys2Proof.Machine.execMcWrite a cmd s
  | .mcRead a cmd => Sys2Proof.Machine.execMcRead a cmd s
  | .freeListCheck => Sys2Proof.Machine.execFreeListCheck s
  | .egressGrant pipe => Sys2Proof.Machine.execEgressGrant pipe s
  | .frameTransmitted port => Sys2Proof.Machine.execFrameTransmitted port s
  | .polWrite a pipe cmd => Sys2Proof.Machine.execPolWrite a pipe cmd s
  | .polRead a pipe cmd => Sys2Proof.Machine.execPolRead a pipe cmd s
  | .polClearCounters a pipe cmd => Sys2Proof.Machine.execPolClearCounters a pipe cmd s
  | .polResetLevels a pipe cmd => Sys2Proof.Machine.execPolResetLevels a pipe cmd s
  | .seqCfgWrite a out v => Sys2Proof.Machine.execSeqCfgWrite a out v s
  | .erWrite a cmd => Sys2Proof.Machine.execErWrite a cmd s
  | .erRead a cmd => Sys2Proof.Machine.execErRead a cmd s
  | .copyLaunch port => Sys2Proof.Machine.execCopyLaunch port s
  | .lateMaxExpiry frame => Sys2Proof.Machine.execLateMaxExpiry frame s
  | .withholdExpiry frame => Sys2Proof.Machine.execWithholdExpiry frame s
  | .outcomeMaxExpiry frame => Sys2Proof.Machine.execOutcomeMaxExpiry frame s
  | .epochClose => Sys2Proof.Machine.execEpochClose s
  | .epochRecordSigned firstOk secondOk => Sys2Proof.Machine.execEpochRecordSigned firstOk secondOk s
  | .exportFrameQueue => Sys2Proof.Machine.execExportFrameQueue s
  | .ackSeqWrite a hi => Sys2Proof.Machine.execAckSeqWrite a hi s
  | .rewindSeqWrite a hi => Sys2Proof.Machine.execRewindSeqWrite a hi s
  | .sealGo a => Sys2Proof.Machine.execSealGo a s
  | .sealVerifyComplete => Sys2Proof.Machine.execSealVerifyComplete s
  | .sealedFieldWrite a addr v => Sys2Proof.Machine.execSealedFieldWrite a addr v s
  | .tallyPowerOn => Sys2Proof.Machine.execTallyPowerOn s
  | .tallyFirmwareLoaded copy0 copy1 keyOk engine0Ok engine1Ok => Sys2Proof.Machine.execTallyFirmwareLoaded copy0 copy1 keyOk engine0Ok engine1Ok s
  | .rngHealthFail => Sys2Proof.Machine.execRngHealthFail s
  | .coreInstruction core upset onFetch => Sys2Proof.Machine.execCoreInstruction core upset onFetch s
  | .tdReady a thread lapse => Sys2Proof.Machine.execTdReady a thread lapse s
  | .tdCancel a thread => Sys2Proof.Machine.execTdCancel a thread s
  | .tdDelay a thread ticks lapse => Sys2Proof.Machine.execTdDelay a thread ticks lapse s
  | .tdNext core => Sys2Proof.Machine.execTdNext core s
  | .tdDone core ticks => Sys2Proof.Machine.execTdDone core ticks s
  | .tdCfgWrite a v => Sys2Proof.Machine.execTdCfgWrite a v s
  | .slotFill core => Sys2Proof.Machine.execSlotFill core s
  | .delayExpiry => Sys2Proof.Machine.execDelayExpiry s
  | .exceptionDelivery pipe => Sys2Proof.Machine.execExceptionDelivery pipe s
  | .ringConsWrite a ring v => Sys2Proof.Machine.execRingConsWrite a ring v s
  | .doorbell a v => Sys2Proof.Machine.execDoorbell a v s
  | .coreRunWrite a v => Sys2Proof.Machine.execCoreRunWrite a v s
  | .hostExceptionFrame pipe => Sys2Proof.Machine.execHostExceptionFrame pipe s
  | .skylineForward frame waiting => Sys2Proof.Machine.execSkylineForward frame waiting s
  | .skyRead r => Sys2Proof.Machine.execSkyRead r s
  | .skyWrite r => Sys2Proof.Machine.execSkyWrite r s
  | .skyMaskedWrite r => Sys2Proof.Machine.execSkyMaskedWrite r s
  | .skyBurstRead r => Sys2Proof.Machine.execSkyBurstRead r s
  | .skyBurstWrite r => Sys2Proof.Machine.execSkyBurstWrite r s
  | .skyWinRead r => Sys2Proof.Machine.execSkyWinRead r s
  | .skyWinWrite r => Sys2Proof.Machine.execSkyWinWrite r s
  | .skyPoll r => Sys2Proof.Machine.execSkyPoll r s
  | .skyEnum r => Sys2Proof.Machine.execSkyEnum r s
  | .retryDeadline => Sys2Proof.Machine.execRetryDeadline s
  | .skylineAccessComplete => Sys2Proof.Machine.execSkylineAccessComplete s
  | .skylineBypassExit => Sys2Proof.Machine.execSkylineBypassExit s
  | .evtStatusClear a page v same => Sys2Proof.Machine.execEvtStatusClear a page v same s
  | .evtInject a page v => Sys2Proof.Machine.execEvtInject a page v s
  | .evtClassWrite a page hi v => Sys2Proof.Machine.execEvtClassWrite a page hi v s
  | .logClear a => Sys2Proof.Machine.execLogClear a s
  | .logEntryWrite => Sys2Proof.Machine.execLogEntryWrite s
  | .snap a => Sys2Proof.Machine.execSnap a s
  | .periodicSnapshot => Sys2Proof.Machine.execPeriodicSnapshot s
  | .pcValueWrite a k hi => Sys2Proof.Machine.execPcValueWrite a k hi s
  | .pcClear a hi => Sys2Proof.Machine.execPcClear a hi s
  | .microwordSample pipe => Sys2Proof.Machine.execMicrowordSample pipe s
  | .instructionSample core => Sys2Proof.Machine.execInstructionSample core s
  | .sampleRecordWrite => Sys2Proof.Machine.execSampleRecordWrite s
  | .sampConsWrite a v => Sys2Proof.Machine.execSampConsWrite a v s
  | .resetRelease strap => Sys2Proof.Machine.execResetRelease strap s
  | .imageLoadComplete kind copy1 image readOk => Sys2Proof.Machine.execImageLoadComplete kind copy1 image readOk s
  | .imageReadTimeout kind copy1 => Sys2Proof.Machine.execImageReadTimeout kind copy1 s
  | .bootDataWrite a w v => Sys2Proof.Machine.execBootDataWrite a w v s
  | .bootSubmit a kind => Sys2Proof.Machine.execBootSubmit a kind s
  | .bootEnd a => Sys2Proof.Machine.execBootEnd a s
  | .provision a item => Sys2Proof.Machine.execProvision a item s
  | .commitField a => Sys2Proof.Machine.execCommitField a s
  | .revokeCust a item => Sys2Proof.Machine.execRevokeCust a item s
  | .enterReturn a => Sys2Proof.Machine.execEnterReturn a s
  | .vendorUnlock a => Sys2Proof.Machine.execVendorUnlock a s
  | .retire a => Sys2Proof.Machine.execRetire a s
  | .revokeVendor a item => Sys2Proof.Machine.execRevokeVendor a item s
  | .lcOperationComplete fuseOk => Sys2Proof.Machine.execLcOperationComplete fuseOk s
  | .modeReqReset a => Sys2Proof.Machine.execModeReqReset a s
  | .modeReqCalibrate a => Sys2Proof.Machine.execModeReqCalibrate a s
  | .modeReqLive a => Sys2Proof.Machine.execModeReqLive a s
  | .modeReqDrain a => Sys2Proof.Machine.execModeReqDrain a s
  | .modeReqDormant a force => Sys2Proof.Machine.execModeReqDormant a force s
  | .modeReqDiagnostic a => Sys2Proof.Machine.execModeReqDiagnostic a s
  | .calibrateComplete => Sys2Proof.Machine.execCalibrateComplete s
  | .dormantComplete => Sys2Proof.Machine.execDormantComplete s
  | .srEnterRetry c => Sys2Proof.Machine.execSrEnterRetry c s
  | .drainTimeout => Sys2Proof.Machine.execDrainTimeout s
  | .ageingMeasurement degs eyes => Sys2Proof.Machine.execAgeingMeasurement degs eyes s
  | .capturePathRecal lane delta => Sys2Proof.Machine.execCapturePathRecal lane delta s
  | .avsAck => Sys2Proof.Machine.execAvsAck s
  | .avsTimeout => Sys2Proof.Machine.execAvsTimeout s
  | .rstNAssert => Sys2Proof.Machine.execRstNAssert s
  | .underVoltage rail => Sys2Proof.Machine.execUnderVoltage rail s
  | .thermalTrip => Sys2Proof.Machine.execThermalTrip s
  | .refclkLoss input => Sys2Proof.Machine.execRefclkLoss input s
  | .softReset a page v => Sys2Proof.Machine.execSoftReset a page v s
  | .diePowerOn => Sys2Proof.Machine.execDiePowerOn s
  | .tallyRailLoss rail => Sys2Proof.Machine.execTallyRailLoss rail s
  | .refclkRestored input => Sys2Proof.Machine.execRefclkRestored input s
  | .hotCleared c temp => Sys2Proof.Machine.execHotCleared c temp s
  | .skylineLaneLock lane lock aligned => Sys2Proof.Machine.execSkylineLaneLock lane lock aligned s
  | .skylineLinkLoss lock => Sys2Proof.Machine.execSkylineLinkLoss lock s
  | .latchCalFail => Sys2Proof.Machine.execLatchCalFail s

end Sys2Proof.Machine
end

