-- ==== Sys2Proof/Safety.lean ====
section
/-! DEFINITION. What a safe run is, in the terms the claims use: a command that runs, the fuses' one-way growth (R549,
R550), and the invariant of the fuses. -/

namespace Sys2Proof

open Machine

/-- Command `c` completes in state `s`: a next state, the queue of waiting commands as it was, and `P` of that state. -/
def Runs (c : Instr) (s : State) (P : State → Prop) : Prop :=
  ∃ t, exec c s = .next t ∧ t.pending = s.pending ∧ P t

/-- Neither a fault nor a refusal. -/
def Safe (s : State) : Prop := ∃ t, step s = .next t

/-- The commands in whose course a fuse may be blown: a ply edge (R550, R541), and what cuts a lifecycle operation off
(R554). -/
def Instr.mayFuse : Instr → Bool
  | .plyEdge _ | .rstNAssert | .underVoltage _ | .thermalTrip | .diePowerOn => true
  | _ => false

/-- Fuses `g` can follow fuses `f`: none is restored (R540, R541, R549, R550), and what is fused at manufacture stays
(R3, R6). -/
def Grows (f g : FuseSt) : Prop :=
  g.sealCap = f.sealCap ∧ g.hbm = f.hbm ∧ g.longHaul = f.longHaul ∧ g.step = f.step ∧ g.uid = f.uid ∧
  g.vendorHash = f.vendorHash ∧ g.imageKey = f.imageKey ∧ g.level3Key = f.level3Key ∧ g.tallyKey = f.tallyKey ∧
  (f.committed = true → g.committed = true) ∧ (f.returned = true → g.returned = true) ∧
  (f.retired = true → g.retired = true) ∧
  (∀ k, f.custRevoked.testBit k = true → g.custRevoked.testBit k = true) ∧
  (∀ k, f.vendorRevoked.testBit k = true → g.vendorRevoked.testBit k = true) ∧
  (∀ i, i ∈ f.spent → i ∈ g.spent) ∧
  ∀ k, tget (fun _ => 0) f.svnMin k ≤ tget (fun _ => 0) g.svnMin k

/-- The legal fuses: a returned device holds no provisioned item (R552), revocations name the key slots there are (R540,
R551), and the minimums are in canonical form. -/
def FuseLegal (f : FuseSt) : Prop :=
  (f.returned = true → f.items = []) ∧ f.custRevoked < 2 ^ 2 ∧ f.vendorRevoked < 2 ^ 4 ∧ twf (fun _ => 0) f.svnMin = true

/-! Microwords. -/

/-- Engine `engine` of pipeline `pipe` issues the microword `w` of context `k`: its store words are whole, its nanoword
is of the region, its slots run without a fault and leave the context `d`, and its request slot is empty (R163, R169-R175,
R193). -/
def Issues (s : State) (pipe engine k : Nat) (w : Word) (d : Ctx) : Prop :=
  let c : Ctx := { getC s k with last := s.fl.stamp + 1 }
  let n := nanoAt s (ctxPipe k) (uNano w)
  nextReady s pipe engine = some k ∧ ctxPipe k = pipe ∧ w = microAt s pipe c.pc ∧
  s.fl.marks.contains (microKey pipe c.pc) = false ∧ nanoFault c.pc (uNano w) = false ∧
  (uNano w = 0 ∨ s.fl.marks.contains (nanoMark pipe (uNano w)) = false) ∧
  slots c (getF s c.frame) n = .ok d ∧ nb n 107 5 = 0

/-- Context `k` goes on at `pc` with the call stack `st` and everything else as `d` has it. -/
def GoesOn (s t : State) (k pc : Nat) (st : List Nat) (d : Ctx) : Prop :=
  (∃ o, getC t k = { d with pc := pc, stack := st, waitCycle := cycleNow s, waitPly := plyNat s, waitReply := false,
                            waitOthers := o }) ∧
  (∀ j, j ≠ k → getC t j = getC s j) ∧ t.frames = s.frames ∧ t.hbm = s.hbm ∧ t.tm = s.tm

/-! Cells. -/

/-- An account of a queue or a lossless class that there is (R326). -/
abbrev accountOk : Account → Prop
  | .queue p c => p < 256 ∧ c < 8
  | .lossless p _ => p < 256
  | _ => True

/-! Accesses to registers. -/

/-- A write of `v` at `addr` by agent `a` reaches its register: the word is aligned, its page answers, and the agent's
credential suffices (R444, R480, R484, R520). -/
abbrev Allowed (s : State) (a : Agent) (addr : Nat) (v : Word) : Prop :=
  addr % 4 = 0 ∧ pageGate s (addr / 0x1000) = .opened ∧
  (isCore a = true → coreStoreRefused s (addr / 0x1000) = false) ∧
  (isCore a = false → writeLevel addr v ≤ agentLevel a)

/-- A read at `addr` by agent `a` reaches its register. -/
abbrev Readable (s : State) (a : Agent) (addr : Nat) : Prop :=
  addr % 4 = 0 ∧ pageGate s (addr / 0x1000) = .opened ∧
  (isCore a = true → coreLoadRefused s (addr / 0x1000) = false) ∧
  (isCore a = false → mayRead (agentLevel a) addr = true)

/-- The registers above the common layout whose write is an operation of their block, by page type and offset. -/
def ownWrite (ty o : Nat) : Bool :=
  match ty with
  | 0x02 => o == R.MOD_MODE_REQ
  | 0x03 => o == R.LC_LC_CMD
  | 0x04 => o == R.BOOT_BOOT_CMD || o == R.BOOT_BOOT_ADDR || decide (R.BOOT_BOOT_DATA ≤ o)
  | 0x07 => o == R.FA_LOG_CTRL
  | 0x08 => o == R.CR_SNAP_CMD || o == R.CR_LIST_ENTRY || (pcLoOf o).isSome || (decide (4 ≤ o) && (pcLoOf (o - 4)).isSome) ||
      o == R.CR_PC_CLEAR || o == R.CR_PC_CLEAR + 4
  | 0x22 => o == R.FRM_FRAMER_CTRL
  | 0x32 => o == R.CLS_GEN_CTRL || o == R.CLS_TBL_CMD || decide (R.CLS_EM_CFG ≤ o ∧ o < R.CLS_EM_CFG + 0x20) ||
      decide (R.CLS_TERN_CFG ≤ o ∧ o < R.CLS_TERN_CFG + 0x20)
  | 0x50 => o == R.SC_POOL_MIRROR || o == R.SC_POOL_HOST || o == R.SC_WRED_SEED ||
      decide (R.SC_POOL_RECIRC ≤ o ∧ o < R.SC_POOL_RECIRC + 0x20)
  | 0x53 => isAccLimit o
  | 0x71 => o == R.TD_TD_CFG || o == R.TD_TD_OP
  | 0x16 => o == R.SEAL_SEAL_CMD
  | 0x17 => o == R.AUD_ACK_SEQ + 4 || o == R.AUD_REWIND_SEQ || o == R.AUD_REWIND_SEQ + 4
  | 0x20 => o == R.PG_PORT_MAP
  | 0x31 => o == R.PRS_PG_CMD
  | 0x34 => o == R.FS_STORE_CMD
  | 0x35 => o == R.DECK_CTR_CMD
  | 0x40 => o == R.HBM_SR_CTRL
  | 0x41 => o == R.FT_FT_CMD
  | 0x51 => o == R.MCM_MC_CMD
  | 0x58 => o == R.POL_POL_CMD
  | 0x60 => o == R.ARB_ER_CMD
  | 0x62 => decide (0x100 ≤ o) && (o - 0x100) % 0x400 == R.SEQ_SEQ_CFG
  | 0x70 => o == R.DSP_CORE_RUN || o == R.DSP_DOORBELL
  | 0x72 => decide (0x100 ≤ o ∧ o < 0x300 ∧ (o - 0x100) % 32 ≤ 8)
  | _ => false

/-! Skyline requests. -/

/-- A request addressed to the node that it executes: its CRC and AUTH check, it is fresh, it matches no kept request, and
none is in progress (R474, R482, R483, R485, R486). -/
abbrev SkyAccepts (s : State) (op : Nat) (r : SkyReq) : Prop :=
  s.sky.bypass = false ∧ addressed s = true ∧ r.bcast = false ∧ r.dest.toNat = nodeAddr s ∧ reqCrcGood op r = true ∧
  s.sky.prog = [] ∧ (∀ k ∈ s.sky.kept, k.level = r.level.val → sameReq r k.tag k.nonce = false) ∧
  match levelRule s r.level.val with
  | .refused => False
  | .noAuth => True
  | .keyed key => authOf key (nodeAddr s) r.level.val false r.nonce (reqHead op r) = r.auth.take 8 ∧
      lastNonce s r.level.val < r.nonce.toNat

/-- The state in which an accepted request's words are accessed: it is counted, its nonce recorded (R482, R494). -/
def skyTaken (s : State) (r : SkyReq) : State :=
  let u := bump s (pgSKY + R.SKY_REQUESTS)
  match levelRule s r.level.val with
  | .keyed _ => wr64 u (pgSKY + R.SKY_LAST_NONCE + 8 * r.level.val) r.nonce.toNat
  | _ => u

/-- State `t` has sent, beyond what `s` had sent, one reply to request `r`: result, DONE and data, with the AUTH that its
level asks for unless `auth` is false (R479, R482, R483). -/
def Replied (s t : State) (op : Nat) (r : SkyReq) (auth : Bool) (res : Res) (done : Nat) (data : List Word) : Prop :=
  ∃ st, st < 256 ∧ st / 64 = resCode res ∧
    let head := [0x61] ++ beBytes 1 (opLevel op r) ++ beBytes 1 (nodeAddr s) ++ beBytes 1 st ++ beBytes 2 r.tag.toNat ++
      beBytes 2 done ++ beBytes 8 r.nonce.toNat ++ wordsBytes data
    let tag := if r.level = 0 ∨ auth = false then [] else match levelRule s r.level.val with
      | .keyed k => authOf k (nodeAddr s) r.level.val true r.nonce head
      | _ => List.replicate 8 0
    t.out = s.out ++ [.skyline (head ++ tag ++ crcTail (head ++ tag) true)]

/-- A word outside the fault aggregator's page and outside the event registers: what an occurrence leaves alone. -/
abbrev plainWord (a : Nat) : Prop := a / 0x1000 ≠ 6 ∧ 0x40 ≤ a % 0x1000

end Sys2Proof
end

