-- ==== Sys2Proof/Certificates/Slice0/Obligations.lean ====
section
/-! DEFINITION. The statements for the provers, one per obligation of OBLIGATIONS.json. -/

open Sys2Proof Sys2Proof.Machine

/-- A step takes the command at the front of the queue and runs it on the rest. For every command c and state s with c
at the front of the queue of waiting commands, the step at s is exec of c at s with the rest of the queue; with an
empty queue the step lets one cycle of the core clock pass, the queue staying empty (the model's choice, log entry 4).
-/
def Obligations.StepRunsTheFrontCommand : Prop :=
  ∀ (s : State),
    (∀ (c : Instr) (rest : List Instr), s.pending = c :: rest → step s = exec c { s with pending := rest }) ∧
    (s.pending = [] → step s = .next (kept s (coreCycle s)))

/-- Every command, in every state, answers a next state and leaves the waiting commands alone. For every command and
every state, exec answers a next state whose queue of waiting commands is the one it found. No command faults or is
refused: what the device turns away is turned away by a reply, an event or a count in the next state. That an event
that cannot occur in a state changes nothing is the model's choice (log entry 5). -/
def Obligations.EveryCommandCompletes : Prop :=
  ∀ (c : Instr) (s : State), ∃ t, exec c s = .next t ∧ t.pending = s.pending

/-- The state after power-on. At State.reset the device is in mode RESET, the ply counter and the cycle are 0, every
register word of every page holds its Reset column, none is waiting to be taken over, nothing is written in flow
memory, no event is held, no frame is present and no command waits. That a register whose Reset column names no number
holds 0 is the model's choice (log entries 2 and 3). -/
def Obligations.ResetState : Prop :=
  State.reset.md.mode = .reset ∧ State.reset.tm.ply = 0 ∧ State.reset.tm.cycle = 0 ∧
  (∀ a, rawRd State.reset a = regReset a ∧ effRd State.reset a = regReset a) ∧ State.reset.hbm.mem = [] ∧
  Memory.wf State.reset.hbm.mem = true ∧ fatalHeld State.reset = false ∧ State.reset.frames = [] ∧
  State.reset.pending = []

/-- The fuses are legal after power-on. The fuse invariant of FusesStayLegal holds at State.reset. -/
def Obligations.FuseInvariantAtReset : Prop :=
  FuseLegal State.reset.fuse

/-- Every step keeps the fuses legal. For every state whose fuses are legal (a returned device holds no provisioned
item, the revocations name key slots that exist, the fused minimums are in canonical form), whatever command is at the
front of the queue or none, the fuses are legal after the step. -/
def Obligations.FusesStayLegal : Prop :=
  ∀ (s t : State), FuseLegal s.fuse → step s = .next t → FuseLegal t.fuse

/-- No step restores a fuse. In every state and whatever command is at the front of the queue, a step restores no
fuse: the lifecycle fuses FIELD, RETURN and RETIRED, the revocations of customer and vendor key slots, the spent items
and the fused minimums of security version numbers only grow, and what is fused at manufacture (the variant, the
stepping, the UID, the vendor and Tally keys) stays. -/
def Obligations.FusesOnlyGrow : Prop :=
  ∀ (s t : State), FuseLegal s.fuse → step s = .next t → Grows s.fuse t.fuse

/-- Only a ply edge and what cuts the supplies or the reset can change a fuse. Every command but PLY_EDGE,
RST_N_ASSERT, UNDER_VOLTAGE, THERMAL_TRIP and DIE_POWER_ON leaves every fuse as it was, in every state, and so does
the core cycle of a step with no command waiting. A lifecycle operation and a fused minimum take effect at the edge;
an operation cut off in its work may leave its fuse blown. -/
def Obligations.OnlyEdgesBlowFuses : Prop :=
  ∀ (s t : State), (∀ (c : Instr), c.mayFuse = false → exec c s = .next t → t.fuse = s.fuse) ∧
    (s.pending = [] → step s = .next t → t.fuse = s.fuse)

/-- A marker sets its lane latch to Tally Time and touches no other lane. ALIGNMENT_MARKER_LATCH and
FLEXO_MARKER_LATCH complete in every state: the latch of the lane holds Tally Time at the marker, a FlexO marker also
leaves the coded bits and the time since the marker before; every other lane, every port, and flow memory are
unchanged. -/
def Obligations.LatchesTakeMarkerTimes : Prop :=
  ∀ (s : State) (dt bits : Nat),
    (∀ l : Fin 258, Runs (.alignmentMarkerLatch l dt) s (fun t =>
      (getL t l).tam = ttNow s dt ∧ (∀ k, k ≠ l.val → getL t k = getL s k) ∧ t.ports = s.ports ∧ t.hbm = s.hbm)) ∧
    (∀ l : Fin 256, Runs (.flexoMarkerLatch l dt bits) s (fun t =>
      (getL t l).tam = ttNow s dt ∧ (getL t l).ratBits = bits ∧ (getL t l).ratTime = ttNow s dt - (getL s l).tam ∧
      (∀ k, k ≠ l.val → getL t k = getL s k) ∧ t.regs = s.regs ∧ t.ports = s.ports ∧ t.hbm = s.hbm))

/-- The link events of training and of UP_HOLD name the port next state. LINK_TRAINING_COMPLETE on a port in TRAINING
whose retry does not wait makes ALIGNING its next state; UP_HOLD_EXPIRY, once the hold has lasted UP_HOLD in ALIGNING
with the UP conditions holding, or in FAULT, makes it UP; REMOTE_FAULT_RECEIVED on a port that is UP makes it FAULT
and shows REMOTE_FAULT on a front-panel port; TRAIN_FAIL makes it TRAINING and sets the retry 1 ms (25,000 ply, log
entry 18) ahead; TRAIN_RETRY lets training go on. No other port and no byte of flow memory changes. -/
def Obligations.TrainingMovesThePort : Prop :=
  ∀ (s : State) (p : Fin 257),
    (linkCode s p = 1 → (getP s p).retryAt = none → Runs (.linkTrainingComplete p) s (fun t =>
      (getP t p).next = some .aligning ∧ (∀ q, q ≠ p.val → getP t q = getP s q) ∧ t.hbm = s.hbm)) ∧
    (∀ n, (getP s p).holdSince = some n → n + upHold s p ≤ plyNat s →
      ((linkCode s p = 2 ∧ upReady s p = true) ∨ linkCode s p = 4) → Runs (.upHoldExpiry p) s (fun t =>
        (getP t p).next = some .up ∧ t.regs = s.regs ∧ (∀ q, q ≠ p.val → getP t q = getP s q) ∧ t.hbm = s.hbm)) ∧
    (linkCode s p = 3 → Runs (.remoteFaultReceived p) s (fun t =>
      (getP t p).next = some .fault ∧ (p.val < 256 → fg t (portB p) F.PORT_PORT_STATUS_REMOTE_FAULT = 1) ∧
      (∀ q, q ≠ p.val → getP t q = getP s q) ∧ t.hbm = s.hbm)) ∧
    (∀ l : Fin 258, portOfLane s l = some p.val → (linkCode s p = 1 ∨ linkCode s p = 2) → Runs (.trainFail l) s (fun t =>
      (getP t p).next = some .training ∧ (getP t p).retryAt = some (plyNat s + 25000) ∧
      (∀ q, q ≠ p.val → getP t q = getP s q) ∧ t.hbm = s.hbm)) ∧
    (∀ n, (getP s p).retryAt = some n → n ≤ plyNat s → Runs (.trainRetry p) s (fun t =>
      (getP t p).retryAt = none ∧ t.regs = s.regs ∧ (∀ q, q ≠ p.val → getP t q = getP s q) ∧ t.hbm = s.hbm))

/-- LINK_LOSS records each cause on the lane or on the port. LINK_LOSS completes in every state and for every cause.
On lanes 0 to 255, lost signal or CDR lock leaves CDR_LOCK at 0 (and SIGNAL at 0 for lost signal), lost markers leave
AM_LOCK and DELAY_VALID at 0, and a high symbol error ratio leaves HIGH_SER at 1; on the two lanes of the host port
each of these makes TRAINING the port next state. A local fault sets LOCAL_FAULT of a front-panel port, and on the
host port makes TRAINING its next state. -/
def Obligations.LinkLossShowsItsCause : Prop :=
  ∀ (s : State) (p : Fin 257) (l : Fin 258),
    (l.val < 256 → p.val < 256 →
      Runs (.linkLoss p l .signal) s (fun t =>
        fg t (laneB l) F.LANE_LANE_STATUS_SIGNAL = 0 ∧ fg t (laneB l) F.LANE_LANE_STATUS_CDR_LOCK = 0 ∧ t.hbm = s.hbm) ∧
      Runs (.linkLoss p l .cdr) s (fun t => fg t (laneB l) F.LANE_LANE_STATUS_CDR_LOCK = 0 ∧ t.hbm = s.hbm) ∧
      Runs (.linkLoss p l .markers) s (fun t =>
        fg t (laneB l) F.LANE_LANE_STATUS_AM_LOCK = 0 ∧ fg t (laneB l) F.LANE_RX_DELAY_DELAY_VALID = 0 ∧ t.hbm = s.hbm) ∧
      Runs (.linkLoss p l .highSer) s (fun t => fg t (laneB l) F.LANE_LANE_STATUS_HIGH_SER = 1 ∧ t.hbm = s.hbm)) ∧
    (∀ c, c ≠ .localFault → 256 ≤ l.val → Runs (.linkLoss p l c) s (fun t =>
      (getP t p).next = some .training ∧ (∀ q, q ≠ p.val → getP t q = getP s q) ∧ t.hbm = s.hbm)) ∧
    (p.val < 256 → Runs (.linkLoss p l .localFault) s (fun t =>
      fg t (portB p) F.PORT_PORT_STATUS_LOCAL_FAULT = 1 ∧ t.hbm = s.hbm)) ∧
    (p.val = 256 → Runs (.linkLoss p l .localFault) s (fun t => (getP t p).next = some .training ∧ t.hbm = s.hbm))

/-- Marker lock shows the measured delays; an FEC window judges HIGH_SER. AM_LOCK_ACQUIRED on lanes 0 to 255 sets
AM_LOCK and DELAY_VALID and shows the two measured delays; on the host port lanes it shows them in the delay registers
of page 0x009. SER_WINDOW_END leaves HIGH_SER at 1 exactly when the symbol errors of the window exceed SER_THRESH. -/
def Obligations.LaneMeasuresAreShown : Prop :=
  ∀ (s : State),
    (∀ (l : Fin 258) (rx tx : BitVec 24), l.val < 256 → Runs (.amLockAcquired l rx tx) s (fun t =>
      fg t (laneB l) F.LANE_LANE_STATUS_AM_LOCK = 1 ∧ fg t (laneB l) F.LANE_RX_DELAY_RX_PMA_DELAY = rx.toNat ∧
      fg t (laneB l) F.LANE_TX_DELAY_TX_PMA_DELAY = tx.toNat ∧ fg t (laneB l) F.LANE_RX_DELAY_DELAY_VALID = 1 ∧
      t.hbm = s.hbm)) ∧
    (∀ (l : Fin 258) (rx tx : BitVec 24), 256 ≤ l.val → Runs (.amLockAcquired l rx tx) s (fun t =>
      fg t pgHP F.HP_HP_RX_DELAY_RX_PMA_DELAY = rx.toNat ∧ fg t pgHP F.HP_HP_TX_DELAY_TX_PMA_DELAY = tx.toNat ∧
      t.hbm = s.hbm)) ∧
    (∀ (l : Fin 258) (e c u : Nat), l.val < 256 → Runs (.serWindowEnd l e c u) s (fun t =>
      fg t (laneB l) F.LANE_LANE_STATUS_HIGH_SER =
        (if fg s (laneB l) F.LANE_SER_CTRL_SER_THRESH < e then 1 else 0) ∧ t.hbm = s.hbm))

/-- A frame that passes intake gets a record with its bytes and its capture. FRAME_CAPTURE on a lane of an UP port, in
LIVE or DIAGNOSTIC, where no block of its receive path is idled and, on a front-panel port, the FIFO has room, and
INJECT_EN is 0 on the host port, makes the next frame record: live, with the bytes that came, the port and pipeline,
and the arrival time corrected to the demarcation point. Frames recorded before keep their records. -/
def Obligations.CaptureMakesAFrameRecord : Prop :=
  ∀ (s : State) (p : Fin 257) (l : Fin 258) (bits : Nat) (head : List Byte) (full : Bool),
    isUp s p = true → l.val ∈ portLanes s p → (s.md.mode = .live ∨ s.md.mode = .diagnostic) → rxIdled s p = false →
    (p.val < 256 → full = false) → (p.val = 256 → fgb s pgHP F.HP_HP_CTRL_INJECT_EN = false) →
    Runs (.frameCapture p l bits head full) s (fun t =>
      t.nextFrame = s.nextFrame + 1 ∧ (getF t s.nextFrame).live = true ∧ (getF t s.nextFrame).bytes = head ∧
      (getF t s.nextFrame).port = p.val ∧ (getF t s.nextFrame).pipe = pipeOf p ∧
      (getF t s.nextFrame).cap = captureNow s p l bits ∧
      (∀ k, k ≠ s.nextFrame → getF t k = getF s k) ∧ t.regs = s.regs ∧ t.hbm = s.hbm)

/-- A slot passes the head of a waiting frame on; a frame end closes its record. INGRESS_SLOT_GRANT, with a slot of
the ply left and no frame of an internal port waiting, passes the first waiting front-panel frame to parse and uses
one slot. FRAME_END of a live front-panel frame that still waits in the FIFO, is no MAC control frame and passes the
checks of the MAC appends the last bytes and marks the record ended and good. -/
def Obligations.FrameEndsAndSlots : Prop :=
  ∀ (s : State),
    (∀ (pipe : Fin 8) (id : Nat), slotsUsed s pipe < 128 →
      (framesWhere s (fun _ f => f.pipe == pipe.val && waitsSlot f)).find? (fun k => decide (256 ≤ (getF s k).port)) = none →
      (framesWhere s (fun _ f => f.pipe == pipe.val && waitsSlot f)).find? (fun k => decide ((getF s k).port < 256)) = some id →
      (getF s id).injected = false → Runs (.ingressSlotGrant pipe) s (fun t =>
        (getF t id).stage = .parse ∧ slotsUsed t pipe = slotsUsed s pipe + 1 ∧
        (∀ k, k ≠ id → getF t k = getF s k) ∧ t.regs = s.regs ∧ t.hbm = s.hbm)) ∧
    (∀ (id : Nat) (rest : List Byte), (getF s id).live = true → (getF s id).ended = false → (getF s id).isCopy = false →
      (getF s id).isMirror = false → (getF s id).stage = .fifo → (getF s id).port < 256 → (getF s id).injected = false →
      (getF s id).cutAt = 0 → etherOf ((getF s id).bytes ++ rest) ≠ some 0x8808 →
      64 ≤ ((getF s id).bytes ++ rest).length → ((getF s id).bytes ++ rest).length ≤ maxFrame s (getF s id).port →
      fcsOk ((getF s id).bytes ++ rest) = true → Runs (.frameEnd id rest) s (fun t =>
        (getF t id).ended = true ∧ (getF t id).fcsGood = true ∧ (getF t id).bytes = (getF s id).bytes ++ rest ∧
        (getF t id).live = true ∧ t.hbm = s.hbm))

/-- PFC frames load, hold and expire the pauses of a port. PFC_FRAME_RECEIVED of a good frame on an UP port leaves,
for every priority that the frame and PFC_RX_EN enable, a load of this ply with its quanta; a frame with a bad FCS
changes nothing. PFC_PAUSE_HOLD takes the loads two ply old away and leaves the younger ones. PFC_PAUSE_EXPIRY of a
pause that has ended, with no load of the ply before it, ends it. -/
def Obligations.PfcLoadsAndHolds : Prop :=
  ∀ (s : State) (p : Fin 256),
    (∀ (en : Byte) (q : List (BitVec 16)), isUp s p = true → Runs (.pfcFrameReceived p en q true) s (fun t =>
      (∀ i, i < 8 → en.getLsbD i = true → (fg s (portB p) F.PORT_PORT_CTRL_PFC_RX_EN).testBit i = true →
        ⟨i, (q.getD i 0).toNat, plyNat s⟩ ∈ (getP t p).loads) ∧
      (∀ k, k ≠ p.val → getP t k = getP s k) ∧ t.hbm = s.hbm)) ∧
    (∀ (en : Byte) (q : List (BitVec 16)), Runs (.pfcFrameReceived p en q false) s (fun t => t = s)) ∧
    ((∃ x ∈ (getP s p).loads, x.ply + 2 ≤ plyNat s) → Runs (.pfcPauseHold p) s (fun t =>
      (getP t p).loads = (getP s p).loads.filter (fun x => decide (plyNat s < x.ply + 2)) ∧
      (∀ k, k ≠ p.val → getP t k = getP s k) ∧ t.hbm = s.hbm)) ∧
    (∀ i : Fin 8, tget (fun _ => 0) (getP s p).pauseEnd i ≠ 0 → tget (fun _ => 0) (getP s p).pauseEnd i ≤ plyNat s →
      (∀ x ∈ (getP s p).loads, x.prio = i.val → x.ply + 1 ≠ tget (fun _ => 0) (getP s p).pauseEnd i) →
      Runs (.pfcPauseExpiry p i) s (fun t =>
        tget (fun _ => 0) (getP t p).pauseEnd i = 0 ∧ (∀ k, k ≠ p.val → getP t k = getP s k) ∧ t.hbm = s.hbm))

/-- PFC frames leave on XOFF changes and refreshes; the watchdog marks a storm. PFC_FRAME_SEND with a change waiting
on an UP port sends one PFC frame of the class priority with the waiting quanta, and no longer has it waiting.
PFC_REFRESH, while XOFF holds on an enabled priority of an UP port and the interval has passed, sends one with
TX_QUANTA. PFC_WATCHDOG_EXPIRY of a class paused longer than PFC_WD sets PFC_STORM, and with WD_DROP marks the class.
-/
def Obligations.PfcFramesAreSent : Prop :=
  ∀ (s : State) (p : Fin 256),
    (∀ (b : Bool) (q : Nat), (if b then (getP s p).pfcB else (getP s p).pfcA) = some q → isUp s p = true →
      Runs (.pfcFrameSend p b) s (fun t =>
        t.out = s.out ++ [.pfc p (pfcPrio s p b) q] ∧ (if b then (getP t p).pfcB else (getP t p).pfcA) = none ∧
        t.hbm = s.hbm)) ∧
    (∀ b : Bool, fgb s (accB p) (if b then F.ACC_LL_STATUS_XOFF_B else F.ACC_LL_STATUS_XOFF_A) = true →
      fgb s (portB p) (if b then F.PORT_PFC_CTRL_PRIO_B_EN else F.PORT_PFC_CTRL_PRIO_A_EN) = true → isUp s p = true →
      (if b then (getP s p).pfcLastB else (getP s p).pfcLastA) + pfcInterval s p ≤ plyNat s →
      Runs (.pfcRefresh p b) s (fun t =>
        t.out = s.out ++ [.pfc p (pfcPrio s p b) (fg s (portB p) F.PORT_PFC_TIMING_TX_QUANTA)] ∧ t.hbm = s.hbm)) ∧
    (∀ c : Fin 8, fg s (portB p) F.PORT_LINK_TIMING_PFC_WD ≠ 0 → tget (fun _ => 0) (getP s p).pausedAt c ≠ 0 →
      tget (fun _ => 0) (getP s p).pausedAt c + 25 * fg s (portB p) F.PORT_LINK_TIMING_PFC_WD ≤ plyNat s →
      Runs (.pfcWatchdogExpiry p c) s (fun t =>
        fg t (portB p) F.PORT_PORT_STATUS_PFC_STORM = 1 ∧
        (fgb s (portB p) F.PORT_PFC_CTRL_WD_DROP = true → (getP t p).wdDrop.testBit c = true) ∧ t.hbm = s.hbm))

/-- A framer searches, checks and loses frame as the alignment rules say. FLEXO_PATTERN_SIGHTING on an instance out of
frame with no candidate opens up to four candidates at the positions seen. FLEXO_FRAME_CHECK in frame counts a check
with more than AM_TOL errors as failed and clears the count on a good one. OOF_DECLARE after five failed checks takes
the instance out of frame. -/
def Obligations.FramersSearchAndCheck : Prop :=
  ∀ (s : State) (f : Fin 16) (i : Fin 8),
    (∀ m : List (Nat × Byte), (getInst s f i).pos = 0 → (getInst s f i).cands = [] →
      Runs (.flexoPatternSighting f i m) s (fun t =>
        (getInst t f i).cands = (m.map (fun y => ({ pos := y.1, marks := [y.2] } : Candidate))).take 4 ∧
        (getInst t f i).pos = 0 ∧ t.hbm = s.hbm)) ∧
    (∀ (e : Nat) (mf : Byte), (getInst s f i).pos ≠ 0 → Runs (.flexoFrameCheck f i e mf) s (fun t =>
      (getInst t f i).fails = (if e ≤ fg s (frmB f) F.FRM_ALIGN_CTRL_AM_TOL then 0 else (getInst s f i).fails + 1) ∧
      (getInst t f i).mf = mf ∧ (getInst t f i).pos = (getInst s f i).pos ∧ t.regs = s.regs ∧ t.hbm = s.hbm)) ∧
    ((getInst s f i).pos ≠ 0 → 5 ≤ (getInst s f i).fails → Runs (.oofDeclare f i) s (fun t =>
      (getInst t f i).pos = 0 ∧ (getInst t f i).fails = 0 ∧ t.hbm = s.hbm))

/-- Detectors set and clear their raw bits; a TTI cycle and a DEG second are counted. DEFECT_DECLARE and DEFECT_CLEAR
set and clear the bit of their defect in DEFECTS_RAW and leave every other bit. DEG_SECOND_END counts a bad second
when the errors exceed DEG_THR and a good one otherwise, ending the run of the other kind. TTI_CYCLE keeps the
received trace and counts its repetitions up to three. The claims on DEFECTS_RAW hold for the fifteen defects there
are. -/
def Obligations.FramerDefectsAndTraces : Prop :=
  ∀ (s : State) (f : Fin 16),
    (∀ d : Fin 16, d.val < 15 →
      Runs (.defectDeclare f d) s (fun t => ∀ k, (fg t (frmB f) F.FRM_DEFECTS_RAW_RAW).testBit k =
        (decide (k = d.val) || (fg s (frmB f) F.FRM_DEFECTS_RAW_RAW).testBit k)) ∧
      Runs (.defectClear f d) s (fun t => ∀ k, (fg t (frmB f) F.FRM_DEFECTS_RAW_RAW).testBit k =
        (!decide (k = d.val) && (fg s (frmB f) F.FRM_DEFECTS_RAW_RAW).testBit k))) ∧
    (∀ (pm : Bool) (e : Nat), Runs (.degSecondEnd f pm e) s (fun t =>
      let x := if pm then (getFr s f).pm else (getFr s f).sm
      let y := if pm then (getFr t f).pm else (getFr t f).sm
      let bad := fg s (frmB f) F.FRM_DEG_CTRL_DEG_THR < e
      y.bad = (if bad then x.bad + 1 else 0) ∧ y.good = (if bad then 0 else x.good + 1) ∧ t.hbm = s.hbm)) ∧
    (∀ (pm : Bool) (rx : List Byte), Runs (.ttiCycle f pm rx) s (fun t =>
      let x := if pm then (getFr s f).pm else (getFr s f).sm
      let y := if pm then (getFr t f).pm else (getFr t f).sm
      y.last = rx ∧ y.same = min 3 (if x.last = rx then x.same + 1 else 1) ∧ t.hbm = s.hbm))

/-- Port enables, port maps and framer controls are staged or refused as their checks say. PORT_ENABLE_WRITE that
reaches its register leaves the written enable there, for the link state of the next edge. PORT_MAP_WRITE stages a map
that keeps the map rules against the map in force and the framers, and otherwise replies ERROR, sets MAP_REJECT with
its event and keeps the map. FRAMER_CTRL_WRITE while the Tally is not SEALED takes a word with N of 1 to 8 that
changes neither enable, N nor lane mode, or that changes them with the old or the new ENABLE at 0 on lanes no port
maps (or disables); with another N it replies ERROR and sets CFG_REJECT. Each takes effect at the next edge: the words
in force stay. -/
def Obligations.PortConfigurationWrites : Prop :=
  ∀ (s : State) (a : Agent) (v : Word),
    (∀ p : Fin 257, let b := if p.val = 256 then pgHP + R.HP_HP_CTRL else portB p + R.PORT_PORT_CTRL
      Allowed s a b v → Runs (.portEnableWrite a p v) s (fun t => t.reply = ⟨.ok, 0⟩ ∧ linkEnabled t p = v.getLsbD 0 ∧
        (∀ x, x ≠ b → rawRd t x = rawRd s x) ∧ t.eff = s.eff ∧ t.ports = s.ports ∧ t.hbm = s.hbm)) ∧
    (∀ g : Fin 32, Allowed s a (mapAddr g) v → Runs (.portMapWrite a g v) s (fun t => t.eff = s.eff ∧ t.hbm = s.hbm ∧
      if mapAllowed s g (effRd s (mapAddr g)) (v &&& 0x03FFFFFF) (framerWord s (g / 2)) then
        t.reply = ⟨.ok, 0⟩ ∧ rawRd t (mapAddr g) = v &&& 0x03FFFFFF ∧ ∀ x, x ≠ mapAddr g → rawRd t x = rawRd s x
      else t.reply = ⟨.error, 0⟩ ∧ rawRd t (mapAddr g) = rawRd s (mapAddr g) ∧
        fg t (pb (0x020 + g)) F.PG_MAP_STATUS_MAP_REJECT = 1 ∧ evStatus t (0x020 + g) 16 = true)) ∧
    (∀ f : Fin 16, let w := v &&& 0x7FF
      let n := 1 ≤ bitsOf w 1 4 ∧ bitsOf w 1 4 ≤ 8
      let old := framerWord s f
      Allowed s a (frmB f + R.FRM_FRAMER_CTRL) v → s.sl.isSealed = false →
      (n → (bitsOf w 0 6 = bitsOf old 0 6 ∨ ((bitsOf old 0 1 = 0 ∨ bitsOf w 0 1 = 0) ∧ (bitsOf w 0 1 = 0 ∨
          mapMask (rawRd s (mapAddr (2 * f))) &&& ownedMask s (2 * f) (w ||| 1) = 0))) →
        Runs (.framerCtrlWrite a f v) s (fun t => t.reply = ⟨.ok, 0⟩ ∧
          framerWord t f = (if bitsOf w 9 1 = 1 then w ||| 0x40 else w) ∧
          (∀ x, x ≠ frmB f + R.FRM_FRAMER_CTRL → rawRd t x = rawRd s x) ∧ t.eff = s.eff ∧ t.hbm = s.hbm)) ∧
      (¬ n → Runs (.framerCtrlWrite a f v) s (fun t => t.reply = ⟨.error, 0⟩ ∧ framerWord t f = framerWord s f ∧
        fg t (frmB f) F.FRM_CFG_STATUS_CFG_REJECT = 1 ∧ evStatus t (0x140 + f) 16 = true ∧ t.eff = s.eff ∧ t.hbm = s.hbm)))

/-- A page absent in the variant reads 0 and ignores writes; the reply is OK. Where the fuses leave the unit of an
allocated page out, a register write of the page by an agent whose level suffices, and a read, complete with no effect
but the reply, which is OK and for a read 0: REGISTER_WRITE, and the reading commands COUNTER_LOW_READ and
RC_FIELD_READ, at every aligned address of the page. Formalises R9. -/
def Obligations.AbsentPagesIgnoreAccesses : Prop :=
  ∀ (s : State) (a : Agent) (addr : Nat) (pi : PageInfo), addr % 4 = 0 → pageInfo (addr / 0x1000) = some pi →
    presentIn s pi.absentIn = false →
    (∀ v, (isCore a = false → writeLevel addr v ≤ agentLevel a) →
      Runs (.registerWrite a addr v) s (fun t => t = { s with reply := ⟨.ok, 0⟩ })) ∧
    Runs (.counterLowRead a addr) s (fun t => t = { s with reply := ⟨.ok, 0⟩ }) ∧
    (∀ hw, Runs (.rcFieldRead a addr hw) s (fun t => t = { s with reply := ⟨.ok, 0⟩ }))

/-- A page that no variant allocates reads 0 and ignores writes; the reply is ERROR. At an aligned address of a page
index that no variant allocates, a write by an agent whose level suffices, and a read, complete with no effect but the
reply ERROR, with data 0. Formalises R10. -/
def Obligations.UnallocatedPagesReplyError : Prop :=
  ∀ (s : State) (a : Agent) (addr : Nat), addr % 4 = 0 → pageInfo (addr / 0x1000) = none →
    (∀ v, (isCore a = false → writeLevel addr v ≤ agentLevel a) →
      Runs (.registerWrite a addr v) s (fun t => t = { s with reply := ⟨.error, 0⟩ })) ∧
    Runs (.counterLowRead a addr) s (fun t => t = { s with reply := ⟨.error, 0⟩ }) ∧
    (∀ hw, Runs (.rcFieldRead a addr hw) s (fun t => t = { s with reply := ⟨.error, 0⟩ }))

/-- An access that a page or a level refuses leaves the register file alone. A Skyline write below the level of its
register replies DENIED and counts in DENIED of page 0x008 unless that page's counters are frozen; a core's store to a
page closed to it replies DENIED and raises REG_DENIED; an access to a block held in mode RESET replies RETRY and
changes nothing else; a misaligned address replies ERROR. The refused write leaves every word outside the fault page,
the event registers and the counter DENIED, and the whole of flow memory, as they were. -/
def Obligations.RefusedAccesses : Prop :=
  ∀ (s : State) (a : Agent) (addr : Nat) (v : Word),
    (isCore a = false → agentLevel a < writeLevel addr v → Runs (.registerWrite a addr v) s (fun t =>
      t.reply = ⟨.denied, 0⟩ ∧ t.hbm = s.hbm ∧ t.fuse = s.fuse ∧
      (frozen s 0x008 = false → rd64 t (pb 0x008 + R.SKY_DENIED) = (rd64 s (pb 0x008 + R.SKY_DENIED) + 1) % 2 ^ 64) ∧
      ∀ x, plainWord x → x ≠ pb 0x008 + R.SKY_DENIED → x ≠ pb 0x008 + R.SKY_DENIED + 4 →
        x ≠ pgMOD + R.MOD_MODE_STATUS → rawRd t x = rawRd s x)) ∧
    (addr % 4 = 0 → isCore a = true → pageGate s (addr / 0x1000) = .opened → coreStoreRefused s (addr / 0x1000) = true →
      Runs (.registerWrite a addr v) s (fun t => t.reply = ⟨.denied, 0⟩ ∧ evStatus t 0x3E0 4 = true ∧ t.hbm = s.hbm ∧
        ∀ x, plainWord x → rawRd t x = rawRd s x)) ∧
    ((isCore a = false → writeLevel addr v ≤ agentLevel a) →
      (addr % 4 = 0 → pageGate s (addr / 0x1000) = .held →
        Runs (.registerWrite a addr v) s (fun t => t = { s with reply := ⟨.retry, 0⟩ })) ∧
      (addr % 4 ≠ 0 → Runs (.registerWrite a addr v) s (fun t => t = { s with reply := ⟨.error, 0⟩ })))

/-- A write to a register without an operation of its own merges the written word into it and changes nothing else.
Where a write reaches its register, the register is above the common layout and has no operation of its own, and no
sealed bit of it would change while the Tally is SEALED, REGISTER_WRITE leaves in it the old and the written word
merged field by field, replies OK, and leaves everything else as it was; the word in force changes at an edge alone.
-/
def Obligations.OrdinaryWritesMerge : Prop :=
  ∀ (s : State) (a : Agent) (addr : Nat) (v : Word) (pi : PageInfo),
    let w := mergeWord (fieldsAt pi.type (addr % 0x1000)) (rawRd s addr) v
    Allowed s a addr v → pageInfo (addr / 0x1000) = some pi → 0x40 ≤ addr % 0x1000 → ownWrite pi.type (addr % 0x1000) = false →
    (s.sl.isSealed = true → (rawRd s addr).toNat &&& sealedMask s addr = w.toNat &&& sealedMask s addr) →
    Runs (.registerWrite a addr v) s (fun t =>
      t = { rawWr s addr w with reply := ⟨.ok, 0⟩ } ∧ rawRd t addr = w ∧ (∀ x, x ≠ addr → rawRd t x = rawRd s x))

/-- A written word acts on each field by its access code. For fields that lie within the word and do not overlap, a
bit of an RW field takes the written bit, a bit of a W1C field is cleared by a written 1, a bit of a W1S field is set
by a written 1, a bit of an RO, RC or WO field and of no field keeps its value. The fields of every register of every
page type lie so. -/
def Obligations.MergeFollowsTheAccessCodes : Prop :=
  (∀ (fs : List FieldSpec) (old v : Word), fs.Pairwise (fun f g => f.lo + f.width ≤ g.lo ∨ g.lo + g.width ≤ f.lo) →
    (∀ f ∈ fs, f.lo + f.width ≤ 32) →
    (∀ f ∈ fs, ∀ k, f.lo ≤ k → k < f.lo + f.width → (mergeWord fs old v).getLsbD k =
      match f.acc with
      | .rw | .rwS => v.getLsbD k
      | .w1c => old.getLsbD k && !v.getLsbD k
      | .w1s => old.getLsbD k || v.getLsbD k
      | .ro | .cnt | .rc | .wo => old.getLsbD k) ∧
    ∀ k, (∀ f ∈ fs, k < f.lo ∨ f.lo + f.width ≤ k) → (mergeWord fs old v).getLsbD k = old.getLsbD k) ∧
  ∀ (ty o : Nat), (fieldsAt ty o).Pairwise (fun f g => f.lo + f.width ≤ g.lo ∨ g.lo + g.width ≤ f.lo) ∧
    ∀ f ∈ fieldsAt ty o, f.lo + f.width ≤ 32

/-- A low word latches its high word for the reader alone; an RC field clears; TT_NS latches the rest.
COUNTER_LOW_READ of the low word of a 64-bit counter answers it and latches the high word for the reading agent, and a
read of the high word answers that agent's latch; the latches of other agents and of other counters keep their values.
RC_FIELD_READ of an ordinary register by a core or at level 1 or above answers its word and clears its RC fields, but
for what the hardware writes there in the same cycle; at level 0 nothing is cleared. TT_NS_READ answers the
nanoseconds of Tally Time and latches fraction and seconds. No read changes another register or flow memory. -/
def Obligations.ReadsLatchAndClear : Prop :=
  ∀ (s : State) (a : Agent),
    (∀ (addr v : Nat), Readable s a addr → low64 s addr = some v →
      Runs (.counterLowRead a addr) s (fun t =>
        t = { setLatch s a addr (half v true) with reply := ⟨.ok, half v false⟩ } ∧ getLatch t a addr = half v true ∧
        (∀ b x, agentIx b ≠ agentIx a ∨ x ≠ addr → x < 2 ^ 24 → addr < 2 ^ 24 → getLatch t b x = getLatch s b x) ∧
        (∀ x, rawRd t x = rawRd s x) ∧ t.hbm = s.hbm)) ∧
    (∀ (addr v : Nat) (hw : Option Word), Readable s a (addr + 4) → low64 s addr = some v →
      Runs (.rcFieldRead a (addr + 4) hw) s (fun t => t = { s with reply := ⟨.ok, getLatch s a addr⟩ })) ∧
    (∀ (addr : Nat) (hw : Option Word) (pi : PageInfo), Readable s a addr → pageInfo (addr / 0x1000) = some pi →
      0x40 ≤ addr % 0x1000 → low64 s addr = none → low64 s (addr - 4) = none → pi.type ≠ 0x10 →
      Runs (.rcFieldRead a addr hw) s (fun t =>
        t.reply = ⟨.ok, showWord s (agentLevel a) pi (addr / 0x1000) (addr % 0x1000)⟩ ∧
        (∀ k, k < 32 → (rawRd t addr).getLsbD k =
          if (isCore a || agentLevel a != 0) && (fieldMask (fieldsAt pi.type (addr % 0x1000)) (fun c => c == .rc)).testBit k then
            (hw.getD 0).getLsbD k
          else (rawRd s addr).getLsbD k) ∧
        (∀ x, x ≠ addr → rawRd t x = rawRd s x) ∧ t.hbm = s.hbm)) ∧
    (∀ dt : Nat, Readable s a (pgTT + R.TT_TT_NS) → Runs (.ttNsRead a dt) s (fun t =>
      t.reply = ⟨.ok, BitVec.ofNat 32 (ttNow s dt % sec256 / 256)⟩ ∧
      getLatch t a (pgTT + R.TT_TT_FRAC) = BitVec.ofNat 32 (ttNow s dt % 256) ∧
      getLatch t a (pgTT + R.TT_TT_SEC_LO) = BitVec.ofNat 32 (ttNow s dt / sec256) ∧
      getLatch t a (pgTT + R.TT_TT_SEC_HI) = BitVec.ofNat 32 (ttNow s dt / sec256 / 2 ^ 32 % 2 ^ 16) ∧
      (∀ x, rawRd t x = rawRd s x) ∧ t.hbm = s.hbm))

/-- SOFT_RESET, the acknowledgement, injection and classes of events. SOFT_RESET in DIAGNOSTIC on a page with CTRL_CAP
is taken: its reset is due at the edge, ENABLE and FREEZE_COUNTERS take the written bits, and no other word changes;
elsewhere it replies ERROR and changes nothing. EVT_STATUS_CLEAR clears each written bit that is a pulse event or a
level event whose cause has gone, with its held class; it leaves a level event whose cause holds, its held class, and
every bit not written; an event that occurs in the same cycle reads 1 after. EVT_INJECT sets each written event.
EVT_CLASS_WRITE writes the classes, those of FATAL default keeping 3, and replies DENIED on a Tally page while the
Tally is SEALED. -/
def Obligations.PageControlsAndEvents : Prop :=
  ∀ (s : State) (a : Agent) (page : Nat) (v : Word),
    (Allowed s a (pb page + oPAGE_CTRL) (v ||| 2) → ctrlCap (pageType page) = true → s.md.mode = .diagnostic →
      Runs (.softReset a page v) s (fun t =>
        t.reply = ⟨.ok, 0⟩ ∧ page ∈ t.md.softReset ∧
        rawRd t (pb page + oPAGE_CTRL) = BitVec.ofNat 32 (bitsOf v 0 1 + 4 * bitsOf v 2 1) ∧
        (∀ x, x ≠ pb page + oPAGE_CTRL → rawRd t x = rawRd s x) ∧ t.hbm = s.hbm)) ∧
    (Allowed s a (pb page + oPAGE_CTRL) (v ||| 2) → (ctrlCap (pageType page) = false ∨ s.md.mode ≠ .diagnostic) →
      Runs (.softReset a page v) s (fun t => t = { s with reply := ⟨.error, 0⟩ })) ∧
    (Allowed s a (pb page + oEVT_STATUS) v →
      Runs (.evtStatusClear a page v 0) s (fun t => t.reply = ⟨.ok, 0⟩ ∧ t.hbm = s.hbm ∧ ∀ b, b < eventCount page →
        (v.getLsbD b = true → (rawRd s (pb page + oEVT_CAUSE)).getLsbD b = false →
          evStatus t page b = false ∧ (evStatus s page b = true → heldClass t page b = 0)) ∧
        ((v.getLsbD b = false ∨ (rawRd s (pb page + oEVT_CAUSE)).getLsbD b = true) →
          evStatus t page b = evStatus s page b ∧ heldClass t page b = heldClass s page b)) ∧
      ∀ same, Runs (.evtStatusClear a page v same) s (fun t => t.reply = ⟨.ok, 0⟩ ∧ t.hbm = s.hbm ∧
        ∀ b, b < eventCount page → same.getLsbD b = true → evStatus t page b = true)) ∧
    (Allowed s a (pb page + oEVT_INJECT) v → (isCore a = false → 2 ≤ agentLevel a) →
      (isCore a = true → fgb s pgFA F.FA_FA_CTRL_CORE_INJECT = true) → (tallyPage page && s.sl.isSealed) = false →
      Runs (.evtInject a page v) s (fun t => t.reply = ⟨.ok, 0⟩ ∧ t.hbm = s.hbm ∧ t.frames = s.frames ∧ t.ev = s.ev ∧
        t.tm = s.tm ∧ ∀ b, b < eventCount page → v.getLsbD b = true → evStatus t page b = true)) ∧
    (∀ hi : Bool, Allowed s a (pb page + (if hi then oEVT_CLASS_HI else oEVT_CLASS)) v →
      ((tallyPage page && s.sl.isSealed) = false → Runs (.evtClassWrite a page hi v) s (fun t =>
        t = { rawWr s (pb page + (if hi then oEVT_CLASS_HI else oEVT_CLASS)) (classWord page hi v) with
              reply := ⟨.ok, 0⟩ })) ∧
      ((tallyPage page && s.sl.isSealed) = true → isCore a = false → Runs (.evtClassWrite a page hi v) s (fun t =>
        t = { s with reply := ⟨.denied, 0⟩ })))

/-- A ply edge starts the next ply; ticks and the core PLL act as the ply rules say. PLY_EDGE, while the counter runs,
either ends in mode RESET, or starts the next ply (the die's first edge starts the ply the counter holds) at cycle 0
with Tally Time taken at the edge, and marks a kernel tick when the new ply is a multiple of 25; while the counter is
stopped no edge falls. KERNEL_TICK, when one is due, sets the TICK interrupt of every core and of no other hart.
ISLAND_TICK counts Tally Time on while the counter is stopped, and nothing while it runs. CORE_PLL_LOCK_LOST stops the
counter where it stands, sets LOCK_LOST, and in LIVE makes the device due to be contained, its event being FATAL;
CORE_PLL_LOCK_REGAINED outside RESET lets it go on from the value it held. -/
def Obligations.EdgesTicksAndLock : Prop :=
  ∀ (s : State),
    (∀ e : EdgeIn, plyStopped s = false → Runs (.plyEdge e) s (fun t => t.md.mode = .reset ∨
      (t.tm.ply = (if s.tm.firstEdge then s.tm.ply else s.tm.ply + 1) ∧ t.tm.cycle = 0 ∧ t.tm.edgeTT = t.tm.tickTT ∧
       (t.tm.ply.toNat % 25 = 0 → t.tm.kernelTick = true)))) ∧
    (∀ e : EdgeIn, plyStopped s = true → Runs (.plyEdge e) s (fun t => t = s)) ∧
    (s.tm.kernelTick = true → Runs .kernelTick s (fun t => t.tm.kernelTick = false ∧
      (∀ c, c < 16 → (getH t c).tick = true) ∧ (∀ c, 16 ≤ c → getH t c = getH s c) ∧ t.regs = s.regs ∧ t.hbm = s.hbm)) ∧
    (∀ n, plyStopped s = true → s.elec.island = true → Runs (.islandTick n) s (fun t =>
      t.tm.ply = s.tm.ply ∧ t.tm.tickTT = ttOf t.tm.ttAcc ∧
      (s.elec.firmware = false → t.tm.ttAcc = s.tm.ttAcc + n * addend s ∧ t.regs = s.regs) ∧ t.hbm = s.hbm)) ∧
    (∀ n, plyStopped s = false → Runs (.islandTick n) s (fun t => t = s)) ∧
    (fgb s pgCLK F.CLK_PLY_STATUS_CORE_LOCK = true → Runs .corePllLockLost s (fun t =>
      plyStopped t = true ∧ fg t pgCLK F.CLK_PLY_STATUS_LOCK_LOST = 1 ∧ t.tm = s.tm ∧ evStatus t 0x005 0 = true ∧
      (evClass s 0x005 0 = clsFATAL → s.md.mode = .live → t.flt.contain.isSome = true) ∧ t.hbm = s.hbm)) ∧
    (inReset s = false → Runs .corePllLockRegained s (fun t =>
      plyStopped t = false ∧ t.tm = s.tm ∧ (∀ a, a ≠ pgCLK + F.CLK_PLY_STATUS_CORE_LOCK.off → rawRd t a = rawRd s a) ∧
      t.hbm = s.hbm))

/-- 1PPS edges are stamped and pulses judged by spacing and width. PPS_RISING_EDGE stamps the edge, keeps the one
before, opens a ToD window when none opened within 0.999 s, and loses the qualification with PPS_FAST when a qualified
input rises less than 0.999 s after the accepted edge. At PPS_FALLING_EDGE a pulse too wide or too narrow loses a
qualified input with PPS_WIDTH, a good pulse of a qualified input is accepted, and on an unqualified input a pulse
that is not good restarts the count and one that completes QUAL_N qualifies the input and is accepted.
PPS_WIDTH_TIMEOUT ends the pulse as too wide. PPS_MISSING loses a qualified input. None touches the ports or flow
memory. -/
def Obligations.PpsPulsesAreJudged : Prop :=
  ∀ (s : State),
    (∀ dt : Nat, Runs (.ppsRisingEdge dt) s (fun t =>
      t.ref.pps.rise = some (ttNow s dt) ∧ t.ref.pps.prev = s.ref.pps.rise ∧ t.ref.pps.high = true ∧
      t.ref.pps.accepted = s.ref.pps.accepted ∧
      (∀ a, ppsQualified s = true → s.ref.pps.accepted = some a → ttNow s dt - a < 999 * ms256 →
        t.ref.pps.lost = true ∧ t.ref.pps.count = 0 ∧ evStatus t 0x011 evPPS_FAST = true) ∧
      ((∀ o, s.ref.tod.opened = some o → 999 * ms256 ≤ ttNow s dt - o) →
        t.ref.tod.opened = some (ttNow s dt) ∧ t.ref.tod.waiting = true) ∧
      (∀ o, s.ref.tod.opened = some o → ttNow s dt - o < 999 * ms256 → t.ref.tod = s.ref.tod) ∧
      t.ports = s.ports ∧ t.hbm = s.hbm)) ∧
    (∀ (dt r : Nat), s.ref.pps.rise = some r → s.ref.pps.high = true →
      let w := widthOk s (ttNow s dt - r)
      Runs (.ppsFallingEdge dt) s (fun t => t.ref.pps.high = false ∧ t.ref.tod = s.ref.tod ∧
        (ppsQualified s = true → w = false →
          t.ref.pps.lost = true ∧ t.ref.pps.count = 0 ∧ evStatus t 0x011 evPPS_WIDTH = true) ∧
        (ppsQualified s = true → w = true → spacingOk s.ref.pps = true → t.ref.pps.accepted = some r) ∧
        (ppsQualified s = false → (w && spacingOk s.ref.pps) = false → t.ref.pps.count = 0 ∧ t.regs = s.regs) ∧
        (ppsQualified s = false → (w && spacingOk s.ref.pps) = true →
          (s.ref.pps.count + 1 < max 1 (fg s pgREF F.REF_PPS_QUAL_QUAL_N) → t.ref.pps.count = s.ref.pps.count + 1) ∧
          (max 1 (fg s pgREF F.REF_PPS_QUAL_QUAL_N) ≤ s.ref.pps.count + 1 →
            ppsQualified t = true ∧ t.ref.pps.accepted = some r)) ∧
        t.ports = s.ports ∧ t.hbm = s.hbm)) ∧
    (∀ r, s.ref.pps.rise = some r → s.ref.pps.high = true → Runs .ppsWidthTimeout s (fun t =>
      t.ref.pps.high = false ∧ t.ref.pps.count = 0 ∧
      (ppsQualified s = true → t.ref.pps.lost = true ∧ evStatus t 0x011 evPPS_WIDTH = true) ∧ t.hbm = s.hbm)) ∧
    (ppsQualified s = true → Runs .ppsMissing s (fun t =>
      t.ref.pps.lost = true ∧ t.ref.pps.count = 0 ∧ evStatus t 0x011 evPPS_MISSING = true ∧
      (∀ x, plainWord x → rawRd t x = rawRd s x) ∧ t.hbm = s.hbm))

/-- ToD messages and frequency gates qualify and disqualify their inputs. TOD_MESSAGE, begun 10 to 500 ms after the
edge that opened the waiting window: a good message (12 bytes, its header, CRC, valid bit, ended within 500 ms, its
second following the one before) is kept with its edge, shows TAI-UTC and validity, and the third in a row sets
TOD_OK; any other closes the window and clears TOD_OK. TOD_WINDOW_CLOSE of a waiting window clears TOD_OK.
FREQ_GATE_END shows the offset; the second bad gate in a row disqualifies the input, the hundredth good one qualifies
it. FREQ_EDGE_LOSS disqualifies the input, with its event where it was qualified. -/
def Obligations.TodAndFrequencyInputs : Prop :=
  ∀ (s : State),
    (∀ (b e o : Nat) (m : List Byte),
      let good := m.length = 12 ∧ beAt m 0 2 = 0xA55A ∧ crc16 (m.take 10) = beAt m 10 2 ∧ beAt m 9 1 / 4 % 2 = 1 ∧
        e ≤ 500 * ms256 ∧ b ≤ e ∧ ∀ p, s.ref.tod.prev = some p → beAt m 2 6 = p + 1
      s.ref.tod.opened = some o → s.ref.tod.waiting = true → 10 * ms256 ≤ b → b ≤ 500 * ms256 →
      Runs (.todMessage b e m) s (fun t => t.ref.tod.waiting = false ∧ t.hbm = s.hbm ∧ t.tm = s.tm ∧
        (good → t.ref.tod.prev = some (beAt m 2 6) ∧ t.ref.tod.last = some (beAt m 2 6, o) ∧
          t.ref.tod.good = s.ref.tod.good + 1 ∧ fg t pgTT F.TT_UTC_OFFSET_TAI_UTC = beAt m 8 1 ∧
          fg t pgTT F.TT_UTC_OFFSET_VALID = 1 ∧ (2 ≤ s.ref.tod.good → refOk t F.REF_REF_STATUS_TOD_OK = true)) ∧
        (¬ good → t.ref.tod.prev = none ∧ t.ref.tod.good = 0 ∧ refOk t F.REF_REF_STATUS_TOD_OK = false))) ∧
    (s.ref.tod.waiting = true → Runs .todWindowClose s (fun t =>
      t.ref.tod.waiting = false ∧ t.ref.tod.good = 0 ∧ refOk t F.REF_REF_STATUS_TOD_OK = false ∧
      (refOk s F.REF_REF_STATUS_TOD_OK = true → evStatus t 0x011 evTOD_BAD = true) ∧ t.hbm = s.hbm)) ∧
    (∀ (synce : Bool) (dev : Int),
      let bad := fg s pgREF F.REF_F10M_LIMIT_LIMIT * 1024 < dev.natAbs
      Runs (.freqGateEnd synce dev) s (fun t =>
        fg t pgREF (if synce then F.REF_SYNCE_DEV_DEV else F.REF_F10M_DEV_DEV) = trunc 32 dev ∧
        getFreq t (!synce) = getFreq s (!synce) ∧ t.hbm = s.hbm ∧
        (bad → (getFreq s synce).bad = 0 → getFreq t synce = { bad := 1, good := 0 }) ∧
        (bad → 1 ≤ (getFreq s synce).bad → getFreq t synce = {} ∧ refOk t (freqOkBit synce) = false) ∧
        (¬ bad → getFreq t synce = { bad := 0, good := (getFreq s synce).good + 1 } ∧
          (99 ≤ (getFreq s synce).good → refOk t (freqOkBit synce) = true)))) ∧
    (∀ synce : Bool, Runs (.freqEdgeLoss synce) s (fun t =>
      refOk t (freqOkBit synce) = false ∧ getFreq t synce = {} ∧ getFreq t (!synce) = getFreq s (!synce) ∧
      (refOk s (freqOkBit synce) = true → evStatus t 0x011 (if synce then evSYNCE_REJECT else evF10M_REJECT) = true) ∧
      t.hbm = s.hbm))

/-- PTP messages are counted and stamped; a timer clears its qualification; TE is measured. PTP_FRAME_DIVERT of a
message on an UP port that is a PTP port of the Tally counts it, and a Sync of the port's time-transmitter leaves its
sequence number and its corrected arrival time as t2. PTP_MESSAGE_SEND on such a port sends the message and counts it,
and a Delay_Req leaves its sequence number. PTP_RECEIPT_TIMEOUT clears PTP_x_OK, for Announce with the time-
transmitter forgotten and the port state 4. TE_MEASUREMENT with a selected reference shows the time error (of the 1PPS
where that is the reference), counts it as good or bad against TE_LIMIT, and leaves FREQ_ADJ within SLEW_MAX (its
value there is free, log entry 10). No frame enters the pipeline and flow memory is unchanged. -/
def Obligations.PtpAndTimeError : Prop :=
  ∀ (s : State),
    (∀ (p l : Fin 256) (bits : Nat) (msg : List Byte) (b : Bool), ptpOn s p = some b → isUp s p = true → l.val ∈ portLanes s p →
      Runs (.ptpFrameDivert p l bits msg) s (fun t =>
        (frozen s 0x012 = false → rd64 t (ptpB b + R.PTP_PTP_RX) = (rd64 s (ptpB b + R.PTP_PTP_RX) + 1) % 2 ^ 64) ∧
        (beAt msg 0 1 % 16 = 0 → fromMaster (getPtp s b) msg = true →
          (getPtp t b).syncSeq = beAt msg 30 2 ∧ (getPtp t b).t2 = (captureNow s p l bits).t ∧ (getPtp t b).syncOk = true) ∧
        getPtp t (!b) = getPtp s (!b) ∧ t.frames = s.frames ∧ t.hbm = s.hbm)) ∧
    (∀ (b : Bool) (dt : Nat) (msg : List Byte), ptpOn s (ptpPort s b) = some b → isUp s (ptpPort s b) = true →
      Runs (.ptpMessageSend b dt msg) s (fun t => t.out = s.out ++ [.ptp (ptpPort s b) msg] ∧
        (frozen s 0x012 = false → rd64 t (ptpB b + R.PTP_PTP_TX) = (rd64 s (ptpB b + R.PTP_PTP_TX) + 1) % 2 ^ 64) ∧
        (beAt msg 0 1 % 16 = 1 → (getPtp t b).reqSeq = some (beAt msg 30 2)) ∧ t.frames = s.frames ∧ t.hbm = s.hbm)) ∧
    (∀ (b : Bool) (w : PtpTimer), Runs (.ptpReceiptTimeout b w) s (fun t =>
      refOk t (ptpOkBit b) = false ∧ getPtp t (!b) = getPtp s (!b) ∧
      (w = .announce → (getPtp t b).master = none ∧ fg t (ptpB b) F.PTP_PTP_STATUS_PORT_STATE = 4) ∧ t.hbm = s.hbm)) ∧
    (∀ te : Int, fg s pgTT F.TT_TIME_STATE_TIME_SRC ≠ 0 →
      let x := if fg s pgTT F.TT_TIME_STATE_TIME_SRC = 1 then sext 32 (fg s pgREF F.REF_PPS_TE_TE) else te
      let bad := fg s pgCAL F.CAL_TE_LIMIT_LIMIT < x.natAbs
      Runs (.teMeasurement te) s (fun t =>
        fg t pgTT F.TT_TE_LAST_TE = trunc 32 x ∧ t.ref.teGood = (if bad then 0 else s.ref.teGood + 1) ∧
        t.ref.teBad = (if bad then s.ref.teBad + 1 else 0) ∧
        (sext 32 (fg t pgTT F.TT_FREQ_ADJ_ADJ)).natAbs ≤ 1024 * fg s pgCAL F.CAL_SLEW_MAX_SLEW ∧
        t.tm = s.tm ∧ t.hbm = s.hbm))

/-- A microword executes its nanoword and continues where its sequence field says. Where an engine issues a microword
of a context, its nanoword without a request, the context takes what the ALU, MOV and MEM slots leave and goes on:
NEXT and WAIT at PC + 1; JUMP at TARGET; BRT and BRF at TARGET or at PC + 1 by the selected flag as it was before the
nanoword; CALL at TARGET with PC + 1 pushed; RET at the popped address. This holds for a PC whose step does not cross
a region end, a TARGET that the region rules allow and that is neither of the two gates 0x5E00 and 0x5E04, a stack
that is not full for CALL and not empty for RET. Other contexts, the frames and flow memory keep their values. -/
def Obligations.MicrowordsSequence : Prop :=
  ∀ (s : State) (pipe : Fin 8) (engine : Fin 64) (k : Nat) (w : Word) (d : Ctx), Issues s pipe engine k w d →
    let pc := (getC s k).pc
    let st := (getC s k).stack
    let dst := uTarget w
    let ok := jumpFault pc dst = false ∧ dst ≠ 0x5E00 ∧ dst ≠ 0x5E04
    (uSeq w = sNEXT → stepFault pc = false → Runs (.uwNext pipe engine) s (fun t => GoesOn s t k (pc + 1) st d)) ∧
    (uSeq w = sWAIT → stepFault pc = false → (bitsOf w 0 4 = 7 → bitsOf w 4 11 < 512) →
      Runs (.uwWait pipe engine) s (fun t => GoesOn s t k (pc + 1) st d)) ∧
    (uSeq w = sJUMP → ok → Runs (.uwJump pipe engine) s (fun t => GoesOn s t k dst st d)) ∧
    (uSeq w = sBRT → (uFlag (getC s k) w = true → ok) → (uFlag (getC s k) w = false → stepFault pc = false ∧ pc + 1 ≠ 0x5E00 ∧
        pc + 1 ≠ 0x5E04) →
      Runs (.uwBrt pipe engine) s (fun t => GoesOn s t k (if uFlag (getC s k) w then dst else pc + 1) st d)) ∧
    (uSeq w = sBRF → (uFlag (getC s k) w = false → ok) → (uFlag (getC s k) w = true → stepFault pc = false ∧ pc + 1 ≠ 0x5E00 ∧
        pc + 1 ≠ 0x5E04) →
      Runs (.uwBrf pipe engine) s (fun t => GoesOn s t k (if uFlag (getC s k) w then pc + 1 else dst) st d)) ∧
    (uSeq w = sCALL → ok → stepFault pc = false → st.length < 8 →
      Runs (.uwCall pipe engine) s (fun t => GoesOn s t k dst ((pc + 1) :: st) d)) ∧
    (∀ (a : Nat) (rest : List Nat), uSeq w = sRET → st = a :: rest →
      Runs (.uwRet pipe engine) s (fun t => GoesOn s t k a rest d))

/-- Dispatch places a packet; END, the commit and the deadline take it off its context. ROUTINE_DISPATCH with no
packet queued places the next entering packet, its entry enabled and decoded, on the free context chosen, at the
entry's address. COMMIT and COMMIT_EXCEPT leave the context waiting for its commit; DISCARD frees the context and the
packet leaves by its META verdict at the edge two plies after its entry or the next; EXCEPT frees it and the packet
leaves by its default action. JOURNAL_COMMIT frees the context, the packet leaving by its META verdict.
DEADLINE_EXPIRY of a routine past its deadline edge frees the context and the packet leaves by its default action. -/
def Obligations.RoutinesStartAndEnd : Prop :=
  ∀ (s : State),
    (∀ (pipe : Fin 8) (id k : Nat), idled s (fsPage pipe) = false → idled s (fsPage pipe + 1) = false →
      tget (fun _ => []) s.fl.queue pipe = [] → entering s pipe = some id → freeContext s pipe = some k → ctxPipe k = pipe →
      fgb s (flowB pipe) F.FS_FS_CTRL_DISPATCH_EN = true →
      (entryWord s pipe (getF s id).verdict.entry).getLsbD 15 = true →
      s.fl.undecoded ≠ some (bitsOf (entryWord s pipe (getF s id).verdict.entry) 0 15) →
      Runs (.routineDispatch pipe) s (fun t => (getC t k).busy = true ∧ (getC t k).frame = id ∧
        (getC t k).pc = bitsOf (entryWord s pipe (getF s id).verdict.entry) 0 15 ∧
        (getC t k).entry = (getF s id).since + 1 ∧ (getF t id).stage = .flow ∧
        (∀ j, j ≠ k → getC t j = getC s j) ∧ t.hbm = s.hbm)) ∧
    (∀ (pipe : Fin 8) (engine : Fin 64) (k : Nat) (w : Word) (d : Ctx), Issues s pipe engine k w d → uSeq w = sEND →
      (bitsOf w 0 2 = 0 → Runs (.uwCommit pipe engine) s (fun t => (getC t k).ended = 1 ∧
        (getC t k).endLen = endLen (getF s d.frame) ∧ (getC t k).journal = d.journal ∧
        (∀ j, j ≠ k → getC t j = getC s j) ∧ t.hbm = s.hbm)) ∧
      (bitsOf w 0 2 = 1 → Runs (.uwDiscard pipe engine) s (fun t => getC t k = {} ∧
        tget (fun _ => none) t.fl.outs d.frame = some (verdictOut d (max (d.entry + 2) (plyNat s + 1))))) ∧
      (bitsOf w 0 2 = 2 → Runs (.uwExcept pipe engine) s (fun t => getC t k = {} ∧
        tget (fun _ => none) t.fl.outs d.frame = some { kind := 1, edge := max (d.entry + 2) (plyNat s + 1) })) ∧
      (bitsOf w 0 2 = 3 → Runs (.uwCommitExcept pipe engine) s (fun t => (getC t k).ended = 4 ∧
        (getC t k).journal = d.journal))) ∧
    (∀ k : Fin 4096, (getC s k).busy = true → ((getC s k).ended = 1 ∨ (getC s k).ended = 4) →
      Runs (.journalCommit k) s (fun t => getC t k = {} ∧
        tget (fun _ => none) t.fl.outs (getC s k).frame =
          some (verdictOut (getC s k) (max ((getC s k).entry + 2) (plyNat s + 1))))) ∧
    (∀ (id k : Nat), s.fl.ctxs.find? (fun e => e.2.busy && e.2.frame == id) = some (k, getC s k) → (getC s k).ended = 0 →
      deadline (getC s k).entry (getC s k).missDl ≤ plyNat s → Runs (.deadlineExpiry id) s (fun t => getC t k = {} ∧
        tget (fun _ => none) t.fl.outs id = some { kind := 1, edge := max ((getC s k).entry + 2) (plyNat s + 1) }))

/-- A reply writes its result bytes of META and takes its request away. TBL_REPLY, HASH_DONE, TIME_READY, PARAM_READY,
ASSIST_DONE, CTR_READY and STATE_READY for a context with a request of their kind outstanding write the result into
its bytes of META, take the request away and wake a waiting context; the rest of the context, the other contexts, the
frames and flow memory keep their values. -/
def Obligations.RepliesWriteTheirResults : Prop :=
  ∀ (s : State) (k : Fin 4096) (r : Req),
    let c := getC s k
    let pipe := ctxPipe k
    let put := fun (t : State) (kind o n v : Nat) =>
      getC t k = { setReq c kind none with metaB := splice c.metaB o (beBytes n v), waitReply := true } ∧
      (∀ j, j ≠ k.val → getC t j = getC s j) ∧ t.frames = s.frames ∧ t.hbm = s.hbm
    (reqOf c 1 = some r → ∀ (upset : List Nat) (corrected : Bool), Runs (.tblReply k upset corrected) s (fun t =>
      let u := takeUpsets s pipe upset corrected
      let g := (getF s c.frame).gen % 2
      put t 1 0x18 8 (tblResultOf
        (if r.op = 3 then (if r.table < 8 then emLookup u pipe r.table r.key g else none)
         else if 0x10 ≤ r.table ∧ r.table < 0x18 then ternLookup u pipe (r.table - 0x10) r.key g else none)))) ∧
    (reqOf c 2 = some r → Runs (.hashDone k) s (fun t => put t 2 0x20 8
      (if r.op = 5 then crc32c (r.key.take (if r.arg = 0 then 64 else r.arg)) else hashSym (getF s c.frame)).toNat)) ∧
    (reqOf c 3 = some r → ∀ dt : Nat, Runs (.timeReady k dt) s (fun t => put t 3 0x30 16 (timeBytes (ttNow s dt)))) ∧
    (reqOf c 4 = some r → Runs (.paramReady k) s (fun t => put t 4 0x28 8 (paramRead s pipe r.table r.src.toNat).toNat)) ∧
    (reqOf c 6 = some r → Runs (.assistDone k) s (fun t => put t 6 0x40 8 r.src.toNat)) ∧
    (reqOf c 11 = some r → Runs (.ctrReady k) s (fun t => put t 11 0x50 8 (ctrReadId s pipe r.table r.arg).toNat)) ∧
    (reqOf c 12 = some r → Runs (.stateReady k) s (fun t => put t 12 0x48 8
      (if r.op = 13 then queueDepth s r.src.toNat else memberBits s pipe r.table)))

/-- The replies of FLOW_FIND and FLOW_LEARN bind a record, report ABSENT, or fail the learn. FLOW_READY for a request
that holds a record binds it to the context and its frame and writes FLOW_STATUS (2 HIT, 3 FETCHED) and the flow index
to META; for a request whose table is not enabled it writes ABSENT. LEARN_DONE for a request that holds a record does
the same; where the learn is made it binds the new record, marked learned with its journal entry; where the table is
not enabled the learn fails: the context is freed, the failure raised, and the packet leaves by its table action. -/
def Obligations.FlowRepliesBindRecords : Prop :=
  ∀ (s : State) (k : Fin 4096) (r : Req) (i : Nat),
    let c := getC s k
    let pipe := ctxPipe k
    let bound := fun (t : State) (kind : Nat) => (getC t k).bound = some i ∧ boundTo t i = some k.val ∧
      reqOf (getC t k) kind = none ∧ (getF t c.frame).flowIdx = i ∧ (getC t k).learned = false ∧
      (getC t k).metaB = splice (splice c.metaB 0x14 (beBytes 1 (if r.missed then 3 else 2))) 0x10 (beBytes 4 i) ∧ t.hbm = s.hbm
    (reqOf c 0 = some r → r.got = some i → Runs (.flowReady k 0) s (fun t => bound t 0)) ∧
    (reqOf c 0 = some r → r.got = none → r.waiting = false → r.op = 1 → tableOn s r.table = false →
      Runs (.flowReady k 0) s (fun t => reqOf (getC t k) 0 = none ∧ (getC t k).bound = c.bound ∧
        (getC t k).metaB = splice c.metaB 0x14 (beBytes 1 4) ∧ t.hbm = s.hbm)) ∧
    (reqOf c 5 = some r → r.got = some i → Runs (.learnDone k 0) s (fun t => bound t 5)) ∧
    (reqOf c 5 = some r → r.got = none → r.waiting = false → r.op = 2 →
      let a := learnTry s k pipe r.table r.key
      a.status = 5 → (getC a.st k).journal.length < 32 →
      Runs (.learnDone k 0) s (fun t => (getC t k).bound = some a.idx ∧ (getC t k).learned = true ∧
        JEnt.learn ∈ (getC t k).journal)) ∧
    (reqOf c 5 = some r → r.got = none → r.waiting = false → r.op = 2 → tableOn s r.table = false →
      Runs (.learnDone k 0) s (fun t => getC t k = {} ∧ evStatus t 0x340 evFT_LEARN_FAIL = true ∧
        ∃ o, tget (fun _ => none) t.fl.outs c.frame = some o ∧ o.kind = 0 ∧ o.verdict = 1 ∧ o.egress = (getF s c.frame).verdict.egress))

/-- The control store is written in BOOT by a core, read, scrubbed and repaired. STORE_WRITE by a core in BOOT writes
STORE_DATA to the addressed word in all eight pipelines; over Skyline it is DENIED and the stores stay. STORE_READ by
a core or at level 2 and above shows this pipeline's addressed word in STORE_DATA, the vendor region reading 0 over
Skyline, and the stores stay. STORE_SCRUB that meets an uncorrectable line marks its words and raises STORE_UE; a
correctable one raises STORE_CE. STORE_REPAIR of a marked line copies it from the next pipeline and clears its marks;
with the source bad too it raises STORE_DOUBLE_UE and leaves the stores. -/
def Obligations.ControlStoreCommands : Prop :=
  ∀ (s : State) (pipe : Fin 8) (cmd : Word),
    (∀ n : Fin 16, Allowed s (.core n) (flowB pipe + R.FS_STORE_CMD) (setBits cmd 0 2 1) → s.md.mode = .boot →
      Runs (.storeWrite (.core n) pipe cmd) s (fun t => t.reply = ⟨.ok, 0⟩ ∧ t.hbm = s.hbm ∧ ∀ p, p < 8 →
        if storeIsNano s pipe then
          tget (fun _ => 0) t.fl.nano (nanoKey p (storeAddr s pipe % 4096)) = BitVec.ofNat 256 (storeData s pipe)
        else microAt t p (storeAddr s pipe) = BitVec.ofNat 32 (storeData s pipe))) ∧
    (∀ l : Fin 4, Allowed s (.sky l) (flowB pipe + R.FS_STORE_CMD) (setBits cmd 0 2 1) →
      Runs (.storeWrite (.sky l) pipe cmd) s (fun t => t = { s with reply := ⟨.denied, 0⟩ })) ∧
    (∀ a : Agent, Allowed s a (flowB pipe + R.FS_STORE_CMD) (setBits cmd 0 2 2) → Runs (.storeRead a pipe cmd) s (fun t =>
      t.reply = ⟨.ok, 0⟩ ∧ t.fl = s.fl ∧ t.hbm = s.hbm ∧ rdWords t (flowB pipe + R.FS_STORE_DATA) 8 =
        numWords (storeGet s pipe (storeIsNano s pipe) (!isCore a) (storeAddr s pipe)) 8)) ∧
    (∀ (nano : Bool) (line : Nat), line < 8192 →
      (∀ ce, Runs (.storeScrub pipe nano line true ce) s (fun t => (∀ m ∈ lineMarks pipe line nano, m ∈ t.fl.marks) ∧
        t.fl.micro = s.fl.micro ∧ t.fl.nano = s.fl.nano ∧ evStatus t (fsPage pipe) evSTORE_UE = true ∧ t.hbm = s.hbm)) ∧
      Runs (.storeScrub pipe nano line false true) s (fun t => t.fl = s.fl ∧
        evStatus t (fsPage pipe) evSTORE_CE = true ∧ t.hbm = s.hbm)) ∧
    (∀ (nano : Bool) (line : Nat) (ok : Bool), line < 8192 → (∃ m ∈ lineMarks pipe line nano, m ∈ s.fl.marks) →
      let q := (pipe.val + 1) % 8
      let bad := ok = false ∨ ∃ m ∈ lineMarks q line nano, m ∈ s.fl.marks
      (¬ bad → Runs (.storeRepair pipe nano line ok) s (fun t => (∀ m ∈ lineMarks pipe line nano, m ∉ t.fl.marks) ∧
        (nano = false → ∀ i, i < 4 → microAt t pipe (4 * line + i) = microAt s q (4 * line + i)) ∧
        (nano = true → tget (fun _ => 0) t.fl.nano (nanoKey pipe (line / 2)) =
          tget (fun _ => 0) s.fl.nano (nanoKey q (line / 2))) ∧ t.hbm = s.hbm)) ∧
      (bad → Runs (.storeRepair pipe nano line ok) s (fun t => t.fl = s.fl ∧
        evStatus t (fsPage pipe) evSTORE_DOUBLE_UE = true ∧ t.hbm = s.hbm)))

/-- PARSE walks the window into the header vector, or waits for bytes. PARSE of a frame waiting for it, PARSE_EN being
1 and its parser not idled, first takes the bytes that arrived. Where the walk of the graph lacks bytes, nothing else
changes. Where it ends with no exception and no length case that is refused, the frame goes on to classification with
its header vector, its parse profile and the key of its fragmented header, PARSED counts it unless the counters are
frozen, and every other frame, the tables and flow memory stay. A walk visits at most 64 nodes, so more steps than 65
give the same walk. -/
def Obligations.ParseMakesTheHeaderVector : Prop :=
  (∀ (s : State) (id : Nat) (more : List Byte),
    let u := arrive s id more
    let f := getF u id
    let res := walk u f.pipe f.bytes f.ended (transOf u f.pipe) 65 (fg u (prsB f.pipe) F.PRS_PG_CTRL_START_NODE) {}
    (getF s id).live = true → (getF s id).stage = .parse → idled u (0x200 + 16 * f.pipe) = false →
    idled u (0x201 + 16 * f.pipe) = false → fgb u (prsB f.pipe) F.PRS_PG_CTRL_PARSE_EN = true →
    (res = none → Runs (.parse id more) s (fun t => t.frames = u.frames ∧ t.regs = s.regs ∧ t.cls = s.cls ∧ t.hbm = s.hbm)) ∧
    ∀ w, res = some w → walkReason w.status = none →
      let g := { f with l3s := w.l3s }
      let cs := w.cases ++ (if f.ended then frameEndCases g else [])
      lenReason u f.pipe cs = none → f.pipe < 8 →
      Runs (.parse id more) s (fun t =>
        getF t id = { g with hv := w.hv (fgb u (prsB f.pipe) F.PRS_PG_CTRL_UDP_SHORT_ACCEPT) (worstCase cs),
                             parseProf := w.prof, fragKey := w.fragKey, stage := .classify, since := plyNat s } ∧
        (∀ j, j ≠ id → getF t j = getF s j) ∧ t.cls = s.cls ∧ t.hbm = s.hbm ∧
        (frozen s (0x201 + 16 * f.pipe) = false →
          rd64 t (prsB f.pipe + R.PRS_PARSED) = (rd64 s (prsB f.pipe + R.PRS_PARSED) + 1) % 2 ^ 64))) ∧
  ∀ (s : State) (pipe : Nat) (bs : List Byte) (ended : Bool) (ts : List (Nat × Nat × Nat × Nat)) (n node : Nat), 65 ≤ n →
    walk s pipe bs ended ts n node {} = walk s pipe bs ended ts 65 node {} ∧
    ∀ w, walk s pipe bs ended ts 65 node {} = some w → w.visits ≤ 64

/-- CLASSIFY looks the key up, captures the generation and acts on the resolved action. CLASSIFY of a frame waiting
for it whose blocks are not idled takes the bytes that arrived and captures the active generation. Where a byte the
key needs has not arrived, it waits. Else the governing result selects the action entry (the template's miss index
without one). For a frame that is not a non-first fragment, without a policer: action DISPATCH hands it to its flow
stage; FORWARD sends it with the entry's kind, egress and class, a spreading group being resolved to the live member
that the symmetric hash picks; an ended frame that is neither mirrored, dispatched nor forwarded leaves. A first
fragment that is forwarded leaves its outcome to be stored at the edge. LOOKUPS counts each. A non-first fragment
without a stored outcome is held while the hold has room. -/
def Obligations.ClassifyTakesTheAction : Prop :=
  ∀ (s : State) (id : Nat) (more : List Byte) (upset : List Nat) (corrected : Bool),
    let u := captureGen (arrive s id more) id
    let f := getF u id
    let tm := getTmpl u f.pipe (f.gen % 2) f.parseProf
    let q := takeUpsets u f.pipe upset corrected
    let l := lookupAll q f.pipe (f.gen % 2) tm.header (buildKey f tm)
    let ai := match l.res with
      | some r => r.toNat % 4096
      | none => bitsOf tm.header 8 12
    let data := match l.res with
      | some r => (r.toNat / 4096) % 2 ^ 48
      | none => 0
    let v := verdictOf (getAct q f.pipe (f.gen % 2) ai) data
    let c := Instr.classify id more upset corrected
    let counted := fun (t : State) => frozen s (0x202 + 16 * f.pipe) = false →
      rd64 t (clsB f.pipe + R.CLS_LOOKUPS) = (rd64 s (clsB f.pipe + R.CLS_LOOKUPS) + 1) % 2 ^ 64
    (getF s id).live = true → (getF s id).stage = .classify → f.pipe < 8 → idled u (0x202 + 16 * f.pipe) = false →
    (idled u (0x203 + 16 * f.pipe) = true → isFirstFrag u f = false ∧ isLaterFrag u f = false) →
    ((getF s id).genTaken = false → f.gen = activeGen s f.pipe) ∧
    (f.ended = false → (∃ w ∈ tm.ops, f.bytes.length < extractNeed f w) →
      Runs c s (fun t => t.frames = u.frames ∧ t.regs = s.regs ∧ t.cls = s.cls ∧ t.hbm = s.hbm)) ∧
    ((f.ended = true ∨ ∀ w ∈ tm.ops, extractNeed f w ≤ f.bytes.length) →
      (isLaterFrag u f = false → v.policer = none →
        (v.op = 3 → Runs c s (fun t => (getF t id).stage = .dispatch ∧ (getF t id).verdict = v ∧
          (getF t id).tblResult = tblResultOf l.res ∧ (getF t id).actionIdx = ai ∧ (getF t id).gen = f.gen ∧
          (∀ j, j ≠ id → getF t j = getF s j) ∧ counted t ∧ t.hbm = s.hbm)) ∧
        (v.op = 1 → v.kind ≠ 3 → Runs c s (fun t => (getF t id).stage = .flowDone ∧
          (getF t id).verdict = { v with fwd := true } ∧ (∀ j, j ≠ id → getF t j = getF s j) ∧ counted t ∧ t.hbm = s.hbm ∧
          (isFirstFrag u f = true → ∃ e, (f.pipe, e) ∈ t.cls.fragDue ∧ e.key = f.fragKey ∧ e.fwd = true ∧
            e.kind = v.kind ∧ e.egress = v.egress ∧ e.cls = v.cls))) ∧
        (∀ m, v.op = 1 → v.kind = 3 → v.egress < 256 → spreadTo q f.pipe v.egress f = some m →
          Runs c s (fun t => (getF t id).stage = .flowDone ∧
            (getF t id).verdict = { v with fwd := true, kind := m / 32768, egress := m % 32768 } ∧
            (∀ j, j ≠ id → getF t j = getF s j) ∧ counted t ∧ t.hbm = s.hbm)) ∧
        ((v.op = 0 ∨ v.op = 2) → v.doMirror = false → f.ended = true →
          Runs c s (fun t => getF t id = {} ∧ (∀ j, j ≠ id → getF t j = getF s j) ∧ counted t ∧ t.hbm = s.hbm))) ∧
      (isLaterFrag u f = true → fragFind s f = none → (heldOf s f.pipe).length < 64 →
        Runs c s (fun t => (getF t id).stage = .fragHold ∧ heldOf t f.pipe = heldOf s f.pipe ++ [id] ∧
          (∀ j, j ≠ id → getF t j = getF s j) ∧ counted t ∧ t.hbm = s.hbm)))

/-- Fragment entries expire, held fragments take the stored outcome or time out. FRAG_ENTRY_EXPIRY leaves exactly the
entries whose LIFE has not passed, and USED their number. FRAG_HOLD_RELEASE takes the oldest held fragment that has an
entry from the hold and gives it the stored outcome: sent with the stored kind, egress, class and flow index, or,
where the first was dropped, dropped. FRAG_TIMEOUT takes the oldest held fragment whose HOLD has passed without an
entry from the hold and drops it. Release and timeout are counted unless the counters are frozen; other frames, other
pipelines' holds and flow memory stay. -/
def Obligations.FragmentsFollowTheFirst : Prop :=
  ∀ (s : State) (pipe : Fin 8),
    let count := fun (t : State) (k : Nat) => frozen s (0x203 + 16 * pipe) = false →
      rd64 t (frgB pipe + R.FRG_FRAG_COUNT + 8 * k) = (rd64 s (frgB pipe + R.FRG_FRAG_COUNT + 8 * k) + 1) % 2 ^ 64
    let others := fun (t : State) (id : Nat) => heldOf t pipe = (heldOf s pipe).filter (· ≠ id) ∧
      (∀ p, p ≠ pipe.val → heldOf t p = heldOf s p) ∧ (∀ j, j ≠ id → getF t j = getF s j) ∧ t.hbm = s.hbm
    (Runs (.fragEntryExpiry pipe) s (fun t =>
      (∀ e, e ∈ tget (fun _ => []) t.cls.frag pipe ↔
        e ∈ tget (fun _ => []) s.cls.frag pipe ∧ plyNat s < e.ply + fragLife s pipe) ∧
      fg t (frgB pipe) F.FRG_FRAG_STATUS_USED = (tget (fun _ => []) t.cls.frag pipe).length % 2 ^ 13 ∧
      (∀ p, p ≠ pipe.val → tget (fun _ => []) t.cls.frag p = tget (fun _ => []) s.cls.frag p) ∧
      t.frames = s.frames ∧ t.hbm = s.hbm)) ∧
    (∀ (id : Nat) (e : FragEnt), (heldOf s pipe).find? (fun j => (fragFind s (getF s j)).isSome) = some id →
      fragFind s (getF s id) = some e →
      (e.fwd = true → e.kind ≠ 3 → Runs (.fragHoldRelease pipe) s (fun t => others t id ∧ count t 2 ∧
        (getF t id).stage = .flowDone ∧ (getF t id).flowIdx = e.flowIdx ∧ (getF t id).verdict.fwd = true ∧
        (getF t id).verdict.kind = e.kind ∧ (getF t id).verdict.egress = e.egress ∧ (getF t id).verdict.cls = e.cls)) ∧
      (e.fwd = false → e.doMirror = false → (getF s id).ended = true → Runs (.fragHoldRelease pipe) s (fun t =>
        others t id ∧ count t 2 ∧ getF t id = {}))) ∧
    (∀ id, (heldOf s pipe).find?
        (fun j => (getF s j).since + fragHoldMax s pipe ≤ plyNat s && (fragFind s (getF s j)).isNone) = some id →
      (getF s id).ended = true → Runs (.fragTimeout pipe) s (fun t => others t id ∧ count t 3 ∧ getF t id = {}))

/-- PG_CMD writes and reads the graph through its window, only while parsing is off for a write. PG_WRITE that reaches
its register while PARSE_EN reads 0 stores the window's low bits as the addressed node or transition, replies OK and
advances INDEX by AUTO_INC; while PARSE_EN is 1 it raises WRITE_REJECT, replies ERROR and changes no table. PG_READ
shows the addressed node or transition in PG_DATA and changes no table. An INDEX beyond the nodes is an ERROR that
changes nothing. -/
def Obligations.ParseGraphCommands : Prop :=
  ∀ (s : State) (a : Agent) (pipe : Fin 8) (cmd : Word),
    let addr := prsB pipe + R.PRS_PG_CMD
    let i := pgIndex s pipe
    let v := winNum (rdWords s (prsB pipe + R.PRS_PG_DATA) 4) 4
    let inc := fun (t : State) => pgIndex t pipe = if fgb s (prsB pipe) F.PRS_PG_ADDR_AUTO_INC then (i + 1) % 1024 else i
    (Allowed s a addr (setBits cmd 0 2 1) →
      (fgb s (prsB pipe) F.PRS_PG_CTRL_PARSE_EN = true → Runs (.pgWrite a pipe cmd) s (fun t =>
        t.reply = ⟨.error, 0⟩ ∧ t.cls = s.cls ∧ evStatus t (0x201 + 16 * pipe) 2 = true ∧ t.hbm = s.hbm ∧
        ∀ x, plainWord x → rawRd t x = rawRd s x)) ∧
      (fgb s (prsB pipe) F.PRS_PG_CTRL_PARSE_EN = false →
        (pgKind s pipe = false → i < 256 → Runs (.pgWrite a pipe cmd) s (fun t => t.reply = ⟨.ok, 0⟩ ∧ inc t ∧
          getNode t pipe i = v % 2 ^ 71 ∧ (∀ p j, j < 256 → (p ≠ pipe.val ∨ j ≠ i) → getNode t p j = getNode s p j) ∧
          t.cls = { s.cls with nodes := t.cls.nodes } ∧ t.hbm = s.hbm ∧
          ∀ x, x ≠ prsB pipe + R.PRS_PG_ADDR → rawRd t x = rawRd s x)) ∧
        (pgKind s pipe = true → Runs (.pgWrite a pipe cmd) s (fun t => t.reply = ⟨.ok, 0⟩ ∧ inc t ∧
          getTrans t pipe i = v % 2 ^ 81 ∧ (∀ p j, j < 1024 → (p ≠ pipe.val ∨ j ≠ i) → getTrans t p j = getTrans s p j) ∧
          t.cls = { s.cls with trans := t.cls.trans } ∧ t.hbm = s.hbm ∧
          ∀ x, x ≠ prsB pipe + R.PRS_PG_ADDR → rawRd t x = rawRd s x)) ∧
        (pgKind s pipe = false → 256 ≤ i → Runs (.pgWrite a pipe cmd) s (fun t => t = { s with reply := ⟨.error, 0⟩ })))) ∧
    (Allowed s a addr (setBits cmd 0 2 2) →
      ((pgKind s pipe = true ∨ i < 256) → Runs (.pgRead a pipe cmd) s (fun t => t.reply = ⟨.ok, 0⟩ ∧ inc t ∧ t.cls = s.cls ∧
        rdWords t (prsB pipe + R.PRS_PG_DATA) 4 =
          numWords (if pgKind s pipe then getTrans s pipe i else getNode s pipe i) 4 ∧ t.hbm = s.hbm)) ∧
      (pgKind s pipe = false → 256 ≤ i → Runs (.pgRead a pipe cmd) s (fun t => t = { s with reply := ⟨.error, 0⟩ })))

/-- TBL_CMD updates wait for one of the next four edges; a read answers at once. TBL_INSERT, DELETE, MODIFY, WRITE and
CLEAR that reach TBL_CMD: while BUSY they reply ERROR and change nothing; where no target pipeline can carry the
command out, RESULT shows why at once and no table changes; else BUSY is set and the spelled command waits for one of
the next four edges. TBL_READ while not BUSY shows its result in RESULT at once, and of an entry that is there shows
the result word, the action entry or the parameter word in the window, no table changing. -/
def Obligations.TableCommandsWaitForAnEdge : Prop :=
  ∀ (s : State) (a : Agent) (pipe : Fin 8) (cmd : Word),
    let addr := clsB pipe + R.CLS_TBL_CMD
    let rows : List (Nat × Instr) := [(1, .tblInsert a pipe cmd), (2, .tblDelete a pipe cmd), (3, .tblModify a pipe cmd),
      (5, .tblWrite a pipe cmd), (6, .tblClear a pipe cmd)]
    (∀ r ∈ rows, Allowed s a addr (setBits cmd 0 3 r.1) →
      let c := tblSpell s pipe (setBits cmd 0 3 r.1) r.1
      let rs := (tblAll c false (tblTargets pipe c) ([], s)).1
      (tblBusy s pipe = true → Runs r.2 s (fun t => t = { s with reply := ⟨.error, 0⟩ })) ∧
      (tblBusy s pipe = false → tOK ∉ rs → Runs r.2 s (fun t => t.reply = ⟨.ok, 0⟩ ∧ t.cls = s.cls ∧ tblBusy t pipe = false ∧
        fg t (clsB pipe) F.CLS_TBL_STATUS_RESULT = tblResult rs ∧ t.hbm = s.hbm ∧
        ∀ x, plainWord x → x ≠ clsB pipe + R.CLS_TBL_STATUS → rawRd t x = rawRd s x)) ∧
      (tblBusy s pipe = false → tOK ∈ rs → Runs r.2 s (fun t => t.reply = ⟨.ok, 0⟩ ∧ tblBusy t pipe = true ∧
        (∃ h, plyNat s < h ∧ h ≤ plyNat s + 4 ∧ tget (fun _ => none) t.cls.cmd pipe = some { c with hold := h }) ∧
        (∀ p, p ≠ pipe.val → tget (fun _ => none) t.cls.cmd p = tget (fun _ => none) s.cls.cmd p) ∧
        t.cls = { s.cls with cmd := t.cls.cmd } ∧ t.hbm = s.hbm ∧
        ∀ x, x ≠ clsB pipe + R.CLS_TBL_STATUS → rawRd t x = rawRd s x))) ∧
    (Allowed s a addr (setBits cmd 0 3 4) →
      let c := tblSpell s pipe (setBits cmd 0 3 4) 4
      let rs := (tblAll c true (tblTargets pipe c) ([], s)).1
      (tblBusy s pipe = true → Runs (.tblRead a pipe cmd) s (fun t => t = { s with reply := ⟨.error, 0⟩ })) ∧
      (tblBusy s pipe = false → Runs (.tblRead a pipe cmd) s (fun t => t.reply = ⟨.ok, 0⟩ ∧ t.cls = s.cls ∧ t.hbm = s.hbm ∧
        fg t (clsB pipe) F.CLS_TBL_STATUS_RESULT = tblResult rs ∧ tblBusy t pipe = false ∧
        (rs.head? = some tOK →
          (∀ slot e, c.space = 0 → emFind s pipe c.table (slice (winBytes c.key) 0 (keyBytes16 s pipe c.table)) = some slot →
            getEm s pipe slot = some e → rd64 t (clsB pipe + R.CLS_TBL_RES) = e.res.toNat) ∧
          (c.space = 1 → rd64 t (clsB pipe + R.CLS_TBL_RES) =
            (tget (fun _ => {}) s.cls.tern (ternKey pipe c.bank (ternBase s pipe (c.table - 0x10) + c.index))).res.toNat) ∧
          (c.space = 2 → rdWords t (clsB pipe + R.CLS_TBL_KEY) 4 = numWords (getAct s pipe c.bank c.index) 4) ∧
          (c.space = 3 → rd64 t (clsB pipe + R.CLS_TBL_RES) = (getTmpl s pipe c.bank c.index).header.toNat) ∧
          (c.space = 4 → rd64 t (clsB pipe + R.CLS_TBL_RES) = (getSpread s pipe (c.index / 2)).n % 2 ^ 64) ∧
          (c.space = 5 → rdWords t (clsB pipe + R.CLS_TBL_KEY) 2 =
            numWords (getPar s pipe (c.table - 0x20) c.index).toNat 2)))))

/-- An inserted entry is found by its key in the banks its GEN bits name; other keys find what they found. A table
command that the INSERT of an exact-match entry with VALID set ends OK leaves the tables such that a lookup of its key
finds its result in a bank whose GEN bit is set and misses in the other, and every other key of the table finds what
it found; the other tables and the registers stay. MODIFY does the same for the entry that holds the key. DELETE of a
key that one candidate alone holds makes it a miss. -/
def Obligations.InsertedEntriesAreFound : Prop :=
  ∀ (s t : State) (pipe : Nat) (c : TblOp), c.space = 0 → tblOne s pipe c = (tOK, t) →
    let n := keyBytes16 s pipe c.table
    let k := slice (winBytes c.key) 0 n
    t.regs = s.regs ∧ t.cls = { s.cls with em := t.cls.em } ∧
    (c.op = 1 → c.res.getLsbD 63 = true →
      (∀ bank, bank < 2 → emLookup t pipe c.table (winBytes c.key) bank =
        if c.res.getLsbD (61 + bank) then some c.res else none) ∧
      ∀ k' bank, slice k' 0 n ≠ k → emLookup t pipe c.table k' bank = emLookup s pipe c.table k' bank) ∧
    (c.op = 3 → c.res.getLsbD 63 = true → ∀ bank, bank < 2 → emLookup t pipe c.table (winBytes c.key) bank =
      if c.res.getLsbD (61 + bank) then some c.res else none) ∧
    (c.op = 2 →
      (∀ x ∈ emCandidates s pipe c.table k, ∀ e, getEm s pipe x = some e → e.key = k → e.res.getLsbD 63 = true →
        emFind s pipe c.table k = some x) →
      ∀ bank, emLookup t pipe c.table (winBytes c.key) bank = none)

/-- A table setting is checked for overlap and size; FLIP waits for the edge or is refused. TABLE_CONFIG_WRITE that
reaches its register takes its BASE and SIZE, and for an exact-match table KEYW, where the new table is absent or
stays in its pool or bank without overlapping another present table (and, for an exact-match table, SIZE is a multiple
of 4); it replies ERROR and changes nothing otherwise. FLIP waits for the next edge where no retirement is in progress
and no flip waits, and is refused with ERROR and FLIP_REJECT otherwise, the generation and the tables staying. -/
def Obligations.TableConfigurationAndFlip : Prop :=
  ∀ (s : State) (a : Agent) (pipe idx : Fin 8) (v : Word),
    (∀ tern : Bool,
      let addr := clsB pipe + (if tern then R.CLS_TERN_CFG else R.CLS_EM_CFG) + 4 * idx
      let lo := if tern then 256 * bitsOf v 0 6 else 1024 * bitsOf v 2 8
      let n := if tern then 256 * bitsOf v 6 7 else 1024 * bitsOf v 10 8
      let fits := (tern = false → bitsOf v 10 8 % 4 = 0) ∧ (n = 0 ∨ (lo + n ≤ (if tern then 16384 else 131072) ∧
        ∀ u, u < 8 → u ≠ idx.val →
          let b := if tern then ternBase s pipe u else emBase s pipe u
          let m := if tern then ternSize s pipe u else emSize s pipe u
          m = 0 ∨ lo + n ≤ b ∨ b + m ≤ lo))
      Allowed s a addr v →
        (fits → Runs (.tableConfigWrite a pipe tern idx v) s (fun t =>
          t = { rawWr s addr (BitVec.ofNat 32 (bitsOf v 0 (if tern then 13 else 18))) with reply := ⟨.ok, 0⟩ })) ∧
        (¬ fits → Runs (.tableConfigWrite a pipe tern idx v) s (fun t => t = { s with reply := ⟨.error, 0⟩ }))) ∧
    (Allowed s a (clsB pipe + R.CLS_GEN_CTRL) v →
      (v.getLsbD 0 = true → retiring s pipe = false → pipe.val ∉ s.cls.flip → Runs (.flip a pipe v) s (fun t =>
        t = { s with cls := { s.cls with flip := s.cls.flip ++ [pipe.val] }, reply := ⟨.ok, 0⟩ })) ∧
      (v.getLsbD 0 = true → (retiring s pipe = true ∨ pipe.val ∈ s.cls.flip) → Runs (.flip a pipe v) s (fun t =>
        t.reply = ⟨.error, 0⟩ ∧ t.cls = s.cls ∧ activeGen t pipe = activeGen s pipe ∧
        evStatus t (0x202 + 16 * pipe) evFLIP_REJECT = true ∧ t.hbm = s.hbm)) ∧
      (v.getLsbD 0 = false → Runs (.flip a pipe v) s (fun t => t = { s with reply := ⟨.ok, 0⟩ })))

/-- Fetched records are installed, dirty ones written back, and acknowledgements release what they held. DECK_INSTALL
gives the oldest context of the pipeline that waits for a fetched record that record, bound to it; a record found in
the array alone stands clean in a way of this Deck. DECK_WRITEBACK takes the next selected record of the bank, queues
it for flow memory and marks it clean, a clean one being only taken off the list. WRITEBACK_ACK puts the pipeline's
oldest queued record into its 128 bytes of flow memory, every other byte staying, and a victim leaves the buffer and
the directory. INDEX_WRITE_ACK takes the oldest committed learn off the pending table. FLUSH_COMPLETE of a flush whose
writes are all acknowledged clears BUSY with RESULT OK. -/
def Obligations.DecksAndFlowMemory : Prop :=
  ∀ (s : State),
    (∀ (pipe : Fin 8) (k : Nat) (r : Req),
      let due := fun (j : Nat) (q : Req) => (getC s j).busy = true ∧ ctxPipe j = pipe ∧ flowReq (getC s j) = some q ∧
        q.missed = true ∧ q.got = none ∧ turnOf s j q = true
      let a := findTry s pipe r.table r.key
      twf (fun _ => {}) s.fl.ctxs = true → due k r → (∀ j q, due j q → j ≠ k → earlier s k j = true) → a.status = 3 →
      Runs (.deckInstall pipe) s (fun t => boundTo t a.idx = some k ∧
        reqOf (getC t k) (if r.op = 2 then 5 else 0) = some { r with got := some a.idx } ∧
        (∀ j, j ≠ k → getC t j = getC s j) ∧ t.frames = s.frames ∧ t.hbm = s.hbm ∧
        ∀ i, locate s pipe r.table r.key = .array i → ∃ w, w / 65536 = pipe.val ∧ (getWay t w).valid = true ∧
          (getWay t w).idx = i ∧ (getWay t w).record = arrayRec s i ∧ (getWay t w).dirty = false)) ∧
    (∀ (pipe : Fin 8) (bank : Fin 16) (k : Nat) (ks : List Nat), bank.val < 8 →
      tget (fun _ => []) s.fl.sel (pipe * 8 + bank) = k :: ks →
      Runs (.deckWriteback pipe bank) s (fun t => tget (fun _ => []) t.fl.sel (pipe * 8 + bank) = ks ∧
        getWay t k = { getWay s k with dirty := (getWay s k).dirty && !(getWay s k).valid } ∧
        (∀ j, j ≠ k → getWay t j = getWay s j) ∧ t.hbm = s.hbm ∧
        t.fl.wbq = s.fl.wbq ++ (if (getWay s k).valid && (getWay s k).dirty then
          [{ pipe := k / 65536, idx := (getWay s k).idx, record := (getWay s k).record, victim := false }] else []))) ∧
    (∀ (pipe : Fin 8) (i : WbItem), s.fl.wbq.find? (fun i => i.pipe == pipe.val) = some i → s.fuse.hbm = true →
      Runs (.writebackAck pipe) s (fun t => t.fl.wbq = s.fl.wbq.erase i ∧ t.fl.deck = s.fl.deck ∧
        (∀ n, n < i.record.length → mget t (arrayAt i.idx + n) = i.record.getD n 0) ∧
        (∀ x, x < arrayAt i.idx ∨ arrayAt i.idx + i.record.length ≤ x → mget t x = mget s x) ∧
        (i.victim = true → (∃ e ∈ wbOf s pipe, e.1 = i.idx) →
          wbOf t pipe = (wbOf s pipe).filter (fun e => decide (e.1 ≠ i.idx)) ∧ residentIn t i.idx = none))) ∧
    (∀ p, s.fl.pend.find? (fun p => p.ctx.isNone) = some p → Runs .indexWriteAck s (fun t =>
      t.fl.pend = s.fl.pend.filter (fun q => decide (q.idx ≠ p.idx)) ∧ t.hbm = s.hbm ∧
      fg t pgFT F.FT_PENDING_COUNT = t.fl.pend.length % 2 ^ 13)) ∧
    (s.fl.flushing = true → s.fl.wbq = [] → s.md.mode ≠ .dormant → Runs .flushComplete s (fun t =>
      t.fl.flushing = false ∧ t.hbm = s.hbm ∧
      (s.fl.ft = none → fgb s pgFT F.FT_FT_STATUS_BUSY = true →
        fgb t pgFT F.FT_FT_STATUS_BUSY = false ∧ fg t pgFT F.FT_FT_STATUS_RESULT = ftOK)))

/-- The Cruise refreshes throttles and marks aged records; the DORMANT pass refreshes every Deck. CRUISE_AGE_VISIT of
a Deck way that holds an unbound record refreshes its throttle where its elapsed count has reached 2^46 in a mode that
refreshes, making it dirty, and marks it for removal where it has aged in LIVE or DRAIN with AGE_EN; other ways and
flow memory stay. A visit of an index bucket shows PASS_ACTIVE, marks the aged records of its entries that no Deck
holds, and changes no byte where none is due for a refresh; one entry alone due is refreshed in place. The end of a
pass clears PASS_ACTIVE and raises AGE_PASS. DORMANT_REFRESH_PASS in DORMANT refreshes every record of a Deck that is
due. -/
def Obligations.CruiseRefreshesAndAges : Prop :=
  ∀ (s : State),
    let takes := fun (idx : Nat) => (residentIn s idx).isNone = true ∧ s.fl.bad.contains idx = false
    let live := fun (a : Nat) => entryValid (entryAt s a) = true ∧ poisoned s a 8 = false ∧ takes (entryIdx (entryAt s a))
    (∀ (pipe : Fin 8) (set : Nat) (way : Fin 16), set < 4096 →
      let k := wayKey pipe.val set way.val
      let w := getWay s k
      w.valid = true → isBound s w.idx = false →
      Runs (.cruiseAgeVisit (.deck pipe set way)) s (fun t =>
        getWay t k = (if refreshes s && thrOld s w.record then
          { w with record := refreshed s w.record, dirty := true, ply := plyNat s } else w) ∧
        (∀ j, j ≠ k → getWay t j = getWay s j) ∧ t.hbm = s.hbm ∧ t.regs = s.regs ∧
        (agesNow s = true → isAged s w.idx w.record = true → ∃ e ∈ t.fl.ageDue, e.1 = w.idx))) ∧
    (∀ b : Nat, b < 16777216 → s.fuse.hbm = true →
      let as := slotsOf (0x200000000 + b * 64)
      (agesNow s = true → (∀ a ∈ as, live a → thrOld s (arrayRec s (entryIdx (entryAt s a))) = false) →
        Runs (.cruiseAgeVisit (.bucket b)) s (fun t => t.hbm = s.hbm ∧ t.fl.deck = s.fl.deck ∧
          fg t pgFT F.FT_AGE_STATUS_PASS_ACTIVE = 1 ∧
          ∀ a ∈ as, live a → isAged s (entryIdx (entryAt s a)) (arrayRec s (entryIdx (entryAt s a))) = true →
            ∃ e ∈ t.fl.ageDue, e.1 = entryIdx (entryAt s a))) ∧
      (∀ a ∈ as, refreshes s = true → live a → (∀ c ∈ as, c ≠ a → entryValid (entryAt s c) = false) →
        thrOld s (arrayRec s (entryIdx (entryAt s a))) = true → Runs (.cruiseAgeVisit (.bucket b)) s (fun t =>
          arrayRec t (entryIdx (entryAt s a)) = refreshed s (arrayRec s (entryIdx (entryAt s a))) ∧
          ∀ x, x / 128 ≠ entryIdx (entryAt s a) → mget t x = mget s x))) ∧
    (s.fuse.hbm = true → agesNow s = true → Runs (.cruiseAgeVisit .passEnd) s (fun t => t.hbm = s.hbm ∧ t.fl = s.fl ∧
      fg t pgFT F.FT_AGE_STATUS_PASS_ACTIVE = 0 ∧ evStatus t 0x340 evAGE_PASS = true)) ∧
    (s.md.mode = .dormant → twf (fun _ => {}) s.fl.deck = true → Runs .dormantRefreshPass s (fun t => t.regs = s.regs ∧ t.frames = s.frames ∧
      ∀ k, getWay t k = (let w := getWay s k
        if w.valid = true ∧ isBound s w.idx = false ∧ thrOld s w.record = true then
          { w with record := refreshed s w.record, dirty := true, ply := plyNat s } else w)))

/-- FT_CMD READ and FIND answer in the window; the host waits for a bound record; FLUSH queues what is dirty. While
BUSY each of the nine operations of FT_CMD replies ERROR and changes nothing. FT_READ of a valid record that is not
BAD and not bound ends OK with the current record in FT_DATA. FT_FIND ends OK with the index of the key's record, or
NOT_FOUND. An index that holds no valid record ends NOT_FOUND, a BAD record BAD (an uncorrectable record of the array
being marked BAD with RECORD_UE), a FIND or INSERT of a table that is not enabled BAD_ARG, an INSERT of a key that
exists EXISTS. An operation on a bound record waits with BUSY set. FLUSH in a variant with flow memory marks every
record clean and queues each dirty one; in a variant without it ends OK. -/
def Obligations.HostFindsAndReadsRecords : Prop :=
  ∀ (s : State) (a : Agent) (cmd : Word),
    let addr := pgFT + R.FT_FT_CMD
    let rows : List (Nat × Instr) := [(1, .ftRead a cmd), (2, .ftWrite a cmd), (3, .ftInsert a cmd), (4, .ftFind a cmd),
      (5, .ftDelete a cmd), (6, .pin a cmd), (7, .unpin a cmd), (8, .flush a cmd), (9, .clearBad a cmd)]
    let ix := fg s pgFT F.FT_FT_ADDR_INDEX
    let d := wordsBytes (rdWords s (pgFT + R.FT_FT_DATA) 32)
    let t0 := rget d oTABLE 1
    let found := findKey s t0 (slice d 0 (keyW s t0))
    let idle := ∀ e ∈ s.fl.ctxs, flowReq e.2 = none
    let usable := s.fuse.hbm = true → residentIn s ix = none → (arrayUsable s ix).1 = true
    let ended := fun (t : State) (r : Nat) => t.reply = ⟨.ok, 0⟩ ∧ fgb t pgFT F.FT_FT_STATUS_BUSY = false ∧
      fg t pgFT F.FT_FT_STATUS_RESULT = r ∧ t.fl = { s.fl with ft := none } ∧ t.hbm = s.hbm ∧ t.frames = s.frames
    (∀ r ∈ rows, Allowed s a addr (setBits cmd 0 4 r.1) → fgb s pgFT F.FT_FT_STATUS_BUSY = true →
      Runs r.2 s (fun t => t = { s with reply := ⟨.error, 0⟩ })) ∧
    (fgb s pgFT F.FT_FT_STATUS_BUSY = false → idle →
      (Allowed s a addr (setBits cmd 0 4 1) → isBound s ix = false → usable → isBad s ix = false → hostRec s ix ≠ [] →
        Runs (.ftRead a cmd) s (fun t => ended t ftOK ∧
          rdWords t (pgFT + R.FT_FT_DATA) 32 = packWords 32 (slice (hostRec s ix) 0 128))) ∧
      (Allowed s a addr (setBits cmd 0 4 4) → tableOn s t0 = true → isBound s (found.getD noFlow) = false →
        isBad s (found.getD noFlow) = false →
        Runs (.ftFind a cmd) s (fun t => match found with
          | some i => i ≠ noFlow → ended t ftOK ∧ fg t pgFT F.FT_FT_ADDR_INDEX = i % 2 ^ 26
          | none => ended t ftNOT_FOUND)) ∧
      (∀ r ∈ rows, r.1 = 3 ∨ r.1 = 4 → Allowed s a addr (setBits cmd 0 4 r.1) → tableOn s t0 = false →
        Runs r.2 s (fun t => ended t ftBAD_ARG)) ∧
      (∀ i, Allowed s a addr (setBits cmd 0 4 3) → tableOn s t0 = true → found = some i → i ≠ noFlow → isBound s i = false →
        Runs (.ftInsert a cmd) s (fun t => ended t ftEXISTS)) ∧
      (∀ r ∈ rows, r.1 ∈ [1, 2, 5, 6, 7] → Allowed s a addr (setBits cmd 0 4 r.1) → isBound s ix = false →
        (s.fl.bad.contains ix = true → Runs r.2 s (fun t => ended t ftBAD)) ∧
        (s.fuse.hbm = true → residentIn s ix = none → s.fl.bad.contains ix = false → poisoned s (arrayAt ix) 128 = true →
          Runs r.2 s (fun t => fg t pgFT F.FT_FT_STATUS_RESULT = ftBAD ∧ fgb t pgFT F.FT_FT_STATUS_BUSY = false ∧
            t.fl = { s.fl with ft := none, bad := s.fl.bad ++ [ix] } ∧ evStatus t 0x340 evRECORD_UE = true ∧ t.hbm = s.hbm)) ∧
        (isBad s ix = false → usable → hostRec s ix = [] → Runs r.2 s (fun t => ended t ftNOT_FOUND))) ∧
      (∀ r ∈ rows, r.1 ∈ [1, 2, 5, 6, 7, 9] → Allowed s a addr (setBits cmd 0 4 r.1) → isBound s ix = true →
        Runs r.2 s (fun t => t.reply = ⟨.ok, 0⟩ ∧ fgb t pgFT F.FT_FT_STATUS_BUSY = true ∧ t.hbm = s.hbm ∧
          (∃ c, t.fl = { s.fl with ft := some c } ∧ c.op = r.1 ∧ c.addr = ix) ∧
          ∀ x, x ≠ pgFT + R.FT_FT_STATUS → rawRd t x = rawRd s x))) ∧
    (Allowed s a addr (setBits cmd 0 4 8) → fgb s pgFT F.FT_FT_STATUS_BUSY = false →
      (s.fuse.hbm = false → Runs (.flush a cmd) s (fun t => ended t ftOK)) ∧
      (s.fuse.hbm = true → Runs (.flush a cmd) s (fun t => t.reply = ⟨.ok, 0⟩ ∧ t.fl.flushing = true ∧
        fgb t pgFT F.FT_FT_STATUS_BUSY = true ∧ t.hbm = s.hbm ∧
        ∀ k, (getWay s k).valid = true → getWay t k = { getWay s k with dirty := false } ∧
          ((getWay s k).dirty = true → ∃ i ∈ t.fl.wbq, i.idx = (getWay s k).idx ∧ i.record = (getWay s k).record))))

/-- FT_CMD WRITE, INSERT, DELETE, PIN, UNPIN and CLEAR_BAD change the record they name. Not BUSY, no routine waiting
for a record and the record not bound: FT_WRITE whose window has the record's table and key leaves the window as the
current record but for GEN, and another key ends BAD_ARG. FT_INSERT of a new key takes the index allocated (a free way
without flow memory), stores the record VALID and HOST under the next GEN with its index entry, and shows the index.
FT_DELETE, and CLEAR_BAD of a BAD record, leave the record not VALID, its way empty, its residency none and its index
last of the free list. PIN of a record in the named Deck sets PIN in the tag and in FLAGS, or ends PIN_FULL with
twelve pinned ways in the set; UNPIN clears PIN. CLEAR_BAD of a record that is not BAD ends NOT_FOUND. -/
def Obligations.HostChangesRecords : Prop :=
  ∀ (s : State) (a : Agent) (cmd : Word),
    let addr := pgFT + R.FT_FT_CMD
    let ix := fg s pgFT F.FT_FT_ADDR_INDEX
    let d := wordsBytes (rdWords s (pgFT + R.FT_FT_DATA) 32)
    let t0 := rget d oTABLE 1
    let key := slice d 0 (keyW s t0)
    let r := hostRec s ix
    let pipe := bitsOf (setBits cmd 0 4 6) 4 3
    let ready := fgb s pgFT F.FT_FT_STATUS_BUSY = false ∧ twf (fun _ => {}) s.fl.deck = true ∧
      (∀ e ∈ s.fl.ctxs, flowReq e.2 = none)
    let clean := ready ∧ isBound s ix = false ∧ isBad s ix = false ∧
      (s.fuse.hbm = true → residentIn s ix = none → (arrayUsable s ix).1 = true)
    let ended := fun (t : State) (n : Nat) => t.reply = ⟨.ok, 0⟩ ∧ fgb t pgFT F.FT_FT_STATUS_BUSY = false ∧
      fg t pgFT F.FT_FT_STATUS_RESULT = n ∧ t.fl.ft = none ∧ t.fl.ctxs = s.fl.ctxs ∧ t.frames = s.frames
    let gone := fun (t : State) => ended t ftOK ∧
      (s.fuse.hbm = true → residentIn t ix = none ∧ t.fl.freeTail = s.fl.freeTail ++ [ix] ∧
        (∀ k, deckByIdx s ix = some k → getWay t k = {})) ∧
      (s.fuse.hbm = false → t.hbm = s.hbm ∧ ∀ k, deckByIdx s ix = some k →
        getWay t k = { record := setFlag (curRec s ix) flVALID false })
    (Allowed s a addr (setBits cmd 0 4 2) → clean → r ≠ [] →
      (t0 = rget r oTABLE 1 → slice d 0 40 = slice r 0 40 → (s.fuse.hbm = false → ∃ k, deckByIdx s ix = some k) →
        Runs (.ftWrite a cmd) s (fun t => ended t ftOK ∧ curRec t ix = rset d oGEN 1 (rget r oGEN 1) ∧
          ∀ x, x / 128 ≠ ix → mget t x = mget s x)) ∧
      ((t0 ≠ rget r oTABLE 1 ∨ slice d 0 40 ≠ slice r 0 40) → Runs (.ftWrite a cmd) s (fun t =>
        ended t ftBAD_ARG ∧ t.fl = { s.fl with ft := none } ∧ t.hbm = s.hbm))) ∧
    (Allowed s a addr (setBits cmd 0 4 3) → ready → tableOn s t0 = true → findKey s t0 key = none →
      isBound s noFlow = false →
      let rec0 := setFlag (setFlag (splice d 0 (slice key 0 40)) flVALID true) flHOST true
      (∀ i s1 e s2, s.fuse.hbm = true → allocIdx s = some (i, s1) → i < 67108864 → reserveSlot s1 t0 key = some (e, s2) →
        0x200000000 ≤ e → e % 8 = 0 →
        Runs (.ftInsert a cmd) s (fun t => ended t ftOK ∧ fg t pgFT F.FT_FT_ADDR_INDEX = i ∧
          arrayRec t i = rset rec0 oGEN 1 (nextGen s2 i) ∧ entryAt t e = mkEntry t0 i (sigOf t0 key))) ∧
      (s.fuse.hbm = true → allocIdx s = none → Runs (.ftInsert a cmd) s (fun t => ended t ftFULL ∧ t.hbm = s.hbm)) ∧
      (∀ k, s.fuse.hbm = false → freeWayIn s (waysOf (bitsOf (setBits cmd 0 4 3) 4 3) (setOf t0 key)) = some k →
        Runs (.ftInsert a cmd) s (fun t => ended t ftOK ∧ t.hbm = s.hbm ∧ fg t pgFT F.FT_FT_ADDR_INDEX = k % 2 ^ 26 ∧
          (getWay t k).valid = true ∧ (getWay t k).idx = k ∧
          (getWay t k).record = rset rec0 oGEN 1 ((wayGen s k + 1) % 256) ∧ ∀ j, j ≠ k → getWay t j = getWay s j))) ∧
    (Allowed s a addr (setBits cmd 0 4 5) → clean → r ≠ [] → Runs (.ftDelete a cmd) s gone) ∧
    (Allowed s a addr (setBits cmd 0 4 9) →
      (ready → isBound s ix = false → isBad s ix = true → Runs (.clearBad a cmd) s (fun t => gone t ∧ ix ∉ t.fl.bad)) ∧
      (clean → Runs (.clearBad a cmd) s (fun t => ended t ftNOT_FOUND ∧ t.hbm = s.hbm))) ∧
    (∀ k, Allowed s a addr (setBits cmd 0 4 6) → clean → r ≠ [] → deckByIdx s ix = some k →
      (k / 65536 = pipe ∨ s.fuse.hbm = false) → (getWay s k).pin = false →
      let full := 12 ≤ pinnedIn s (waysOf (k / 65536) (setOf (rget r oTABLE 1) (slice r 0 (keyW s (rget r oTABLE 1)))))
      (¬ full → Runs (.pin a cmd) s (fun t => ended t ftOK ∧ t.hbm = s.hbm ∧ (getWay t k).pin = true ∧
        (getWay t k).record = setFlag (getWay s k).record flPIN true ∧ ∀ j, j ≠ k → getWay t j = getWay s j)) ∧
      (full → Runs (.pin a cmd) s (fun t => ended t ftPIN_FULL ∧ t.fl = { s.fl with ft := none } ∧ t.hbm = s.hbm))) ∧
    (∀ k, Allowed s a addr (setBits cmd 0 4 7) → clean → r ≠ [] → deckByIdx s ix = some k →
      Runs (.unpin a cmd) s (fun t => ended t ftOK ∧ t.hbm = s.hbm ∧ (getWay t k).pin = false ∧
        (getWay t k).record = setFlag (getWay s k).record flPIN false ∧ ∀ j, j ≠ k → getWay t j = getWay s j))

/-- Counter bank commands read, write and clear; a throttle rate changes at an edge. CTR_READ that reaches its
register shows the addressed counter in CTR_DATA. CTR_WRITE stores CTR_DATA in it, an add of the same cycle being lost
but its wrap recorded in CTR_WRAP; other counters stay. CLEAR_BANK waits for the edge, at which every counter of the
addressed bank of this pipeline reads 0 and the others stay. THROTTLE_RATE_WRITE writes RATE; at the edge at which it
takes effect OLD_RATE holds the rate before and the change ply is recorded. -/
def Obligations.CounterBanksAndRates : Prop :=
  ∀ (s : State) (a : Agent) (pipe : Fin 8) (cmd : Word),
    let addr := deckB pipe + R.DECK_CTR_CMD
    let b := ctrBankAt s pipe
    let i := ctrIdxAt s pipe
    (Allowed s a addr (setBits cmd 0 3 1) → Runs (.ctrRead a pipe cmd) s (fun t =>
      t.reply = ⟨.ok, 0⟩ ∧ rd64 t (deckB pipe + R.DECK_CTR_DATA) = (ctrGet s pipe b i).toNat ∧ t.fl = s.fl ∧
      t.hbm = s.hbm ∧ ∀ x, x ≠ deckB pipe + R.DECK_CTR_DATA → x ≠ deckB pipe + R.DECK_CTR_DATA + 4 → rawRd t x = rawRd s x)) ∧
    (Allowed s a addr cmd → ∀ add : Option Nat, Runs (.ctrWrite a pipe cmd add) s (fun t => t.reply = ⟨.ok, 0⟩ ∧
      ctrGet t pipe b i = BitVec.ofNat 64 (rd64 s (deckB pipe + R.DECK_CTR_DATA)) ∧
      (∀ p c j, c < 16 → j < 8192 → (p ≠ pipe.val ∨ c ≠ b ∨ j ≠ i) → ctrGet t p c j = ctrGet s p c j) ∧
      (∀ n, add = some n → 2 ^ 64 ≤ (ctrGet s pipe b i).toNat + n % 2 ^ 64 →
        (fg t (deckB pipe) F.DECK_CTR_WRAP_WRAP).testBit b = true) ∧
      (∀ x, x ≠ deckB pipe + R.DECK_CTR_WRAP → rawRd t x = rawRd s x) ∧ t.hbm = s.hbm)) ∧
    (Allowed s a addr (setBits cmd 0 3 4) → Runs (.clearBank a pipe cmd) s (fun t => t.reply = ⟨.ok, 0⟩ ∧
      t.fl = { s.fl with ctrClear := s.fl.ctrClear ++ [pipe * 16 + b] } ∧ t.regs = s.regs ∧ t.hbm = s.hbm ∧
      (∀ j, j < 8192 → ctrGet (ctrClearEdge t) pipe b j = 0) ∧
      ∀ p c j, c < 16 → j < 8192 → p * 16 + c ∉ t.fl.ctrClear → ctrGet (ctrClearEdge t) p c j = ctrGet s p c j)) ∧
    (∀ (k : Fin 256) (v : Word), Allowed s a (thrAt k) v →
      Runs (.throttleRateWrite a k v) s (fun t => t = { rawWr s (thrAt k) v with reply := ⟨.ok, 0⟩ } ∧ t.eff = s.eff)) ∧
    (∀ (before : State) (k : Fin 256), k.val ≠ 0 → cg before (thrAt k) F.THR_RATE_RATE ≠ fg s (thrAt k) F.THR_RATE_RATE →
      let t := throttleEdge before s k
      cg t (thrAt k) F.THR_OLD_RATE_OLD = cg before (thrAt k) F.THR_RATE_RATE ∧
      tget (fun _ => 0) t.fl.thrPly k = plyNat s)

/-- A permitted write is done at acceptance, a read returns what memory holds, and no other byte changes. In a variant
with flow memory, HBM_REQUEST of a write that its port may make, at a trained controller that is ACTIVE, puts its
bytes in flow memory and no other, unless it covers part of an uncorrectable codeword; a read is queued; a request of
a region closed to its port changes no byte and raises REGION_VIOLATION; at an untrained controller or one in self-
refresh it is held. HBM_READ_COMPLETE returns the 64 bytes of the next read, unpoisoned where at most one symbol of
each codeword was in error and none was uncorrectable, poisoned where a codeword showed two. REQUEST_LATE counts and
raises LATE; LIMIT_WINDOW_END restarts the counts; CORRECTIVE_WRITE takes a granule off the list; HBM_SCRUB_READ goes
on to the next granule. -/
def Obligations.FlowMemoryServesRequests : Prop :=
  ∀ (s : State), s.fuse.hbm = true →
    (∀ (port : Fin 21) (a : Nat) (w : Option (List Byte)),
      let c := ctlOf a
      let n := match w with
        | some bs => bs.length
        | none => 1
      let r : HReq := { port := port, addr := a, t := cmdNow s, write := w }
      n ≠ 0 → a % 64 + n ≤ 64 →
      (portMay port a w.isSome = false → Runs (.hbmRequest port a w) s (fun t => t.hbm.mem = s.hbm.mem ∧
        t.hbm.poison = s.hbm.poison ∧ evStatus t (mcPage c) evREGION_VIOLATION = true ∧
        (getM t c).ret = some (port.val, a, [], true) ∧ (getM t c).reads = (getM s c).reads)) ∧
      (portMay port a w.isSome = true →
        (trained s c = true → srState s c ≤ 1 →
          (∀ bs, w = some bs → (∀ x ∈ touched a n, s.hbm.poison.contains x = true → whole a n x = true) →
            Runs (.hbmRequest port a w) s (fun t => srState t c = srACTIVE ∧
              (∀ k, k < n → mget t (a + k) = bs.getD k 0) ∧ (∀ x, x < a ∨ a + n ≤ x → mget t x = mget s x) ∧
              (∀ x ∈ touched a n, t.hbm.poison.contains x = false) ∧
              (getM t c).ret = some (port.val, a, [], false) ∧ (getM t c).reads = (getM s c).reads ∧
              ∀ d, d ≠ c → getM t d = getM s d)) ∧
          (∀ bs, w = some bs → (∃ x ∈ touched a n, s.hbm.poison.contains x = true ∧ whole a n x = false) →
            Runs (.hbmRequest port a w) s (fun t => t.hbm.mem = s.hbm.mem ∧ evStatus t (mcPage c) evECC_UE = true ∧
              (getM t c).ret = some (port.val, a, [], true))) ∧
          (w = none → Runs (.hbmRequest port a w) s (fun t => t.hbm.mem = s.hbm.mem ∧ srState t c = srACTIVE ∧
            (getM t c).reads = (getM s c).reads ++ [{ r with addr := a / 64 * 64 }] ∧ ∀ d, d ≠ c → getM t d = getM s d))) ∧
        ((trained s c = false ∨ 2 ≤ srState s c) → Runs (.hbmRequest port a w) s (fun t => t.hbm.mem = s.hbm.mem ∧
          getM t c = { getM s c with held := (getM s c).held ++ [r] } ∧ (∀ d, d ≠ c → getM t d = getM s d) ∧
          (trained s c = true → srState t c = srEXITING))))) ∧
    (∀ (c : Fin 16) (errs : List (Nat × Nat)) (r : HReq), nextRead s c = some r → r.addr % 64 = 0 →
      ((∀ k, k < 4 → (errs.getD k (0, 0)).1 ≤ 1) → poisoned s r.addr 64 = false →
        Runs (.hbmReadComplete c errs) s (fun t => t.hbm.mem = s.hbm.mem ∧ t.hbm.poison = s.hbm.poison ∧
          (getM t c).reads = (getM s c).reads.erase r ∧
          (getM t c).ret = some (r.port, r.addr, mrd s r.addr 64, false))) ∧
      ((∀ k, k < 4 → (errs.getD k (0, 0)).1 ≤ 2) → (∃ k, k < 4 ∧ (errs.getD k (0, 0)).1 = 2) →
        Runs (.hbmReadComplete c errs) s (fun t => t.hbm.mem = s.hbm.mem ∧ evStatus t (mcPage c) evECC_UE = true ∧
          (getM t c).ret = some (r.port, r.addr, mrd s r.addr 64, true)))) ∧
    (∀ (c : Fin 16) (r : HReq), (getM s c).reads.find? (fun r => !r.late && urgency s c r == 3) = some r → r.port < 22 →
      Runs (.requestLate c) s (fun t => t.hbm.mem = s.hbm.mem ∧ evStatus t (mcPage c) evLATE_REQ = true ∧
        (getM t c).reads = (getM s c).reads.map (fun x => if x = r then { x with late := true } else x) ∧
        (frozen s (mcPage c) = false → rd64 t (mcB c + R.HBM_LATE + 8 * r.port) =
          (rd64 s (mcB c + R.HBM_LATE + 8 * r.port) + 1) % 2 ^ 64))) ∧
    (∀ c : Fin 16,
      Runs (.limitWindowEnd c) s (fun t => getM t c = { getM s c with used := [] } ∧ t.regs = s.regs ∧
        t.hbm.mem = s.hbm.mem ∧ ∀ d, d ≠ c.val → getM t d = getM s d) ∧
      Runs (.correctiveWrite c) s (fun t => getM t c = { getM s c with corr := (getM s c).corr.drop 1 } ∧ t.regs = s.regs ∧
        t.hbm.mem = s.hbm.mem ∧ ∀ d, d ≠ c.val → getM t d = getM s d) ∧
      ∀ errs : List (Nat × Nat), trained s c = true → srState s c = srACTIVE → fgb s (mcB c) F.HBM_MC_CTRL_SCRUB_EN = true →
        (∀ k, k < 4 → (errs.getD k (0, 0)).1 ≤ 2) → Runs (.hbmScrubRead c errs) s (fun t => t.hbm.mem = s.hbm.mem ∧
          (getM t c).scrub = (if 33554432 ≤ (getM s c).scrub + 1 then 0 else (getM s c).scrub + 1) ∧
          (getM t c).reads = (getM s c).reads ∧ ∀ d, d ≠ c.val → getM t d = getM s d))

/-- Refresh, training, probes and self-refresh move their controller and leave the bytes of flow memory. HBM_REFRESH
at a trained controller not in self-refresh closes the row of its bank where no urgent request waits for it.
HOT_REPORTED and HOT_CLEARED show HOT and the temperature. ROW_IDLE_CLOSE closes a row idle for OPEN_IDLE.
RECENTRE_PROBE with one side failing counts DRIFT one step away and queues the move; with both failing it raises
MARGIN_LOW; with none nothing changes. DELAY_CHANGE_APPLY moves the delay. HBM_TRAINING_COMPLETE records the middle
and the length of the eye; a lane that fails once is swept again, and failing again raises TRAIN_FAIL. SR_ENTER,
SR_COMMIT, SR_EXIT, SR_EXIT_COMPLETE and SR_IDLE_REENTER take the controller from state to state. Each leaves the
bytes of flow memory, but for the clearing after a first training and held requests served. -/
def Obligations.FlowMemoryUpkeep : Prop :=
  ∀ (s : State) (c : Fin 16), s.fuse.hbm = true →
    let only := fun (t : State) => t.hbm.mem = s.hbm.mem ∧ ∀ d, d ≠ c.val → getM t d = getM s d
    (∀ (pc : Fin 4) (bank : Fin 64), trained s c = true → srState s c ≠ srSELF →
      (∀ r ∈ (getM s c).reads, bankKey r.addr = pc.val * 64 + bank → urgency s c r ≠ 3) →
      Runs (.hbmRefresh c pc bank) s (fun t => only t ∧ rowOpen (getM t c) (pc * 64 + bank) = none ∧
        (∀ k, k ≠ pc.val * 64 + bank → rowOpen (getM t c) k = rowOpen (getM s c) k) ∧ (getM t c).reads = (getM s c).reads)) ∧
    (∀ temp : BitVec 8,
      Runs (.hotReported c temp) s (fun t => only t ∧ fg t (mcB c) F.HBM_MC_STATUS_HOT = 1 ∧
        fg t (mcB c) F.HBM_MC_STATUS_TEMP = temp.toNat ∧ srState t c = srState s c) ∧
      Runs (.hotCleared c temp) s (fun t => only t ∧ fg t (mcB c) F.HBM_MC_STATUS_HOT = 0 ∧
        fg t (mcB c) F.HBM_MC_STATUS_TEMP = temp.toNat ∧ srState t c = srState s c)) ∧
    (∀ (pc : Fin 4) (bank : Nat), (rowOpen (getM s c) (pc * 64 + bank)).isSome = true →
      tget (fun _ => 0) (getM s c).rowHit (pc * 64 + bank) + fg s (mcB c) F.HBM_PAGE_CFG_OPEN_IDLE ≤ cmdNow s →
      Runs (.rowIdleClose c pc bank) s (fun t => only t ∧ t.regs = s.regs ∧ rowOpen (getM t c) (pc * 64 + bank) = none)) ∧
    (∀ (q : Fin 4) (j : Fin 5) (write low high : Bool), trained s c = true → fgb s (mcB c) F.HBM_MC_CTRL_RECENTRE_EN = true →
      (s.md.mode = .live ∨ s.md.mode = .drain) →
      let f := laneRef q j (fDrift write)
      let d := sext 8 (fg s (mcB c) f) + (if high then 1 else -1)
      (low ≠ high → -128 ≤ d → d ≤ 127 → Runs (.recentreProbe c q j write low high) s (fun t => only t ∧
        sext 8 (fg t (mcB c) f) = d ∧
        (getM t c).moves = (getM s c).moves ++ [((5 * q.val + j) * 2 + (if write then 1 else 0), high)] ∧
        ((fg s (mcB c) F.HBM_TRAIN_CFG_DRIFT_LIMIT : Int) < d.natAbs → evStatus t (mcPage c) evMARGIN_LOW = true))) ∧
      (low = false → high = false → Runs (.recentreProbe c q j write low high) s (fun t => only t ∧
        evStatus t (mcPage c) evMARGIN_LOW = true ∧ retrainDue t c = true)) ∧
      (low = true → high = true → Runs (.recentreProbe c q j write low high) s (fun t => t = s))) ∧
    (∀ (k : Nat) (up : Bool) (rest : List (Nat × Bool)), k < 40 → (getM s c).moves = (k, up) :: rest →
      let f := laneRef (k / 2 / 5) (k / 2 % 5) (fDelay (k % 2 == 1))
      let v := fg s (mcB c) f
      (if up then v < 127 else 0 < v) → Runs (.delayChangeApply c) s (fun t => only t ∧ (getM t c).moves = rest ∧
        fg t (mcB c) f = if up then v + 1 else v - 1)) ∧
    (∀ (q : Fin 4) (j : Fin 5) (write : Bool) (passes : BitVec 128), s.md.mode = .calibrate → srState s c = srACTIVE →
      let e := eyeOf passes
      let k := (5 * q.val + j) * 2 + (if write then 1 else 0)
      let min := fg s (mcB c) F.HBM_TRAIN_CFG_MIN_EYE
      (min ≤ e.2 → e.2 < 128 → 0 < e.2 → Runs (.hbmTrainingComplete c q j write passes) s (fun t =>
        fg t (mcB c) (laneRef q j (fDelay write)) = (e.1 + (e.1 + e.2 - 1)) / 2 ∧
        fg t (mcB c) (laneRef q j (fEye write)) = e.2 ∧ fg t (mcB c) (laneRef q j (fDrift write)) = 0 ∧
        k ∈ (getM t c).swept ∧ (trained s c = true → only t))) ∧
      (e.2 < min → k ∉ (getM s c).failedOnce → Runs (.hbmTrainingComplete c q j write passes) s (fun t => only t ∧
        t.regs = s.regs ∧ (getM t c).failedOnce = (getM s c).failedOnce ++ [k])) ∧
      (e.2 < min → k ∈ (getM s c).failedOnce → Runs (.hbmTrainingComplete c q j write passes) s (fun t => only t ∧
        evStatus t (mcPage c) evMC_TRAIN_FAIL = true))) ∧
    (trained s c = true → srState s c = srACTIVE → Runs (.srEnter c) s (fun t => only t ∧ srState t c = srENTERING)) ∧
    (srState s c = srENTERING → (getM s c).reads = [] → Runs (.srCommit c) s (fun t => only t ∧ srState t c = srSELF ∧
      (getM t c).rows = [])) ∧
    (∀ (a : Agent) (v : Word), Allowed s a (mcB c + R.HBM_SR_CTRL) v → Runs (.srExit a c v) s (fun t => only t ∧
      t.reply = ⟨.ok, 0⟩ ∧ fg t (mcB c) F.HBM_SR_CTRL_SR_IDLE = bitsOf v 16 16 ∧
      let entered := if v.getLsbD 0 = true ∧ trained s c = true ∧ srState s c = srACTIVE then srENTERING else srState s c
      srState t c = if v.getLsbD 1 = true then (if entered = srENTERING then srACTIVE
        else if entered = srSELF then srEXITING else entered) else entered)) ∧
    (∀ ok : Bool, srState s c = srEXITING → Runs (.srExitComplete c ok) s (fun t => srState t c = srACTIVE ∧
      (trained s c = true → (getM t c).held = []) ∧ ((getM s c).held = [] → only t) ∧
      (ok = false → (getM s c).byExit = true → evStatus t (mcPage c) evMARGIN_LOW = true))) ∧
    (trained s c = true → srState s c = srACTIVE → s.md.mode = .dormant → fgb s (mcB c) F.HBM_MC_CTRL_AUTO_REENTER = true →
      (getM s c).byExit = false → (getM s c).reads = [] →
      (getM s c).lastReq + fg s (mcB c) F.HBM_SR_CTRL_SR_IDLE * 1200 ≤ cmdNow s →
      Runs (.srIdleReenter c) s (fun t => only t ∧ srState t c = srENTERING))

/-- Admission reserves cells of the account or drops; the resequencers pass, hold, discard or give up cells.
SWITCH_CORE_ADMISSION of a good frame forwarded to a port or an enabled sequenced output reserves cells of its account
where its limit allows it and no WRED profile applies, and issues the cells it knows over the usable planes; over its
class queue's limit it is dropped with LIMIT_DROP; a bad or disabled output drops it; a valid multicast group makes
one copy for each mapped member and the original leaves. RESEQ_CELL_ARRIVAL of the expected cell passes it on, of a
later one within the window holds it, of another counts STALE. RESEQ_TIMEOUT gives the missing cells up and passes
cells it held. PLANE_FAULT marks the plane and loses its cells. FREE_LIST_CHECK makes each bank's use what frames own.
-/
def Obligations.AdmissionAndResequencing : Prop :=
  ∀ (s : State),
    (∀ id : Nat,
      let f := getF s id
      let o := f.verdict.egress
      let g : Frame := if f.verdict.kind = 0 then { f with out := o, outCls := f.verdict.cls }
        else { f with out := seqPort s o, outCls := seqClass s o, seqOut := some o }
      let a := accountOf s g
      let n := cellsOf (maxFrame s f.port)
      let resv := if f.ended then min n (cellsOf f.bytes.length) else n
      let k := min (knownCells f) resv
      f.live = true → f.stage = .flowDone → f.bad = false → f.verdict.fwd = true → f.verdict.doMirror = false →
      f.isCopy = false → f.isMirror = false → f.acct = .none → f.banks = [] → f.seqOut = none → f.verdict.cls < 8 →
      sprayList s (pipeOf f.port) = [] →
      ((f.verdict.kind = 0 ∧ o ≤ 264 ∨ f.verdict.kind = 1 ∧ o ≤ 31 ∧ seqEn s o = true) → txIdled s g.out = false →
        (limitTest s a n).1 = false →
        (∀ p c, a = .queue p c → 256 ≤ p ∨ cg s (accB p) (F.ACC_QCFG_WRED_PROFILE.fwd (4 * c)) = 0) →
        (∀ p c, a = .lossless p c → cg s (accB g.out) (F.ACC_QCFG_WRED_PROFILE.fwd (4 * g.outCls)) = 0) →
        (∀ p, p < 8 → usable s p = true ∧ bankUsed s p + 64 ≤ 73728) →
        Runs (.switchCoreAdmission id) s (fun t => (getF t id).stage = .spraying ∧ (getF t id).acct = a ∧
          (getF t id).resv = resv ∧ (getF t id).out = g.out ∧ (getF t id).outCls = g.outCls ∧ (getF t id).sprayed = k ∧
          t.core.flight.length = s.core.flight.length + k ∧
          (∀ c ∈ t.core.flight, c ∉ s.core.flight → c.frame = id ∧ c.stream = streamOf g) ∧
          (∀ p c, p < 256 → c < 8 → a = .queue p c → accUse t a = accUse s a + resv) ∧
          (∀ j, j ≠ id → getF t j = getF s j) ∧ t.hbm = s.hbm)) ∧
      (∀ p c, f.verdict.kind = 0 → o ≤ 264 → p < 256 → c < 8 → txIdled s g.out = false → a = .queue p c → f.ended = true →
        scaled s (cg s (accB p) (F.ACC_QCFG_QLIMIT.fwd (4 * c))) < accUse s a + n →
        Runs (.switchCoreAdmission id) s (fun t => getF t id = {} ∧ (∀ j, j ≠ id → getF t j = getF s j) ∧ t.hbm = s.hbm ∧
          (frozen s (0x390 + p / 16) = false → rd64 t (accB p + R.ACC_LIMIT_DROP) =
            (rd64 s (accB p + R.ACC_LIMIT_DROP) + 1) % 2 ^ 64))) ∧
      (f.verdict.kind = 1 → f.ended = true → (31 < o ∨ seqEn s o = false) →
        Runs (.switchCoreAdmission id) s (fun t => getF t id = {} ∧ (∀ j, j ≠ id → getF t j = getF s j) ∧ t.hbm = s.hbm)) ∧
      (f.verdict.kind = 2 → f.ended = true → idled s 0x381 = false → (getGroup s o).valid = true → f.port < 265 →
        Runs (.switchCoreAdmission id) s (fun t => t.hbm = s.hbm ∧ (frozen s (0x388 + pipeOf f.port) = false →
          rd64 t (egpB (pipeOf f.port) + R.EGP_COPIES) = (rd64 s (egpB (pipeOf f.port) + R.EGP_COPIES) +
            (groupTargets s (getGroup s o) f.cap.port).1.length) % 2 ^ 64)))) ∧
    (∀ (st : Fin 512) (q : Fin 4096) (c : Cell), s.core.flight.find? (fun c => c.stream == st.val && c.seq == q.val) = some c →
      let r := getR s st
      let t' := fun (t : State) => t.core.flight = s.core.flight.filter (· ≠ c) ∧ t.hbm = s.hbm
      (r.expected = q → r.held = [] → Runs (.reseqCellArrival st q) s (fun t => t' t ∧
        getR t st = { expected := (r.expected + 1) % 4096, held := [] } ∧
        (0 < c.idx → c.last = false → (getF s c.frame).live = true → (getF t c.frame).passed = (getF s c.frame).passed + 1))) ∧
      (r.expected ≠ q → r.expected < 4096 → (q.val + 4096 - r.expected) % 4096 < 1024 → (∀ x ∈ r.held, x.seq ≠ r.expected) →
        Runs (.reseqCellArrival st q) s (fun t => t' t ∧ t.frames = s.frames ∧
          getR t st = { r with held := r.held ++ [{ c with arr := nowCycles s }] })) ∧
      (1024 ≤ (q.val + 4096 - r.expected) % 4096 → Runs (.reseqCellArrival st q) s (fun t => t' t ∧ t.frames = s.frames ∧
        getR t st = r ∧ (frozen s (0x388 + st / 8 % 8) = false → rd64 t (egpB (st / 8 % 8) + R.EGP_RESEQ_STALE) =
          (rd64 s (egpB (st / 8 % 8) + R.EGP_RESEQ_STALE) + 1) % 2 ^ 64)))) ∧
    (∀ st : Fin 512, timeoutDue s st = true → (getR s st).expected < 4096 → (∀ c ∈ (getR s st).held, c.seq < 4096) →
      Runs (.reseqTimeout st) s (fun t => t.hbm = s.hbm ∧ (getR t st).held.length < (getR s st).held.length ∧
        (∀ c ∈ (getR t st).held, c ∈ (getR s st).held) ∧ (getR t st).expected ≠ (getR s st).expected)) ∧
    (∀ p : Fin 8, Runs (.planeFault p) s (fun t => (fg t pgSC F.SC_PLANE_STATUS_FAULT).testBit p = true ∧
      (∀ c ∈ t.core.flight, c.plane ≠ p) ∧ (∀ c ∈ s.core.flight, c.plane = p.val → c ∈ t.core.lost) ∧
      evStatus t 0x380 2 = true ∧ t.frames = s.frames ∧ t.hbm = s.hbm)) ∧
    Runs .freeListCheck s (fun t => (∀ b, b < 8 → bankUsed t b = ownedCells s b) ∧ t.frames = s.frames ∧ t.hbm = s.hbm ∧
      ∀ x, x ≠ pgSC + F.SC_FREE_CELLS_COUNT.off → rawRd t x = rawRd s x)

/-- Grants move a frame to its transmitter, a transmitted frame leaves, copies launch or miss. EGRESS_GRANT within the
ply's share of 128, in a mode that forwards, grants the frame that the pipeline's scheduler chooses (the head of a
release queue or of a class queue) where its port is UP and the frame is good, keeps its TTL and fits its Brand: it is
last of the granted frames and the share is used by one. FRAME_TRANSMITTED of a frame whose bytes and cells are all
there sends its edited bytes and frees the record, counting TX_FRAMES or STOMPED; at a recirculation port a good frame
enters the ingress again. COPY_LAUNCH begins the copy of the lowest target on an UP port whose transmitter is free,
and misses it else. LATE_MAX_EXPIRY drops a late copy that has not begun. -/
def Obligations.EgressGrantsAndTransmits : Prop :=
  ∀ (s : State),
    (∀ (pipe : Fin 8) (p id cls : Nat),
      let u := noteHeads s pipe
      let used := tget (fun _ => 0) s.tmg.grantsPly pipe
      let f := getF u id
      let w := brandWanted u f p
      forwards s = true → used < 128 →
      (choose u pipe = some (.release p) ∧ (getP u p).release.head? = some id ∧ cls = 8 ∨
        (∃ P pos, choose u pipe = some (.cls p cls P pos)) ∧ (queueIds u p cls).head? = some id ∧ cls < 8 ∧
          wdDrops u p cls = false) →
      isUp u p = true → f.bad = false → ttlDrops f = false → (w = 0 ∨ brandFits u f p w = true) →
      Runs (.egressGrant pipe) s (fun t => (getF t id).stage = .granted ∧ (getF t id).grantPly = plyNat s ∧
        (getF t id).brandPlace = w ∧ (getP t p).granted = (getP u p).granted.filter (· ≠ id) ++ [id] ∧
        (∀ c, id ∉ queueIds t p c) ∧ id ∉ (getP t p).release ∧ tget (fun _ => 0) t.tmg.grantsPly pipe = used + 1 ∧
        (∀ j, j ≠ id → getF t j = getF u j) ∧ t.hbm = s.hbm)) ∧
    (∀ (p : Fin 265) (id : Nat) (rest : List Nat), (getP s p).granted = id :: rest → (getP s p).begun = true →
      complete (getF s id) = true → (getF s id).out = p → accountOk (getF s id).acct →
      let f := getF s id
      let b := (sentBytes s f).1
      (p.val ≤ 256 → Runs (.frameTransmitted p) s (fun t => t.out = s.out ++ [.frame p b] ∧ getF t id = {} ∧
        (getP t p).granted = rest.filter (· ≠ id) ∧ (∀ j, j ≠ id → getF t j = getF s j) ∧ t.hbm = s.hbm ∧
        (p.val < 256 → portMapped s p = true → f.bad = false → frozen s (0x020 + p / 8) = false →
          rd64 t (portB p + R.PORT_TX_FRAMES) = (rd64 s (portB p + R.PORT_TX_FRAMES) + 1) % 2 ^ 64) ∧
        (p.val < 256 → f.bad = true → frozen s (0x390 + p / 16) = false →
          rd64 t (accB p + R.ACC_STOMPED) = (rd64 s (accB p + R.ACC_STOMPED) + 1) % 2 ^ 64))) ∧
      (256 < p.val → Runs (.frameTransmitted p) s (fun t => t.out = s.out ∧ (getP t p).granted = rest.filter (· ≠ id) ∧
        t.hbm = s.hbm ∧ (f.bad = true → t.nextFrame = s.nextFrame ∧ getF t id = {}) ∧
        (f.bad = false → t.nextFrame = s.nextFrame + 1 ∧
          let g := getF t s.nextFrame
          g.live = true ∧ g.bytes = b ∧ g.ended = true ∧ g.stage = .fifo ∧ g.port = p ∧ g.pipe = p - 257 ∧ g.cap = f.cap ∧
          g.gen = f.gen ∧ g.flowIdx = f.flowIdx)))) ∧
    (∀ (p : Fin 256) (id : Nat), gateHead s p = some id →
      (isUp s p = true → (getP s p).begun = false → Runs (.copyLaunch p) s (fun t => (getP t p).begun = true ∧
        (getP t p).granted.head? = some id ∧ id ∉ (getP t p).gate ∧ (getF t id).stage = .granted ∧
        (∀ j, j ≠ id → getF t j = getF s j) ∧ t.hbm = s.hbm ∧ (frozen s 0x3C0 = false →
          rd64 t (pgARB + R.ARB_ER_ON_TIME) = (rd64 s (pgARB + R.ARB_ER_ON_TIME) + 1) % 2 ^ 64))) ∧
      (isUp s p = true → (getP s p).begun = true → (getF s id).out = p →
        erField s (getF s id).profile F.ARB_ER_CTRL_LATE_POLICY = 0 →
        Runs (.copyLaunch p) s (fun t => (getF t id).missed = some 3 ∧ (getF t id).flagLate = true ∧
          id ∈ (getP t p).lateWait ∧ id ∉ (getP t p).gate ∧ (∀ j, j ≠ id → getF t j = getF s j) ∧ t.hbm = s.hbm ∧
          (frozen s 0x3C0 = false → rd64 t (pgARB + R.ARB_ER_MISS + 24) = (rd64 s (pgARB + R.ARB_ER_MISS + 24) + 1) % 2 ^ 64))) ∧
      ((isUp s p = false ∨ (getP s p).begun = true ∧ erField s (getF s id).profile F.ARB_ER_CTRL_LATE_POLICY ≠ 0) →
        (getF s id).ended = true → Runs (.copyLaunch p) s (fun t => getF t id = {} ∧
          (∀ j, j ≠ id → getF t j = getF s j) ∧ t.hbm = s.hbm))) ∧
    (∀ (p : Fin 256) (id : Nat), gateHead s p = none → busyHead s p = some id → (getP s p).begun = false → isUp s p = true →
      Runs (.copyLaunch p) s (fun t => (getP t p).begun = true ∧ (getP t p).granted.head? = some id ∧
        id ∉ (getP t p).lateWait ∧ (getF t id).stage = .granted ∧ t.hbm = s.hbm)) ∧
    (∀ id : Nat, s.md.mode ≠ .contained → lateExpired s id = true → (getF s id).ended = true → accountOk (getF s id).acct →
      Runs (.lateMaxExpiry id) s (fun t => getF t id = {} ∧ (∀ j, j ≠ id → getF t j = getF s j) ∧ t.hbm = s.hbm ∧
        (frozen s 0x3C0 = false →
          rd64 t (pgARB + R.ARB_ER_DROPPED) = (rd64 s (pgARB + R.ARB_ER_DROPPED) + 1) % 2 ^ 64)))

/-- Limits are checked against the partition; group, policer and release windows are written at the edge and read at
once. LIMIT_WRITE that reaches a limit takes the written cells where the partition's sum stays within 589,824 and
shows the sum, else replies ERROR and raises its event with the limits staying. MC_WRITE, ER_WRITE, POL_WRITE,
POL_RESET_LEVELS and POL_CLEAR_COUNTERS reply ERROR while BUSY and else set BUSY and wait for the edge with the window
as it is, for one pipeline or, with BCAST, for all; at the edge the policer holds the written configuration, full
buckets after RESET_LEVELS and zero counters after CLEAR_COUNTERS. MC_READ, ER_READ and POL_READ show the entry in the
window. SEQ_CFG_WRITE is refused for an output that stays enabled with another port or class or enables an unmapped
port, else taken. -/
def Obligations.SwitchWindowsTakeHoldAtTheEdge : Prop :=
  ∀ (s : State) (a : Agent),
    (∀ (addr : Nat) (v : Word), Allowed s a addr v →
      (addr = pgSC + R.SC_POOL_MIRROR ∨ addr = pgSC + R.SC_POOL_HOST ∨ (∃ k : Fin 8, addr = pgSC + R.SC_POOL_RECIRC + 4 * k) ∨
        pageType (addr / 0x1000) = 0x53 ∧ isAccLimit (addr % 0x1000) = true) →
      let w := if addr / 0x1000 = 0x380 then v &&& 0xFFFFF else mergeWord (fieldsAt 0x53 (addr % 0x1000)) (rawRd s addr) v
      let n := partitionSum (rawWr s addr w)
      (n ≤ 589824 → Runs (.limitWrite a addr v) s (fun t => t.reply = ⟨.ok, 0⟩ ∧ rawRd t addr = w ∧
        fg t pgSC F.SC_PARTITION_SUM = n ∧ t.core = s.core ∧ t.hbm = s.hbm ∧
        ∀ x, x ≠ addr → x ≠ pgSC + R.SC_PARTITION → rawRd t x = rawRd s x)) ∧
      (589824 < n → Runs (.limitWrite a addr v) s (fun t => t.reply = ⟨.error, 0⟩ ∧ evStatus t 0x380 3 = true ∧
        t.core = s.core ∧ t.hbm = s.hbm ∧ ∀ x, plainWord x → rawRd t x = rawRd s x))) ∧
    (∀ cmd : Word,
      let i := fg s pgMC F.MCM_MC_INDEX_GROUP
      let e := fg s pgARB F.ARB_ER_INDEX_GROUP
      (∀ r ∈ [(1, Instr.mcWrite a cmd), (2, Instr.mcRead a cmd)], Allowed s a (pgMC + R.MCM_MC_CMD) (setBits cmd 0 2 r.1) →
        (fgb s pgMC F.MCM_MC_STATUS_BUSY = true → Runs r.2 s (fun t => t = { s with reply := ⟨.error, 0⟩ })) ∧
        (fgb s pgMC F.MCM_MC_STATUS_BUSY = false → Runs r.2 s (fun t => t.reply = ⟨.ok, 0⟩ ∧ t.hbm = s.hbm ∧
          (r.1 = 1 → t.core = { s.core with groupWrite := some (i, windowGroup s) } ∧
            fgb t pgMC F.MCM_MC_STATUS_BUSY = true ∧ ∀ x, x ≠ pgMC + R.MCM_MC_STATUS → rawRd t x = rawRd s x) ∧
          (r.1 = 2 → t.core = s.core ∧ windowGroup t = getGroup s i)))) ∧
      (∀ r ∈ [(1, Instr.erWrite a cmd), (2, Instr.erRead a cmd)], Allowed s a (pgARB + R.ARB_ER_CMD) (setBits cmd 0 2 r.1) →
        (fgb s pgARB F.ARB_ER_STATUS_BUSY = true → Runs r.2 s (fun t => t = { s with reply := ⟨.error, 0⟩ })) ∧
        (fgb s pgARB F.ARB_ER_STATUS_BUSY = false → Runs r.2 s (fun t => t.reply = ⟨.ok, 0⟩ ∧ t.hbm = s.hbm ∧
          (r.1 = 1 → t.arb = { s.arb with erWrite := some (e, fg s pgARB F.ARB_ER_GROUP_PROFILE) } ∧
            fgb t pgARB F.ARB_ER_STATUS_BUSY = true ∧ ∀ x, x ≠ pgARB + R.ARB_ER_STATUS → rawRd t x = rawRd s x) ∧
          (r.1 = 2 → t.arb = s.arb ∧ fg t pgARB F.ARB_ER_GROUP_PROFILE = tget (fun _ => 0) s.arb.erGroup e % 64))))) ∧
    (∀ (pipe : Fin 8) (cmd : Word),
      let b := pb (0x3A0 + pipe)
      let i := fg s b F.POL_POL_INDEX_INDEX
      let rows : List (Word × Instr) := [(setBits cmd 0 3 1, .polWrite a pipe cmd), (setBits cmd 0 3 2, .polRead a pipe cmd),
        (setBits cmd 0 3 4, .polClearCounters a pipe cmd), (setBits cmd 0 4 9, .polResetLevels a pipe cmd)]
      ∀ r ∈ rows, Allowed s a (b + R.POL_POL_CMD) r.1 →
        (fgb s b F.POL_POL_STATUS_BUSY = true → Runs r.2 s (fun t => t = { s with reply := ⟨.error, 0⟩ })) ∧
        (fgb s b F.POL_POL_STATUS_BUSY = false → Runs r.2 s (fun t => t.reply = ⟨.ok, 0⟩ ∧ t.hbm = s.hbm ∧
          t.tmg.policers = s.tmg.policers ∧
          (r.1.getLsbD 1 = false → fgb t b F.POL_POL_STATUS_BUSY = true ∧ t.tmg.pend = s.tmg.pend ++
            (if r.1.getLsbD 4 then List.range 8 else [pipe.val]).map (fun p => (⟨p, i,
              if r.1.getLsbD 0 then some (windowPol s b) else none, r.1.getLsbD 3, r.1.getLsbD 2⟩ : PolCmd)) ∧ ∀ x, x ≠ b + R.POL_POL_STATUS → rawRd t x = rawRd s x) ∧
          (r.1.getLsbD 1 = true → t.tmg = s.tmg ∧
            let p := getPol s pipe i
            windowPol t b = (p.ctrl, p.cir, p.cbs, p.pir, p.pbs) ∧ rd64 t (b + R.POL_GREEN) = p.edgeG.toNat ∧
            rd64 t (b + R.POL_YELLOW) = p.edgeY.toNat ∧ rd64 t (b + R.POL_RED) = p.edgeR.toNat ∧
            rd64 t (b + R.POL_RED_DROPPED) = p.edgeD.toNat ∧
            fg t b F.POL_LEVEL_1_LEVEL = shownLevel p.edge1 ∧ fg t b F.POL_LEVEL_2_LEVEL = shownLevel p.edge2)))) ∧
    (∀ k : PolCmd,
      let p := getPol (applyPol s k) k.pipe k.idx
      (∀ w, k.write = some w → (p.ctrl, p.cir, p.cbs, p.pir, p.pbs) = w ∧ p.level1 ≤ p.burst1 ∧ p.level2 ≤ p.burst2 ∧
        (k.resetLevels = true → p.level1 = p.burst1 ∧ p.level2 = p.burst2)) ∧
      (k.clear = true → p.green = 0 ∧ p.yellow = 0 ∧ p.red = 0 ∧ p.redDropped = 0)) ∧
    (∀ (o : Fin 32) (v : Word), Allowed s a (seqB o + R.SEQ_SEQ_CFG) v →
      let w := v &&& 0x00FF001F
      let old := rawRd s (seqB o + R.SEQ_SEQ_CFG)
      let bad := seqEnBit old = true ∧ seqTie old ≠ seqTie w ∨
        seqEnBit w = true ∧ portMapped { s with eff := s.regs } (bitsOf w 16 8) = false
      (¬ bad → Runs (.seqCfgWrite a o v) s (fun t => t = { rawWr s (seqB o + R.SEQ_SEQ_CFG) w with reply := ⟨.ok, 0⟩ })) ∧
      (bad → Runs (.seqCfgWrite a o v) s (fun t => t.reply = ⟨.error, 0⟩ ∧ fg t (seqB o) F.SEQ_SEQ_STATUS_CFG_REJECT = 1 ∧
        evStatus t (seqPage o) 4 = true ∧ rawRd t (seqB o + R.SEQ_SEQ_CFG) = old ∧ t.arb = s.arb ∧ t.hbm = s.hbm)))

/-- Pending frames expire, epochs close and are signed into the Book, and export frames are queued, acknowledged and
rewound. WITHHOLD_EXPIRY of an unreserved frame past WITHHOLD_MAX leaves it without a record, dropping what of it is
still withheld. OUTCOME_MAX_EXPIRY gives an overdue frame the outcome UNRESOLVED. EPOCH_CLOSE of the oldest ended
epoch builds its record and sends it to the signer where one is due and the Book has room, lapses where it has none,
and counts on where none is due. EPOCH_RECORD_SIGNED puts the record, its signature (zeros where both tries failed)
and its roots into the next Book slot. EXPORT_FRAME_QUEUE queues the next export frame on an UP audit port within its
limit. ACK_SEQ_WRITE frees what was sent up to its sequence; REWIND_SEQ_WRITE makes what was sent from its sequence on
unsent, or is refused. -/
def Obligations.EvidenceIsRecordedSignedAndExported : Prop :=
  ∀ (s : State),
    let plus := fun (t : State) (a : Nat) => frozen s (a / 0x1000) = false → rd64 t a = (rd64 s a + 1) % 2 ^ 64
    (∀ (id : Nat) (p : Pend), pget s id = some p →
      (p.outcome.isSome = true → p.places = 0 → p.outPly + withholdMax s ≤ plyNat s →
        Runs (.withholdExpiry id) s (fun t => pget t id = none ∧ plus t (pgEV + R.EV_UNRECORDED) ∧ t.frames = s.frames ∧
          (∀ j, j ≠ id → pget t j = pget s j) ∧ t.hbm = s.hbm)) ∧
      (p.outcome = none → p.withheldAt ≠ 0 → p.withheldAt - 1 + withholdMax s ≤ plyNat s → releaseGate s id true = .hold →
        Runs (.withholdExpiry id) s (fun t => t.hbm = s.hbm ∧ (p.places = 0 → pget t id = none) ∧
          ∀ c ∈ liveParts s id, (getF t c).live = false ∨ (getF t c).stage = .done)) ∧
      (p.outcome = none → p.ply + outcomeMax s ≤ plyNat s → Runs (.outcomeMaxExpiry id) s (fun t =>
        evStatus t 0x014 evUNRESOLVED = true ∧ plus t (pgEV + R.EV_UNRESOLVED_COUNT) ∧ t.frames = s.frames ∧ t.hbm = s.hbm ∧
        (∀ j, j ≠ id → pget t j = pget s j) ∧
        if p.places = 0 ∨ p.digestReady = false then ∃ q, pget t id = some q ∧ q.outcome = some (5, 0) ∧ q.cap = p.cap
        else pget t id = none))) ∧
    (∀ (x : EpochEnd) (rest : List EpochEnd), s.ev.ended = x :: rest →
      (recordDue s x = false → Runs .epochClose s (fun t => t.regs = s.regs ∧ t.hbm = s.hbm ∧
        t.ev = { s.ev with ended := rest, sinceRecord := s.ev.sinceRecord + 1,
                           unrecCarry := s.ev.unrecCarry + x.unrecorded })) ∧
      (recordDue s x = true → bookFree s = 0 → Runs .epochClose s (fun t => t.ev.ended = rest ∧ t.ev.signing = s.ev.signing ∧
        t.ev.lapsedFull = true ∧ evStatus t 0x014 evEPOCH_LAPSED = true ∧ plus t (pgEV + R.EV_LAPSED) ∧ t.hbm = s.hbm)) ∧
      (recordDue s x = true → bookFree s ≠ 0 → Runs .epochClose s (fun t => t.regs = s.regs ∧ t.hbm = s.hbm ∧
        let roots := epochRoots x.batches x.epoch
        let head := epochHead s x roots
        t.ev.ended = rest ∧ t.ev.signing = s.ev.signing ++ [⟨x.epoch, head, roots, signEngine s⟩] ∧ t.ev.prev = sha256 head ∧
        t.ev.unrecCarry = 0 ∧ t.ev.book = s.ev.book))) ∧
    (∀ (g : Signing) (rest : List Signing) (ok1 ok2 : Bool), s.ev.signing = g :: rest → Runs (.epochRecordSigned ok1 ok2) s (fun t =>
      t.ev.signing = rest ∧ t.ev.bookHead = s.ev.bookHead + 1 ∧ t.ev.bookUsed = s.ev.bookUsed + 1 ∧
      rd64 t (pgEV + R.EV_LAST_EPOCH) = g.epoch % 2 ^ 64 ∧
      (∃ sig : List Byte, sig.length = 384 ∧ (ok1 = false → ok2 = false → sig = List.replicate 384 0) ∧
        tget (fun _ => none) t.ev.book s.ev.bookHead = some ⟨g.epoch, g.head ++ sig, g.roots⟩) ∧
      (∀ h, h ≠ s.ev.bookHead → tget (fun _ => none) t.ev.book h = tget (fun _ => none) s.ev.book h) ∧
      (ok1 = true ∨ ok2 = true → plus t (pgSGN + R.SGN_SIGNATURES)) ∧
      (ok1 = false → plus t (pgSGN + R.SGN_RESIGNS)) ∧ t.hbm = s.hbm)) ∧
    (∀ x : Export, nextExport s = some x → audOn s = true → isUp s (audPort s) = true →
      (framesWhere s (fun _ f => f.exportSeq ≠ 0)).length < 16 →
      (limitTest s (.queue (audPort s) (fg s pgAUD F.AUD_AUDIT_CTRL_CLASS)) (cellsOf (exportBytes s x).length)).1 = false →
      Runs .exportFrameQueue s (fun t => t.nextFrame = s.nextFrame + 1 ∧ (getF t s.nextFrame).bytes = exportBytes s x ∧
        (getF t s.nextFrame).out = audPort s ∧ (getF t s.nextFrame).exportSeq = x.seq + 1 ∧
        (getF t s.nextFrame).stage = .queued ∧ (∀ j, j ≠ s.nextFrame → getF t j = getF s j) ∧
        { x with queued := true } ∈ t.ev.exports ∧ t.hbm = s.hbm)) ∧
    (∀ (a : Agent) (hi : Word),
      (Allowed s a (pgAUD + R.AUD_ACK_SEQ + 4) hi →
        let q := hi.toNat * 2 ^ 32 + (rawRd s (pgAUD + R.AUD_ACK_SEQ)).toNat
        Runs (.ackSeqWrite a hi) s (fun t => t.reply = ⟨.ok, 0⟩ ∧ rawRd t (pgAUD + R.AUD_ACK_SEQ + 4) = hi ∧ t.hbm = s.hbm ∧
          t.ev.exports = (if fgb s pgEV F.EV_EVID_CTRL_ACK_MODE then
            s.ev.exports.filter (fun x => !(x.sent && decide (x.seq ≤ q))) else s.ev.exports))) ∧
      (Allowed s a (pgAUD + R.AUD_REWIND_SEQ + 4) hi →
        let q := hi.toNat * 2 ^ 32 + s.ev.rewindStage.toNat
        ((∃ x ∈ s.ev.exports, x.seq = q ∧ x.sent = true) → Runs (.rewindSeqWrite a hi) s (fun t => t.reply = ⟨.ok, 0⟩ ∧
          t.regs = s.regs ∧ t.hbm = s.hbm ∧ t.ev.exports = s.ev.exports.map (fun x =>
            if q ≤ x.seq && x.sent then { x with sent := false, queued := false } else x))) ∧
        ((∀ x ∈ s.ev.exports, x.seq = q → x.sent = false) → Runs (.rewindSeqWrite a hi) s (fun t => t.reply = ⟨.error, 0⟩ ∧
          t.ev = s.ev ∧ evStatus t 0x017 1 = true ∧ t.hbm = s.hbm))))

/-- The seal is judged and holds the sealed fields; the island starts from its ROM and stops with its rails. SEAL_GO
sets BUSY, or is an ERROR while BUSY. SEAL_VERIFY_COMPLETE reports the first check that fails with a new nonce, the
seal staying as it is, or leaves the request to wait for the edge. While SEALED a write that would change sealed bits
is taken, counted and logged where the log has room, the change stays within CAL_TOL of the value at sealing and
EVENT_COUNT is not at its end; else it is DENIED with the register as it was. TALLY_POWER_ON clears Tally Time, the
Book and the firmware and keeps the seal and its log. TALLY_FIRMWARE_LOADED starts the first authentic copy, or none.
RNG_HEALTH_FAIL clears RNG_OK. TALLY_RAIL_LOSS of rail 7 or 8 stops the island and clears TIME_SET, another rail
changes nothing. -/
def Obligations.SealProtectsTheParameters : Prop :=
  ∀ (s : State) (a : Agent),
    (Allowed s a (pgSEAL + R.SEAL_SEAL_CMD) 1 →
      (s.sl.busy = true → Runs (.sealGo a) s (fun t => t = { s with reply := ⟨.error, 0⟩ })) ∧
      (s.sl.busy = false → Runs (.sealGo a) s (fun t => t.reply = ⟨.ok, 0⟩ ∧ t.sl = { s.sl with busy := true } ∧
        fg t pgSEAL F.SEAL_SEAL_RESULT_BUSY = 1 ∧ t.hbm = s.hbm ∧
        ∀ x, x ≠ pgSEAL + R.SEAL_SEAL_RESULT → rawRd t x = rawRd s x))) ∧
    (s.sl.busy = true → s.sl.waiting = none →
      (sealCheck s ≠ 0 → Runs .sealVerifyComplete s (fun t => t.sl.isSealed = s.sl.isSealed ∧ t.sl.busy = false ∧
        t.sl.result = sealCheck s ∧ fg t pgSEAL F.SEAL_SEAL_RESULT_RESULT = sealCheck s ∧
        fg t pgSEAL F.SEAL_SEAL_RESULT_BUSY = 0 ∧ t.sl.log = s.sl.log ∧ t.hbm = s.hbm)) ∧
      (sealCheck s = 0 → Runs .sealVerifyComplete s (fun t =>
        let req := regBytes s (pgSEAL + R.SEAL_SEAL_REQ) 16
        t.sl = { s.sl with waiting := some (beAt req 1 1, beAt req 2 2, slice req 20 32) } ∧ t.regs = s.regs ∧
        t.hbm = s.hbm))) ∧
    (∀ (addr : Nat) (v : Word) (pi : PageInfo),
      let w := mergeWord (fieldsAt pi.type (addr % 0x1000)) (rawRd s addr) v
      let within := ∃ x y, tolField addr w.toNat = some x ∧ tolField addr (atSealing s addr) = some y ∧
        (x - y).natAbs ≤ s.sl.calTol
      Allowed s a addr v → pageInfo (addr / 0x1000) = some pi → 0x40 ≤ addr % 0x1000 →
      ownWrite pi.type (addr % 0x1000) = false → s.sl.isSealed = true →
      (rawRd s addr).toNat &&& sealedMask s addr ≠ w.toNat &&& sealedMask s addr →
      (logRoom s = true → within → s.sl.eventCount ≠ 0xFFFFFFFF → Runs (.sealedFieldWrite a addr v) s (fun t =>
        t.reply = ⟨.ok, 0⟩ ∧ rawRd t addr = w ∧ t.sl.eventCount = s.sl.eventCount + 1 ∧ t.sl.logHead = s.sl.logHead + 1 ∧
        t.sl.isSealed = true ∧ evStatus t 0x016 evPARAM_EVENT = true ∧ t.hbm = s.hbm)) ∧
      (logRoom s = true → (¬ within ∨ s.sl.eventCount = 0xFFFFFFFF) → Runs (.sealedFieldWrite a addr v) s (fun t =>
        t.reply = ⟨.denied, 0⟩ ∧ rawRd t addr = rawRd s addr ∧ t.sl.eventCount = s.sl.eventCount ∧
        t.sl.logHead = s.sl.logHead + 1 ∧ t.sl.isSealed = true ∧ evStatus t 0x016 evPARAM_REFUSED = true ∧ t.hbm = s.hbm)) ∧
      (logRoom s = false → Runs (.sealedFieldWrite a addr v) s (fun t => t.reply = ⟨.denied, 0⟩ ∧
        rawRd t addr = rawRd s addr ∧ t.sl = s.sl ∧ evStatus t 0x016 evPARAM_REFUSED = true ∧
        evStatus t 0x016 evSEAL_LOG_FULL = true ∧ t.hbm = s.hbm))) ∧
    Runs .tallyPowerOn s (fun t => t.elec.island = true ∧ t.elec.firmware = false ∧ t.tm.ttAcc = 0 ∧ t.tm.edgeTT = 0 ∧
      t.tm.ply = s.tm.ply ∧ t.ev.bookUsed = 0 ∧ t.ev.book = [] ∧ t.ev.flowSeq = s.ev.flowSeq ∧
      t.sl.isSealed = s.sl.isSealed ∧ t.sl.eventCount = s.sl.eventCount ∧ t.sl.log = s.sl.log ∧ t.sl.busy = false ∧
      (s.md.mode = .live ∨ s.md.mode = .drain ∨ s.md.mode = .diagnostic → evStatus t 0x005 3 = true) ∧
      t.frames = s.frames ∧ t.hbm = s.hbm) ∧
    (∀ (c0 c1 : List Byte) (keyOk e0 e1 : Bool), s.elec.island = true → s.elec.firmware = false →
      let starts := fun (t : State) (img : List Byte) => t.elec.firmware = true ∧
        rdWords t (pgSGN + R.SGN_SW_DIGEST) 8 = packWords 8 (sha256 img) ∧
        fg t pgSGN F.SGN_SIGN_STATUS_ENGINE0_OK = (if e0 then 1 else 0) ∧
        fg t pgSGN F.SGN_SIGN_STATUS_ENGINE1_OK = (if e1 then 1 else 0) ∧ fg t pgSGN F.SGN_SIGN_STATUS_RNG_OK = 1 ∧
        (keyOk = true → fg t pgSGN F.SGN_SIGN_STATUS_KEY_READY = 1) ∧ t.hbm = s.hbm
      let run := Instr.tallyFirmwareLoaded c0 c1 keyOk e0 e1
      (imageCheck s 5 c0 = 0 → s.sl.isSealed = false → Runs run s (fun t => starts t c0 ∧ t.sl.isSealed = false)) ∧
      (imageCheck s 5 c0 ≠ 0 → imageCheck s 5 c1 = 0 → s.sl.isSealed = false →
        Runs run s (fun t => starts t c1 ∧ t.sl.isSealed = false)) ∧
      (imageCheck s 5 c0 = 0 → s.sl.isSealed = true → s.elec.lastDigest ≠ [] → sha256 c0 ≠ s.elec.lastDigest →
        (logRoom s = true → s.sl.eventCount ≠ 0xFFFFFFFF → Runs run s (fun t => starts t c0 ∧
          t.sl.eventCount = s.sl.eventCount + 1 ∧ t.sl.logHead = s.sl.logHead + 1 ∧ t.sl.isSealed = true)) ∧
        (logRoom s = false → Runs run s (fun t => t.elec = s.elec ∧ t.sl = s.sl ∧
          evStatus t 0x016 evSEAL_LOG_FULL = true ∧ t.hbm = s.hbm))) ∧
      (imageCheck s 5 c0 ≠ 0 → imageCheck s 5 c1 ≠ 0 → Runs run s (fun t => t = s))) ∧
    Runs .rngHealthFail s (fun t => fg t pgSGN F.SGN_SIGN_STATUS_RNG_OK = 0 ∧ evStatus t 0x015 2 = true ∧
      t.frames = s.frames ∧ t.hbm = s.hbm) ∧
    (∀ rail : Fin 10,
      (rail.val = 7 ∨ rail.val = 8 → Runs (.tallyRailLoss rail) s (fun t => t.elec.island = false ∧ t.elec.firmware = false ∧
        fg t pgTT F.TT_TIME_STATE_TIME_SET = 0 ∧ (rawRd t (pgCLK + R.CLK_SUPPLY_STATUS)).getLsbD rail = false ∧
        (s.md.mode = .live ∨ s.md.mode = .drain ∨ s.md.mode = .diagnostic → evStatus t 0x005 3 = true) ∧
        t.sl = s.sl ∧ t.hbm = s.hbm)) ∧
      (rail.val ≠ 7 → rail.val ≠ 8 → Runs (.tallyRailLoss rail) s (fun t => t = s)))

/-- A control core fetches and executes RV64IMAC instructions, takes traps and interrupts, and is started by CORE_RUN.
CORE_INSTRUCTION on a running core with no enabled interrupt pending, the instruction whole in its ROM or SRAM and
free of errors: register arithmetic, jumps and branches, aligned loads and stores of SRAM, LR, SC and AMO on shared
SRAM, FENCE, the trap registers' CSRs, MRET and WFI have the effect that the instruction set gives them, in x0
nothing, and leave every other core; ECALL, EBREAK, an illegal encoding and a refused fetch take their trap, which
saves pc and status and goes to mtvec. A core in WFI stays until an enabled interrupt is pending, and that interrupt
is taken before the next instruction. A write of CORE_RUN stops the cores of cleared bits and starts the stopped cores
of set bits at CORE_VEC. Instruction encodings and mtval are the model's readings (log entries 8, 29). -/
def Obligations.CoresExecuteInstructions : Prop :=
  ∀ (s : State) (core : Fin 16) (onFetch : Bool),
    let h := getH s core
    let run := Instr.coreInstruction core 0 onFetch
    let bare := fun (t : State) => t.regs = s.regs ∧ t.hbm = s.hbm ∧ t.frames = s.frames ∧ t.dsp = s.dsp ∧ t.tm = s.tm
    let same := fun (t : State) => bare t ∧ t.cores.loc = s.cores.loc ∧ t.cores.sram = s.cores.sram ∧
      ∀ k, k ≠ core.val → getH t k = getH s k
    let trapped := fun (t : State) (cause : Nat) => same t ∧ ∃ v : DWord, getH t core =
      { h with mepc := h.pc, mcause := BitVec.ofNat 64 cause, mtval := v, mpie := h.mie, mie := false, mpp := h.machine,
               machine := true, waiting := false, pc := h.mtvec &&& ~~~3 }
    (coreOn s core = true → inReset s = false → pendWork s core = false → pendTick s core = false →
      (h.waiting = true → Runs run s (fun t => t = s)) ∧
      (h.waiting = false → reach s h h.machine h.pc.toNat 2 = .none → Runs run s (fun t => trapped t 1)) ∧
      (∀ (short : Bool),
        let len : Nat := if short then 2 else 4
        let bits := leNat (coreRd s core h.pc.toNat len)
        let region := reach s h h.machine h.pc.toNat len
        let goes := fun (t : State) (pc : DWord) (f : Hart → Hart) =>
          getH t core = { f h with pc := pc, minstret := h.minstret + 1 }
        let on := h.pc + BitVec.ofNat 64 len
        let x := xget h
        h.waiting = false → (region = .rom ∨ region = .loc ∨ region = .sram) → coreBad s core h.pc.toNat len = false →
        (short = true ↔ bits % 4 ≠ 3) → sampled s core = false →
        ((if short then decode16 bits else decode32 bits) = none → Runs run s (fun t => trapped t 2)) ∧
        ∀ i : Rv, (if short then decode16 bits else decode32 bits) = some i →
          let data := fun (a n : Nat) => reach s h (dataMachine h) a n
          let stored := fun (t : State) (a n : Nat) (v : Nat) => coreRd t core a n = leBytes n v ∧
            (data a n = .sram → t.cores.loc = s.cores.loc ∧ ∀ b, b < a - 0x20000000 ∨ a - 0x20000000 + n ≤ b →
              tget (fun _ => (0 : Byte)) t.cores.sram b = tget (fun _ => 0) s.cores.sram b) ∧
            (data a n = .loc → t.cores.sram = s.cores.sram ∧
              ∀ b, b < core.val * 0x40000 + (a - 0x10000000) ∨ core.val * 0x40000 + (a - 0x10000000) + n ≤ b →
                tget (fun _ => (0 : Byte)) t.cores.loc b = tget (fun _ => 0) s.cores.loc b) ∧
            ∀ k, k ≠ core.val → { getH t k with resv := none } = { getH s k with resv := none }
          match i with
          | .lui rd v => Runs run s (fun t => same t ∧ goes t on (fun h => xset h rd v))
          | .auipc rd v => Runs run s (fun t => same t ∧ goes t on (fun h => xset h rd (h.pc + v)))
          | .jal rd off => Runs run s (fun t => same t ∧ goes t (h.pc + off) (fun h => xset h rd on))
          | .jalr rd rs1 off => Runs run s (fun t => same t ∧ goes t ((x rs1 + off) &&& ~~~1) (fun h => xset h rd on))
          | .branch k a b off => Runs run s (fun t => same t ∧
              goes t (if rvCond k (x a) (x b) = true then h.pc + off else on) id)
          | .alui op w rd a v => Runs run s (fun t => same t ∧ goes t on (fun h => xset h rd (aluOp op w (x a) v)))
          | .alu op w rd a b => Runs run s (fun t => same t ∧ goes t on (fun h => xset h rd (aluOp op w (x a) (x b))))
          | .load n sg rd rs1 off =>
            let a := (x rs1 + off).toNat
            let v := leNat (coreRd s core a n)
            (data a n = .loc ∨ data a n = .sram) → a % n = 0 → coreBad s core a n = false →
            Runs run s (fun t => same t ∧ goes t on (fun h => xset h rd
              (if sg then (BitVec.ofNat (8 * n) v).signExtend 64 else BitVec.ofNat 64 v)))
          | .store n rs1 rs2 off =>
            let a := (x rs1 + off).toNat
            (data a n = .loc ∨ data a n = .sram) → a % n = 0 → Runs run s (fun t => bare t ∧ goes t on id ∧
              stored t a n ((x rs2).toNat % 2 ^ (8 * n)))
          | .lr n rd rs1 =>
            let a := (x rs1).toNat
            data a n = .sram → a % n = 0 → coreBad s core a n = false → Runs run s (fun t => same t ∧
              goes t on (fun h => { xset h rd ((BitVec.ofNat (8 * n) (leNat (coreRd s core a n))).signExtend 64) with
                                    resv := some (a, n) }))
          | .sc n rd rs1 rs2 =>
            let a := (x rs1).toNat
            data a n = .sram → a % n = 0 →
              (h.resv = some (a, n) → Runs run s (fun t => bare t ∧
                goes t on (fun h => { xset h rd 0 with resv := none }) ∧ stored t a n ((x rs2).toNat % 2 ^ (8 * n)))) ∧
              (h.resv = none → Runs run s (fun t => same t ∧ goes t on (fun h => xset h rd 1)))
          | .amo op n rd rs1 rs2 =>
            let a := (x rs1).toNat
            let old : DWord := (BitVec.ofNat (8 * n) (leNat (coreRd s core a n))).signExtend 64
            let new := amoOp op n old ((BitVec.ofNat (8 * n) (x rs2).toNat).signExtend 64)
            data a n = .sram → a % n = 0 → coreBad s core a n = false → Runs run s (fun t => bare t ∧
              goes t on (fun h => xset h rd old) ∧ stored t a n (new.toNat % 2 ^ (8 * n)))
          | .csr op rd im rs1 n =>
            let src : DWord := if im then BitVec.ofNat 64 rs1 else x rs1
            h.machine = true →
              (n = 0x340 → (op = .write ∨ rs1 ≠ 0) → Runs run s (fun t => same t ∧ goes t on (fun h =>
                xset { h with mscratch := match op with
                  | .write => src
                  | .set => h.mscratch ||| src
                  | .clear => h.mscratch &&& ~~~src } rd h.mscratch))) ∧
              (n = 0x305 → op = .write → Runs run s (fun t => same t ∧ goes t on (fun h =>
                xset { h with mtvec := src &&& ~~~2 } rd h.mtvec))) ∧
              (n = 0x341 → op ≠ .write → rs1 = 0 → Runs run s (fun t => same t ∧ goes t on (fun h => xset h rd h.mepc)))
          | .fence => Runs run s (fun t => same t ∧ goes t on id)
          | .ecall => Runs run s (fun t => trapped t (if h.machine = true then 11 else 8))
          | .ebreak => Runs run s (fun t => trapped t 3)
          | .mret =>
            (h.machine = true → Runs run s (fun t => same t ∧ goes t h.mepc (fun h =>
              { h with machine := h.mpp, mie := h.mpie, mpie := true, mpp := false, mprv := h.mprv && h.mpp }))) ∧
            (h.machine = false → Runs run s (fun t => trapped t 2))
          | .wfi =>
            ((h.machine = true ∨ h.tw = false) → Runs run s (fun t => same t ∧ goes t on (fun h => { h with waiting := true }))) ∧
            (h.machine = false → h.tw = true → Runs run s (fun t => trapped t 2)))) ∧
    (coreOn s core = true → inReset s = false → (pendWork s core = true ∨ pendTick s core = true) →
      (h.machine = false ∨ h.mie = true) → ∃ u : State, same u ∧ u.cores.on = s.cores.on ∧
        (∃ cause : Nat, (cause = 16 ∧ pendWork s core = true ∨ cause = 17 ∧ pendTick s core = true) ∧ getH u core =
          { h with mepc := h.pc, mcause := BitVec.ofNat 64 (2 ^ 63 + cause), mtval := 0, mpie := h.mie, mie := false,
                   mpp := h.machine, machine := true, waiting := false,
                   pc := (h.mtvec &&& ~~~3) + (if h.mtvec.getLsbD 0 then BitVec.ofNat 64 (4 * cause) else 0) }) ∧
        ∃ t, exec run s = .next t ∧ exec run u = .next t) ∧
    (∀ (a : Agent) (v : Word), Allowed s a (pgDSP + R.DSP_CORE_RUN) v → Runs (.coreRunWrite a v) s (fun t =>
      t.reply = ⟨.ok, 0⟩ ∧ fg t pgDSP F.DSP_CORE_RUN_RUN = (v.toNat % 0x10000) ||| 1 ∧ t.hbm = s.hbm ∧ t.dsp = s.dsp ∧
      (∀ k, k ≠ pgDSP + R.DSP_CORE_RUN → rawRd t k = rawRd s k) ∧ (coreOn t 0 = coreOn s 0 ∧ getH t 0 = getH s 0) ∧
      ∀ k, 0 < k → k < 16 →
        (v.getLsbD k = false → coreOn t k = false ∧ getH t k = getH s k) ∧
        (v.getLsbD k = true → coreOn s k = true → coreOn t k = true ∧ getH t k = getH s k) ∧
        (v.getLsbD k = true → coreOn s k = false → coresEnabled s = true → coreOn t k = true ∧
          (getH t k).pc = BitVec.ofNat 64 (rd64 s (pgDSP + R.DSP_CORE_VEC)) ∧ (getH t k).machine = true)))

/-- Dispatcher operations move their thread by the table of states and leave every other thread. TD_READY, TD_CANCEL
and TD_DELAY by a core or over TD_OP act by the state of the thread they name as the table of R451 says, with its
result; one that lost in its cycle answers LAPSED and counts. TD_NEXT takes the slotted thread to RUNNING, puts the
one that ran at the head of its queue, and answers 0 with an empty slot or a stopped dispatcher. TD_DONE ends the
running thread into READY, DELAYED or IDLE, or answers NOT_RUNNING. A TD_CFG write gives the shown thread its
priority, affinity and enable and requeues a READY one. SLOT_FILL puts the best READY thread into the only empty slot.
DELAY_EXPIRY after a kernel tick readies every due thread, in order of due tick and then number. -/
def Obligations.DispatcherMovesThreads : Prop :=
  ∀ (s : State),
    let res := fun (t : State) (a : Agent) => tget (fun _ => 0) t.dsp.result (match a with
      | .core n => n.val
      | .sky _ => 16)
    let others := fun (t : State) (th : Nat) => (∀ j, j ≠ th → getT t j = getT s j) ∧ t.hbm = s.hbm ∧ t.cores = s.cores ∧
      t.frames = s.frames
    let queues := fun (t : State) => t.dsp.queues = s.dsp.queues ∧ t.dsp.slot = s.dsp.slot ∧ t.dsp.run = s.dsp.run
    let plus := fun (t : State) (o : Nat) =>
      frozen s 0x3E0 = false → rd64 t (pgDSP + o) = (rd64 s (pgDSP + o) + 1) % 2 ^ 64
    (∀ (a : Agent) (thread ticks : BitVec 32), (isCore a = true ∨ Allowed s a (pgTD + R.TD_TD_OP) 0) →
      let th := thread.toNat
      let x := getT s th
      let d := ticks.toNat
      (1024 ≤ th ∨ x.st = .disabled →
        Runs (.tdReady a thread false) s (fun t => res t a = 3 ∧ t.dsp.threads = s.dsp.threads ∧ queues t) ∧
        Runs (.tdCancel a thread) s (fun t => res t a = 3 ∧ t.dsp.threads = s.dsp.threads ∧ queues t) ∧
        Runs (.tdDelay a thread ticks false) s (fun t => res t a = 3 ∧ t.dsp.threads = s.dsp.threads ∧ queues t)) ∧
      (th < 1024 →
        (x.st = .idle ∨ x.st = .delayed → Runs (.tdReady a thread false) s (fun t => res t a = 0 ∧ others t th ∧
          getT t th = { x with st := .ready, readyAt := cycleNow s, readied := cycleNow s + 1 } ∧
          queueAt t x.prio = queueAt s x.prio ++ [th] ∧ (∀ k, k ≠ x.prio → queueAt t k = queueAt s k) ∧
          t.dsp.slot = s.dsp.slot ∧ t.dsp.run = s.dsp.run ∧ plus t R.DSP_READIES)) ∧
        (x.st = .ready ∨ x.st = .slotted → Runs (.tdReady a thread false) s (fun t => res t a = 1 ∧ others t th ∧
          getT t th = x ∧ queues t ∧ plus t R.DSP_COALESCED)) ∧
        (x.st = .running → x.rearm = false → Runs (.tdReady a thread false) s (fun t => res t a = 0 ∧ others t th ∧
          getT t th = { x with rearm := true, readied := cycleNow s + 1 } ∧ queues t ∧ plus t R.DSP_READIES)) ∧
        (x.st = .idle → Runs (.tdCancel a thread) s (fun t => res t a = 0 ∧ t.dsp.threads = s.dsp.threads ∧ queues t)) ∧
        (x.st = .running → Runs (.tdCancel a thread) s (fun t => res t a = 0 ∧ others t th ∧ queues t ∧
          getT t th = { x with rearm := false, delay := none })) ∧
        (x.st = .running → Runs (.tdDelay a thread ticks false) s (fun t => res t a = 0 ∧ others t th ∧ queues t ∧
          getT t th = { x with delay := some d })) ∧
        (x.st = .ready ∨ x.st = .slotted ∨ x.st = .delayed → Runs (.tdCancel a thread) s (fun t => res t a = 0 ∧
          others t th ∧ getT t th = { x with st := .idle } ∧ t.dsp.run = s.dsp.run ∧
          (x.st = .ready → queueAt t x.prio = (queueAt s x.prio).filter (· ≠ th)) ∧
          (x.st = .slotted → slotAt t x.core = none))) ∧
        (x.st = .idle ∨ x.st = .ready ∨ x.st = .slotted ∨ x.st = .delayed → Runs (.tdDelay a thread ticks false) s (fun t =>
          res t a = 0 ∧ others t th ∧ t.dsp.run = s.dsp.run ∧
          getT t th = { x with st := .delayed, due := (tickNow s + max 1 d) % 2 ^ 64 } ∧
          (x.st = .ready → queueAt t x.prio = (queueAt s x.prio).filter (· ≠ th)) ∧
          (x.st = .slotted → slotAt t x.core = none)))) ∧
      Runs (.tdReady a thread true) s (fun t => res t a = 2 ∧ t.dsp.threads = s.dsp.threads ∧ queues t ∧
        plus t R.DSP_LAPSED) ∧
      Runs (.tdDelay a thread ticks true) s (fun t => res t a = 2 ∧ t.dsp.threads = s.dsp.threads ∧ queues t ∧
        plus t R.DSP_LAPSED)) ∧
    (∀ (core : Fin 16),
      (slotAt s core = none ∨ dspEn s = false → Runs (.tdNext core) s (fun t => res t (.core core) = 0 ∧
        t.dsp.threads = s.dsp.threads ∧ queues t)) ∧
      (∀ th : Nat, slotAt s core = some th → dspEn s = true →
        let x := getT s th
        let taken := fun (t : State) => res t (.core core) = 0x8000 + x.prio * 1024 + th ∧
          runAt t core = some th ∧ slotAt t core = none ∧
          (∀ k, k ≠ core.val → runAt t k = runAt s k ∧ slotAt t k = slotAt s k) ∧
          getT t th = { x with st := .running, core := core, waitLast := min (cycleNow s - x.readyAt) 0xFFFFFFFF }
        (runAt s core = none → Runs (.tdNext core) s (fun t => taken t ∧ others t th ∧ t.dsp.queues = s.dsp.queues)) ∧
        ∀ u : Nat, runAt s core = some u → u ≠ th →
          let y := getT s u
          Runs (.tdNext core) s (fun t => taken t ∧ getT t u = { y with st := .ready, readyAt := cycleNow s } ∧
            queueAt t y.prio = u :: queueAt s y.prio ∧ (∀ k, k ≠ y.prio → queueAt t k = queueAt s k) ∧
            (∀ j, j ≠ th → j ≠ u → getT t j = getT s j) ∧ plus t R.DSP_PREEMPTS)) ∧
      (∀ ticks : BitVec 32,
        (runAt s core = none → Runs (.tdDone core ticks) s (fun t => res t (.core core) = 4 ∧
          t.dsp.threads = s.dsp.threads ∧ queues t)) ∧
        ∀ th : Nat, runAt s core = some th →
          let x := getT s th
          let ends := fun (t : State) => res t (.core core) = 0 ∧ others t th ∧ runAt t core = none ∧
            t.dsp.slot = s.dsp.slot
          let x0 : Thread := { x with rearm := false, delay := none }
          (x.enable = true → x.rearm = true → Runs (.tdDone core ticks) s (fun t => ends t ∧
            getT t th = { x0 with st := .ready, readyAt := cycleNow s } ∧
            queueAt t x.prio = queueAt s x.prio ++ [th])) ∧
          (x.enable = true → x.rearm = false → Runs (.tdDone core ticks) s (fun t => ends t ∧
            t.dsp.queues = s.dsp.queues ∧
            getT t th = if ticks.toNat ≠ 0 then
                { x0 with st := .delayed, due := (tickNow s + max 1 ticks.toNat) % 2 ^ 64 }
              else match x.delay with
                | some p => { x0 with st := .delayed, due := (tickNow s + max 1 p) % 2 ^ 64 }
                | none => { x0 with st := .idle })) ∧
          (x.enable = false → Runs (.tdDone core ticks) s (fun t => ends t ∧ t.dsp.queues = s.dsp.queues ∧
            getT t th = { x0 with st := .disabled })))) ∧
    (∀ (a : Agent) (v : Word), Allowed s a (pgTD + R.TD_TD_CFG) v →
      let th := fg s pgTD F.TD_TD_INDEX_THREAD
      let x := getT s th
      let prio := bitsOf v 0 5
      let y : Thread := { x with prio := prio, affinity := bitsOf v 16 16, enable := v.getLsbD 5 }
      let run := Instr.tdCfgWrite a v
      let fine := fun (t : State) => t.reply = ⟨.ok, 0⟩ ∧ others t th ∧ t.dsp.run = s.dsp.run
      (x.st = .disabled ∨ x.st = .idle → Runs run s (fun t => fine t ∧ queues t ∧
        getT t th = { y with st := if v.getLsbD 5 = true then .idle else .disabled })) ∧
      (x.st = .running → Runs run s (fun t => fine t ∧ queues t ∧
        getT t th = { y with rearm := x.rearm && v.getLsbD 5 })) ∧
      (x.st = .ready → v.getLsbD 5 = true → prio ≠ x.prio → Runs run s (fun t => fine t ∧ getT t th = y ∧
        queueAt t x.prio = (queueAt s x.prio).filter (· ≠ th) ∧ queueAt t prio = queueAt s prio ++ [th] ∧
        t.dsp.slot = s.dsp.slot)) ∧
      (x.st = .ready → v.getLsbD 5 = false → Runs run s (fun t => fine t ∧ getT t th = { y with st := .disabled } ∧
        queueAt t x.prio = (queueAt s x.prio).filter (· ≠ th) ∧ t.dsp.slot = s.dsp.slot))) ∧
    (∀ (core : Fin 16) (th : Nat), dspEn s = true → coreOn s core = true → slotAt s core = none →
      bestFor s core = some th → (∀ k, k < 16 → k ≠ core.val → coreOn s k = true → slotAt s k ≠ none) →
      let x := getT s th
      Runs (.slotFill core) s (fun t => others t th ∧ slotAt t core = some th ∧
        getT t th = { x with st := .slotted, core := core } ∧
        queueAt t x.prio = (queueAt s x.prio).filter (· ≠ th) ∧
        (∀ k, k ≠ core.val → slotAt t k = slotAt s k) ∧ t.dsp.run = s.dsp.run)) ∧
    (s.dsp.expiry = true → twf (fun _ => ({} : Thread)) s.dsp.threads = true →
      let due := fun (th : Nat) => (getT s th).st = .delayed ∧ (getT s th).due ≤ tickNow s
      Runs .delayExpiry s (fun t => t.dsp.expiry = false ∧ t.hbm = s.hbm ∧ t.dsp.slot = s.dsp.slot ∧ t.dsp.run = s.dsp.run ∧
        (∀ th, due th → (getT t th).st = .ready ∧ th ∈ queueAt t (getT s th).prio) ∧
        (∀ th, ¬ due th → getT t th = getT s th) ∧
        (∀ k, ∃ l, queueAt t k = queueAt s k ++ l ∧
          l.Pairwise (fun i j => (getT s i).due < (getT s j).due ∨ (getT s i).due = (getT s j).due ∧ i < j))))

/-- Exceptions are delivered into rings with their thread readied, or leave on the host port; CONS and DOORBELL are
written. EXCEPTION_DELIVERY of the oldest entry of a pipeline into an enabled ring with room writes header and
captured bytes at PROD, advances PROD, counts it and readies the bound thread; into a full or a closed ring the entry
is dropped and counted, and no thread is readied. HOST_EXCEPTION_FRAME in a forwarding mode with room in the host pool
queues the frame of R492 on port 256 and counts it. RING_CONS_WRITE sets CONS. A DOORBELL write of 1 raises DOORBELL.
-/
def Obligations.RingsTakeExceptions : Prop :=
  ∀ (s : State) (pipe : Fin 8),
    (∀ (d : Delivery) (rest : List Delivery), deliveries s.cls.toCores pipe = d :: rest → d.queue < 16 →
      let q := d.queue
      let prod := fg s (rngB q) F.RNG_PROD_PROD
      let size := 2 ^ (8 + ringBuf s q)
      let entry := excEntry d (size - 32)
      let at' := ringBase s q + prod % 2 ^ ringOrder s q * size
      let th := fg s (rngB q) F.RNG_RING_CFG_THREAD
      let plus := fun (t : State) (a : Nat) => frozen s 0x3E2 = false → rd64 t a = (rd64 s a + 1) % 2 ^ 64
      (ringOpen s q = true → ringFull s q = false → coreRegion s at' entry.length = .sram →
        Runs (.exceptionDelivery pipe) s (fun t => deliveries t.cls.toCores pipe = rest ∧
          coreRd t 16 at' entry.length = entry ∧ fg t (rngB q) F.RNG_PROD_PROD = (prod + 1) % 2 ^ 32 ∧
          plus t (pb 0x3E2 + R.RNG_DELIVERED + 8 * q) ∧
          ((getT s th).st = .idle ∨ (getT s th).st = .delayed → (getT t th).st = .ready ∧
            queueAt t (getT s th).prio = queueAt s (getT s th).prio ++ [th]) ∧
          (∀ j, j ≠ th → getT t j = getT s j) ∧ t.frames = s.frames ∧ t.hbm = s.hbm ∧ t.cores.loc = s.cores.loc)) ∧
      (ringOpen s q = false ∨ ringFull s q = true → Runs (.exceptionDelivery pipe) s (fun t =>
        deliveries t.cls.toCores pipe = rest ∧ plus t (rngB q + R.RNG_RING_DROP) ∧ evStatus t 0x3E2 0 = true ∧
        t.dsp = s.dsp ∧ t.cores = s.cores ∧ t.frames = s.frames ∧ t.hbm = s.hbm))) ∧
    (∀ (d : Delivery) (rest : List Delivery), deliveries s.cls.toHost pipe = d :: rest → forwards s = true →
      let room := if d.isNotify then d.bytes.length else min 160 (max 1 (fg s pgHP F.HP_HP_SNAP_SNAP)) * 64
      let body := macAt s (pgHP + R.HP_HP_DA) ++ macAt s (pgHP + R.HP_HP_SA) ++ [0x88, 0xB6] ++ excEntry d room
      let bs := body ++ fcsBytes (crc32 body)
      (limitTest s .host (cellsOf bs.length)).1 = false → Runs (.hostExceptionFrame pipe) s (fun t =>
        deliveries t.cls.toHost pipe = rest ∧ t.nextFrame = s.nextFrame + 1 ∧ (getF t s.nextFrame).bytes = bs ∧
        (getF t s.nextFrame).out = 256 ∧ (getF t s.nextFrame).stage = .queued ∧
        (getF t s.nextFrame).outCls = fg s pgHP F.HP_HP_CTRL_EXC_CLASS ∧ (∀ j, j ≠ s.nextFrame → getF t j = getF s j) ∧
        t.hbm = s.hbm ∧
        (frozen s 0x009 = false → rd64 t (pgHP + R.HP_EXC_SENT) = (rd64 s (pgHP + R.HP_EXC_SENT) + 1) % 2 ^ 64))) ∧
    (∀ (a : Agent) (ring : Fin 16) (v : Word), Allowed s a (rngB ring + R.RNG_CONS) v →
      Runs (.ringConsWrite a ring v) s (fun t => t = { rawWr s (rngB ring + R.RNG_CONS) v with reply := ⟨.ok, 0⟩ } ∧
        rawRd t (rngB ring + R.RNG_CONS) = v)) ∧
    (∀ (a : Agent) (v : Word), Allowed s a (pgDSP + R.DSP_DOORBELL) v →
      (v.getLsbD 0 = true → Runs (.doorbell a v) s (fun t => t.reply = ⟨.ok, 0⟩ ∧ evStatus t 0x3E0 5 = true ∧ t.hbm = s.hbm ∧
        ∀ x, plainWord x → x ≠ pgDSP + R.DSP_DOORBELL → rawRd t x = rawRd s x)) ∧
      (v.getLsbD 0 = false → Runs (.doorbell a v) s (fun t => t.reply = ⟨.ok, 0⟩ ∧ (∀ x, rawRd t x = rawRd s x) ∧
        t.flt = s.flt ∧ t.hbm = s.hbm)))

/-- The Skyline node forwards, is enumerated and polled, and executes register and window requests. A node not in
bypass forwards a frame, marks a bad one, and drops what its buffer cannot hold; in bypass it only passes frames. POLL
gets the node's STATUS at its address, ENUM gives an unaddressed node NEXT. A request addressed to the node with a bad
CRC is discarded, at a refused level or with a failing AUTH answered DENIED unexecuted, one that matches a kept reply
answered from it. READ, BURST_READ, WRITE, MASKED_WRITE, BURST_WRITE, WIN_READ and WIN_WRITE are executed, answered
and kept. A window request whose controller is not ready waits; its deadline sends RETRY; its completion is kept.
Lock, loss and bypass exit set the status. -/
def Obligations.SkylineServesTheHost : Prop :=
  ∀ (s : State) (r : SkyReq),
    let plus := fun (t : State) (o : Nat) =>
      frozen s 0x008 = false → rd64 t (pgSKY + o) = (rd64 s (pgSKY + o) + 1) % 2 ^ 64
    let l := r.level.val
    let addr := r.addr.toNat
    let n := r.count.toNat
    let a : Agent := .sky r.level
    let u := skyTaken s r
    let plainAt := fun (x : Nat) => 0x40 ≤ x % 0x1000 ∧ low64 u x = none ∧ low64 u (x - 4) = none ∧ pageType (x / 0x1000) ≠ 0x10
    let ordinary := fun (x : Nat) (v : Word) => Allowed u a x v ∧ 0x40 ≤ x % 0x1000 ∧ x / 0x1000 ≠ 6 ∧ x / 0x1000 ≠ 8 ∧
      ownWrite (pageType (x / 0x1000)) (x % 0x1000) = false
    let merged := fun (x : Nat) (v : Word) => mergeWord (fieldsAt (pageType (x / 0x1000)) (x % 0x1000)) (rawRd u x) v
    let kept := fun (t : State) (op : Nat) (done : Nat) (data : List Word) => t.sky.prog = s.sky.prog ∧
      ∃ k ∈ t.sky.kept, k = ⟨l, r.tag, r.nonce, op, .ok, data, done, true⟩
    let ok := fun (t : State) (op done : Nat) (data : List Word) => Replied s t op r true .ok done data ∧ kept t op done data
    (∀ (bs : List Byte) (waiting : Option Nat),
      let body := bs.take (bs.length - 4)
      (s.sky.bypass = true → waiting = none →
        Runs (.skylineForward bs waiting) s (fun t => t = { s with out := s.out ++ [.skyline bs] })) ∧
      (s.sky.bypass = false → (∀ w, waiting = some w → w + bs.length ≤ 8192) →
        (bs.drop (bs.length - 4) = crcTail body true →
          Runs (.skylineForward bs waiting) s (fun t => t = { s with out := s.out ++ [.skyline bs] })) ∧
        (bs.drop (bs.length - 4) ≠ crcTail body true → Runs (.skylineForward bs waiting) s (fun t =>
          t.out = s.out ++ [.skyline (body ++ crcTail body false)] ∧ plus t R.SKY_CRC_ERR ∧ evStatus t 0x008 evCRC_ERR = true ∧
          t.hbm = s.hbm))) ∧
      (∀ w, waiting = some w → 8192 < w + bs.length → Runs (.skylineForward bs waiting) s (fun t =>
        t.out = s.out ∧ plus t R.SKY_FWD_DROP ∧ evStatus t 0x008 evFWD_DROP = true ∧ t.hbm = s.hbm))) ∧
    (r.bcast = true → l = 0 → n = 0 → reqCrcGood opPOLL r = true → s.sky.bypass = false → addressed s = true →
      Runs (.skyPoll r) s (fun t => t.regs = s.regs ∧ t.hbm = s.hbm ∧
        let v := packWords r.payload.length (splice (wordsBytes r.payload) (nodeAddr s) (beBytes 1 (statusByte s 0)))
        let b := reqBody opPOLL { r with payload := v }
        t.out = s.out ++ [.skyline (b ++ crcTail b true)])) ∧
    (r.bcast = true → l = 0 → n = 0 → s.sky.bypass = false → addressed s = false →
      let next := bitsOf (r.payload.getD 0 0) 24 8
      next < 64 → Runs (.skyEnum r) s (fun t => t.hbm = s.hbm ∧
        (reqCrcGood opENUM r = true → addressed t = true ∧ nodeAddr t = next) ∧
        (reqCrcGood opENUM r = false → addressed t = false ∧ plus t R.SKY_CRC_ERR) ∧
        let b := reqBody opENUM { r with payload := setBits (r.payload.getD 0 0) 24 8 (next + 1) :: r.payload.drop 1 }
        t.out = s.out ++ [.skyline (b ++ crcTail b (reqCrcGood opENUM r))])) ∧
    (s.sky.bypass = false → addressed s = true → r.bcast = false → r.dest.toNat = nodeAddr s →
      (reqCrcGood opREAD r = false → Runs (.skyRead r) s (fun t => t.out = s.out ∧ t.sky = s.sky ∧ t.hbm = s.hbm ∧
        plus t R.SKY_CRC_ERR)) ∧
      (reqCrcGood opREAD r = true → levelRule s l = .refused → Runs (.skyRead r) s (fun t =>
        Replied s t opREAD r false .denied 0 [] ∧ t.sky = s.sky ∧ t.hbm = s.hbm)) ∧
      (∀ key, reqCrcGood opWRITE r = true → levelRule s l = .keyed key →
        authOf key (nodeAddr s) l false r.nonce (reqHead opWRITE r) ≠ r.auth.take 8 → Runs (.skyWrite r) s (fun t =>
          Replied s t opWRITE r false .denied 0 [] ∧ t.sky = s.sky ∧ t.hbm = s.hbm ∧ plus t R.SKY_AUTH_FAIL)) ∧
      (∀ k, reqCrcGood opWRITE r = true → levelRule s l = .noAuth → s.sky.prog = [] →
        s.sky.kept.find? (fun k => k.level == l && sameReq r k.tag k.nonce) = some k → Runs (.skyWrite r) s (fun t =>
          Replied s t k.op r k.auth k.res k.done k.data ∧ t.sky = s.sky ∧ t.hbm = s.hbm))) ∧
    (SkyAccepts s opREAD r → n = 1 → addr < 2 ^ 24 → Readable u a addr → plainAt addr →
      ∀ pi, pageInfo (addr / 0x1000) = some pi → Runs (.skyRead r) s (fun t => t.hbm = s.hbm ∧
        ok t opREAD 1 [showWord u l pi (addr / 0x1000) (addr % 0x1000)])) ∧
    (SkyAccepts s opBREAD r → l = 0 → 1 ≤ n → n ≤ 64 → addr + 4 * n ≤ 2 ^ 24 →
      (∀ k, k < n → Readable u a (addr + 4 * k) ∧ plainAt (addr + 4 * k)) →
      ∀ pis : Nat → PageInfo, (∀ k, k < n → pageInfo ((addr + 4 * k) / 0x1000) = some (pis k)) →
        Runs (.skyBurstRead r) s (fun t => t.hbm = s.hbm ∧ ok t opBREAD n ((List.range n).map (fun k =>
          showWord u l (pis k) ((addr + 4 * k) / 0x1000) ((addr + 4 * k) % 0x1000))))) ∧
    (∀ v, SkyAccepts s opWRITE r → n = 1 → addr < 2 ^ 24 → r.payload = [v] → s.sl.isSealed = false → ordinary addr v →
      Runs (.skyWrite r) s (fun t => t.hbm = s.hbm ∧ ok t opWRITE 1 [] ∧ rawRd t addr = merged addr v)) ∧
    (∀ v m : Word, SkyAccepts s opMASKED r → n = 1 → addr < 2 ^ 24 → r.payload = [v, m] → s.sl.isSealed = false →
      ordinary addr (maskedValue u a addr v m) → low64 u addr = none →
      (∀ pi, pageInfo (addr / 0x1000) = some pi → showWord u l pi (addr / 0x1000) (addr % 0x1000) = rawRd u addr) →
      let rw := BitVec.ofNat 32 (fieldMask (fieldsAt (pageType (addr / 0x1000)) (addr % 0x1000)) (fun x => x == .rw || x == .rwS))
      Runs (.skyMaskedWrite r) s (fun t => t.hbm = s.hbm ∧ ok t opMASKED 1 [] ∧
        rawRd t addr = merged addr ((v &&& m) ||| (rawRd u addr &&& ~~~m &&& rw)))) ∧
    (SkyAccepts s opBWRITE r → 1 ≤ n → n ≤ 64 → addr + 4 * n ≤ 2 ^ 24 → s.sl.isSealed = false →
      (∀ k, k < n → ordinary (addr + 4 * k) (r.payload.getD k 0)) → Runs (.skyBurstWrite r) s (fun t => t.hbm = s.hbm ∧
        ok t opBWRITE n [] ∧ ∀ k, k < n → rawRd t (addr + 4 * k) = merged (addr + 4 * k) (r.payload.getD k 0))) ∧
    (s.fuse.hbm = true → 1 ≤ n → n ≤ 64 → addr < 2 ^ 29 →
      (SkyAccepts s opWREAD r → 1 ≤ l → winDenied opWREAD r = false → winRefused s opWREAD r = none →
        (winReady s r = true → (∀ k, 16 * k < n → poisoned s (winAddr r + 64 * k) 64 = false) →
          Runs (.skyWinRead r) s (fun t => t.hbm.mem = s.hbm.mem ∧
            ok t opWREAD n (packWords n (mrd s (winAddr r) (4 * n))))) ∧
        (winReady s r = false → Runs (.skyWinRead r) s (fun t => t.out = s.out ∧ t.hbm.mem = s.hbm.mem ∧
          t.sky.prog = [⟨opWREAD, r, false⟩]))) ∧
      (SkyAccepts s opWWRITE r → 2 ≤ l → winRefused s opWWRITE r = none → winReady s r = true → r.payload.length = n →
        (∀ w ∈ touched (winAddr r) (4 * n), s.hbm.poison.contains w = false) → Runs (.skyWinWrite r) s (fun t =>
          ok t opWWRITE n [] ∧ mrd t (winAddr r) (4 * n) = wordsBytes r.payload ∧
          ∀ b, b < winAddr r ∨ winAddr r + 4 * n ≤ b → mget t b = mget s b))) ∧
    (s.fuse.hbm = false → 1 ≤ n → n ≤ 64 → addr < 2 ^ 29 → 2 ≤ l →
      (SkyAccepts s opWREAD r → Runs (.skyWinRead r) s (fun t => t.hbm = s.hbm ∧ Replied s t opWREAD r true .error 0 [])) ∧
      (SkyAccepts s opWWRITE r → Runs (.skyWinWrite r) s (fun t => t.hbm = s.hbm ∧ Replied s t opWWRITE r true .error 0 []))) ∧
    (∀ op rest, s.sky.prog = ⟨op, r, false⟩ :: rest → Runs .retryDeadline s (fun t => t.hbm = s.hbm ∧
      Replied s t op r true .retry 0 [] ∧ ⟨op, r, true⟩ ∈ t.sky.prog ∧ t.sky.kept = s.sky.kept)) ∧
    (∀ late rest, s.sky.prog = ⟨opWREAD, r, late⟩ :: rest → s.fuse.hbm = true → 1 ≤ n → n ≤ 64 → addr < 2 ^ 29 → 1 ≤ l →
      winDenied opWREAD r = false → winRefused s opWREAD r = none → winReady s r = true →
      (∀ k, 16 * k < n → poisoned s (winAddr r + 64 * k) 64 = false) → Runs .skylineAccessComplete s (fun t =>
        let data := packWords n (mrd s (winAddr r) (4 * n))
        t.sky.prog = rest ∧ t.hbm.mem = s.hbm.mem ∧
        (∃ k ∈ t.sky.kept, k = ⟨l, r.tag, r.nonce, opWREAD, .ok, data, n, true⟩) ∧
        (late = true → t.out = s.out) ∧ (late = false → Replied s t opWREAD r true .ok n data))) ∧
    (s.sky.bypass = true → Runs .skylineBypassExit s (fun t => t.sky = { bypass := false } ∧ addressed t = false ∧
      nodeAddr t = 0 ∧ (∀ v, 1 ≤ v → v ≤ 3 → lastNonce t v = 0) ∧ t.hbm = s.hbm)) ∧
    (∀ (lane : Fin 2) (lock aligned : Bool), Runs (.skylineLaneLock lane lock aligned) s (fun t =>
      let f := F.SKY_SKY_STATUS_LANE_LOCK
      (fg t pgSKY f).testBit lane = lock ∧ (∀ k, k < 2 → k ≠ lane.val → (fg t pgSKY f).testBit k = (fg s pgSKY f).testBit k) ∧
      fg t pgSKY F.SKY_SKY_STATUS_ALIGNED = (if aligned then 1 else 0) ∧ nodeAddr t = nodeAddr s ∧ t.hbm = s.hbm)) ∧
    (∀ lock : Fin 4, Runs (.skylineLinkLoss lock) s (fun t => fg t pgSKY F.SKY_SKY_STATUS_LANE_LOCK = lock ∧
      fg t pgSKY F.SKY_SKY_STATUS_ALIGNED = 0 ∧ evStatus t 0x008 evSKY_LINK_LOSS = true ∧ nodeAddr t = nodeAddr s ∧
      t.hbm = s.hbm))

/-- The fault log fills and freezes; snapshots, performance counters and samples are kept, written and released.
LOG_CLEAR empties and unfreezes the log. LOG_ENTRY_WRITE puts the oldest waiting entry into the next general slot, the
248th freezing the log; frozen, a FATAL entry takes the next reserved slot and any other is counted lost. SNAP asks
for a snapshot, or is an ERROR while one is pending. PERIODIC_SNAPSHOT appends header and entries where they fit, else
counts SAMP_LOST. PC_VALUE_WRITE stores both words at once, PC_CLEAR zeroes the named counters alone. MICROWORD_SAMPLE
and INSTRUCTION_SAMPLE queue the due record of their unit or count it lost. SAMPLE_RECORD_WRITE writes the oldest
record into its slot, or at a full ring stops sampling and loses the queue. SAMP_CONS_WRITE sets SAMP_CONS. What the
buffer being enabled means is the model's reading (log entry 23). -/
def Obligations.LogsSnapshotsAndSamples : Prop :=
  ∀ (s : State) (a : Agent),
    let plus := fun (t : State) (p o n : Nat) =>
      frozen s p = false → rd64 t (pb p + o) = (rd64 s (pb p + o) + n) % 2 ^ 64
    let slotOf := fun (t : State) (k : Nat) => if s.fuse.hbm then mrd t (bufBase s + 32 * k) 32
      else beBytes 32 (tget (fun _ => 0) t.cnt.onDie k).toNat
    let prod := fun (t : State) => fg t pgCR F.CR_SAMP_PROD_PROD
    (Allowed s a (pgFA + R.FA_LOG_CTRL) 1 → Runs (.logClear a) s (fun t => t.reply = ⟨.ok, 0⟩ ∧ t.flt.slots = [] ∧
      t.flt.general = 0 ∧ t.flt.fatalUsed = 0 ∧ t.flt.frozen = false ∧ t.flt.queue = s.flt.queue ∧
      (rawRd t (pb 0x006 + oEVT_CAUSE)).getLsbD 7 = false ∧ t.frames = s.frames ∧ t.hbm = s.hbm)) ∧
    (∀ (e : LogEnt) (rest : List LogEnt), s.flt.queue = e :: rest →
      (s.flt.frozen = false → s.flt.general + 1 < 248 → Runs .logEntryWrite s (fun t => t.regs = s.regs ∧ t.hbm = s.hbm ∧
        t.flt = { s.flt with queue := rest, general := s.flt.general + 1,
                             slots := tset (fun _ => none) s.flt.slots s.flt.general (some e) })) ∧
      (s.flt.frozen = false → s.flt.general = 247 → Runs .logEntryWrite s (fun t => t.flt.frozen = true ∧
        tget (fun _ => none) t.flt.slots 247 = some e ∧ (rawRd t (pb 0x006 + oEVT_CAUSE)).getLsbD 7 = true ∧
        t.flt.general = 248 ∧ t.hbm = s.hbm)) ∧
      (s.flt.frozen = true → e.eff = clsFATAL → s.flt.fatalUsed < 8 → Runs .logEntryWrite s (fun t => t.regs = s.regs ∧
        t.hbm = s.hbm ∧
        t.flt = { s.flt with queue := rest, fatalUsed := s.flt.fatalUsed + 1,
                             slots := tset (fun _ => none) s.flt.slots (248 + s.flt.fatalUsed)
                               (some { e with reserved := true }) })) ∧
      (s.flt.frozen = true → (e.eff ≠ clsFATAL ∨ 8 ≤ s.flt.fatalUsed) → Runs .logEntryWrite s (fun t =>
        t.flt.slots = s.flt.slots ∧ t.flt.frozen = true ∧ evStatus t 0x006 8 = true ∧
        (s.flt.queue.length < 64 → plus t 0x006 R.FA_LOG_LOST 1) ∧ t.hbm = s.hbm))) ∧
    (Allowed s a (pgCR + R.CR_SNAP_CMD) 1 →
      (snapPending s = false → Runs (.snap a) s (fun t =>
        t = { s with cnt := { s.cnt with snapReq := true }, reply := ⟨.ok, 0⟩ })) ∧
      (snapPending s = true → Runs (.snap a) s (fun t => t = { s with reply := ⟨.error, 0⟩ }))) ∧
    (s.cnt.periodicDue = true → bufEnabled s = true → sampModes s = true →
      let sl := snapSlots s
      (bufPlaced s = true → sl.length ≤ bufFree s → Runs .periodicSnapshot s (fun t => t.cnt.periodicDue = false ∧
        prod t = (prod s + sl.length) % 2 ^ 32 ∧ plus t 0x007 R.CR_SAMPLES 1 ∧ t.frames = s.frames ∧
        ∀ k, k < sl.length → slotOf t ((prod s + k) % bufSlots s) = slice (sl.getD k []) 0 32)) ∧
      ((bufPlaced s = false ∨ bufFree s < sl.length) → Runs .periodicSnapshot s (fun t => t.cnt.periodicDue = false ∧
        prod t = prod s ∧ plus t 0x007 R.CR_SAMP_LOST 1 ∧ evStatus t 0x007 evSAMP_LOST = true ∧ t.hbm = s.hbm))) ∧
    (∀ (k : Fin 64) (hi : Word), Allowed s a (pgCR + R.CR_PC_VALUE_LO + 16 * k + 4) hi →
      Runs (.pcValueWrite a k hi) s (fun t => t.reply = ⟨.ok, 0⟩ ∧ t.regs = s.regs ∧ t.hbm = s.hbm ∧
        pcValue t k = bitsOf hi 0 16 * 2 ^ 32 + (tget (fun _ => (0 : Word)) s.cnt.pcStage k).toNat ∧
        ∀ j, j ≠ k.val → pcValue t j = pcValue s j)) ∧
    (∀ hi : Word, Allowed s a (pgCR + R.CR_PC_CLEAR + 4) hi → Runs (.pcClear a hi) s (fun t => t.reply = ⟨.ok, 0⟩ ∧
      t.regs = s.regs ∧ t.hbm = s.hbm ∧ ∀ k, pcValue t k =
        if k < 64 ∧ (if k < 32 then s.cnt.clearStage.getLsbD k else hi.getLsbD (k - 32)) = true then 0 else pcValue s k)) ∧
    (∀ (c : Instr) (u : Nat) (d : DueSample),
      ((∃ p : Fin 8, c = .microwordSample p ∧ u = p.val) ∨ ∃ k : Fin 16, c = .instructionSample k ∧ u = 8 + k.val) →
      s.cnt.due.find? (fun d => d.unit == u) = some d →
      (s.cnt.queue.length < 64 → Runs c s (fun t => t.regs = s.regs ∧ t.hbm = s.hbm ∧
        t.cnt = { s.cnt with due := s.cnt.due.erase d, queue := s.cnt.queue ++ [d.record] })) ∧
      (64 ≤ s.cnt.queue.length → Runs c s (fun t => t.cnt = { s.cnt with due := s.cnt.due.erase d } ∧ t.hbm = s.hbm ∧
        plus t 0x007 R.CR_SAMP_LOST 1 ∧ evStatus t 0x007 evSAMP_LOST = true))) ∧
    (∀ (r : BitVec 256) (rest : List (BitVec 256)), s.cnt.queue = r :: rest → bufPlaced s = true →
      (bufFree s ≠ 0 → Runs .sampleRecordWrite s (fun t => t.cnt.queue = rest ∧ prod t = (prod s + 1) % 2 ^ 32 ∧
        slotOf t (prod s % bufSlots s) = beBytes 32 r.toNat ∧ plus t 0x007 R.CR_SAMPLES 1 ∧ t.frames = s.frames)) ∧
      (bufFree s = 0 → Runs .sampleRecordWrite s (fun t => t.cnt.queue = [] ∧ t.cnt.stopped = true ∧ prod t = prod s ∧
        fg t pgCR F.CR_SAMP_STATUS_FULL = 1 ∧ evStatus t 0x007 evSAMP_FULL = true ∧
        plus t 0x007 R.CR_SAMP_LOST (1 + rest.length) ∧ t.hbm = s.hbm))) ∧
    (∀ v : Word, Allowed s a (pgCR + R.CR_SAMP_CONS) v → Runs (.sampConsWrite a v) s (fun t =>
      t = { rawWr s (pgCR + R.CR_SAMP_CONS) v with reply := ⟨.ok, 0⟩ } ∧ rawRd t (pgCR + R.CR_SAMP_CONS) = v))

/-- Reset release starts the boot; images are checked and used in order; lifecycle operations are requested and end.
RESET_RELEASE in RESET enters BOOT with core 0 at the reset vector, in step 3, or in step 2 for good in RETIRED. An
image of the step that passes its checks is used and the boot goes on: BOOT_FW lies in SRAM and runs, the microcode is
loaded, KERNEL is started with a CALIBRATE request. One that fails is recorded, and copy 1 is tried, then the boot
stops. A read timeout fails with SOURCE. BOOT_DATA writes, SUBMIT and END act while the host is awaited and are ERROR
otherwise. The lifecycle commands record their request for the edge, are ERROR while BUSY, and end with BAD_STATE
while the counter stands. LC_OPERATION_COMPLETE keeps the result for the edge, ENTER_RETURN erasing the memories. The
reset vector and the staging area's place are free values (log entries 21, 22). -/
def Obligations.BootAndLifecycleOperations : Prop :=
  ∀ (s : State) (a : Agent),
    (∀ strap : Fin 4,
      (s.md.mode ≠ .reset → Runs (.resetRelease strap) s (fun t => t = s)) ∧
      (s.md.mode = .reset → Runs (.resetRelease strap) s (fun t => t.md.mode = .boot ∧ coreOn t 0 = true ∧
        (getH t 0).pc = Config.resetVector ∧ (getH t 0).machine = true ∧ t.hbm = s.hbm ∧ t.ev = s.ev ∧ t.sl = s.sl ∧
        bootStep t = (if s.fuse.retired = true then 2 else 3) ∧
        (s.fuse.retired = false → awaiting t = (t.boot.src == 1) ∧
          (fg s pgBOOT F.BOOT_BOOT_CTRL_SRC_OVERRIDE = 0 → s.boot.hard = true →
            t.boot.src = if strap.val = 1 then 1 else if strap.val = 2 then 2 else 0))))) ∧
    (∀ (kind : Fin 8) (copy1 : Bool) (img : List Byte) (c : Instr) (code : Nat),
      (c = .imageLoadComplete kind copy1 img true ∧ code = imageCheck s kind img ∨
       (c = .imageReadTimeout kind copy1 ∨ c = .imageLoadComplete kind copy1 img false) ∧ code = imgSOURCE) →
      s.md.mode = .boot → awaiting s = false → s.boot.src < 3 → kind.val = kindOfStep (bootStep s) → kind.val ≠ 0 →
      copy1 = s.boot.copy0Failed → s.fuse.returned = false →
      let failed := fun (t : State) => fg t pgBOOT F.BOOT_BOOT_STATUS_LAST_FAIL = code ∧
        fg t pgBOOT F.BOOT_BOOT_STATUS_LAST_FAIL_KIND = kind ∧ evStatus t 0x003 3 = true ∧ t.hbm = s.hbm ∧
        t.fl.micro = s.fl.micro ∧ t.cores = s.cores
      (code = 0 → Runs c s (fun t => t.hbm = s.hbm ∧ t.frames = s.frames ∧
        (kind.val = 1 → bootStep t = 5 ∧ (getH t 0).pc = startOf img ∧
          coreRd t 16 (0x20000000 + imgLoad img) (imgPlain s 1 img).length = imgPlain s 1 img) ∧
        (kind.val = 2 → bootStep t = 6 ∧ t.fl.undecoded = some (beAt (imgPlain s 2 img) 768 4 % 32768) ∧
          ∀ p, p < 8 → fg t (flowB p) F.FS_STORE_STATUS_LOADED = 1) ∧
        (kind.val = 3 → bootStep t = 7 ∧ ∀ p, p < 8 → fg t (flowB p) F.FS_STORE_STATUS_AUTH_CUSTOMER = 1) ∧
        (kind.val = 4 → (getH t 0).pc = startOf img ∧ (getH t 0).machine = true ∧ t.boot.src = 3 ∧
          t.md.req = some { target := .calibrate, force := false }))) ∧
      (code ≠ 0 → copy1 = false → Runs c s (fun t => failed t ∧ t.boot.copy0Failed = true ∧ bootStep t = bootStep s)) ∧
      (code ≠ 0 → copy1 = true → s.boot.src = 0 → kind.val ≠ 3 → Runs c s (fun t => failed t ∧ t.boot.src = 3 ∧
        bootStep t = bootStep s ∧ evStatus t 0x003 (if kind.val = 4 then 2 else 1) = true)) ∧
      (code ≠ 0 → copy1 = true → s.boot.src = 2 → s.boot.noMore = false → Runs c s (fun t => failed t ∧ awaiting t = true ∧
        bootStep t = bootStep s))) ∧
    (∀ (w : Fin 512) (v : Word), Allowed s a (pgBOOT + R.BOOT_BOOT_DATA + 4 * w) v →
      let at' := fg s pgBOOT F.BOOT_BOOT_ADDR_ADDR / 4 * 4 + 4 * w.val
      ((awaiting s = false ∨ 0x1000000 ≤ at') →
        Runs (.bootDataWrite a w v) s (fun t => t = { s with reply := ⟨.error, 0⟩ })) ∧
      (awaiting s = true → at' < 0x1000000 → Runs (.bootDataWrite a w v) s (fun t => t.reply = ⟨.ok, 0⟩ ∧
        coreRd t 16 (stageAddr at') 4 = wordBytes v ∧ t.regs = s.regs ∧ t.hbm = s.hbm))) ∧
    (∀ kind : Fin 8, Allowed s a (pgBOOT + R.BOOT_BOOT_CMD) (BitVec.ofNat 32 (1 + 2 * kind)) →
      let code := if kind.val = kindOfStep (bootStep s) then imageCheck s kind (stagedImage s) else imgFORMAT
      (awaiting s = false → Runs (.bootSubmit a kind) s (fun t => t = { s with reply := ⟨.error, 0⟩ })) ∧
      (awaiting s = true → code ≠ 0 → ¬ (bootStep s = 6 ∧ kind.val = 4) → Runs (.bootSubmit a kind) s (fun t =>
        t.reply = ⟨.ok, 0⟩ ∧ awaiting t = true ∧ bootStep t = bootStep s ∧ fg t pgBOOT F.BOOT_BOOT_STATUS_LAST_FAIL = code ∧
        fg t pgBOOT F.BOOT_BOOT_STATUS_LAST_FAIL_KIND = kind ∧ t.cores = s.cores ∧ t.hbm = s.hbm)) ∧
      (awaiting s = true → code = 0 → kind.val = 1 → Runs (.bootSubmit a kind) s (fun t => t.reply = ⟨.ok, 0⟩ ∧
        bootStep t = 5 ∧ fg t pgBOOT F.BOOT_BOOT_STATUS_SRC_USED = 1 ∧ (getH t 0).pc = startOf (stagedImage s) ∧
        t.hbm = s.hbm))) ∧
    (Allowed s a (pgBOOT + R.BOOT_BOOT_CMD) 16 →
      (awaiting s = false → Runs (.bootEnd a) s (fun t => t = { s with reply := ⟨.error, 0⟩ })) ∧
      (awaiting s = true → bootStep s = 7 → Runs (.bootEnd a) s (fun t => t.reply = ⟨.ok, 0⟩ ∧ t.boot.src = 3 ∧
        awaiting t = false ∧ evStatus t 0x003 2 = true ∧ t.hbm = s.hbm)) ∧
      (awaiting s = true → bootStep s = 6 → s.boot.src = 2 → Runs (.bootEnd a) s (fun t => t.reply = ⟨.ok, 0⟩ ∧
        bootStep t = 7 ∧ awaiting t = false ∧ t.hbm = s.hbm)) ∧
      (awaiting s = true → bootStep s = 3 ∨ bootStep s = 5 → Runs (.bootEnd a) s (fun t =>
        t = { s with boot := { s.boot with noMore := true }, reply := ⟨.ok, 0⟩ }))) ∧
    (∀ (item : Fin 8) (c : Instr) (op i : Nat),
      (c, op, i) ∈ [(Instr.provision a item, 1, item.val), (.commitField a, 2, 0), (.revokeCust a item, 3, item.val),
        (.enterReturn a, 4, 0), (.vendorUnlock a, 5, 0), (.retire a, 6, 0), (.revokeVendor a item, 7, item.val)] →
      Allowed s a (pgLC + R.LC_LC_CMD) (BitVec.ofNat 32 (op + 16 * i)) → isCore a = false →
      (lcBusy s = true → Runs c s (fun t => t = { s with reply := ⟨.error, 0⟩ })) ∧
      (lcBusy s = false → plyStopped s = true → Runs c s (fun t => t.reply = ⟨.ok, 0⟩ ∧ t.boot = s.boot ∧
        fg t pgLC F.LC_LC_RESULT_RESULT = lcBAD_STATE ∧ lcBusy t = false ∧ t.hbm = s.hbm)) ∧
      (lcBusy s = false → plyStopped s = false → Runs c s (fun t =>
        t = { s with boot := { s.boot with lcReq := some ⟨op, i, []⟩ }, reply := ⟨.ok, 0⟩ }))) ∧
    (∀ (fuseOk : Bool) (o : LcOp), s.boot.lcWork = some o →
      let ends := fun (t : State) (r : Nat) => t.boot = { s.boot with lcWork := none, lcDone := some (o, r) } ∧
        t.sl = s.sl ∧ t.ev = s.ev
      (o.op = 1 ∨ o.op = 3 ∨ o.op = 6 ∨ o.op = 7 → Runs (.lcOperationComplete fuseOk) s (fun t =>
        ends t (if fuseOk then lcOK else lcFUSE_FAIL) ∧ t.regs = s.regs ∧ t.hbm = s.hbm)) ∧
      (o.op = 2 → Runs (.lcOperationComplete fuseOk) s (fun t => ends t lcOK ∧ t.regs = s.regs ∧ t.hbm = s.hbm)) ∧
      (o.op = 4 → fuseOk = true → Runs (.lcOperationComplete fuseOk) s (fun t => ends t lcOK ∧ t.cores.sram = [] ∧
        t.cores.loc = [] ∧ t.fl.deck = [] ∧ t.fl.micro = [] ∧ t.cls.em = [] ∧
        ∀ b, (regionOf b = 1 → mget t b = mget s b) ∧ (regionOf b ≠ 1 → mget t b = 0))) ∧
      (o.op = 5 → Runs (.lcOperationComplete fuseOk) s (fun t => ends t (unlockCheck s o.stage) ∧ t.hbm = s.hbm)))

/-- Mode requests wait for the edge; procedures of the modes end; supplies, clocks and ageing act. A MODE_REQ command
waits for the edge, or is refused BUSY while the counter stands. CALIBRATE_COMPLETE sets CAL_DONE and ends the
latches' holds; LATCH_CAL_FAIL keeps it from it. DORMANT_COMPLETE clears BUSY; SR_ENTER_RETRY enters again up to 1,000
times, then reports; DRAIN_TIMEOUT is raised once. AGEING_MEASUREMENT shows degradations and eyes and steps the guard
band; CAPTURE_PATH_RECAL adds to LANE_TRIM under the seal; AVS_ACK and AVS_TIMEOUT settle the request. RST_N_ASSERT,
UNDER_VOLTAGE, THERMAL_TRIP and DIE_POWER_ON reset the die with its Skyline node in bypass. REFCLK_LOSS and
REFCLK_RESTORED move their bit and the level event. Which clocks are used in a mode is the model's reading (log entry
26). -/
def Obligations.ModesSuppliesAndAgeing : Prop :=
  ∀ (s : State) (a : Agent),
    (∀ (force : Bool) (c : Instr) (m : Mode) (f : Bool),
      (c, m, f) ∈ [(Instr.modeReqReset a, Mode.reset, false), (.modeReqCalibrate a, .calibrate, false),
        (.modeReqLive a, .live, false), (.modeReqDrain a, .drain, false), (.modeReqDormant a force, .dormant, force),
        (.modeReqDiagnostic a, .diagnostic, false)] →
      Allowed s a (pgMOD + R.MOD_MODE_REQ) (BitVec.ofNat 32 (m.code + if f then 8 else 0)) →
      (plyStopped s = true → Runs c s (fun t => t.reply = ⟨.ok, 0⟩ ∧ t.md.req = s.md.req ∧ t.md.mode = s.md.mode ∧
        fg t pgMOD F.MOD_MODE_STATUS_RESULT = mrBUSY ∧ evStatus t 0x001 1 = true ∧ t.hbm = s.hbm)) ∧
      (plyStopped s = false → (∀ p, s.md.req = some p → p.cycle ≠ cycleNow s) → Runs c s (fun t =>
        t = { s with md := { s.md with req := some ⟨m, f, !isCore a, cycleNow s⟩ }, reply := ⟨.ok, 0⟩ }))) ∧
    (s.md.mode = .calibrate → fgb s pgMOD F.MOD_MODE_STATUS_CAL_DONE = false →
      (s.md.latchFailed = false → hbmReady s = true → Runs .calibrateComplete s (fun t =>
        fg t pgMOD F.MOD_MODE_STATUS_CAL_DONE = 1 ∧ fg t pgCAL F.CAL_CAL_STATE_LATCH_CAL_DONE = 1 ∧ t.md = s.md ∧
        (∀ l, (getL t l).held = false) ∧ (rawRd t (pb 0x010 + oEVT_CAUSE)).getLsbD evLATCH_HELD = false ∧ t.hbm = s.hbm)) ∧
      (s.md.latchFailed = true → Runs .calibrateComplete s (fun t => t = s)) ∧
      Runs .latchCalFail s (fun t => t.md.latchFailed = true ∧ t.md.mode = .calibrate ∧ evStatus t 0x001 4 = true ∧
        (evClass s 0x001 4 = clsFATAL → t.md.stay = true) ∧ t.hbm = s.hbm)) ∧
    (s.md.mode = .dormant → s.md.busy = true →
      (5 ≤ s.md.step → (s.fuse.hbm = true → ∀ c, c < 16 → srSettled s c = true) → Runs .dormantComplete s (fun t =>
        t = { s with md := { s.md with busy := false, step := 0 } })) ∧
      ∀ c : Fin 16, s.md.step = 5 → srState s c = srACTIVE → trained s c = true → s.fuse.hbm = true →
        (srTries s c < 1000 → Runs (.srEnterRetry c) s (fun t => srState t c = srENTERING ∧ srTries t c = srTries s c + 1 ∧
          (frozen s 0x001 = false → rd64 t (pgMOD + R.MOD_SR_RETRIES) = (rd64 s (pgMOD + R.MOD_SR_RETRIES) + 1) % 2 ^ 64) ∧
          t.hbm.mem = s.hbm.mem)) ∧
        (srTries s c = 1000 → Runs (.srEnterRetry c) s (fun t => srState t c = srACTIVE ∧ srTries t c = 1001 ∧
          evStatus t 0x001 3 = true ∧ t.hbm = s.hbm))) ∧
    (s.md.mode = .drain → s.md.drainWarned = false →
      s.md.drainPly + 25 * fg s pgMOD F.MOD_DRAIN_CTRL_DRAIN_MAX ≤ plyNat s → Runs .drainTimeout s (fun t =>
        t.md.drainWarned = true ∧ t.md.mode = .drain ∧ evStatus t 0x001 2 = true ∧ t.hbm = s.hbm ∧ t.frames = s.frames)) ∧
    (inReset s = false →
      (∀ degs : List Nat, degs ≠ [] → Runs (.ageingMeasurement degs []) s (fun t =>
        let worst := fg t pgAGE F.AGE_DEG_WORST_DEG
        (∀ k, k < 64 → k < degs.length → fg t (pgAGE + 4 * k) F.AGE_RO_DEG_DEG = min (degs.getD k 0) 65535) ∧
        (∀ d ∈ degs.take 64, min d 65535 ≤ worst) ∧ (worst = 0 ∨ ∃ d ∈ degs.take 64, min d 65535 = worst) ∧
        (fg s pgAGE F.AGE_DEG_WORST_DEG ≤ fg s pgAGE F.AGE_DEG_WARN_DEG → fg s pgAGE F.AGE_DEG_WARN_DEG < worst →
          evStatus t 0x004 0 = true) ∧
        (s.md.mode = .live → requestedGb s ≤ requestedGb t ∧ requestedGb t ≤ requestedGb s + 5) ∧ t.hbm = s.hbm)) ∧
      (∀ l h w p : Nat, l < 256 → portOfLane s l = some p → isUp s p = true → h < 2 ^ 16 → w < 2 ^ 16 →
        let good := fg s pgAGE F.AGE_EYE_MIN_EYE_MIN_H ≤ h ∧ fg s pgAGE F.AGE_EYE_MIN_EYE_MIN_W ≤ w
        Runs (.ageingMeasurement [] [(l, h, w)]) s (fun t => fg t (laneB l) F.LANE_EYE_EYE_HEIGHT = h ∧
          fg t (laneB l) F.LANE_EYE_EYE_WIDTH = w ∧
          (getL t l).eyeLow = (if good then 0 else (getL s l).eyeLow + 1) ∧
          (¬ good → (getL s l).eyeLow = 9 → l ∈ t.elec.reEq ∧ evStatus t 0x004 2 = true ∧
            (rawRd t (pgAGE + R.AGE_LANE_MARGIN + 4 * (l / 32))).getLsbD (l % 32) = true) ∧ t.hbm = s.hbm))) ∧
    (∀ (lane : Fin 256) (delta : Int),
      let addr := pgCAL + R.CAL_LANE_TRIM + 4 * lane
      let new := BitVec.ofNat 32 (trunc 16 (sext 16 (fg s (pgCAL + 4 * lane) F.CAL_LANE_TRIM_TRIM) + delta))
      let total := fun (t : State) => fg t (pgAGE + 4 * lane) F.AGE_RECAL_TOTAL_TOTAL
      let within := ∃ x y, tolField addr new.toNat = some x ∧ tolField addr (atSealing s addr) = some y ∧
        (x - y).natAbs ≤ s.sl.calTol
      let step := max 1 (fg s pgAGE F.AGE_AGE_CTRL_RECAL_STEP)
      let run := Instr.capturePathRecal lane delta
      s.elec.island = true → fgb s pgAGE F.AGE_AGE_CTRL_RECAL_EN = true →
      (s.md.mode = .calibrate ∨ s.md.mode = .live ∨ s.md.mode = .drain) → tget (fun _ => 0) s.elec.recalAt lane = 0 →
      (delta.natAbs < step → Runs run s (fun t => t = s)) ∧
      (step ≤ delta.natAbs → s.sl.isSealed = false → s.fuse.sealCap = false → Runs run s (fun t => rawRd t addr = new ∧
        total t = trunc 16 (sext 16 (total s) + delta) ∧ t.sl = s.sl ∧ t.hbm = s.hbm)) ∧
      (step ≤ delta.natAbs → s.sl.isSealed = true → logRoom s = true →
        (rawRd s addr).toNat &&& sealedMask s addr ≠ new.toNat &&& sealedMask s addr →
        (within → s.sl.eventCount ≠ 0xFFFFFFFF → Runs run s (fun t => rawRd t addr = new ∧
          t.sl.eventCount = s.sl.eventCount + 1 ∧ t.sl.logHead = s.sl.logHead + 1 ∧
          total t = trunc 16 (sext 16 (total s) + delta) ∧ t.hbm = s.hbm)) ∧
        (¬ within → Runs run s (fun t => rawRd t addr = rawRd s addr ∧ t.sl.eventCount = s.sl.eventCount ∧
          total t = total s ∧ evStatus t 0x016 evRECAL_LIMIT = true ∧ t.hbm = s.hbm)))) ∧
    (∀ g : Nat, s.elec.avsWait = some g →
      (g < 256 → Runs .avsAck s (fun t => t.elec = { s.elec with avsWait := none, gbAcked := g } ∧
        fg t pgAGE F.AGE_AVS_STATUS_GB = g ∧ fg t pgCLK F.CLK_REFCLK_STATUS_AVS_ACK = 1 ∧
        (fg s pgAGE F.AGE_AVS_CFG_GB_MAX ≤ g → fg s pgAGE F.AGE_AVS_STATUS_GB < g → evStatus t 0x004 1 = true) ∧
        t.hbm = s.hbm)) ∧
      (s.elec.gbAcked < 256 → Runs .avsTimeout s (fun t => t.elec = { s.elec with avsWait := none } ∧
        fg t pgAGE F.AGE_AVS_STATUS_GB = s.elec.gbAcked ∧ fg t pgCLK F.CLK_REFCLK_STATUS_AVS_ACK = 0 ∧
        evStatus t 0x005 2 = true ∧ t.hbm = s.hbm))) ∧
    (let down := fun (t : State) => t.md.mode = .reset ∧ t.tm.ply = 0 ∧ t.tm.firstEdge = true ∧ t.frames = [] ∧
        t.cores = {} ∧ t.cls = {} ∧ t.fl = {} ∧ t.sky.bypass = true ∧ t.sky.kept = [] ∧ t.hbm.mem = [] ∧ t.sl = s.sl ∧
        (∀ x, x / 0x1000 ≠ 5 → x / 0x1000 ≠ 6 → resetKeeps true true x = false → rawRd t x = regReset x)
     Runs .rstNAssert s down ∧
     (∀ rail : Fin 10,
       (rail.val = 7 ∨ rail.val = 8 → Runs (.underVoltage rail) s (fun t => t = s)) ∧
       (rail.val ≠ 7 → rail.val ≠ 8 → Runs (.underVoltage rail) s (fun t => down t ∧
         (rawRd t (pgCLK + R.CLK_SUPPLY_STATUS)).getLsbD rail = false ∧
         (rawRd t (pgCLK + R.CLK_SUPPLY_STATUS)).getLsbD (10 + rail) = true))) ∧
     Runs .thermalTrip s (fun t => down t ∧ fg t pgCLK F.CLK_TEMP_STATUS_TRIP_SEEN = 1) ∧
     Runs .diePowerOn s (fun t => down t ∧ t.flt.slots = [] ∧ t.flt.frozen = false ∧
       fg t pgFA F.FA_FIRST_FATAL_VALID = 0 ∧
       ∀ r, r < 10 → r ≠ 7 → r ≠ 8 → (rawRd t (pgCLK + R.CLK_SUPPLY_STATUS)).getLsbD r = true)) ∧
    (∀ i : Fin 8,
      let bit := fun (t : State) (k : Nat) => (rawRd t (pgCLK + R.CLK_REFCLK_STATUS)).getLsbD k
      (i.val = 7 → Runs (.refclkLoss i) s (fun t => t = s) ∧ Runs (.refclkRestored i) s (fun t => t = s)) ∧
      (i.val < 7 → Runs (.refclkLoss i) s (fun t => bit t i = false ∧ (∀ k, k < 7 → k ≠ i.val → bit t k = bit s k) ∧
        (refclkUsed s i = true → (rawRd t (pb 0x005 + oEVT_CAUSE)).getLsbD 4 = true) ∧ t.hbm = s.hbm) ∧
       Runs (.refclkRestored i) s (fun t => bit t i = true ∧ (∀ k, k < 7 → k ≠ i.val → bit t k = bit s k) ∧
        ((∀ k, k < 7 → k ≠ i.val → refclkUsed s k = true → bit s k = true) →
          (rawRd t (pb 0x005 + oEVT_CAUSE)).getLsbD 4 = false) ∧ t.hbm = s.hbm)))
end

