-- ==== Sys2Proof/Laws/Tab.lean ====
section
/-! SUPPORT. The laws of the sparse tables, for tables of any form: a read after a write; and that a write, a filter and
a drop keep the canonical form. -/

namespace Sys2Proof.Machine

variable {α : Type}

theorem tget_filter_self (d : Nat → α) (t : Tab α) (k : Nat) : tget d (t.filter (fun e => e.1 != k)) k = d k := by
  induction t with
  | nil => rfl
  | cons e t ih =>
    by_cases h : e.1 = k
    · simpa [List.filter_cons, h] using ih
    · have h' : k ≠ e.1 := fun x => h x.symm
      simpa [List.filter_cons, h, tget, h'] using ih

theorem tget_filter_ne (d : Nat → α) (t : Tab α) (k j : Nat) (hj : j ≠ k) :
    tget d (t.filter (fun e => e.1 != k)) j = tget d t j := by
  induction t with
  | nil => rfl
  | cons e t ih =>
    by_cases h : e.1 = k
    · have h' : j ≠ e.1 := fun x => hj (x.trans h)
      simpa [h, tget, hj] using ih
    · simp [List.filter_cons, h, tget, ih]

theorem tget_tput_self (d : Nat → α) (t : Tab α) (k : Nat) (v : α) : tget d (tput t k v) k = v := by
  induction t with
  | nil => simp [tput, tget]
  | cons e t ih =>
    simp only [tput]
    split
    · simp [tget]
    · split
      · simp [tget]
      · simp [tget, *]

theorem tget_tput_ne (d : Nat → α) (t : Tab α) (k j : Nat) (v : α) (hj : j ≠ k) :
    tget d (tput t k v) j = tget d t j := by
  induction t with
  | nil => simp [tput, tget, hj]
  | cons e t ih =>
    simp only [tput]
    split
    · simp [tget, hj]
    · split
      · rename_i h1 h2
        subst h2
        simp [tget, hj]
      · simp [tget, ih]

/-- A read of the written key. -/
@[simp] theorem tget_tset_self [DecidableEq α] (d : Nat → α) (t : Tab α) (k : Nat) (v : α) :
    tget d (tset d t k v) k = v := by
  unfold tset
  split
  · rename_i h
    rw [tget_filter_self, h]
  · exact tget_tput_self d t k v

/-- A write leaves every other key alone. -/
theorem tget_tset_ne [DecidableEq α] (d : Nat → α) (t : Tab α) (k j : Nat) (v : α) (hj : j ≠ k) :
    tget d (tset d t k v) j = tget d t j := by
  unfold tset
  split
  · exact tget_filter_ne d t k j hj
  · exact tget_tput_ne d t k j v hj

theorem tget_tset [DecidableEq α] (d : Nat → α) (t : Tab α) (k j : Nat) (v : α) :
    tget d (tset d t k v) j = if j = k then v else tget d t j := by
  split
  · subst_vars; exact tget_tset_self d t _ v
  · exact tget_tset_ne d t k j v ‹_›

theorem twfFrom_mono [DecidableEq α] (d : Nat → α) (t : Tab α) (lo lo' : Nat) (hl : lo' ≤ lo) (h : twfFrom d lo t = true) :
    twfFrom d lo' t = true := by
  cases t with
  | nil => rfl
  | cons e t =>
    simp only [twfFrom, Bool.and_eq_true, decide_eq_true_eq] at h ⊢
    exact ⟨⟨by omega, h.1.2⟩, h.2⟩

/-- Filtering keeps the canonical form. -/
theorem twfFrom_filter [DecidableEq α] (d : Nat → α) (t : Tab α) (p : Nat × α → Bool) (lo : Nat)
    (h : twfFrom d lo t = true) : twfFrom d lo (t.filter p) = true := by
  induction t generalizing lo with
  | nil => rfl
  | cons e t ih =>
    simp only [twfFrom, Bool.and_eq_true, decide_eq_true_eq] at h
    simp only [List.filter]
    split
    · simp only [twfFrom, Bool.and_eq_true, decide_eq_true_eq]
      exact ⟨h.1, ih _ h.2⟩
    · exact twfFrom_mono d _ (e.1 + 1) lo (by omega) (ih _ h.2)

theorem twfFrom_tput [DecidableEq α] (d : Nat → α) (t : Tab α) (lo k : Nat) (v : α) (hk : lo ≤ k) (hv : v ≠ d k)
    (h : twfFrom d lo t = true) : twfFrom d lo (tput t k v) = true := by
  induction t generalizing lo with
  | nil => simp [tput, twfFrom, *]
  | cons e t ih =>
    simp only [twfFrom, Bool.and_eq_true, decide_eq_true_eq] at h
    simp only [tput]
    split
    · simp only [twfFrom, Bool.and_eq_true, decide_eq_true_eq]
      exact ⟨⟨hk, hv⟩, ⟨by omega, h.1.2⟩, h.2⟩
    · split
      · rename_i h1 h2
        simp only [twfFrom, Bool.and_eq_true, decide_eq_true_eq]
        exact ⟨⟨hk, hv⟩, h2 ▸ h.2⟩
      · simp only [twfFrom, Bool.and_eq_true, decide_eq_true_eq]
        exact ⟨h.1, ih (e.1 + 1) (by omega) h.2⟩

theorem twfFrom_tset [DecidableEq α] (d : Nat → α) (t : Tab α) (lo k : Nat) (v : α) (hk : lo ≤ k)
    (h : twfFrom d lo t = true) : twfFrom d lo (tset d t k v) = true := by
  unfold tset
  split
  · exact twfFrom_filter d t _ lo h
  · exact twfFrom_tput d t lo k v hk ‹_› h

/-- A write keeps the canonical form. -/
theorem twf_tset [DecidableEq α] (d : Nat → α) (t : Tab α) (k : Nat) (v : α) (h : twf d t = true) :
    twf d (tset d t k v) = true := twfFrom_tset d t 0 k v (Nat.zero_le _) h

theorem twf_filter [DecidableEq α] (d : Nat → α) (t : Tab α) (p : Nat × α → Bool) (h : twf d t = true) :
    twf d (t.filter p) = true := twfFrom_filter d t p 0 h

/-- Dropping keys keeps the canonical form. -/
theorem twf_tdropIf [DecidableEq α] (d : Nat → α) (t : Tab α) (p : Nat → Bool) (h : twf d t = true) :
    twf d (tdropIf p t) = true := by
  have e : tdropIf p t = t.filter (fun e => !p e.1) := by
    clear h
    induction t with
    | nil => rfl
    | cons e t ih =>
      by_cases hp : p e.1 <;> simp [tdropIf, hp, ih]
  rw [e]
  exact twf_filter d t _ h

end Sys2Proof.Machine
end

