-- ==== Sys2Proof/Laws/Bits.lean ====
section
/-! SUPPORT. The laws of fields of a word: what a field reads after a field was written. -/

namespace Sys2Proof.Machine

theorem setBits_nat (n lo wd y : Nat) (i : Nat) :
    (n - ((n >>> lo) % 2 ^ wd) <<< lo + (y % 2 ^ wd) <<< lo).testBit i =
      if lo ≤ i ∧ i < lo + wd then y.testBit (i - lo) else n.testBit i := by
  have e1 : n = 2 ^ lo * (2 ^ wd * (n >>> lo / 2 ^ wd) + n >>> lo % 2 ^ wd) + n % 2 ^ lo := by
    rw [Nat.div_add_mod, Nat.shiftRight_eq_div_pow, Nat.div_add_mod]
  have hr : n % 2 ^ lo < 2 ^ lo := Nat.mod_lt _ (Nat.two_pow_pos lo)
  have hm : n >>> lo % 2 ^ wd < 2 ^ wd := Nat.mod_lt _ (Nat.two_pow_pos wd)
  have hy : y % 2 ^ wd < 2 ^ wd := Nat.mod_lt _ (Nat.two_pow_pos wd)
  have e2 : n - ((n >>> lo) % 2 ^ wd) <<< lo + (y % 2 ^ wd) <<< lo =
      2 ^ lo * (2 ^ wd * (n >>> lo / 2 ^ wd) + y % 2 ^ wd) + n % 2 ^ lo := by
    simp only [Nat.shiftLeft_eq]
    generalize hA : n >>> lo / 2 ^ wd = A at *
    generalize hM : n >>> lo % 2 ^ wd = M at *
    generalize hR : n % 2 ^ lo = R at *
    generalize y % 2 ^ wd = Y at *
    rw [e1, Nat.mul_add, Nat.mul_add, Nat.mul_comm M, Nat.mul_comm Y]
    omega
  rw [e2, Nat.testBit_two_pow_mul_add _ hr, Nat.testBit_two_pow_mul_add _ hy]
  have e3 : n.testBit i = (2 ^ lo * (2 ^ wd * (n >>> lo / 2 ^ wd) + n >>> lo % 2 ^ wd) + n % 2 ^ lo).testBit i := by
    rw [← e1]
  rw [e3, Nat.testBit_two_pow_mul_add _ hr, Nat.testBit_two_pow_mul_add _ hm]
  by_cases h1 : i < lo
  · have : ¬ lo ≤ i := by omega
    simp [h1, this]
  · by_cases h2 : i - lo < wd
    · have : lo ≤ i ∧ i < lo + wd := by omega
      rw [if_neg h1, if_pos h2, if_pos this, Nat.testBit_mod_two_pow]
      simp [h2]
    · have : ¬ (lo ≤ i ∧ i < lo + wd) := by omega
      rw [if_neg h1, if_neg h2, if_neg this, if_neg h1, if_neg h2]

/-- Bit `i` of a word after one of its fields was written. -/
theorem setBits_toNat_testBit (w : Word) (lo wd x i : Nat) (h : lo + wd ≤ 32) :
    (setBits w lo wd x).toNat.testBit i = if lo ≤ i ∧ i < lo + wd then x.testBit (i - lo) else w.toNat.testBit i := by
  simp only [setBits, BitVec.toNat_ofNat, Nat.testBit_mod_two_pow, setBits_nat]
  by_cases hi : i < 32
  · simp [hi]
  · have h1 : ¬ (lo ≤ i ∧ i < lo + wd) := by omega
    rw [if_neg h1]
    have : w.toNat.testBit i = false :=
      Nat.testBit_lt_two_pow (Nat.lt_of_lt_of_le w.isLt (Nat.pow_le_pow_right (by omega) (by omega)))
    simp [hi, this]

theorem bitsOf_testBit (w : Word) (lo wd i : Nat) :
    (bitsOf w lo wd).testBit i = (decide (i < wd) && w.toNat.testBit (lo + i)) := by
  simp [bitsOf, Nat.testBit_mod_two_pow, Nat.testBit_shiftRight]

/-- A field reads what was written to it. -/
theorem bitsOf_setBits_self (w : Word) (lo wd x : Nat) (h : lo + wd ≤ 32) : bitsOf (setBits w lo wd x) lo wd = x % 2 ^ wd := by
  apply Nat.eq_of_testBit_eq
  intro i
  rw [bitsOf_testBit, setBits_toNat_testBit _ _ _ _ _ h, Nat.testBit_mod_two_pow]
  by_cases hi : i < wd
  · have : lo ≤ lo + i ∧ lo + i < lo + wd := by omega
    simp [hi]
  · simp [hi]

/-- Another field of the word keeps its value. -/
theorem bitsOf_setBits_ne (w : Word) (lo wd x lo' wd' : Nat) (h : lo + wd ≤ 32) (hd : lo' + wd' ≤ lo ∨ lo + wd ≤ lo') :
    bitsOf (setBits w lo wd x) lo' wd' = bitsOf w lo' wd' := by
  apply Nat.eq_of_testBit_eq
  intro i
  rw [bitsOf_testBit, bitsOf_testBit, setBits_toNat_testBit _ _ _ _ _ h]
  by_cases hi : i < wd'
  · have : ¬ (lo ≤ lo' + i ∧ lo' + i < lo + wd) := by omega
    rw [if_neg this]
  · simp [hi]

theorem bitsOf_lt (w : Word) (lo wd : Nat) : bitsOf w lo wd < 2 ^ wd := Nat.mod_lt _ (Nat.two_pow_pos wd)

end Sys2Proof.Machine
end

