-- ==== Sys2Proof/Laws/State.lean ====
section
/-! SUPPORT. What each named update leaves alone, field by field, and the field it writes. -/

namespace Sys2Proof.Machine

@[simp] theorem rawWr_frame (s : State) (a : Nat) (v : Word) :
    (rawWr s a v).tm = s.tm ∧ (rawWr s a v).eff = s.eff ∧ (rawWr s a v).latch = s.latch ∧
    (rawWr s a v).reply = s.reply ∧ (rawWr s a v).out = s.out ∧ (rawWr s a v).freeIx = s.freeIx ∧
    (rawWr s a v).flt = s.flt ∧ (rawWr s a v).cnt = s.cnt ∧ (rawWr s a v).lanes = s.lanes ∧
    (rawWr s a v).ports = s.ports ∧ (rawWr s a v).frames = s.frames ∧ (rawWr s a v).nextFrame = s.nextFrame ∧
    (rawWr s a v).slots = s.slots ∧ (rawWr s a v).slotsInternal = s.slotsInternal ∧ (rawWr s a v).core = s.core ∧
    (rawWr s a v).tmg = s.tmg ∧ (rawWr s a v).arb = s.arb ∧ (rawWr s a v).ev = s.ev ∧ (rawWr s a v).sl = s.sl ∧
    (rawWr s a v).md = s.md ∧ (rawWr s a v).ref = s.ref ∧ (rawWr s a v).framers = s.framers ∧
    (rawWr s a v).cls = s.cls ∧ (rawWr s a v).fl = s.fl ∧ (rawWr s a v).hbm = s.hbm ∧ (rawWr s a v).dsp = s.dsp ∧
    (rawWr s a v).cores = s.cores ∧ (rawWr s a v).boot = s.boot ∧ (rawWr s a v).elec = s.elec ∧
    (rawWr s a v).sky = s.sky ∧ (rawWr s a v).fuse = s.fuse ∧ (rawWr s a v).pending = s.pending :=
  ⟨rfl, rfl, rfl, rfl, rfl, rfl, rfl, rfl, rfl, rfl, rfl, rfl, rfl, rfl, rfl, rfl, rfl, rfl, rfl, rfl, rfl, rfl,
    rfl, rfl, rfl, rfl, rfl, rfl, rfl, rfl, rfl, rfl⟩

@[simp] theorem fs_frame (s : State) (b : Nat) (f : FRef) (x : Nat) :
    (fs s b f x).tm = s.tm ∧ (fs s b f x).eff = s.eff ∧ (fs s b f x).latch = s.latch ∧ (fs s b f x).reply = s.reply ∧
    (fs s b f x).out = s.out ∧ (fs s b f x).freeIx = s.freeIx ∧ (fs s b f x).flt = s.flt ∧ (fs s b f x).cnt = s.cnt ∧
    (fs s b f x).lanes = s.lanes ∧ (fs s b f x).ports = s.ports ∧ (fs s b f x).frames = s.frames ∧
    (fs s b f x).nextFrame = s.nextFrame ∧ (fs s b f x).slots = s.slots ∧
    (fs s b f x).slotsInternal = s.slotsInternal ∧ (fs s b f x).core = s.core ∧ (fs s b f x).tmg = s.tmg ∧
    (fs s b f x).arb = s.arb ∧ (fs s b f x).ev = s.ev ∧ (fs s b f x).sl = s.sl ∧ (fs s b f x).md = s.md ∧
    (fs s b f x).ref = s.ref ∧ (fs s b f x).framers = s.framers ∧ (fs s b f x).cls = s.cls ∧ (fs s b f x).fl = s.fl ∧
    (fs s b f x).hbm = s.hbm ∧ (fs s b f x).dsp = s.dsp ∧ (fs s b f x).cores = s.cores ∧ (fs s b f x).boot = s.boot ∧
    (fs s b f x).elec = s.elec ∧ (fs s b f x).sky = s.sky ∧ (fs s b f x).fuse = s.fuse ∧
    (fs s b f x).pending = s.pending :=
  ⟨rfl, rfl, rfl, rfl, rfl, rfl, rfl, rfl, rfl, rfl, rfl, rfl, rfl, rfl, rfl, rfl, rfl, rfl, rfl, rfl, rfl, rfl,
    rfl, rfl, rfl, rfl, rfl, rfl, rfl, rfl, rfl, rfl⟩

@[simp] theorem fsBoth_frame (s : State) (b : Nat) (f : FRef) (x : Nat) :
    (fsBoth s b f x).tm = s.tm ∧ (fsBoth s b f x).latch = s.latch ∧ (fsBoth s b f x).reply = s.reply ∧
    (fsBoth s b f x).out = s.out ∧ (fsBoth s b f x).freeIx = s.freeIx ∧ (fsBoth s b f x).flt = s.flt ∧
    (fsBoth s b f x).cnt = s.cnt ∧ (fsBoth s b f x).lanes = s.lanes ∧ (fsBoth s b f x).ports = s.ports ∧
    (fsBoth s b f x).frames = s.frames ∧ (fsBoth s b f x).nextFrame = s.nextFrame ∧
    (fsBoth s b f x).slots = s.slots ∧ (fsBoth s b f x).slotsInternal = s.slotsInternal ∧
    (fsBoth s b f x).core = s.core ∧ (fsBoth s b f x).tmg = s.tmg ∧ (fsBoth s b f x).arb = s.arb ∧
    (fsBoth s b f x).ev = s.ev ∧ (fsBoth s b f x).sl = s.sl ∧ (fsBoth s b f x).md = s.md ∧
    (fsBoth s b f x).ref = s.ref ∧ (fsBoth s b f x).framers = s.framers ∧ (fsBoth s b f x).cls = s.cls ∧
    (fsBoth s b f x).fl = s.fl ∧ (fsBoth s b f x).hbm = s.hbm ∧ (fsBoth s b f x).dsp = s.dsp ∧
    (fsBoth s b f x).cores = s.cores ∧ (fsBoth s b f x).boot = s.boot ∧ (fsBoth s b f x).elec = s.elec ∧
    (fsBoth s b f x).sky = s.sky ∧ (fsBoth s b f x).fuse = s.fuse ∧ (fsBoth s b f x).pending = s.pending := by
  simp [fsBoth]

@[simp] theorem setBit_frame (s : State) (a b : Nat) (v : Bool) :
    (setBit s a b v).tm = s.tm ∧ (setBit s a b v).eff = s.eff ∧ (setBit s a b v).latch = s.latch ∧
    (setBit s a b v).reply = s.reply ∧ (setBit s a b v).out = s.out ∧ (setBit s a b v).freeIx = s.freeIx ∧
    (setBit s a b v).flt = s.flt ∧ (setBit s a b v).cnt = s.cnt ∧ (setBit s a b v).lanes = s.lanes ∧
    (setBit s a b v).ports = s.ports ∧ (setBit s a b v).frames = s.frames ∧
    (setBit s a b v).nextFrame = s.nextFrame ∧ (setBit s a b v).slots = s.slots ∧
    (setBit s a b v).slotsInternal = s.slotsInternal ∧ (setBit s a b v).core = s.core ∧
    (setBit s a b v).tmg = s.tmg ∧ (setBit s a b v).arb = s.arb ∧ (setBit s a b v).ev = s.ev ∧
    (setBit s a b v).sl = s.sl ∧ (setBit s a b v).md = s.md ∧ (setBit s a b v).ref = s.ref ∧
    (setBit s a b v).framers = s.framers ∧ (setBit s a b v).cls = s.cls ∧ (setBit s a b v).fl = s.fl ∧
    (setBit s a b v).hbm = s.hbm ∧ (setBit s a b v).dsp = s.dsp ∧ (setBit s a b v).cores = s.cores ∧
    (setBit s a b v).boot = s.boot ∧ (setBit s a b v).elec = s.elec ∧ (setBit s a b v).sky = s.sky ∧
    (setBit s a b v).fuse = s.fuse ∧ (setBit s a b v).pending = s.pending :=
  ⟨rfl, rfl, rfl, rfl, rfl, rfl, rfl, rfl, rfl, rfl, rfl, rfl, rfl, rfl, rfl, rfl, rfl, rfl, rfl, rfl, rfl, rfl,
    rfl, rfl, rfl, rfl, rfl, rfl, rfl, rfl, rfl, rfl⟩

@[simp] theorem wr64_frame (s : State) (a v : Nat) :
    (wr64 s a v).tm = s.tm ∧ (wr64 s a v).eff = s.eff ∧ (wr64 s a v).latch = s.latch ∧ (wr64 s a v).reply = s.reply ∧
    (wr64 s a v).out = s.out ∧ (wr64 s a v).freeIx = s.freeIx ∧ (wr64 s a v).flt = s.flt ∧ (wr64 s a v).cnt = s.cnt ∧
    (wr64 s a v).lanes = s.lanes ∧ (wr64 s a v).ports = s.ports ∧ (wr64 s a v).frames = s.frames ∧
    (wr64 s a v).nextFrame = s.nextFrame ∧ (wr64 s a v).slots = s.slots ∧
    (wr64 s a v).slotsInternal = s.slotsInternal ∧ (wr64 s a v).core = s.core ∧ (wr64 s a v).tmg = s.tmg ∧
    (wr64 s a v).arb = s.arb ∧ (wr64 s a v).ev = s.ev ∧ (wr64 s a v).sl = s.sl ∧ (wr64 s a v).md = s.md ∧
    (wr64 s a v).ref = s.ref ∧ (wr64 s a v).framers = s.framers ∧ (wr64 s a v).cls = s.cls ∧ (wr64 s a v).fl = s.fl ∧
    (wr64 s a v).hbm = s.hbm ∧ (wr64 s a v).dsp = s.dsp ∧ (wr64 s a v).cores = s.cores ∧ (wr64 s a v).boot = s.boot ∧
    (wr64 s a v).elec = s.elec ∧ (wr64 s a v).sky = s.sky ∧ (wr64 s a v).fuse = s.fuse ∧
    (wr64 s a v).pending = s.pending := by
  simp [wr64]

@[simp] theorem addRaw_frame (s : State) (a n : Nat) :
    ((addRaw s a n).2).tm = s.tm ∧ ((addRaw s a n).2).eff = s.eff ∧ ((addRaw s a n).2).latch = s.latch ∧
    ((addRaw s a n).2).reply = s.reply ∧ ((addRaw s a n).2).out = s.out ∧ ((addRaw s a n).2).freeIx = s.freeIx ∧
    ((addRaw s a n).2).flt = s.flt ∧ ((addRaw s a n).2).cnt = s.cnt ∧ ((addRaw s a n).2).lanes = s.lanes ∧
    ((addRaw s a n).2).ports = s.ports ∧ ((addRaw s a n).2).frames = s.frames ∧
    ((addRaw s a n).2).nextFrame = s.nextFrame ∧ ((addRaw s a n).2).slots = s.slots ∧
    ((addRaw s a n).2).slotsInternal = s.slotsInternal ∧ ((addRaw s a n).2).core = s.core ∧
    ((addRaw s a n).2).tmg = s.tmg ∧ ((addRaw s a n).2).arb = s.arb ∧ ((addRaw s a n).2).ev = s.ev ∧
    ((addRaw s a n).2).sl = s.sl ∧ ((addRaw s a n).2).md = s.md ∧ ((addRaw s a n).2).ref = s.ref ∧
    ((addRaw s a n).2).framers = s.framers ∧ ((addRaw s a n).2).cls = s.cls ∧ ((addRaw s a n).2).fl = s.fl ∧
    ((addRaw s a n).2).hbm = s.hbm ∧ ((addRaw s a n).2).dsp = s.dsp ∧ ((addRaw s a n).2).cores = s.cores ∧
    ((addRaw s a n).2).boot = s.boot ∧ ((addRaw s a n).2).elec = s.elec ∧ ((addRaw s a n).2).sky = s.sky ∧
    ((addRaw s a n).2).fuse = s.fuse ∧ ((addRaw s a n).2).pending = s.pending := by
  simp [addRaw]

@[simp] theorem free_frame (s : State) :
    ((free s).2).tm = s.tm ∧ ((free s).2).regs = s.regs ∧ ((free s).2).eff = s.eff ∧ ((free s).2).latch = s.latch ∧
    ((free s).2).reply = s.reply ∧ ((free s).2).out = s.out ∧ ((free s).2).flt = s.flt ∧ ((free s).2).cnt = s.cnt ∧
    ((free s).2).lanes = s.lanes ∧ ((free s).2).ports = s.ports ∧ ((free s).2).frames = s.frames ∧
    ((free s).2).nextFrame = s.nextFrame ∧ ((free s).2).slots = s.slots ∧
    ((free s).2).slotsInternal = s.slotsInternal ∧ ((free s).2).core = s.core ∧ ((free s).2).tmg = s.tmg ∧
    ((free s).2).arb = s.arb ∧ ((free s).2).ev = s.ev ∧ ((free s).2).sl = s.sl ∧ ((free s).2).md = s.md ∧
    ((free s).2).ref = s.ref ∧ ((free s).2).framers = s.framers ∧ ((free s).2).cls = s.cls ∧ ((free s).2).fl = s.fl ∧
    ((free s).2).hbm = s.hbm ∧ ((free s).2).dsp = s.dsp ∧ ((free s).2).cores = s.cores ∧ ((free s).2).boot = s.boot ∧
    ((free s).2).elec = s.elec ∧ ((free s).2).sky = s.sky ∧ ((free s).2).fuse = s.fuse ∧
    ((free s).2).pending = s.pending :=
  ⟨rfl, rfl, rfl, rfl, rfl, rfl, rfl, rfl, rfl, rfl, rfl, rfl, rfl, rfl, rfl, rfl, rfl, rfl, rfl, rfl, rfl, rfl,
    rfl, rfl, rfl, rfl, rfl, rfl, rfl, rfl, rfl, rfl⟩

@[simp] theorem emit_frame (s : State) (o : Out) :
    (emit s o).tm = s.tm ∧ (emit s o).regs = s.regs ∧ (emit s o).eff = s.eff ∧ (emit s o).latch = s.latch ∧
    (emit s o).reply = s.reply ∧ (emit s o).freeIx = s.freeIx ∧ (emit s o).flt = s.flt ∧ (emit s o).cnt = s.cnt ∧
    (emit s o).lanes = s.lanes ∧ (emit s o).ports = s.ports ∧ (emit s o).frames = s.frames ∧
    (emit s o).nextFrame = s.nextFrame ∧ (emit s o).slots = s.slots ∧ (emit s o).slotsInternal = s.slotsInternal ∧
    (emit s o).core = s.core ∧ (emit s o).tmg = s.tmg ∧ (emit s o).arb = s.arb ∧ (emit s o).ev = s.ev ∧
    (emit s o).sl = s.sl ∧ (emit s o).md = s.md ∧ (emit s o).ref = s.ref ∧ (emit s o).framers = s.framers ∧
    (emit s o).cls = s.cls ∧ (emit s o).fl = s.fl ∧ (emit s o).hbm = s.hbm ∧ (emit s o).dsp = s.dsp ∧
    (emit s o).cores = s.cores ∧ (emit s o).boot = s.boot ∧ (emit s o).elec = s.elec ∧ (emit s o).sky = s.sky ∧
    (emit s o).fuse = s.fuse ∧ (emit s o).pending = s.pending :=
  ⟨rfl, rfl, rfl, rfl, rfl, rfl, rfl, rfl, rfl, rfl, rfl, rfl, rfl, rfl, rfl, rfl, rfl, rfl, rfl, rfl, rfl, rfl,
    rfl, rfl, rfl, rfl, rfl, rfl, rfl, rfl, rfl, rfl⟩

@[simp] theorem hold_frame (s t : State) :
    (hold t s).tm = s.tm ∧ (hold t s).regs = s.regs ∧ (hold t s).eff = s.eff ∧ (hold t s).latch = s.latch ∧
    (hold t s).reply = s.reply ∧ (hold t s).out = s.out ∧ (hold t s).freeIx = s.freeIx ∧ (hold t s).flt = s.flt ∧
    (hold t s).cnt = s.cnt ∧ (hold t s).lanes = s.lanes ∧ (hold t s).ports = s.ports ∧ (hold t s).frames = s.frames ∧
    (hold t s).nextFrame = s.nextFrame ∧ (hold t s).slots = s.slots ∧ (hold t s).slotsInternal = s.slotsInternal ∧
    (hold t s).core = s.core ∧ (hold t s).tmg = s.tmg ∧ (hold t s).arb = s.arb ∧ (hold t s).ev = s.ev ∧
    (hold t s).sl = s.sl ∧ (hold t s).md = s.md ∧ (hold t s).ref = s.ref ∧ (hold t s).framers = s.framers ∧
    (hold t s).cls = s.cls ∧ (hold t s).fl = s.fl ∧ (hold t s).hbm = s.hbm ∧ (hold t s).dsp = s.dsp ∧
    (hold t s).cores = s.cores ∧ (hold t s).boot = s.boot ∧ (hold t s).elec = s.elec ∧ (hold t s).sky = s.sky ∧
    (hold t s).pending = s.pending :=
  ⟨rfl, rfl, rfl, rfl, rfl, rfl, rfl, rfl, rfl, rfl, rfl, rfl, rfl, rfl, rfl, rfl, rfl, rfl, rfl, rfl, rfl, rfl,
    rfl, rfl, rfl, rfl, rfl, rfl, rfl, rfl, rfl, rfl⟩

@[simp] theorem holdTime_frame (s t : State) :
    (holdTime t s).regs = s.regs ∧ (holdTime t s).eff = s.eff ∧ (holdTime t s).latch = s.latch ∧
    (holdTime t s).reply = s.reply ∧ (holdTime t s).out = s.out ∧ (holdTime t s).freeIx = s.freeIx ∧
    (holdTime t s).flt = s.flt ∧ (holdTime t s).cnt = s.cnt ∧ (holdTime t s).lanes = s.lanes ∧
    (holdTime t s).ports = s.ports ∧ (holdTime t s).frames = s.frames ∧ (holdTime t s).nextFrame = s.nextFrame ∧
    (holdTime t s).slots = s.slots ∧ (holdTime t s).slotsInternal = s.slotsInternal ∧ (holdTime t s).core = s.core ∧
    (holdTime t s).tmg = s.tmg ∧ (holdTime t s).arb = s.arb ∧ (holdTime t s).ev = s.ev ∧ (holdTime t s).sl = s.sl ∧
    (holdTime t s).md = s.md ∧ (holdTime t s).ref = s.ref ∧ (holdTime t s).framers = s.framers ∧
    (holdTime t s).cls = s.cls ∧ (holdTime t s).fl = s.fl ∧ (holdTime t s).hbm = s.hbm ∧ (holdTime t s).dsp = s.dsp ∧
    (holdTime t s).cores = s.cores ∧ (holdTime t s).boot = s.boot ∧ (holdTime t s).elec = s.elec ∧
    (holdTime t s).sky = s.sky ∧ (holdTime t s).pending = s.pending :=
  ⟨rfl, rfl, rfl, rfl, rfl, rfl, rfl, rfl, rfl, rfl, rfl, rfl, rfl, rfl, rfl, rfl, rfl, rfl, rfl, rfl, rfl, rfl,
    rfl, rfl, rfl, rfl, rfl, rfl, rfl, rfl, rfl⟩

@[simp] theorem kept_frame (s t : State) :
    (kept t s).tm = s.tm ∧ (kept t s).regs = s.regs ∧ (kept t s).eff = s.eff ∧ (kept t s).latch = s.latch ∧
    (kept t s).reply = s.reply ∧ (kept t s).out = s.out ∧ (kept t s).freeIx = s.freeIx ∧ (kept t s).flt = s.flt ∧
    (kept t s).cnt = s.cnt ∧ (kept t s).lanes = s.lanes ∧ (kept t s).ports = s.ports ∧ (kept t s).frames = s.frames ∧
    (kept t s).nextFrame = s.nextFrame ∧ (kept t s).slots = s.slots ∧ (kept t s).slotsInternal = s.slotsInternal ∧
    (kept t s).core = s.core ∧ (kept t s).tmg = s.tmg ∧ (kept t s).arb = s.arb ∧ (kept t s).ev = s.ev ∧
    (kept t s).sl = s.sl ∧ (kept t s).md = s.md ∧ (kept t s).ref = s.ref ∧ (kept t s).framers = s.framers ∧
    (kept t s).cls = s.cls ∧ (kept t s).fl = s.fl ∧ (kept t s).hbm = s.hbm ∧ (kept t s).dsp = s.dsp ∧
    (kept t s).cores = s.cores ∧ (kept t s).boot = s.boot ∧ (kept t s).elec = s.elec ∧ (kept t s).sky = s.sky :=
  ⟨rfl, rfl, rfl, rfl, rfl, rfl, rfl, rfl, rfl, rfl, rfl, rfl, rfl, rfl, rfl, rfl, rfl, rfl, rfl, rfl, rfl, rfl,
    rfl, rfl, rfl, rfl, rfl, rfl, rfl, rfl, rfl⟩

@[simp] theorem keptQueue_frame (s t : State) :
    (keptQueue t s).tm = s.tm ∧ (keptQueue t s).regs = s.regs ∧ (keptQueue t s).eff = s.eff ∧
    (keptQueue t s).latch = s.latch ∧ (keptQueue t s).reply = s.reply ∧ (keptQueue t s).out = s.out ∧
    (keptQueue t s).freeIx = s.freeIx ∧ (keptQueue t s).flt = s.flt ∧ (keptQueue t s).cnt = s.cnt ∧
    (keptQueue t s).lanes = s.lanes ∧ (keptQueue t s).ports = s.ports ∧ (keptQueue t s).frames = s.frames ∧
    (keptQueue t s).nextFrame = s.nextFrame ∧ (keptQueue t s).slots = s.slots ∧
    (keptQueue t s).slotsInternal = s.slotsInternal ∧ (keptQueue t s).core = s.core ∧ (keptQueue t s).tmg = s.tmg ∧
    (keptQueue t s).arb = s.arb ∧ (keptQueue t s).ev = s.ev ∧ (keptQueue t s).sl = s.sl ∧ (keptQueue t s).md = s.md ∧
    (keptQueue t s).ref = s.ref ∧ (keptQueue t s).framers = s.framers ∧ (keptQueue t s).cls = s.cls ∧
    (keptQueue t s).fl = s.fl ∧ (keptQueue t s).hbm = s.hbm ∧ (keptQueue t s).dsp = s.dsp ∧
    (keptQueue t s).cores = s.cores ∧ (keptQueue t s).boot = s.boot ∧ (keptQueue t s).elec = s.elec ∧
    (keptQueue t s).sky = s.sky ∧ (keptQueue t s).fuse = s.fuse :=
  ⟨rfl, rfl, rfl, rfl, rfl, rfl, rfl, rfl, rfl, rfl, rfl, rfl, rfl, rfl, rfl, rfl, rfl, rfl, rfl, rfl, rfl, rfl,
    rfl, rfl, rfl, rfl, rfl, rfl, rfl, rfl, rfl, rfl⟩

@[simp] theorem setLatch_frame (s : State) (a : Agent) (n : Nat) (v : Word) :
    (setLatch s a n v).tm = s.tm ∧ (setLatch s a n v).regs = s.regs ∧ (setLatch s a n v).eff = s.eff ∧
    (setLatch s a n v).reply = s.reply ∧ (setLatch s a n v).out = s.out ∧ (setLatch s a n v).freeIx = s.freeIx ∧
    (setLatch s a n v).flt = s.flt ∧ (setLatch s a n v).cnt = s.cnt ∧ (setLatch s a n v).lanes = s.lanes ∧
    (setLatch s a n v).ports = s.ports ∧ (setLatch s a n v).frames = s.frames ∧
    (setLatch s a n v).nextFrame = s.nextFrame ∧ (setLatch s a n v).slots = s.slots ∧
    (setLatch s a n v).slotsInternal = s.slotsInternal ∧ (setLatch s a n v).core = s.core ∧
    (setLatch s a n v).tmg = s.tmg ∧ (setLatch s a n v).arb = s.arb ∧ (setLatch s a n v).ev = s.ev ∧
    (setLatch s a n v).sl = s.sl ∧ (setLatch s a n v).md = s.md ∧ (setLatch s a n v).ref = s.ref ∧
    (setLatch s a n v).framers = s.framers ∧ (setLatch s a n v).cls = s.cls ∧ (setLatch s a n v).fl = s.fl ∧
    (setLatch s a n v).hbm = s.hbm ∧ (setLatch s a n v).dsp = s.dsp ∧ (setLatch s a n v).cores = s.cores ∧
    (setLatch s a n v).boot = s.boot ∧ (setLatch s a n v).elec = s.elec ∧ (setLatch s a n v).sky = s.sky ∧
    (setLatch s a n v).fuse = s.fuse ∧ (setLatch s a n v).pending = s.pending :=
  ⟨rfl, rfl, rfl, rfl, rfl, rfl, rfl, rfl, rfl, rfl, rfl, rfl, rfl, rfl, rfl, rfl, rfl, rfl, rfl, rfl, rfl, rfl,
    rfl, rfl, rfl, rfl, rfl, rfl, rfl, rfl, rfl, rfl⟩

@[simp] theorem setMd_frame (s : State) (m : ModeSt) :
    (setMd s m).tm = s.tm ∧ (setMd s m).regs = s.regs ∧ (setMd s m).eff = s.eff ∧ (setMd s m).latch = s.latch ∧
    (setMd s m).reply = s.reply ∧ (setMd s m).out = s.out ∧ (setMd s m).freeIx = s.freeIx ∧ (setMd s m).flt = s.flt ∧
    (setMd s m).cnt = s.cnt ∧ (setMd s m).lanes = s.lanes ∧ (setMd s m).ports = s.ports ∧
    (setMd s m).frames = s.frames ∧ (setMd s m).nextFrame = s.nextFrame ∧ (setMd s m).slots = s.slots ∧
    (setMd s m).slotsInternal = s.slotsInternal ∧ (setMd s m).core = s.core ∧ (setMd s m).tmg = s.tmg ∧
    (setMd s m).arb = s.arb ∧ (setMd s m).ev = s.ev ∧ (setMd s m).sl = s.sl ∧ (setMd s m).ref = s.ref ∧
    (setMd s m).framers = s.framers ∧ (setMd s m).cls = s.cls ∧ (setMd s m).fl = s.fl ∧ (setMd s m).hbm = s.hbm ∧
    (setMd s m).dsp = s.dsp ∧ (setMd s m).cores = s.cores ∧ (setMd s m).boot = s.boot ∧ (setMd s m).elec = s.elec ∧
    (setMd s m).sky = s.sky ∧ (setMd s m).fuse = s.fuse ∧ (setMd s m).pending = s.pending :=
  ⟨rfl, rfl, rfl, rfl, rfl, rfl, rfl, rfl, rfl, rfl, rfl, rfl, rfl, rfl, rfl, rfl, rfl, rfl, rfl, rfl, rfl, rfl,
    rfl, rfl, rfl, rfl, rfl, rfl, rfl, rfl, rfl, rfl⟩

@[simp] theorem setP_frame (s : State) (p : Nat) (v : PortSt) :
    (setP s p v).tm = s.tm ∧ (setP s p v).regs = s.regs ∧ (setP s p v).eff = s.eff ∧ (setP s p v).latch = s.latch ∧
    (setP s p v).reply = s.reply ∧ (setP s p v).out = s.out ∧ (setP s p v).freeIx = s.freeIx ∧
    (setP s p v).flt = s.flt ∧ (setP s p v).cnt = s.cnt ∧ (setP s p v).lanes = s.lanes ∧
    (setP s p v).frames = s.frames ∧ (setP s p v).nextFrame = s.nextFrame ∧ (setP s p v).slots = s.slots ∧
    (setP s p v).slotsInternal = s.slotsInternal ∧ (setP s p v).core = s.core ∧ (setP s p v).tmg = s.tmg ∧
    (setP s p v).arb = s.arb ∧ (setP s p v).ev = s.ev ∧ (setP s p v).sl = s.sl ∧ (setP s p v).md = s.md ∧
    (setP s p v).ref = s.ref ∧ (setP s p v).framers = s.framers ∧ (setP s p v).cls = s.cls ∧ (setP s p v).fl = s.fl ∧
    (setP s p v).hbm = s.hbm ∧ (setP s p v).dsp = s.dsp ∧ (setP s p v).cores = s.cores ∧ (setP s p v).boot = s.boot ∧
    (setP s p v).elec = s.elec ∧ (setP s p v).sky = s.sky ∧ (setP s p v).fuse = s.fuse ∧
    (setP s p v).pending = s.pending :=
  ⟨rfl, rfl, rfl, rfl, rfl, rfl, rfl, rfl, rfl, rfl, rfl, rfl, rfl, rfl, rfl, rfl, rfl, rfl, rfl, rfl, rfl, rfl,
    rfl, rfl, rfl, rfl, rfl, rfl, rfl, rfl, rfl, rfl⟩

@[simp] theorem modP_frame (s : State) (p : Nat) (g : PortSt → PortSt) :
    (modP s p g).tm = s.tm ∧ (modP s p g).regs = s.regs ∧ (modP s p g).eff = s.eff ∧ (modP s p g).latch = s.latch ∧
    (modP s p g).reply = s.reply ∧ (modP s p g).out = s.out ∧ (modP s p g).freeIx = s.freeIx ∧
    (modP s p g).flt = s.flt ∧ (modP s p g).cnt = s.cnt ∧ (modP s p g).lanes = s.lanes ∧
    (modP s p g).frames = s.frames ∧ (modP s p g).nextFrame = s.nextFrame ∧ (modP s p g).slots = s.slots ∧
    (modP s p g).slotsInternal = s.slotsInternal ∧ (modP s p g).core = s.core ∧ (modP s p g).tmg = s.tmg ∧
    (modP s p g).arb = s.arb ∧ (modP s p g).ev = s.ev ∧ (modP s p g).sl = s.sl ∧ (modP s p g).md = s.md ∧
    (modP s p g).ref = s.ref ∧ (modP s p g).framers = s.framers ∧ (modP s p g).cls = s.cls ∧ (modP s p g).fl = s.fl ∧
    (modP s p g).hbm = s.hbm ∧ (modP s p g).dsp = s.dsp ∧ (modP s p g).cores = s.cores ∧ (modP s p g).boot = s.boot ∧
    (modP s p g).elec = s.elec ∧ (modP s p g).sky = s.sky ∧ (modP s p g).fuse = s.fuse ∧
    (modP s p g).pending = s.pending :=
  ⟨rfl, rfl, rfl, rfl, rfl, rfl, rfl, rfl, rfl, rfl, rfl, rfl, rfl, rfl, rfl, rfl, rfl, rfl, rfl, rfl, rfl, rfl,
    rfl, rfl, rfl, rfl, rfl, rfl, rfl, rfl, rfl, rfl⟩

@[simp] theorem setL_frame (s : State) (l : Nat) (v : LaneSt) :
    (setL s l v).tm = s.tm ∧ (setL s l v).regs = s.regs ∧ (setL s l v).eff = s.eff ∧ (setL s l v).latch = s.latch ∧
    (setL s l v).reply = s.reply ∧ (setL s l v).out = s.out ∧ (setL s l v).freeIx = s.freeIx ∧
    (setL s l v).flt = s.flt ∧ (setL s l v).cnt = s.cnt ∧ (setL s l v).ports = s.ports ∧
    (setL s l v).frames = s.frames ∧ (setL s l v).nextFrame = s.nextFrame ∧ (setL s l v).slots = s.slots ∧
    (setL s l v).slotsInternal = s.slotsInternal ∧ (setL s l v).core = s.core ∧ (setL s l v).tmg = s.tmg ∧
    (setL s l v).arb = s.arb ∧ (setL s l v).ev = s.ev ∧ (setL s l v).sl = s.sl ∧ (setL s l v).md = s.md ∧
    (setL s l v).ref = s.ref ∧ (setL s l v).framers = s.framers ∧ (setL s l v).cls = s.cls ∧ (setL s l v).fl = s.fl ∧
    (setL s l v).hbm = s.hbm ∧ (setL s l v).dsp = s.dsp ∧ (setL s l v).cores = s.cores ∧ (setL s l v).boot = s.boot ∧
    (setL s l v).elec = s.elec ∧ (setL s l v).sky = s.sky ∧ (setL s l v).fuse = s.fuse ∧
    (setL s l v).pending = s.pending :=
  ⟨rfl, rfl, rfl, rfl, rfl, rfl, rfl, rfl, rfl, rfl, rfl, rfl, rfl, rfl, rfl, rfl, rfl, rfl, rfl, rfl, rfl, rfl,
    rfl, rfl, rfl, rfl, rfl, rfl, rfl, rfl, rfl, rfl⟩

@[simp] theorem modL_frame (s : State) (l : Nat) (g : LaneSt → LaneSt) :
    (modL s l g).tm = s.tm ∧ (modL s l g).regs = s.regs ∧ (modL s l g).eff = s.eff ∧ (modL s l g).latch = s.latch ∧
    (modL s l g).reply = s.reply ∧ (modL s l g).out = s.out ∧ (modL s l g).freeIx = s.freeIx ∧
    (modL s l g).flt = s.flt ∧ (modL s l g).cnt = s.cnt ∧ (modL s l g).ports = s.ports ∧
    (modL s l g).frames = s.frames ∧ (modL s l g).nextFrame = s.nextFrame ∧ (modL s l g).slots = s.slots ∧
    (modL s l g).slotsInternal = s.slotsInternal ∧ (modL s l g).core = s.core ∧ (modL s l g).tmg = s.tmg ∧
    (modL s l g).arb = s.arb ∧ (modL s l g).ev = s.ev ∧ (modL s l g).sl = s.sl ∧ (modL s l g).md = s.md ∧
    (modL s l g).ref = s.ref ∧ (modL s l g).framers = s.framers ∧ (modL s l g).cls = s.cls ∧ (modL s l g).fl = s.fl ∧
    (modL s l g).hbm = s.hbm ∧ (modL s l g).dsp = s.dsp ∧ (modL s l g).cores = s.cores ∧ (modL s l g).boot = s.boot ∧
    (modL s l g).elec = s.elec ∧ (modL s l g).sky = s.sky ∧ (modL s l g).fuse = s.fuse ∧
    (modL s l g).pending = s.pending :=
  ⟨rfl, rfl, rfl, rfl, rfl, rfl, rfl, rfl, rfl, rfl, rfl, rfl, rfl, rfl, rfl, rfl, rfl, rfl, rfl, rfl, rfl, rfl,
    rfl, rfl, rfl, rfl, rfl, rfl, rfl, rfl, rfl, rfl⟩

@[simp] theorem setF_frame (s : State) (k : Nat) (v : Frame) :
    (setF s k v).tm = s.tm ∧ (setF s k v).regs = s.regs ∧ (setF s k v).eff = s.eff ∧ (setF s k v).latch = s.latch ∧
    (setF s k v).reply = s.reply ∧ (setF s k v).out = s.out ∧ (setF s k v).freeIx = s.freeIx ∧
    (setF s k v).flt = s.flt ∧ (setF s k v).cnt = s.cnt ∧ (setF s k v).lanes = s.lanes ∧
    (setF s k v).ports = s.ports ∧ (setF s k v).nextFrame = s.nextFrame ∧ (setF s k v).slots = s.slots ∧
    (setF s k v).slotsInternal = s.slotsInternal ∧ (setF s k v).core = s.core ∧ (setF s k v).tmg = s.tmg ∧
    (setF s k v).arb = s.arb ∧ (setF s k v).ev = s.ev ∧ (setF s k v).sl = s.sl ∧ (setF s k v).md = s.md ∧
    (setF s k v).ref = s.ref ∧ (setF s k v).framers = s.framers ∧ (setF s k v).cls = s.cls ∧ (setF s k v).fl = s.fl ∧
    (setF s k v).hbm = s.hbm ∧ (setF s k v).dsp = s.dsp ∧ (setF s k v).cores = s.cores ∧ (setF s k v).boot = s.boot ∧
    (setF s k v).elec = s.elec ∧ (setF s k v).sky = s.sky ∧ (setF s k v).fuse = s.fuse ∧
    (setF s k v).pending = s.pending :=
  ⟨rfl, rfl, rfl, rfl, rfl, rfl, rfl, rfl, rfl, rfl, rfl, rfl, rfl, rfl, rfl, rfl, rfl, rfl, rfl, rfl, rfl, rfl,
    rfl, rfl, rfl, rfl, rfl, rfl, rfl, rfl, rfl, rfl⟩

@[simp] theorem modF_frame (s : State) (k : Nat) (g : Frame → Frame) :
    (modF s k g).tm = s.tm ∧ (modF s k g).regs = s.regs ∧ (modF s k g).eff = s.eff ∧ (modF s k g).latch = s.latch ∧
    (modF s k g).reply = s.reply ∧ (modF s k g).out = s.out ∧ (modF s k g).freeIx = s.freeIx ∧
    (modF s k g).flt = s.flt ∧ (modF s k g).cnt = s.cnt ∧ (modF s k g).lanes = s.lanes ∧
    (modF s k g).ports = s.ports ∧ (modF s k g).nextFrame = s.nextFrame ∧ (modF s k g).slots = s.slots ∧
    (modF s k g).slotsInternal = s.slotsInternal ∧ (modF s k g).core = s.core ∧ (modF s k g).tmg = s.tmg ∧
    (modF s k g).arb = s.arb ∧ (modF s k g).ev = s.ev ∧ (modF s k g).sl = s.sl ∧ (modF s k g).md = s.md ∧
    (modF s k g).ref = s.ref ∧ (modF s k g).framers = s.framers ∧ (modF s k g).cls = s.cls ∧ (modF s k g).fl = s.fl ∧
    (modF s k g).hbm = s.hbm ∧ (modF s k g).dsp = s.dsp ∧ (modF s k g).cores = s.cores ∧ (modF s k g).boot = s.boot ∧
    (modF s k g).elec = s.elec ∧ (modF s k g).sky = s.sky ∧ (modF s k g).fuse = s.fuse ∧
    (modF s k g).pending = s.pending :=
  ⟨rfl, rfl, rfl, rfl, rfl, rfl, rfl, rfl, rfl, rfl, rfl, rfl, rfl, rfl, rfl, rfl, rfl, rfl, rfl, rfl, rfl, rfl,
    rfl, rfl, rfl, rfl, rfl, rfl, rfl, rfl, rfl, rfl⟩

@[simp] theorem addF_frame (s : State) (f : Frame) :
    ((addF s f).2).tm = s.tm ∧ ((addF s f).2).regs = s.regs ∧ ((addF s f).2).eff = s.eff ∧
    ((addF s f).2).latch = s.latch ∧ ((addF s f).2).reply = s.reply ∧ ((addF s f).2).out = s.out ∧
    ((addF s f).2).freeIx = s.freeIx ∧ ((addF s f).2).flt = s.flt ∧ ((addF s f).2).cnt = s.cnt ∧
    ((addF s f).2).lanes = s.lanes ∧ ((addF s f).2).ports = s.ports ∧ ((addF s f).2).slots = s.slots ∧
    ((addF s f).2).slotsInternal = s.slotsInternal ∧ ((addF s f).2).core = s.core ∧ ((addF s f).2).tmg = s.tmg ∧
    ((addF s f).2).arb = s.arb ∧ ((addF s f).2).ev = s.ev ∧ ((addF s f).2).sl = s.sl ∧ ((addF s f).2).md = s.md ∧
    ((addF s f).2).ref = s.ref ∧ ((addF s f).2).framers = s.framers ∧ ((addF s f).2).cls = s.cls ∧
    ((addF s f).2).fl = s.fl ∧ ((addF s f).2).hbm = s.hbm ∧ ((addF s f).2).dsp = s.dsp ∧
    ((addF s f).2).cores = s.cores ∧ ((addF s f).2).boot = s.boot ∧ ((addF s f).2).elec = s.elec ∧
    ((addF s f).2).sky = s.sky ∧ ((addF s f).2).fuse = s.fuse ∧ ((addF s f).2).pending = s.pending :=
  ⟨rfl, rfl, rfl, rfl, rfl, rfl, rfl, rfl, rfl, rfl, rfl, rfl, rfl, rfl, rfl, rfl, rfl, rfl, rfl, rfl, rfl, rfl,
    rfl, rfl, rfl, rfl, rfl, rfl, rfl, rfl, rfl⟩

@[simp] theorem setFr_frame (s : State) (f : Nat) (v : FramerSt) :
    (setFr s f v).tm = s.tm ∧ (setFr s f v).regs = s.regs ∧ (setFr s f v).eff = s.eff ∧
    (setFr s f v).latch = s.latch ∧ (setFr s f v).reply = s.reply ∧ (setFr s f v).out = s.out ∧
    (setFr s f v).freeIx = s.freeIx ∧ (setFr s f v).flt = s.flt ∧ (setFr s f v).cnt = s.cnt ∧
    (setFr s f v).lanes = s.lanes ∧ (setFr s f v).ports = s.ports ∧ (setFr s f v).frames = s.frames ∧
    (setFr s f v).nextFrame = s.nextFrame ∧ (setFr s f v).slots = s.slots ∧
    (setFr s f v).slotsInternal = s.slotsInternal ∧ (setFr s f v).core = s.core ∧ (setFr s f v).tmg = s.tmg ∧
    (setFr s f v).arb = s.arb ∧ (setFr s f v).ev = s.ev ∧ (setFr s f v).sl = s.sl ∧ (setFr s f v).md = s.md ∧
    (setFr s f v).ref = s.ref ∧ (setFr s f v).cls = s.cls ∧ (setFr s f v).fl = s.fl ∧ (setFr s f v).hbm = s.hbm ∧
    (setFr s f v).dsp = s.dsp ∧ (setFr s f v).cores = s.cores ∧ (setFr s f v).boot = s.boot ∧
    (setFr s f v).elec = s.elec ∧ (setFr s f v).sky = s.sky ∧ (setFr s f v).fuse = s.fuse ∧
    (setFr s f v).pending = s.pending :=
  ⟨rfl, rfl, rfl, rfl, rfl, rfl, rfl, rfl, rfl, rfl, rfl, rfl, rfl, rfl, rfl, rfl, rfl, rfl, rfl, rfl, rfl, rfl,
    rfl, rfl, rfl, rfl, rfl, rfl, rfl, rfl, rfl, rfl⟩

@[simp] theorem setInst_frame (s : State) (f i : Nat) (v : FlexO) :
    (setInst s f i v).tm = s.tm ∧ (setInst s f i v).regs = s.regs ∧ (setInst s f i v).eff = s.eff ∧
    (setInst s f i v).latch = s.latch ∧ (setInst s f i v).reply = s.reply ∧ (setInst s f i v).out = s.out ∧
    (setInst s f i v).freeIx = s.freeIx ∧ (setInst s f i v).flt = s.flt ∧ (setInst s f i v).cnt = s.cnt ∧
    (setInst s f i v).lanes = s.lanes ∧ (setInst s f i v).ports = s.ports ∧ (setInst s f i v).frames = s.frames ∧
    (setInst s f i v).nextFrame = s.nextFrame ∧ (setInst s f i v).slots = s.slots ∧
    (setInst s f i v).slotsInternal = s.slotsInternal ∧ (setInst s f i v).core = s.core ∧
    (setInst s f i v).tmg = s.tmg ∧ (setInst s f i v).arb = s.arb ∧ (setInst s f i v).ev = s.ev ∧
    (setInst s f i v).sl = s.sl ∧ (setInst s f i v).md = s.md ∧ (setInst s f i v).ref = s.ref ∧
    (setInst s f i v).cls = s.cls ∧ (setInst s f i v).fl = s.fl ∧ (setInst s f i v).hbm = s.hbm ∧
    (setInst s f i v).dsp = s.dsp ∧ (setInst s f i v).cores = s.cores ∧ (setInst s f i v).boot = s.boot ∧
    (setInst s f i v).elec = s.elec ∧ (setInst s f i v).sky = s.sky ∧ (setInst s f i v).fuse = s.fuse ∧
    (setInst s f i v).pending = s.pending := by
  simp [setInst]

@[simp] theorem setRef_frame (s : State) (r : RefSt) :
    (setRef s r).tm = s.tm ∧ (setRef s r).regs = s.regs ∧ (setRef s r).eff = s.eff ∧ (setRef s r).latch = s.latch ∧
    (setRef s r).reply = s.reply ∧ (setRef s r).out = s.out ∧ (setRef s r).freeIx = s.freeIx ∧
    (setRef s r).flt = s.flt ∧ (setRef s r).cnt = s.cnt ∧ (setRef s r).lanes = s.lanes ∧
    (setRef s r).ports = s.ports ∧ (setRef s r).frames = s.frames ∧ (setRef s r).nextFrame = s.nextFrame ∧
    (setRef s r).slots = s.slots ∧ (setRef s r).slotsInternal = s.slotsInternal ∧ (setRef s r).core = s.core ∧
    (setRef s r).tmg = s.tmg ∧ (setRef s r).arb = s.arb ∧ (setRef s r).ev = s.ev ∧ (setRef s r).sl = s.sl ∧
    (setRef s r).md = s.md ∧ (setRef s r).framers = s.framers ∧ (setRef s r).cls = s.cls ∧ (setRef s r).fl = s.fl ∧
    (setRef s r).hbm = s.hbm ∧ (setRef s r).dsp = s.dsp ∧ (setRef s r).cores = s.cores ∧ (setRef s r).boot = s.boot ∧
    (setRef s r).elec = s.elec ∧ (setRef s r).sky = s.sky ∧ (setRef s r).fuse = s.fuse ∧
    (setRef s r).pending = s.pending :=
  ⟨rfl, rfl, rfl, rfl, rfl, rfl, rfl, rfl, rfl, rfl, rfl, rfl, rfl, rfl, rfl, rfl, rfl, rfl, rfl, rfl, rfl, rfl,
    rfl, rfl, rfl, rfl, rfl, rfl, rfl, rfl, rfl, rfl⟩

@[simp] theorem setFreq_frame (s : State) (b : Bool) (f : FreqSt) :
    (setFreq s b f).tm = s.tm ∧ (setFreq s b f).regs = s.regs ∧ (setFreq s b f).eff = s.eff ∧
    (setFreq s b f).latch = s.latch ∧ (setFreq s b f).reply = s.reply ∧ (setFreq s b f).out = s.out ∧
    (setFreq s b f).freeIx = s.freeIx ∧ (setFreq s b f).flt = s.flt ∧ (setFreq s b f).cnt = s.cnt ∧
    (setFreq s b f).lanes = s.lanes ∧ (setFreq s b f).ports = s.ports ∧ (setFreq s b f).frames = s.frames ∧
    (setFreq s b f).nextFrame = s.nextFrame ∧ (setFreq s b f).slots = s.slots ∧
    (setFreq s b f).slotsInternal = s.slotsInternal ∧ (setFreq s b f).core = s.core ∧ (setFreq s b f).tmg = s.tmg ∧
    (setFreq s b f).arb = s.arb ∧ (setFreq s b f).ev = s.ev ∧ (setFreq s b f).sl = s.sl ∧ (setFreq s b f).md = s.md ∧
    (setFreq s b f).framers = s.framers ∧ (setFreq s b f).cls = s.cls ∧ (setFreq s b f).fl = s.fl ∧
    (setFreq s b f).hbm = s.hbm ∧ (setFreq s b f).dsp = s.dsp ∧ (setFreq s b f).cores = s.cores ∧
    (setFreq s b f).boot = s.boot ∧ (setFreq s b f).elec = s.elec ∧ (setFreq s b f).sky = s.sky ∧
    (setFreq s b f).fuse = s.fuse ∧ (setFreq s b f).pending = s.pending :=
  ⟨rfl, rfl, rfl, rfl, rfl, rfl, rfl, rfl, rfl, rfl, rfl, rfl, rfl, rfl, rfl, rfl, rfl, rfl, rfl, rfl, rfl, rfl,
    rfl, rfl, rfl, rfl, rfl, rfl, rfl, rfl, rfl, rfl⟩

@[simp] theorem setPtp_frame (s : State) (b : Bool) (p : PtpSt) :
    (setPtp s b p).tm = s.tm ∧ (setPtp s b p).regs = s.regs ∧ (setPtp s b p).eff = s.eff ∧
    (setPtp s b p).latch = s.latch ∧ (setPtp s b p).reply = s.reply ∧ (setPtp s b p).out = s.out ∧
    (setPtp s b p).freeIx = s.freeIx ∧ (setPtp s b p).flt = s.flt ∧ (setPtp s b p).cnt = s.cnt ∧
    (setPtp s b p).lanes = s.lanes ∧ (setPtp s b p).ports = s.ports ∧ (setPtp s b p).frames = s.frames ∧
    (setPtp s b p).nextFrame = s.nextFrame ∧ (setPtp s b p).slots = s.slots ∧
    (setPtp s b p).slotsInternal = s.slotsInternal ∧ (setPtp s b p).core = s.core ∧ (setPtp s b p).tmg = s.tmg ∧
    (setPtp s b p).arb = s.arb ∧ (setPtp s b p).ev = s.ev ∧ (setPtp s b p).sl = s.sl ∧ (setPtp s b p).md = s.md ∧
    (setPtp s b p).framers = s.framers ∧ (setPtp s b p).cls = s.cls ∧ (setPtp s b p).fl = s.fl ∧
    (setPtp s b p).hbm = s.hbm ∧ (setPtp s b p).dsp = s.dsp ∧ (setPtp s b p).cores = s.cores ∧
    (setPtp s b p).boot = s.boot ∧ (setPtp s b p).elec = s.elec ∧ (setPtp s b p).sky = s.sky ∧
    (setPtp s b p).fuse = s.fuse ∧ (setPtp s b p).pending = s.pending :=
  ⟨rfl, rfl, rfl, rfl, rfl, rfl, rfl, rfl, rfl, rfl, rfl, rfl, rfl, rfl, rfl, rfl, rfl, rfl, rfl, rfl, rfl, rfl,
    rfl, rfl, rfl, rfl, rfl, rfl, rfl, rfl, rfl, rfl⟩

@[simp] theorem setRefOk_frame (s : State) (f : FRef) (b : Bool) :
    (setRefOk s f b).tm = s.tm ∧ (setRefOk s f b).eff = s.eff ∧ (setRefOk s f b).latch = s.latch ∧
    (setRefOk s f b).reply = s.reply ∧ (setRefOk s f b).out = s.out ∧ (setRefOk s f b).freeIx = s.freeIx ∧
    (setRefOk s f b).flt = s.flt ∧ (setRefOk s f b).cnt = s.cnt ∧ (setRefOk s f b).lanes = s.lanes ∧
    (setRefOk s f b).ports = s.ports ∧ (setRefOk s f b).frames = s.frames ∧
    (setRefOk s f b).nextFrame = s.nextFrame ∧ (setRefOk s f b).slots = s.slots ∧
    (setRefOk s f b).slotsInternal = s.slotsInternal ∧ (setRefOk s f b).core = s.core ∧
    (setRefOk s f b).tmg = s.tmg ∧ (setRefOk s f b).arb = s.arb ∧ (setRefOk s f b).ev = s.ev ∧
    (setRefOk s f b).sl = s.sl ∧ (setRefOk s f b).md = s.md ∧ (setRefOk s f b).ref = s.ref ∧
    (setRefOk s f b).framers = s.framers ∧ (setRefOk s f b).cls = s.cls ∧ (setRefOk s f b).fl = s.fl ∧
    (setRefOk s f b).hbm = s.hbm ∧ (setRefOk s f b).dsp = s.dsp ∧ (setRefOk s f b).cores = s.cores ∧
    (setRefOk s f b).boot = s.boot ∧ (setRefOk s f b).elec = s.elec ∧ (setRefOk s f b).sky = s.sky ∧
    (setRefOk s f b).fuse = s.fuse ∧ (setRefOk s f b).pending = s.pending := by
  simp [setRefOk]

@[simp] theorem setCls_frame (s : State) (c : ClsSt) :
    (setCls s c).tm = s.tm ∧ (setCls s c).regs = s.regs ∧ (setCls s c).eff = s.eff ∧ (setCls s c).latch = s.latch ∧
    (setCls s c).reply = s.reply ∧ (setCls s c).out = s.out ∧ (setCls s c).freeIx = s.freeIx ∧
    (setCls s c).flt = s.flt ∧ (setCls s c).cnt = s.cnt ∧ (setCls s c).lanes = s.lanes ∧
    (setCls s c).ports = s.ports ∧ (setCls s c).frames = s.frames ∧ (setCls s c).nextFrame = s.nextFrame ∧
    (setCls s c).slots = s.slots ∧ (setCls s c).slotsInternal = s.slotsInternal ∧ (setCls s c).core = s.core ∧
    (setCls s c).tmg = s.tmg ∧ (setCls s c).arb = s.arb ∧ (setCls s c).ev = s.ev ∧ (setCls s c).sl = s.sl ∧
    (setCls s c).md = s.md ∧ (setCls s c).ref = s.ref ∧ (setCls s c).framers = s.framers ∧ (setCls s c).fl = s.fl ∧
    (setCls s c).hbm = s.hbm ∧ (setCls s c).dsp = s.dsp ∧ (setCls s c).cores = s.cores ∧ (setCls s c).boot = s.boot ∧
    (setCls s c).elec = s.elec ∧ (setCls s c).sky = s.sky ∧ (setCls s c).fuse = s.fuse ∧
    (setCls s c).pending = s.pending :=
  ⟨rfl, rfl, rfl, rfl, rfl, rfl, rfl, rfl, rfl, rfl, rfl, rfl, rfl, rfl, rfl, rfl, rfl, rfl, rfl, rfl, rfl, rfl,
    rfl, rfl, rfl, rfl, rfl, rfl, rfl, rfl, rfl, rfl⟩

@[simp] theorem setExcLevel_frame (s : State) (p r v : Nat) :
    (setExcLevel s p r v).tm = s.tm ∧ (setExcLevel s p r v).regs = s.regs ∧ (setExcLevel s p r v).eff = s.eff ∧
    (setExcLevel s p r v).latch = s.latch ∧ (setExcLevel s p r v).reply = s.reply ∧
    (setExcLevel s p r v).out = s.out ∧ (setExcLevel s p r v).freeIx = s.freeIx ∧ (setExcLevel s p r v).flt = s.flt ∧
    (setExcLevel s p r v).cnt = s.cnt ∧ (setExcLevel s p r v).lanes = s.lanes ∧
    (setExcLevel s p r v).ports = s.ports ∧ (setExcLevel s p r v).frames = s.frames ∧
    (setExcLevel s p r v).nextFrame = s.nextFrame ∧ (setExcLevel s p r v).slots = s.slots ∧
    (setExcLevel s p r v).slotsInternal = s.slotsInternal ∧ (setExcLevel s p r v).core = s.core ∧
    (setExcLevel s p r v).tmg = s.tmg ∧ (setExcLevel s p r v).arb = s.arb ∧ (setExcLevel s p r v).ev = s.ev ∧
    (setExcLevel s p r v).sl = s.sl ∧ (setExcLevel s p r v).md = s.md ∧ (setExcLevel s p r v).ref = s.ref ∧
    (setExcLevel s p r v).framers = s.framers ∧ (setExcLevel s p r v).fl = s.fl ∧ (setExcLevel s p r v).hbm = s.hbm ∧
    (setExcLevel s p r v).dsp = s.dsp ∧ (setExcLevel s p r v).cores = s.cores ∧ (setExcLevel s p r v).boot = s.boot ∧
    (setExcLevel s p r v).elec = s.elec ∧ (setExcLevel s p r v).sky = s.sky ∧ (setExcLevel s p r v).fuse = s.fuse ∧
    (setExcLevel s p r v).pending = s.pending :=
  ⟨rfl, rfl, rfl, rfl, rfl, rfl, rfl, rfl, rfl, rfl, rfl, rfl, rfl, rfl, rfl, rfl, rfl, rfl, rfl, rfl, rfl, rfl,
    rfl, rfl, rfl, rfl, rfl, rfl, rfl, rfl, rfl, rfl⟩

@[simp] theorem setFrags_frame (s : State) (p : Nat) (l : List FragEnt) :
    (setFrags s p l).tm = s.tm ∧ (setFrags s p l).eff = s.eff ∧ (setFrags s p l).latch = s.latch ∧
    (setFrags s p l).reply = s.reply ∧ (setFrags s p l).out = s.out ∧ (setFrags s p l).freeIx = s.freeIx ∧
    (setFrags s p l).flt = s.flt ∧ (setFrags s p l).cnt = s.cnt ∧ (setFrags s p l).lanes = s.lanes ∧
    (setFrags s p l).ports = s.ports ∧ (setFrags s p l).frames = s.frames ∧
    (setFrags s p l).nextFrame = s.nextFrame ∧ (setFrags s p l).slots = s.slots ∧
    (setFrags s p l).slotsInternal = s.slotsInternal ∧ (setFrags s p l).core = s.core ∧
    (setFrags s p l).tmg = s.tmg ∧ (setFrags s p l).arb = s.arb ∧ (setFrags s p l).ev = s.ev ∧
    (setFrags s p l).sl = s.sl ∧ (setFrags s p l).md = s.md ∧ (setFrags s p l).ref = s.ref ∧
    (setFrags s p l).framers = s.framers ∧ (setFrags s p l).fl = s.fl ∧ (setFrags s p l).hbm = s.hbm ∧
    (setFrags s p l).dsp = s.dsp ∧ (setFrags s p l).cores = s.cores ∧ (setFrags s p l).boot = s.boot ∧
    (setFrags s p l).elec = s.elec ∧ (setFrags s p l).sky = s.sky ∧ (setFrags s p l).fuse = s.fuse ∧
    (setFrags s p l).pending = s.pending := by
  simp [setFrags]

@[simp] theorem setHeld_frame (s : State) (p : Nat) (l : List Nat) :
    (setHeld s p l).tm = s.tm ∧ (setHeld s p l).eff = s.eff ∧ (setHeld s p l).latch = s.latch ∧
    (setHeld s p l).reply = s.reply ∧ (setHeld s p l).out = s.out ∧ (setHeld s p l).freeIx = s.freeIx ∧
    (setHeld s p l).flt = s.flt ∧ (setHeld s p l).cnt = s.cnt ∧ (setHeld s p l).lanes = s.lanes ∧
    (setHeld s p l).ports = s.ports ∧ (setHeld s p l).frames = s.frames ∧ (setHeld s p l).nextFrame = s.nextFrame ∧
    (setHeld s p l).slots = s.slots ∧ (setHeld s p l).slotsInternal = s.slotsInternal ∧
    (setHeld s p l).core = s.core ∧ (setHeld s p l).tmg = s.tmg ∧ (setHeld s p l).arb = s.arb ∧
    (setHeld s p l).ev = s.ev ∧ (setHeld s p l).sl = s.sl ∧ (setHeld s p l).md = s.md ∧ (setHeld s p l).ref = s.ref ∧
    (setHeld s p l).framers = s.framers ∧ (setHeld s p l).fl = s.fl ∧ (setHeld s p l).hbm = s.hbm ∧
    (setHeld s p l).dsp = s.dsp ∧ (setHeld s p l).cores = s.cores ∧ (setHeld s p l).boot = s.boot ∧
    (setHeld s p l).elec = s.elec ∧ (setHeld s p l).sky = s.sky ∧ (setHeld s p l).fuse = s.fuse ∧
    (setHeld s p l).pending = s.pending := by
  simp [setHeld]

@[simp] theorem setFl_frame (s : State) (f : FlowSt) :
    (setFl s f).tm = s.tm ∧ (setFl s f).regs = s.regs ∧ (setFl s f).eff = s.eff ∧ (setFl s f).latch = s.latch ∧
    (setFl s f).reply = s.reply ∧ (setFl s f).out = s.out ∧ (setFl s f).freeIx = s.freeIx ∧ (setFl s f).flt = s.flt ∧
    (setFl s f).cnt = s.cnt ∧ (setFl s f).lanes = s.lanes ∧ (setFl s f).ports = s.ports ∧
    (setFl s f).frames = s.frames ∧ (setFl s f).nextFrame = s.nextFrame ∧ (setFl s f).slots = s.slots ∧
    (setFl s f).slotsInternal = s.slotsInternal ∧ (setFl s f).core = s.core ∧ (setFl s f).tmg = s.tmg ∧
    (setFl s f).arb = s.arb ∧ (setFl s f).ev = s.ev ∧ (setFl s f).sl = s.sl ∧ (setFl s f).md = s.md ∧
    (setFl s f).ref = s.ref ∧ (setFl s f).framers = s.framers ∧ (setFl s f).cls = s.cls ∧ (setFl s f).hbm = s.hbm ∧
    (setFl s f).dsp = s.dsp ∧ (setFl s f).cores = s.cores ∧ (setFl s f).boot = s.boot ∧ (setFl s f).elec = s.elec ∧
    (setFl s f).sky = s.sky ∧ (setFl s f).fuse = s.fuse ∧ (setFl s f).pending = s.pending :=
  ⟨rfl, rfl, rfl, rfl, rfl, rfl, rfl, rfl, rfl, rfl, rfl, rfl, rfl, rfl, rfl, rfl, rfl, rfl, rfl, rfl, rfl, rfl,
    rfl, rfl, rfl, rfl, rfl, rfl, rfl, rfl, rfl, rfl⟩

@[simp] theorem setC_frame (s : State) (k : Nat) (c : Ctx) :
    (setC s k c).tm = s.tm ∧ (setC s k c).regs = s.regs ∧ (setC s k c).eff = s.eff ∧ (setC s k c).latch = s.latch ∧
    (setC s k c).reply = s.reply ∧ (setC s k c).out = s.out ∧ (setC s k c).freeIx = s.freeIx ∧
    (setC s k c).flt = s.flt ∧ (setC s k c).cnt = s.cnt ∧ (setC s k c).lanes = s.lanes ∧
    (setC s k c).ports = s.ports ∧ (setC s k c).frames = s.frames ∧ (setC s k c).nextFrame = s.nextFrame ∧
    (setC s k c).slots = s.slots ∧ (setC s k c).slotsInternal = s.slotsInternal ∧ (setC s k c).core = s.core ∧
    (setC s k c).tmg = s.tmg ∧ (setC s k c).arb = s.arb ∧ (setC s k c).ev = s.ev ∧ (setC s k c).sl = s.sl ∧
    (setC s k c).md = s.md ∧ (setC s k c).ref = s.ref ∧ (setC s k c).framers = s.framers ∧ (setC s k c).cls = s.cls ∧
    (setC s k c).hbm = s.hbm ∧ (setC s k c).dsp = s.dsp ∧ (setC s k c).cores = s.cores ∧ (setC s k c).boot = s.boot ∧
    (setC s k c).elec = s.elec ∧ (setC s k c).sky = s.sky ∧ (setC s k c).fuse = s.fuse ∧
    (setC s k c).pending = s.pending :=
  ⟨rfl, rfl, rfl, rfl, rfl, rfl, rfl, rfl, rfl, rfl, rfl, rfl, rfl, rfl, rfl, rfl, rfl, rfl, rfl, rfl, rfl, rfl,
    rfl, rfl, rfl, rfl, rfl, rfl, rfl, rfl, rfl, rfl⟩

@[simp] theorem modC_frame (s : State) (k : Nat) (g : Ctx → Ctx) :
    (modC s k g).tm = s.tm ∧ (modC s k g).regs = s.regs ∧ (modC s k g).eff = s.eff ∧ (modC s k g).latch = s.latch ∧
    (modC s k g).reply = s.reply ∧ (modC s k g).out = s.out ∧ (modC s k g).freeIx = s.freeIx ∧
    (modC s k g).flt = s.flt ∧ (modC s k g).cnt = s.cnt ∧ (modC s k g).lanes = s.lanes ∧
    (modC s k g).ports = s.ports ∧ (modC s k g).frames = s.frames ∧ (modC s k g).nextFrame = s.nextFrame ∧
    (modC s k g).slots = s.slots ∧ (modC s k g).slotsInternal = s.slotsInternal ∧ (modC s k g).core = s.core ∧
    (modC s k g).tmg = s.tmg ∧ (modC s k g).arb = s.arb ∧ (modC s k g).ev = s.ev ∧ (modC s k g).sl = s.sl ∧
    (modC s k g).md = s.md ∧ (modC s k g).ref = s.ref ∧ (modC s k g).framers = s.framers ∧ (modC s k g).cls = s.cls ∧
    (modC s k g).hbm = s.hbm ∧ (modC s k g).dsp = s.dsp ∧ (modC s k g).cores = s.cores ∧ (modC s k g).boot = s.boot ∧
    (modC s k g).elec = s.elec ∧ (modC s k g).sky = s.sky ∧ (modC s k g).fuse = s.fuse ∧
    (modC s k g).pending = s.pending :=
  ⟨rfl, rfl, rfl, rfl, rfl, rfl, rfl, rfl, rfl, rfl, rfl, rfl, rfl, rfl, rfl, rfl, rfl, rfl, rfl, rfl, rfl, rfl,
    rfl, rfl, rfl, rfl, rfl, rfl, rfl, rfl, rfl, rfl⟩

@[simp] theorem setWay_frame (s : State) (k : Nat) (w : Way) :
    (setWay s k w).tm = s.tm ∧ (setWay s k w).regs = s.regs ∧ (setWay s k w).eff = s.eff ∧
    (setWay s k w).latch = s.latch ∧ (setWay s k w).reply = s.reply ∧ (setWay s k w).out = s.out ∧
    (setWay s k w).freeIx = s.freeIx ∧ (setWay s k w).flt = s.flt ∧ (setWay s k w).cnt = s.cnt ∧
    (setWay s k w).lanes = s.lanes ∧ (setWay s k w).ports = s.ports ∧ (setWay s k w).frames = s.frames ∧
    (setWay s k w).nextFrame = s.nextFrame ∧ (setWay s k w).slots = s.slots ∧
    (setWay s k w).slotsInternal = s.slotsInternal ∧ (setWay s k w).core = s.core ∧ (setWay s k w).tmg = s.tmg ∧
    (setWay s k w).arb = s.arb ∧ (setWay s k w).ev = s.ev ∧ (setWay s k w).sl = s.sl ∧ (setWay s k w).md = s.md ∧
    (setWay s k w).ref = s.ref ∧ (setWay s k w).framers = s.framers ∧ (setWay s k w).cls = s.cls ∧
    (setWay s k w).hbm = s.hbm ∧ (setWay s k w).dsp = s.dsp ∧ (setWay s k w).cores = s.cores ∧
    (setWay s k w).boot = s.boot ∧ (setWay s k w).elec = s.elec ∧ (setWay s k w).sky = s.sky ∧
    (setWay s k w).fuse = s.fuse ∧ (setWay s k w).pending = s.pending :=
  ⟨rfl, rfl, rfl, rfl, rfl, rfl, rfl, rfl, rfl, rfl, rfl, rfl, rfl, rfl, rfl, rfl, rfl, rfl, rfl, rfl, rfl, rfl,
    rfl, rfl, rfl, rfl, rfl, rfl, rfl, rfl, rfl, rfl⟩

@[simp] theorem setBound_frame (s : State) (i : Nat) (c : Option Nat) :
    (setBound s i c).tm = s.tm ∧ (setBound s i c).regs = s.regs ∧ (setBound s i c).eff = s.eff ∧
    (setBound s i c).latch = s.latch ∧ (setBound s i c).reply = s.reply ∧ (setBound s i c).out = s.out ∧
    (setBound s i c).freeIx = s.freeIx ∧ (setBound s i c).flt = s.flt ∧ (setBound s i c).cnt = s.cnt ∧
    (setBound s i c).lanes = s.lanes ∧ (setBound s i c).ports = s.ports ∧ (setBound s i c).frames = s.frames ∧
    (setBound s i c).nextFrame = s.nextFrame ∧ (setBound s i c).slots = s.slots ∧
    (setBound s i c).slotsInternal = s.slotsInternal ∧ (setBound s i c).core = s.core ∧
    (setBound s i c).tmg = s.tmg ∧ (setBound s i c).arb = s.arb ∧ (setBound s i c).ev = s.ev ∧
    (setBound s i c).sl = s.sl ∧ (setBound s i c).md = s.md ∧ (setBound s i c).ref = s.ref ∧
    (setBound s i c).framers = s.framers ∧ (setBound s i c).cls = s.cls ∧ (setBound s i c).hbm = s.hbm ∧
    (setBound s i c).dsp = s.dsp ∧ (setBound s i c).cores = s.cores ∧ (setBound s i c).boot = s.boot ∧
    (setBound s i c).elec = s.elec ∧ (setBound s i c).sky = s.sky ∧ (setBound s i c).fuse = s.fuse ∧
    (setBound s i c).pending = s.pending :=
  ⟨rfl, rfl, rfl, rfl, rfl, rfl, rfl, rfl, rfl, rfl, rfl, rfl, rfl, rfl, rfl, rfl, rfl, rfl, rfl, rfl, rfl, rfl,
    rfl, rfl, rfl, rfl, rfl, rfl, rfl, rfl, rfl, rfl⟩

@[simp] theorem setOut_frame (s : State) (k : Nat) (o : FlowOut) :
    (setOut s k o).tm = s.tm ∧ (setOut s k o).regs = s.regs ∧ (setOut s k o).eff = s.eff ∧
    (setOut s k o).latch = s.latch ∧ (setOut s k o).reply = s.reply ∧ (setOut s k o).out = s.out ∧
    (setOut s k o).freeIx = s.freeIx ∧ (setOut s k o).flt = s.flt ∧ (setOut s k o).cnt = s.cnt ∧
    (setOut s k o).lanes = s.lanes ∧ (setOut s k o).ports = s.ports ∧ (setOut s k o).frames = s.frames ∧
    (setOut s k o).nextFrame = s.nextFrame ∧ (setOut s k o).slots = s.slots ∧
    (setOut s k o).slotsInternal = s.slotsInternal ∧ (setOut s k o).core = s.core ∧ (setOut s k o).tmg = s.tmg ∧
    (setOut s k o).arb = s.arb ∧ (setOut s k o).ev = s.ev ∧ (setOut s k o).sl = s.sl ∧ (setOut s k o).md = s.md ∧
    (setOut s k o).ref = s.ref ∧ (setOut s k o).framers = s.framers ∧ (setOut s k o).cls = s.cls ∧
    (setOut s k o).hbm = s.hbm ∧ (setOut s k o).dsp = s.dsp ∧ (setOut s k o).cores = s.cores ∧
    (setOut s k o).boot = s.boot ∧ (setOut s k o).elec = s.elec ∧ (setOut s k o).sky = s.sky ∧
    (setOut s k o).fuse = s.fuse ∧ (setOut s k o).pending = s.pending :=
  ⟨rfl, rfl, rfl, rfl, rfl, rfl, rfl, rfl, rfl, rfl, rfl, rfl, rfl, rfl, rfl, rfl, rfl, rfl, rfl, rfl, rfl, rfl,
    rfl, rfl, rfl, rfl, rfl, rfl, rfl, rfl, rfl, rfl⟩

@[simp] theorem setHbm_frame (s : State) (h : HbmSt) :
    (setHbm s h).tm = s.tm ∧ (setHbm s h).regs = s.regs ∧ (setHbm s h).eff = s.eff ∧ (setHbm s h).latch = s.latch ∧
    (setHbm s h).reply = s.reply ∧ (setHbm s h).out = s.out ∧ (setHbm s h).freeIx = s.freeIx ∧
    (setHbm s h).flt = s.flt ∧ (setHbm s h).cnt = s.cnt ∧ (setHbm s h).lanes = s.lanes ∧
    (setHbm s h).ports = s.ports ∧ (setHbm s h).frames = s.frames ∧ (setHbm s h).nextFrame = s.nextFrame ∧
    (setHbm s h).slots = s.slots ∧ (setHbm s h).slotsInternal = s.slotsInternal ∧ (setHbm s h).core = s.core ∧
    (setHbm s h).tmg = s.tmg ∧ (setHbm s h).arb = s.arb ∧ (setHbm s h).ev = s.ev ∧ (setHbm s h).sl = s.sl ∧
    (setHbm s h).md = s.md ∧ (setHbm s h).ref = s.ref ∧ (setHbm s h).framers = s.framers ∧ (setHbm s h).cls = s.cls ∧
    (setHbm s h).fl = s.fl ∧ (setHbm s h).dsp = s.dsp ∧ (setHbm s h).cores = s.cores ∧ (setHbm s h).boot = s.boot ∧
    (setHbm s h).elec = s.elec ∧ (setHbm s h).sky = s.sky ∧ (setHbm s h).fuse = s.fuse ∧
    (setHbm s h).pending = s.pending :=
  ⟨rfl, rfl, rfl, rfl, rfl, rfl, rfl, rfl, rfl, rfl, rfl, rfl, rfl, rfl, rfl, rfl, rfl, rfl, rfl, rfl, rfl, rfl,
    rfl, rfl, rfl, rfl, rfl, rfl, rfl, rfl, rfl, rfl⟩

@[simp] theorem setM_frame (s : State) (c : Nat) (m : McSt) :
    (setM s c m).tm = s.tm ∧ (setM s c m).regs = s.regs ∧ (setM s c m).eff = s.eff ∧ (setM s c m).latch = s.latch ∧
    (setM s c m).reply = s.reply ∧ (setM s c m).out = s.out ∧ (setM s c m).freeIx = s.freeIx ∧
    (setM s c m).flt = s.flt ∧ (setM s c m).cnt = s.cnt ∧ (setM s c m).lanes = s.lanes ∧
    (setM s c m).ports = s.ports ∧ (setM s c m).frames = s.frames ∧ (setM s c m).nextFrame = s.nextFrame ∧
    (setM s c m).slots = s.slots ∧ (setM s c m).slotsInternal = s.slotsInternal ∧ (setM s c m).core = s.core ∧
    (setM s c m).tmg = s.tmg ∧ (setM s c m).arb = s.arb ∧ (setM s c m).ev = s.ev ∧ (setM s c m).sl = s.sl ∧
    (setM s c m).md = s.md ∧ (setM s c m).ref = s.ref ∧ (setM s c m).framers = s.framers ∧ (setM s c m).cls = s.cls ∧
    (setM s c m).fl = s.fl ∧ (setM s c m).dsp = s.dsp ∧ (setM s c m).cores = s.cores ∧ (setM s c m).boot = s.boot ∧
    (setM s c m).elec = s.elec ∧ (setM s c m).sky = s.sky ∧ (setM s c m).fuse = s.fuse ∧
    (setM s c m).pending = s.pending :=
  ⟨rfl, rfl, rfl, rfl, rfl, rfl, rfl, rfl, rfl, rfl, rfl, rfl, rfl, rfl, rfl, rfl, rfl, rfl, rfl, rfl, rfl, rfl,
    rfl, rfl, rfl, rfl, rfl, rfl, rfl, rfl, rfl, rfl⟩

@[simp] theorem modM_frame (s : State) (c : Nat) (g : McSt → McSt) :
    (modM s c g).tm = s.tm ∧ (modM s c g).regs = s.regs ∧ (modM s c g).eff = s.eff ∧ (modM s c g).latch = s.latch ∧
    (modM s c g).reply = s.reply ∧ (modM s c g).out = s.out ∧ (modM s c g).freeIx = s.freeIx ∧
    (modM s c g).flt = s.flt ∧ (modM s c g).cnt = s.cnt ∧ (modM s c g).lanes = s.lanes ∧
    (modM s c g).ports = s.ports ∧ (modM s c g).frames = s.frames ∧ (modM s c g).nextFrame = s.nextFrame ∧
    (modM s c g).slots = s.slots ∧ (modM s c g).slotsInternal = s.slotsInternal ∧ (modM s c g).core = s.core ∧
    (modM s c g).tmg = s.tmg ∧ (modM s c g).arb = s.arb ∧ (modM s c g).ev = s.ev ∧ (modM s c g).sl = s.sl ∧
    (modM s c g).md = s.md ∧ (modM s c g).ref = s.ref ∧ (modM s c g).framers = s.framers ∧ (modM s c g).cls = s.cls ∧
    (modM s c g).fl = s.fl ∧ (modM s c g).dsp = s.dsp ∧ (modM s c g).cores = s.cores ∧ (modM s c g).boot = s.boot ∧
    (modM s c g).elec = s.elec ∧ (modM s c g).sky = s.sky ∧ (modM s c g).fuse = s.fuse ∧
    (modM s c g).pending = s.pending :=
  ⟨rfl, rfl, rfl, rfl, rfl, rfl, rfl, rfl, rfl, rfl, rfl, rfl, rfl, rfl, rfl, rfl, rfl, rfl, rfl, rfl, rfl, rfl,
    rfl, rfl, rfl, rfl, rfl, rfl, rfl, rfl, rfl, rfl⟩

@[simp] theorem mwr_frame (s : State) (a : Nat) (bs : List Byte) :
    (mwr s a bs).tm = s.tm ∧ (mwr s a bs).regs = s.regs ∧ (mwr s a bs).eff = s.eff ∧ (mwr s a bs).latch = s.latch ∧
    (mwr s a bs).reply = s.reply ∧ (mwr s a bs).out = s.out ∧ (mwr s a bs).freeIx = s.freeIx ∧
    (mwr s a bs).flt = s.flt ∧ (mwr s a bs).cnt = s.cnt ∧ (mwr s a bs).lanes = s.lanes ∧
    (mwr s a bs).ports = s.ports ∧ (mwr s a bs).frames = s.frames ∧ (mwr s a bs).nextFrame = s.nextFrame ∧
    (mwr s a bs).slots = s.slots ∧ (mwr s a bs).slotsInternal = s.slotsInternal ∧ (mwr s a bs).core = s.core ∧
    (mwr s a bs).tmg = s.tmg ∧ (mwr s a bs).arb = s.arb ∧ (mwr s a bs).ev = s.ev ∧ (mwr s a bs).sl = s.sl ∧
    (mwr s a bs).md = s.md ∧ (mwr s a bs).ref = s.ref ∧ (mwr s a bs).framers = s.framers ∧ (mwr s a bs).cls = s.cls ∧
    (mwr s a bs).fl = s.fl ∧ (mwr s a bs).dsp = s.dsp ∧ (mwr s a bs).cores = s.cores ∧ (mwr s a bs).boot = s.boot ∧
    (mwr s a bs).elec = s.elec ∧ (mwr s a bs).sky = s.sky ∧ (mwr s a bs).fuse = s.fuse ∧
    (mwr s a bs).pending = s.pending := by
  simp [mwr]

@[simp] theorem setSr_frame (s : State) (c v : Nat) :
    (setSr s c v).tm = s.tm ∧ (setSr s c v).eff = s.eff ∧ (setSr s c v).latch = s.latch ∧
    (setSr s c v).reply = s.reply ∧ (setSr s c v).out = s.out ∧ (setSr s c v).freeIx = s.freeIx ∧
    (setSr s c v).flt = s.flt ∧ (setSr s c v).cnt = s.cnt ∧ (setSr s c v).lanes = s.lanes ∧
    (setSr s c v).ports = s.ports ∧ (setSr s c v).frames = s.frames ∧ (setSr s c v).nextFrame = s.nextFrame ∧
    (setSr s c v).slots = s.slots ∧ (setSr s c v).slotsInternal = s.slotsInternal ∧ (setSr s c v).core = s.core ∧
    (setSr s c v).tmg = s.tmg ∧ (setSr s c v).arb = s.arb ∧ (setSr s c v).ev = s.ev ∧ (setSr s c v).sl = s.sl ∧
    (setSr s c v).md = s.md ∧ (setSr s c v).ref = s.ref ∧ (setSr s c v).framers = s.framers ∧
    (setSr s c v).cls = s.cls ∧ (setSr s c v).fl = s.fl ∧ (setSr s c v).hbm = s.hbm ∧ (setSr s c v).dsp = s.dsp ∧
    (setSr s c v).cores = s.cores ∧ (setSr s c v).boot = s.boot ∧ (setSr s c v).elec = s.elec ∧
    (setSr s c v).sky = s.sky ∧ (setSr s c v).fuse = s.fuse ∧ (setSr s c v).pending = s.pending := by
  simp [setSr]

@[simp] theorem setBoot_frame (s : State) (b : BootSt) :
    (setBoot s b).tm = s.tm ∧ (setBoot s b).regs = s.regs ∧ (setBoot s b).eff = s.eff ∧
    (setBoot s b).latch = s.latch ∧ (setBoot s b).reply = s.reply ∧ (setBoot s b).out = s.out ∧
    (setBoot s b).freeIx = s.freeIx ∧ (setBoot s b).flt = s.flt ∧ (setBoot s b).cnt = s.cnt ∧
    (setBoot s b).lanes = s.lanes ∧ (setBoot s b).ports = s.ports ∧ (setBoot s b).frames = s.frames ∧
    (setBoot s b).nextFrame = s.nextFrame ∧ (setBoot s b).slots = s.slots ∧
    (setBoot s b).slotsInternal = s.slotsInternal ∧ (setBoot s b).core = s.core ∧ (setBoot s b).tmg = s.tmg ∧
    (setBoot s b).arb = s.arb ∧ (setBoot s b).ev = s.ev ∧ (setBoot s b).sl = s.sl ∧ (setBoot s b).md = s.md ∧
    (setBoot s b).ref = s.ref ∧ (setBoot s b).framers = s.framers ∧ (setBoot s b).cls = s.cls ∧
    (setBoot s b).fl = s.fl ∧ (setBoot s b).hbm = s.hbm ∧ (setBoot s b).dsp = s.dsp ∧ (setBoot s b).cores = s.cores ∧
    (setBoot s b).elec = s.elec ∧ (setBoot s b).sky = s.sky ∧ (setBoot s b).fuse = s.fuse ∧
    (setBoot s b).pending = s.pending :=
  ⟨rfl, rfl, rfl, rfl, rfl, rfl, rfl, rfl, rfl, rfl, rfl, rfl, rfl, rfl, rfl, rfl, rfl, rfl, rfl, rfl, rfl, rfl,
    rfl, rfl, rfl, rfl, rfl, rfl, rfl, rfl, rfl, rfl⟩

@[simp] theorem setElec_frame (s : State) (e : ElecSt) :
    (setElec s e).tm = s.tm ∧ (setElec s e).regs = s.regs ∧ (setElec s e).eff = s.eff ∧
    (setElec s e).latch = s.latch ∧ (setElec s e).reply = s.reply ∧ (setElec s e).out = s.out ∧
    (setElec s e).freeIx = s.freeIx ∧ (setElec s e).flt = s.flt ∧ (setElec s e).cnt = s.cnt ∧
    (setElec s e).lanes = s.lanes ∧ (setElec s e).ports = s.ports ∧ (setElec s e).frames = s.frames ∧
    (setElec s e).nextFrame = s.nextFrame ∧ (setElec s e).slots = s.slots ∧
    (setElec s e).slotsInternal = s.slotsInternal ∧ (setElec s e).core = s.core ∧ (setElec s e).tmg = s.tmg ∧
    (setElec s e).arb = s.arb ∧ (setElec s e).ev = s.ev ∧ (setElec s e).sl = s.sl ∧ (setElec s e).md = s.md ∧
    (setElec s e).ref = s.ref ∧ (setElec s e).framers = s.framers ∧ (setElec s e).cls = s.cls ∧
    (setElec s e).fl = s.fl ∧ (setElec s e).hbm = s.hbm ∧ (setElec s e).dsp = s.dsp ∧ (setElec s e).cores = s.cores ∧
    (setElec s e).boot = s.boot ∧ (setElec s e).sky = s.sky ∧ (setElec s e).fuse = s.fuse ∧
    (setElec s e).pending = s.pending :=
  ⟨rfl, rfl, rfl, rfl, rfl, rfl, rfl, rfl, rfl, rfl, rfl, rfl, rfl, rfl, rfl, rfl, rfl, rfl, rfl, rfl, rfl, rfl,
    rfl, rfl, rfl, rfl, rfl, rfl, rfl, rfl, rfl, rfl⟩

@[simp] theorem pset_frame (s : State) (k : Nat) (p : Option Pend) :
    (pset s k p).tm = s.tm ∧ (pset s k p).regs = s.regs ∧ (pset s k p).eff = s.eff ∧ (pset s k p).latch = s.latch ∧
    (pset s k p).reply = s.reply ∧ (pset s k p).out = s.out ∧ (pset s k p).freeIx = s.freeIx ∧
    (pset s k p).flt = s.flt ∧ (pset s k p).cnt = s.cnt ∧ (pset s k p).lanes = s.lanes ∧
    (pset s k p).ports = s.ports ∧ (pset s k p).frames = s.frames ∧ (pset s k p).nextFrame = s.nextFrame ∧
    (pset s k p).slots = s.slots ∧ (pset s k p).slotsInternal = s.slotsInternal ∧ (pset s k p).core = s.core ∧
    (pset s k p).tmg = s.tmg ∧ (pset s k p).arb = s.arb ∧ (pset s k p).sl = s.sl ∧ (pset s k p).md = s.md ∧
    (pset s k p).ref = s.ref ∧ (pset s k p).framers = s.framers ∧ (pset s k p).cls = s.cls ∧ (pset s k p).fl = s.fl ∧
    (pset s k p).hbm = s.hbm ∧ (pset s k p).dsp = s.dsp ∧ (pset s k p).cores = s.cores ∧ (pset s k p).boot = s.boot ∧
    (pset s k p).elec = s.elec ∧ (pset s k p).sky = s.sky ∧ (pset s k p).fuse = s.fuse ∧
    (pset s k p).pending = s.pending :=
  ⟨rfl, rfl, rfl, rfl, rfl, rfl, rfl, rfl, rfl, rfl, rfl, rfl, rfl, rfl, rfl, rfl, rfl, rfl, rfl, rfl, rfl, rfl,
    rfl, rfl, rfl, rfl, rfl, rfl, rfl, rfl, rfl, rfl⟩

@[simp] theorem setPol_frame (s : State) (p i : Nat) (v : Policer) :
    (setPol s p i v).tm = s.tm ∧ (setPol s p i v).regs = s.regs ∧ (setPol s p i v).eff = s.eff ∧
    (setPol s p i v).latch = s.latch ∧ (setPol s p i v).reply = s.reply ∧ (setPol s p i v).out = s.out ∧
    (setPol s p i v).freeIx = s.freeIx ∧ (setPol s p i v).flt = s.flt ∧ (setPol s p i v).cnt = s.cnt ∧
    (setPol s p i v).lanes = s.lanes ∧ (setPol s p i v).ports = s.ports ∧ (setPol s p i v).frames = s.frames ∧
    (setPol s p i v).nextFrame = s.nextFrame ∧ (setPol s p i v).slots = s.slots ∧
    (setPol s p i v).slotsInternal = s.slotsInternal ∧ (setPol s p i v).core = s.core ∧
    (setPol s p i v).arb = s.arb ∧ (setPol s p i v).ev = s.ev ∧ (setPol s p i v).sl = s.sl ∧
    (setPol s p i v).md = s.md ∧ (setPol s p i v).ref = s.ref ∧ (setPol s p i v).framers = s.framers ∧
    (setPol s p i v).cls = s.cls ∧ (setPol s p i v).fl = s.fl ∧ (setPol s p i v).hbm = s.hbm ∧
    (setPol s p i v).dsp = s.dsp ∧ (setPol s p i v).cores = s.cores ∧ (setPol s p i v).boot = s.boot ∧
    (setPol s p i v).elec = s.elec ∧ (setPol s p i v).sky = s.sky ∧ (setPol s p i v).fuse = s.fuse ∧
    (setPol s p i v).pending = s.pending :=
  ⟨rfl, rfl, rfl, rfl, rfl, rfl, rfl, rfl, rfl, rfl, rfl, rfl, rfl, rfl, rfl, rfl, rfl, rfl, rfl, rfl, rfl, rfl,
    rfl, rfl, rfl, rfl, rfl, rfl, rfl, rfl, rfl, rfl⟩

@[simp] theorem setR_frame (s : State) (k : Nat) (r : Reseq) :
    (setR s k r).tm = s.tm ∧ (setR s k r).regs = s.regs ∧ (setR s k r).eff = s.eff ∧ (setR s k r).latch = s.latch ∧
    (setR s k r).reply = s.reply ∧ (setR s k r).out = s.out ∧ (setR s k r).freeIx = s.freeIx ∧
    (setR s k r).flt = s.flt ∧ (setR s k r).cnt = s.cnt ∧ (setR s k r).lanes = s.lanes ∧
    (setR s k r).ports = s.ports ∧ (setR s k r).frames = s.frames ∧ (setR s k r).nextFrame = s.nextFrame ∧
    (setR s k r).slots = s.slots ∧ (setR s k r).slotsInternal = s.slotsInternal ∧ (setR s k r).tmg = s.tmg ∧
    (setR s k r).arb = s.arb ∧ (setR s k r).ev = s.ev ∧ (setR s k r).sl = s.sl ∧ (setR s k r).md = s.md ∧
    (setR s k r).ref = s.ref ∧ (setR s k r).framers = s.framers ∧ (setR s k r).cls = s.cls ∧ (setR s k r).fl = s.fl ∧
    (setR s k r).hbm = s.hbm ∧ (setR s k r).dsp = s.dsp ∧ (setR s k r).cores = s.cores ∧ (setR s k r).boot = s.boot ∧
    (setR s k r).elec = s.elec ∧ (setR s k r).sky = s.sky ∧ (setR s k r).fuse = s.fuse ∧
    (setR s k r).pending = s.pending :=
  ⟨rfl, rfl, rfl, rfl, rfl, rfl, rfl, rfl, rfl, rfl, rfl, rfl, rfl, rfl, rfl, rfl, rfl, rfl, rfl, rfl, rfl, rfl,
    rfl, rfl, rfl, rfl, rfl, rfl, rfl, rfl, rfl, rfl⟩

@[simp] theorem setPc_frame (s : State) (k v : Nat) :
    (setPc s k v).tm = s.tm ∧ (setPc s k v).regs = s.regs ∧ (setPc s k v).eff = s.eff ∧
    (setPc s k v).latch = s.latch ∧ (setPc s k v).reply = s.reply ∧ (setPc s k v).out = s.out ∧
    (setPc s k v).freeIx = s.freeIx ∧ (setPc s k v).flt = s.flt ∧ (setPc s k v).lanes = s.lanes ∧
    (setPc s k v).ports = s.ports ∧ (setPc s k v).frames = s.frames ∧ (setPc s k v).nextFrame = s.nextFrame ∧
    (setPc s k v).slots = s.slots ∧ (setPc s k v).slotsInternal = s.slotsInternal ∧ (setPc s k v).core = s.core ∧
    (setPc s k v).tmg = s.tmg ∧ (setPc s k v).arb = s.arb ∧ (setPc s k v).ev = s.ev ∧ (setPc s k v).sl = s.sl ∧
    (setPc s k v).md = s.md ∧ (setPc s k v).ref = s.ref ∧ (setPc s k v).framers = s.framers ∧
    (setPc s k v).cls = s.cls ∧ (setPc s k v).fl = s.fl ∧ (setPc s k v).hbm = s.hbm ∧ (setPc s k v).dsp = s.dsp ∧
    (setPc s k v).cores = s.cores ∧ (setPc s k v).boot = s.boot ∧ (setPc s k v).elec = s.elec ∧
    (setPc s k v).sky = s.sky ∧ (setPc s k v).fuse = s.fuse ∧ (setPc s k v).pending = s.pending :=
  ⟨rfl, rfl, rfl, rfl, rfl, rfl, rfl, rfl, rfl, rfl, rfl, rfl, rfl, rfl, rfl, rfl, rfl, rfl, rfl, rfl, rfl, rfl,
    rfl, rfl, rfl, rfl, rfl, rfl, rfl, rfl, rfl, rfl⟩

@[simp] theorem setCount_frame (s : State) (u n : Nat) :
    (setCount s u n).tm = s.tm ∧ (setCount s u n).regs = s.regs ∧ (setCount s u n).eff = s.eff ∧
    (setCount s u n).latch = s.latch ∧ (setCount s u n).reply = s.reply ∧ (setCount s u n).out = s.out ∧
    (setCount s u n).freeIx = s.freeIx ∧ (setCount s u n).flt = s.flt ∧ (setCount s u n).lanes = s.lanes ∧
    (setCount s u n).ports = s.ports ∧ (setCount s u n).frames = s.frames ∧
    (setCount s u n).nextFrame = s.nextFrame ∧ (setCount s u n).slots = s.slots ∧
    (setCount s u n).slotsInternal = s.slotsInternal ∧ (setCount s u n).core = s.core ∧
    (setCount s u n).tmg = s.tmg ∧ (setCount s u n).arb = s.arb ∧ (setCount s u n).ev = s.ev ∧
    (setCount s u n).sl = s.sl ∧ (setCount s u n).md = s.md ∧ (setCount s u n).ref = s.ref ∧
    (setCount s u n).framers = s.framers ∧ (setCount s u n).cls = s.cls ∧ (setCount s u n).fl = s.fl ∧
    (setCount s u n).hbm = s.hbm ∧ (setCount s u n).dsp = s.dsp ∧ (setCount s u n).cores = s.cores ∧
    (setCount s u n).boot = s.boot ∧ (setCount s u n).elec = s.elec ∧ (setCount s u n).sky = s.sky ∧
    (setCount s u n).fuse = s.fuse ∧ (setCount s u n).pending = s.pending :=
  ⟨rfl, rfl, rfl, rfl, rfl, rfl, rfl, rfl, rfl, rfl, rfl, rfl, rfl, rfl, rfl, rfl, rfl, rfl, rfl, rfl, rfl, rfl,
    rfl, rfl, rfl, rfl, rfl, rfl, rfl, rfl, rfl, rfl⟩

@[simp] theorem setT_frame (s : State) (t : Nat) (x : Thread) :
    (setT s t x).tm = s.tm ∧ (setT s t x).regs = s.regs ∧ (setT s t x).eff = s.eff ∧ (setT s t x).latch = s.latch ∧
    (setT s t x).reply = s.reply ∧ (setT s t x).out = s.out ∧ (setT s t x).freeIx = s.freeIx ∧
    (setT s t x).flt = s.flt ∧ (setT s t x).cnt = s.cnt ∧ (setT s t x).lanes = s.lanes ∧
    (setT s t x).ports = s.ports ∧ (setT s t x).frames = s.frames ∧ (setT s t x).nextFrame = s.nextFrame ∧
    (setT s t x).slots = s.slots ∧ (setT s t x).slotsInternal = s.slotsInternal ∧ (setT s t x).core = s.core ∧
    (setT s t x).tmg = s.tmg ∧ (setT s t x).arb = s.arb ∧ (setT s t x).ev = s.ev ∧ (setT s t x).sl = s.sl ∧
    (setT s t x).md = s.md ∧ (setT s t x).ref = s.ref ∧ (setT s t x).framers = s.framers ∧ (setT s t x).cls = s.cls ∧
    (setT s t x).fl = s.fl ∧ (setT s t x).hbm = s.hbm ∧ (setT s t x).cores = s.cores ∧ (setT s t x).boot = s.boot ∧
    (setT s t x).elec = s.elec ∧ (setT s t x).sky = s.sky ∧ (setT s t x).fuse = s.fuse ∧
    (setT s t x).pending = s.pending :=
  ⟨rfl, rfl, rfl, rfl, rfl, rfl, rfl, rfl, rfl, rfl, rfl, rfl, rfl, rfl, rfl, rfl, rfl, rfl, rfl, rfl, rfl, rfl,
    rfl, rfl, rfl, rfl, rfl, rfl, rfl, rfl, rfl, rfl⟩

@[simp] theorem modT_frame (s : State) (t : Nat) (g : Thread → Thread) :
    (modT s t g).tm = s.tm ∧ (modT s t g).regs = s.regs ∧ (modT s t g).eff = s.eff ∧ (modT s t g).latch = s.latch ∧
    (modT s t g).reply = s.reply ∧ (modT s t g).out = s.out ∧ (modT s t g).freeIx = s.freeIx ∧
    (modT s t g).flt = s.flt ∧ (modT s t g).cnt = s.cnt ∧ (modT s t g).lanes = s.lanes ∧
    (modT s t g).ports = s.ports ∧ (modT s t g).frames = s.frames ∧ (modT s t g).nextFrame = s.nextFrame ∧
    (modT s t g).slots = s.slots ∧ (modT s t g).slotsInternal = s.slotsInternal ∧ (modT s t g).core = s.core ∧
    (modT s t g).tmg = s.tmg ∧ (modT s t g).arb = s.arb ∧ (modT s t g).ev = s.ev ∧ (modT s t g).sl = s.sl ∧
    (modT s t g).md = s.md ∧ (modT s t g).ref = s.ref ∧ (modT s t g).framers = s.framers ∧ (modT s t g).cls = s.cls ∧
    (modT s t g).fl = s.fl ∧ (modT s t g).hbm = s.hbm ∧ (modT s t g).cores = s.cores ∧ (modT s t g).boot = s.boot ∧
    (modT s t g).elec = s.elec ∧ (modT s t g).sky = s.sky ∧ (modT s t g).fuse = s.fuse ∧
    (modT s t g).pending = s.pending :=
  ⟨rfl, rfl, rfl, rfl, rfl, rfl, rfl, rfl, rfl, rfl, rfl, rfl, rfl, rfl, rfl, rfl, rfl, rfl, rfl, rfl, rfl, rfl,
    rfl, rfl, rfl, rfl, rfl, rfl, rfl, rfl, rfl, rfl⟩

@[simp] theorem setQueue_frame (s : State) (k : Nat) (q : List Nat) :
    (setQueue s k q).tm = s.tm ∧ (setQueue s k q).regs = s.regs ∧ (setQueue s k q).eff = s.eff ∧
    (setQueue s k q).latch = s.latch ∧ (setQueue s k q).reply = s.reply ∧ (setQueue s k q).out = s.out ∧
    (setQueue s k q).freeIx = s.freeIx ∧ (setQueue s k q).flt = s.flt ∧ (setQueue s k q).cnt = s.cnt ∧
    (setQueue s k q).lanes = s.lanes ∧ (setQueue s k q).ports = s.ports ∧ (setQueue s k q).frames = s.frames ∧
    (setQueue s k q).nextFrame = s.nextFrame ∧ (setQueue s k q).slots = s.slots ∧
    (setQueue s k q).slotsInternal = s.slotsInternal ∧ (setQueue s k q).core = s.core ∧
    (setQueue s k q).tmg = s.tmg ∧ (setQueue s k q).arb = s.arb ∧ (setQueue s k q).ev = s.ev ∧
    (setQueue s k q).sl = s.sl ∧ (setQueue s k q).md = s.md ∧ (setQueue s k q).ref = s.ref ∧
    (setQueue s k q).framers = s.framers ∧ (setQueue s k q).cls = s.cls ∧ (setQueue s k q).fl = s.fl ∧
    (setQueue s k q).hbm = s.hbm ∧ (setQueue s k q).cores = s.cores ∧ (setQueue s k q).boot = s.boot ∧
    (setQueue s k q).elec = s.elec ∧ (setQueue s k q).sky = s.sky ∧ (setQueue s k q).fuse = s.fuse ∧
    (setQueue s k q).pending = s.pending :=
  ⟨rfl, rfl, rfl, rfl, rfl, rfl, rfl, rfl, rfl, rfl, rfl, rfl, rfl, rfl, rfl, rfl, rfl, rfl, rfl, rfl, rfl, rfl,
    rfl, rfl, rfl, rfl, rfl, rfl, rfl, rfl, rfl, rfl⟩

@[simp] theorem setSlot_frame (s : State) (c : Nat) (t : Option Nat) :
    (setSlot s c t).tm = s.tm ∧ (setSlot s c t).regs = s.regs ∧ (setSlot s c t).eff = s.eff ∧
    (setSlot s c t).latch = s.latch ∧ (setSlot s c t).reply = s.reply ∧ (setSlot s c t).out = s.out ∧
    (setSlot s c t).freeIx = s.freeIx ∧ (setSlot s c t).flt = s.flt ∧ (setSlot s c t).cnt = s.cnt ∧
    (setSlot s c t).lanes = s.lanes ∧ (setSlot s c t).ports = s.ports ∧ (setSlot s c t).frames = s.frames ∧
    (setSlot s c t).nextFrame = s.nextFrame ∧ (setSlot s c t).slots = s.slots ∧
    (setSlot s c t).slotsInternal = s.slotsInternal ∧ (setSlot s c t).core = s.core ∧ (setSlot s c t).tmg = s.tmg ∧
    (setSlot s c t).arb = s.arb ∧ (setSlot s c t).ev = s.ev ∧ (setSlot s c t).sl = s.sl ∧ (setSlot s c t).md = s.md ∧
    (setSlot s c t).ref = s.ref ∧ (setSlot s c t).framers = s.framers ∧ (setSlot s c t).cls = s.cls ∧
    (setSlot s c t).fl = s.fl ∧ (setSlot s c t).hbm = s.hbm ∧ (setSlot s c t).cores = s.cores ∧
    (setSlot s c t).boot = s.boot ∧ (setSlot s c t).elec = s.elec ∧ (setSlot s c t).sky = s.sky ∧
    (setSlot s c t).fuse = s.fuse ∧ (setSlot s c t).pending = s.pending :=
  ⟨rfl, rfl, rfl, rfl, rfl, rfl, rfl, rfl, rfl, rfl, rfl, rfl, rfl, rfl, rfl, rfl, rfl, rfl, rfl, rfl, rfl, rfl,
    rfl, rfl, rfl, rfl, rfl, rfl, rfl, rfl, rfl, rfl⟩

@[simp] theorem setRun_frame (s : State) (c : Nat) (t : Option Nat) :
    (setRun s c t).tm = s.tm ∧ (setRun s c t).regs = s.regs ∧ (setRun s c t).eff = s.eff ∧
    (setRun s c t).latch = s.latch ∧ (setRun s c t).reply = s.reply ∧ (setRun s c t).out = s.out ∧
    (setRun s c t).freeIx = s.freeIx ∧ (setRun s c t).flt = s.flt ∧ (setRun s c t).cnt = s.cnt ∧
    (setRun s c t).lanes = s.lanes ∧ (setRun s c t).ports = s.ports ∧ (setRun s c t).frames = s.frames ∧
    (setRun s c t).nextFrame = s.nextFrame ∧ (setRun s c t).slots = s.slots ∧
    (setRun s c t).slotsInternal = s.slotsInternal ∧ (setRun s c t).core = s.core ∧ (setRun s c t).tmg = s.tmg ∧
    (setRun s c t).arb = s.arb ∧ (setRun s c t).ev = s.ev ∧ (setRun s c t).sl = s.sl ∧ (setRun s c t).md = s.md ∧
    (setRun s c t).ref = s.ref ∧ (setRun s c t).framers = s.framers ∧ (setRun s c t).cls = s.cls ∧
    (setRun s c t).fl = s.fl ∧ (setRun s c t).hbm = s.hbm ∧ (setRun s c t).cores = s.cores ∧
    (setRun s c t).boot = s.boot ∧ (setRun s c t).elec = s.elec ∧ (setRun s c t).sky = s.sky ∧
    (setRun s c t).fuse = s.fuse ∧ (setRun s c t).pending = s.pending :=
  ⟨rfl, rfl, rfl, rfl, rfl, rfl, rfl, rfl, rfl, rfl, rfl, rfl, rfl, rfl, rfl, rfl, rfl, rfl, rfl, rfl, rfl, rfl,
    rfl, rfl, rfl, rfl, rfl, rfl, rfl, rfl, rfl, rfl⟩

@[simp] theorem setH_frame (s : State) (c : Nat) (h : Hart) :
    (setH s c h).tm = s.tm ∧ (setH s c h).regs = s.regs ∧ (setH s c h).eff = s.eff ∧ (setH s c h).latch = s.latch ∧
    (setH s c h).reply = s.reply ∧ (setH s c h).out = s.out ∧ (setH s c h).freeIx = s.freeIx ∧
    (setH s c h).flt = s.flt ∧ (setH s c h).cnt = s.cnt ∧ (setH s c h).lanes = s.lanes ∧
    (setH s c h).ports = s.ports ∧ (setH s c h).frames = s.frames ∧ (setH s c h).nextFrame = s.nextFrame ∧
    (setH s c h).slots = s.slots ∧ (setH s c h).slotsInternal = s.slotsInternal ∧ (setH s c h).core = s.core ∧
    (setH s c h).tmg = s.tmg ∧ (setH s c h).arb = s.arb ∧ (setH s c h).ev = s.ev ∧ (setH s c h).sl = s.sl ∧
    (setH s c h).md = s.md ∧ (setH s c h).ref = s.ref ∧ (setH s c h).framers = s.framers ∧ (setH s c h).cls = s.cls ∧
    (setH s c h).fl = s.fl ∧ (setH s c h).hbm = s.hbm ∧ (setH s c h).dsp = s.dsp ∧ (setH s c h).boot = s.boot ∧
    (setH s c h).elec = s.elec ∧ (setH s c h).sky = s.sky ∧ (setH s c h).fuse = s.fuse ∧
    (setH s c h).pending = s.pending :=
  ⟨rfl, rfl, rfl, rfl, rfl, rfl, rfl, rfl, rfl, rfl, rfl, rfl, rfl, rfl, rfl, rfl, rfl, rfl, rfl, rfl, rfl, rfl,
    rfl, rfl, rfl, rfl, rfl, rfl, rfl, rfl, rfl, rfl⟩

@[simp] theorem modH_frame (s : State) (c : Nat) (g : Hart → Hart) :
    (modH s c g).tm = s.tm ∧ (modH s c g).regs = s.regs ∧ (modH s c g).eff = s.eff ∧ (modH s c g).latch = s.latch ∧
    (modH s c g).reply = s.reply ∧ (modH s c g).out = s.out ∧ (modH s c g).freeIx = s.freeIx ∧
    (modH s c g).flt = s.flt ∧ (modH s c g).cnt = s.cnt ∧ (modH s c g).lanes = s.lanes ∧
    (modH s c g).ports = s.ports ∧ (modH s c g).frames = s.frames ∧ (modH s c g).nextFrame = s.nextFrame ∧
    (modH s c g).slots = s.slots ∧ (modH s c g).slotsInternal = s.slotsInternal ∧ (modH s c g).core = s.core ∧
    (modH s c g).tmg = s.tmg ∧ (modH s c g).arb = s.arb ∧ (modH s c g).ev = s.ev ∧ (modH s c g).sl = s.sl ∧
    (modH s c g).md = s.md ∧ (modH s c g).ref = s.ref ∧ (modH s c g).framers = s.framers ∧ (modH s c g).cls = s.cls ∧
    (modH s c g).fl = s.fl ∧ (modH s c g).hbm = s.hbm ∧ (modH s c g).dsp = s.dsp ∧ (modH s c g).boot = s.boot ∧
    (modH s c g).elec = s.elec ∧ (modH s c g).sky = s.sky ∧ (modH s c g).fuse = s.fuse ∧
    (modH s c g).pending = s.pending :=
  ⟨rfl, rfl, rfl, rfl, rfl, rfl, rfl, rfl, rfl, rfl, rfl, rfl, rfl, rfl, rfl, rfl, rfl, rfl, rfl, rfl, rfl, rfl,
    rfl, rfl, rfl, rfl, rfl, rfl, rfl, rfl, rfl, rfl⟩

@[simp] theorem setLcResult_frame (s : State) (r : Nat) (b : Bool) :
    (setLcResult s r b).tm = s.tm ∧ (setLcResult s r b).eff = s.eff ∧ (setLcResult s r b).latch = s.latch ∧
    (setLcResult s r b).reply = s.reply ∧ (setLcResult s r b).out = s.out ∧ (setLcResult s r b).freeIx = s.freeIx ∧
    (setLcResult s r b).flt = s.flt ∧ (setLcResult s r b).cnt = s.cnt ∧ (setLcResult s r b).lanes = s.lanes ∧
    (setLcResult s r b).ports = s.ports ∧ (setLcResult s r b).frames = s.frames ∧
    (setLcResult s r b).nextFrame = s.nextFrame ∧ (setLcResult s r b).slots = s.slots ∧
    (setLcResult s r b).slotsInternal = s.slotsInternal ∧ (setLcResult s r b).core = s.core ∧
    (setLcResult s r b).tmg = s.tmg ∧ (setLcResult s r b).arb = s.arb ∧ (setLcResult s r b).ev = s.ev ∧
    (setLcResult s r b).sl = s.sl ∧ (setLcResult s r b).md = s.md ∧ (setLcResult s r b).ref = s.ref ∧
    (setLcResult s r b).framers = s.framers ∧ (setLcResult s r b).cls = s.cls ∧ (setLcResult s r b).fl = s.fl ∧
    (setLcResult s r b).hbm = s.hbm ∧ (setLcResult s r b).dsp = s.dsp ∧ (setLcResult s r b).cores = s.cores ∧
    (setLcResult s r b).boot = s.boot ∧ (setLcResult s r b).elec = s.elec ∧ (setLcResult s r b).sky = s.sky ∧
    (setLcResult s r b).fuse = s.fuse ∧ (setLcResult s r b).pending = s.pending := by
  simp [setLcResult]

@[simp] theorem setRaw_frame (s : State) (f k : Nat) (b : Bool) :
    (setRaw s f k b).tm = s.tm ∧ (setRaw s f k b).eff = s.eff ∧ (setRaw s f k b).latch = s.latch ∧
    (setRaw s f k b).reply = s.reply ∧ (setRaw s f k b).out = s.out ∧ (setRaw s f k b).freeIx = s.freeIx ∧
    (setRaw s f k b).flt = s.flt ∧ (setRaw s f k b).cnt = s.cnt ∧ (setRaw s f k b).lanes = s.lanes ∧
    (setRaw s f k b).ports = s.ports ∧ (setRaw s f k b).frames = s.frames ∧
    (setRaw s f k b).nextFrame = s.nextFrame ∧ (setRaw s f k b).slots = s.slots ∧
    (setRaw s f k b).slotsInternal = s.slotsInternal ∧ (setRaw s f k b).core = s.core ∧
    (setRaw s f k b).tmg = s.tmg ∧ (setRaw s f k b).arb = s.arb ∧ (setRaw s f k b).ev = s.ev ∧
    (setRaw s f k b).sl = s.sl ∧ (setRaw s f k b).md = s.md ∧ (setRaw s f k b).ref = s.ref ∧
    (setRaw s f k b).framers = s.framers ∧ (setRaw s f k b).cls = s.cls ∧ (setRaw s f k b).fl = s.fl ∧
    (setRaw s f k b).hbm = s.hbm ∧ (setRaw s f k b).dsp = s.dsp ∧ (setRaw s f k b).cores = s.cores ∧
    (setRaw s f k b).boot = s.boot ∧ (setRaw s f k b).elec = s.elec ∧ (setRaw s f k b).sky = s.sky ∧
    (setRaw s f k b).fuse = s.fuse ∧ (setRaw s f k b).pending = s.pending := by
  simp [setRaw]

/-! The fields that the plain updates write. -/

@[simp] theorem setMd_md (s : State) (m : ModeSt) : (setMd s m).md = m := rfl
@[simp] theorem setRef_ref (s : State) (r : RefSt) : (setRef s r).ref = r := rfl
@[simp] theorem setCls_cls (s : State) (c : ClsSt) : (setCls s c).cls = c := rfl
@[simp] theorem setFl_fl (s : State) (f : FlowSt) : (setFl s f).fl = f := rfl
@[simp] theorem setHbm_hbm (s : State) (h : HbmSt) : (setHbm s h).hbm = h := rfl
@[simp] theorem setBoot_boot (s : State) (b : BootSt) : (setBoot s b).boot = b := rfl
@[simp] theorem setElec_elec (s : State) (e : ElecSt) : (setElec s e).elec = e := rfl
@[simp] theorem emit_out (s : State) (o : Out) : (emit s o).out = s.out ++ [o] := rfl
@[simp] theorem hold_fuse (s t : State) : (hold t s).fuse = t.fuse := rfl
@[simp] theorem holdTime_fuse (s t : State) : (holdTime t s).fuse = t.fuse := rfl
@[simp] theorem holdTime_tm (s t : State) : (holdTime t s).tm = t.tm := rfl
@[simp] theorem kept_fuse (s t : State) : (kept t s).fuse = t.fuse := rfl
@[simp] theorem kept_pending (s t : State) : (kept t s).pending = t.pending := rfl
@[simp] theorem keptQueue_pending (s t : State) : (keptQueue t s).pending = t.pending := rfl
@[simp] theorem free_freeIx (s : State) : (free s).2.freeIx = s.freeIx + 1 := rfl

/-! Reading back what was written to a table of the state. -/

@[simp] theorem getP_setP (s : State) (p : Nat) (v : PortSt) : getP (setP s p v) p = v := tget_tset_self _ _ _ _
theorem getP_setP_ne (s : State) (p q : Nat) (v : PortSt) (h : q ≠ p) : getP (setP s p v) q = getP s q :=
  tget_tset_ne _ _ _ _ _ h
@[simp] theorem getP_modP (s : State) (p : Nat) (g : PortSt → PortSt) : getP (modP s p g) p = g (getP s p) :=
  getP_setP _ _ _
theorem getP_modP_ne (s : State) (p q : Nat) (g : PortSt → PortSt) (h : q ≠ p) : getP (modP s p g) q = getP s q :=
  getP_setP_ne _ _ _ _ h
@[simp] theorem getL_setL (s : State) (l : Nat) (v : LaneSt) : getL (setL s l v) l = v := tget_tset_self _ _ _ _
theorem getL_setL_ne (s : State) (l k : Nat) (v : LaneSt) (h : k ≠ l) : getL (setL s l v) k = getL s k :=
  tget_tset_ne _ _ _ _ _ h
@[simp] theorem getL_modL (s : State) (l : Nat) (g : LaneSt → LaneSt) : getL (modL s l g) l = g (getL s l) :=
  getL_setL _ _ _
theorem getL_modL_ne (s : State) (l k : Nat) (g : LaneSt → LaneSt) (h : k ≠ l) : getL (modL s l g) k = getL s k :=
  getL_setL_ne _ _ _ _ h
@[simp] theorem getF_setF (s : State) (k : Nat) (v : Frame) : getF (setF s k v) k = v := tget_tset_self _ _ _ _
theorem getF_setF_ne (s : State) (k j : Nat) (v : Frame) (h : j ≠ k) : getF (setF s k v) j = getF s j :=
  tget_tset_ne _ _ _ _ _ h
@[simp] theorem getF_modF (s : State) (k : Nat) (g : Frame → Frame) : getF (modF s k g) k = g (getF s k) :=
  getF_setF _ _ _
theorem getF_modF_ne (s : State) (k j : Nat) (g : Frame → Frame) (h : j ≠ k) : getF (modF s k g) j = getF s j :=
  getF_setF_ne _ _ _ _ h
@[simp] theorem getF_addF (s : State) (f : Frame) : getF (addF s f).2 s.nextFrame = { f with live := true } :=
  getF_setF _ _ _
@[simp] theorem addF_nextFrame (s : State) (f : Frame) : (addF s f).2.nextFrame = s.nextFrame + 1 := rfl
@[simp] theorem addF_id (s : State) (f : Frame) : (addF s f).1 = s.nextFrame := rfl
@[simp] theorem getFr_setFr (s : State) (f : Nat) (v : FramerSt) : getFr (setFr s f v) f = v := tget_tset_self _ _ _ _
@[simp] theorem getInst_setInst (s : State) (f i : Nat) (v : FlexO) : getInst (setInst s f i v) f i = v := by
  simp [getInst, setInst]
@[simp] theorem getC_setC (s : State) (k : Nat) (c : Ctx) : getC (setC s k c) k = c := tget_tset_self _ _ _ _
@[simp] theorem getC_modC (s : State) (k : Nat) (g : Ctx → Ctx) : getC (modC s k g) k = g (getC s k) := getC_setC _ _ _
@[simp] theorem getWay_setWay (s : State) (k : Nat) (w : Way) : getWay (setWay s k w) k = w := tget_tset_self _ _ _ _
@[simp] theorem getM_setM (s : State) (c : Nat) (m : McSt) : getM (setM s c m) c = m := tget_tset_self _ _ _ _
@[simp] theorem getM_modM (s : State) (c : Nat) (g : McSt → McSt) : getM (modM s c g) c = g (getM s c) := getM_setM _ _ _
@[simp] theorem getT_setT (s : State) (t : Nat) (x : Thread) : getT (setT s t x) t = x := tget_tset_self _ _ _ _
@[simp] theorem getT_modT (s : State) (t : Nat) (g : Thread → Thread) : getT (modT s t g) t = g (getT s t) := getT_setT _ _ _
@[simp] theorem getH_setH (s : State) (c : Nat) (h : Hart) : getH (setH s c h) c = h := tget_tset_self _ _ _ _
@[simp] theorem getH_modH (s : State) (c : Nat) (g : Hart → Hart) : getH (modH s c g) c = g (getH s c) := getH_setH _ _ _
@[simp] theorem pget_pset (s : State) (k : Nat) (p : Option Pend) : pget (pset s k p) k = p := tget_tset_self _ _ _ _
@[simp] theorem getPol_setPol (s : State) (p i : Nat) (v : Policer) : getPol (setPol s p i v) p i = v :=
  tget_tset_self _ _ _ _
@[simp] theorem getR_setR (s : State) (k : Nat) (r : Reseq) : getR (setR s k r) k = r := tget_tset_self _ _ _ _
@[simp] theorem slotAt_setSlot (s : State) (c : Nat) (t : Option Nat) : slotAt (setSlot s c t) c = t :=
  tget_tset_self _ _ _ _
@[simp] theorem runAt_setRun (s : State) (c : Nat) (t : Option Nat) : runAt (setRun s c t) c = t := tget_tset_self _ _ _ _
@[simp] theorem queueAt_setQueue (s : State) (k : Nat) (q : List Nat) : queueAt (setQueue s k q) k = q :=
  tget_tset_self _ _ _ _

/-! A choice between two states, field by field. -/

theorem ite_tm (c : Prop) [Decidable c] (a b : State) : (if c then a else b).tm = if c then a.tm else b.tm :=
  apply_ite State.tm c a b
theorem ite_regs (c : Prop) [Decidable c] (a b : State) : (if c then a else b).regs = if c then a.regs else b.regs :=
  apply_ite State.regs c a b
theorem ite_eff (c : Prop) [Decidable c] (a b : State) : (if c then a else b).eff = if c then a.eff else b.eff :=
  apply_ite State.eff c a b
theorem ite_latch (c : Prop) [Decidable c] (a b : State) : (if c then a else b).latch = if c then a.latch else b.latch :=
  apply_ite State.latch c a b
theorem ite_reply (c : Prop) [Decidable c] (a b : State) : (if c then a else b).reply = if c then a.reply else b.reply :=
  apply_ite State.reply c a b
theorem ite_out (c : Prop) [Decidable c] (a b : State) : (if c then a else b).out = if c then a.out else b.out :=
  apply_ite State.out c a b
theorem ite_freeIx (c : Prop) [Decidable c] (a b : State) : (if c then a else b).freeIx = if c then a.freeIx else b.freeIx :=
  apply_ite State.freeIx c a b
theorem ite_flt (c : Prop) [Decidable c] (a b : State) : (if c then a else b).flt = if c then a.flt else b.flt :=
  apply_ite State.flt c a b
theorem ite_cnt (c : Prop) [Decidable c] (a b : State) : (if c then a else b).cnt = if c then a.cnt else b.cnt :=
  apply_ite State.cnt c a b
theorem ite_lanes (c : Prop) [Decidable c] (a b : State) : (if c then a else b).lanes = if c then a.lanes else b.lanes :=
  apply_ite State.lanes c a b
theorem ite_ports (c : Prop) [Decidable c] (a b : State) : (if c then a else b).ports = if c then a.ports else b.ports :=
  apply_ite State.ports c a b
theorem ite_frames (c : Prop) [Decidable c] (a b : State) : (if c then a else b).frames = if c then a.frames else b.frames :=
  apply_ite State.frames c a b
theorem ite_nextFrame (c : Prop) [Decidable c] (a b : State) : (if c then a else b).nextFrame = if c then a.nextFrame else b.nextFrame :=
  apply_ite State.nextFrame c a b
theorem ite_slots (c : Prop) [Decidable c] (a b : State) : (if c then a else b).slots = if c then a.slots else b.slots :=
  apply_ite State.slots c a b
theorem ite_slotsInternal (c : Prop) [Decidable c] (a b : State) : (if c then a else b).slotsInternal = if c then a.slotsInternal else b.slotsInternal :=
  apply_ite State.slotsInternal c a b
theorem ite_core (c : Prop) [Decidable c] (a b : State) : (if c then a else b).core = if c then a.core else b.core :=
  apply_ite State.core c a b
theorem ite_tmg (c : Prop) [Decidable c] (a b : State) : (if c then a else b).tmg = if c then a.tmg else b.tmg :=
  apply_ite State.tmg c a b
theorem ite_arb (c : Prop) [Decidable c] (a b : State) : (if c then a else b).arb = if c then a.arb else b.arb :=
  apply_ite State.arb c a b
theorem ite_ev (c : Prop) [Decidable c] (a b : State) : (if c then a else b).ev = if c then a.ev else b.ev :=
  apply_ite State.ev c a b
theorem ite_sl (c : Prop) [Decidable c] (a b : State) : (if c then a else b).sl = if c then a.sl else b.sl :=
  apply_ite State.sl c a b
theorem ite_md (c : Prop) [Decidable c] (a b : State) : (if c then a else b).md = if c then a.md else b.md :=
  apply_ite State.md c a b
theorem ite_ref (c : Prop) [Decidable c] (a b : State) : (if c then a else b).ref = if c then a.ref else b.ref :=
  apply_ite State.ref c a b
theorem ite_framers (c : Prop) [Decidable c] (a b : State) : (if c then a else b).framers = if c then a.framers else b.framers :=
  apply_ite State.framers c a b
theorem ite_cls (c : Prop) [Decidable c] (a b : State) : (if c then a else b).cls = if c then a.cls else b.cls :=
  apply_ite State.cls c a b
theorem ite_fl (c : Prop) [Decidable c] (a b : State) : (if c then a else b).fl = if c then a.fl else b.fl :=
  apply_ite State.fl c a b
theorem ite_hbm (c : Prop) [Decidable c] (a b : State) : (if c then a else b).hbm = if c then a.hbm else b.hbm :=
  apply_ite State.hbm c a b
theorem ite_dsp (c : Prop) [Decidable c] (a b : State) : (if c then a else b).dsp = if c then a.dsp else b.dsp :=
  apply_ite State.dsp c a b
theorem ite_cores (c : Prop) [Decidable c] (a b : State) : (if c then a else b).cores = if c then a.cores else b.cores :=
  apply_ite State.cores c a b
theorem ite_boot (c : Prop) [Decidable c] (a b : State) : (if c then a else b).boot = if c then a.boot else b.boot :=
  apply_ite State.boot c a b
theorem ite_elec (c : Prop) [Decidable c] (a b : State) : (if c then a else b).elec = if c then a.elec else b.elec :=
  apply_ite State.elec c a b
theorem ite_sky (c : Prop) [Decidable c] (a b : State) : (if c then a else b).sky = if c then a.sky else b.sky :=
  apply_ite State.sky c a b
theorem ite_fuse (c : Prop) [Decidable c] (a b : State) : (if c then a else b).fuse = if c then a.fuse else b.fuse :=
  apply_ite State.fuse c a b
theorem ite_pending (c : Prop) [Decidable c] (a b : State) : (if c then a else b).pending = if c then a.pending else b.pending :=
  apply_ite State.pending c a b

end Sys2Proof.Machine
end

