-- ==== Sys2Proof/Laws/Registers.lean ====
section
/-! SUPPORT. Registers: what a field reads after a write of a field or a counter, and what an event occurrence touches. -/

namespace Sys2Proof.Machine

open Sys2Proof

@[simp] theorem rawRd_rawWr_self (s : State) (a : Nat) (v : Word) : rawRd (rawWr s a v) a = v := tget_tset_self _ _ _ _

theorem rawRd_rawWr_ne (s : State) (a b : Nat) (v : Word) (h : b ≠ a) : rawRd (rawWr s a v) b = rawRd s b :=
  tget_tset_ne _ _ _ _ _ h

theorem rawRd_rawWr (s : State) (a b : Nat) (v : Word) : rawRd (rawWr s a v) b = if b = a then v else rawRd s b :=
  tget_tset _ _ _ _ _

/-- The word at `a` depends on the registers alone. -/
theorem rawRd_congr (s t : State) (a : Nat) (h : t.regs = s.regs) : rawRd t a = rawRd s a := by unfold rawRd; rw [h]

theorem fg_congr (s t : State) (b : Nat) (f : FRef) (h : t.regs = s.regs) : fg t b f = fg s b f := by
  unfold fg; rw [rawRd_congr s t _ h]

theorem rawRd_fs_ne (s : State) (b : Nat) (f : FRef) (x a : Nat) (h : a ≠ b + f.off) : rawRd (fs s b f x) a = rawRd s a :=
  rawRd_rawWr_ne _ _ _ _ h

/-- A field reads what was written to it. -/
theorem fg_fs_self (s : State) (b : Nat) (f : FRef) (x : Nat) (h : f.lo + f.width ≤ 32) :
    fg (fs s b f x) b f = x % 2 ^ f.width := by
  unfold fg fs
  rw [rawRd_rawWr_self, bitsOf_setBits_self _ _ _ _ h]

/-- A field of another register keeps its value. -/
theorem fg_fs_addr (s : State) (b : Nat) (f : FRef) (x b' : Nat) (g : FRef) (h : b' + g.off ≠ b + f.off) :
    fg (fs s b f x) b' g = fg s b' g := by
  unfold fg
  rw [rawRd_fs_ne _ _ _ _ _ h]

/-- Another field of the same register keeps its value. -/
theorem fg_fs_field (s : State) (b : Nat) (f : FRef) (x b' : Nat) (g : FRef) (ha : b' + g.off = b + f.off)
    (h : f.lo + f.width ≤ 32) (hd : g.lo + g.width ≤ f.lo ∨ f.lo + f.width ≤ g.lo) :
    fg (fs s b f x) b' g = fg s b' g := by
  unfold fg fs
  rw [ha, rawRd_rawWr_self, bitsOf_setBits_ne _ _ _ _ _ _ h hd]

/-! 64-bit counters. -/

theorem rawRd_wr64_ne (s : State) (a v b : Nat) (h1 : b ≠ a) (h2 : b ≠ a + 4) : rawRd (wr64 s a v) b = rawRd s b := by
  unfold wr64
  rw [rawRd_rawWr_ne _ _ _ _ h2, rawRd_rawWr_ne _ _ _ _ h1]

theorem rd64_wr64 (s : State) (a v : Nat) : rd64 (wr64 s a v) a = v % 2 ^ 64 := by
  have h : rawRd (wr64 s a v) a = BitVec.ofNat 32 v := by
    unfold wr64
    rw [rawRd_rawWr_ne _ _ _ _ (by omega), rawRd_rawWr_self]
  have h2 : rawRd (wr64 s a v) (a + 4) = BitVec.ofNat 32 (v / 2 ^ 32) := by
    unfold wr64
    rw [rawRd_rawWr_self]
  unfold rd64
  rw [h, h2]
  simp only [BitVec.toNat_ofNat]
  omega

theorem rd64_lt (s : State) (a : Nat) : rd64 s a < 2 ^ 64 := by
  unfold rd64
  have h1 := (rawRd s a).isLt
  have h2 := (rawRd s (a + 4)).isLt
  omega

theorem rawRd_addRaw_ne (s : State) (a n b : Nat) (h1 : b ≠ a) (h2 : b ≠ a + 4) : rawRd (addRaw s a n).2 b = rawRd s b :=
  rawRd_wr64_ne _ _ _ _ h1 h2

theorem rd64_addRaw (s : State) (a n : Nat) : rd64 (addRaw s a n).2 a = (rd64 s a + n) % 2 ^ 64 := by
  simp only [addRaw]
  rw [rd64_wr64]
  omega

/-! Events. -/

theorem rawRd_setBit_ne (s : State) (a b : Nat) (v : Bool) (x : Nat) (h : x ≠ a) : rawRd (setBit s a b v) x = rawRd s x :=
  rawRd_rawWr_ne _ _ _ _ h

/-- Everything but the registers, the events and the mode. -/
def notEvents (s : State) : State := { s with regs := [], flt := {}, md := {} }

@[simp] theorem notEvents_rawWr (s : State) (a : Nat) (v : Word) : notEvents (rawWr s a v) = notEvents s := rfl
@[simp] theorem notEvents_setBit (s : State) (a b : Nat) (v : Bool) : notEvents (setBit s a b v) = notEvents s := rfl
@[simp] theorem notEvents_fs (s : State) (b : Nat) (f : FRef) (x : Nat) : notEvents (fs s b f x) = notEvents s := rfl
@[simp] theorem notEvents_wr64 (s : State) (a v : Nat) : notEvents (wr64 s a v) = notEvents s := rfl
@[simp] theorem notEvents_addRaw (s : State) (a n : Nat) : notEvents (addRaw s a n).2 = notEvents s :=
  notEvents_wr64 s a _

@[simp] theorem notEvents_logPush (s : State) (e : LogEnt) : notEvents (logPush s e) = notEvents s := by
  unfold logPush
  split
  · rfl
  · rw [notEvents_setBit]
    dsimp only
    split
    · rfl
    · rw [notEvents_addRaw]; rfl

@[simp] theorem notEvents_fatalOccur (s : State) (o : FatalOcc) (b : Bool) : notEvents (fatalOccur s o b) = notEvents s := by
  unfold fatalOccur
  split
  · rfl
  · split
    · rfl
    · dsimp only
      split <;> first | rfl | (split <;> first | rfl | (split <;> rfl))

@[simp] theorem notEvents_occMark (s : State) (p b : Nat) (i : Bool) : notEvents (occMark s p b i) = notEvents s := by
  unfold occMark; dsimp only; split <;> simp

@[simp] theorem notEvents_occHold (s : State) (p b e : Nat) : notEvents (occHold s p b e) = notEvents s := rfl

@[simp] theorem notEvents_occCount (s : State) (b : Bool) (o : Nat) : notEvents (occCount s b o) = notEvents s := by
  unfold occCount; split <;> simp

@[simp] theorem notEvents_occLog (s : State) (p b c e : Nat) (x i : Bool) (d : Detail) :
    notEvents (occLog s p b c e x i d) = notEvents s := by
  unfold occLog; split <;> simp

@[simp] theorem notEvents_occFatal (s : State) (p b e : Nat) (x i : Bool) :
    notEvents (occFatal s p b e x i) = notEvents s := by
  unfold occFatal; split <;> simp

/-- An event occurrence touches registers, the events' state and the mode's containment marks, nothing else. -/
@[simp] theorem notEvents_occurrence (s : State) (p b : Nat) (i : Bool) (d : Detail) :
    notEvents (occurrence s p b i d) = notEvents s := by
  unfold occurrence
  split
  · rfl
  · simp

@[simp] theorem notEvents_raise (s : State) (p b : Nat) : notEvents (raise s p b) = notEvents s := notEvents_occurrence ..

@[simp] theorem notEvents_raiseD (s : State) (p b : Nat) (d : Detail) : notEvents (raiseD s p b d) = notEvents s :=
  notEvents_occurrence ..

@[simp] theorem notEvents_setLevel (s : State) (p b : Nat) (on : Bool) : notEvents (setLevel s p b on) = notEvents s := by
  unfold setLevel
  dsimp only
  split
  · rfl
  · split
    · simp
    · split <;> simp

/-- A counter touches what an event occurrence touches. -/
@[simp] theorem notEvents_bumpN (s : State) (a n : Nat) : notEvents (bumpN s a n) = notEvents s := by
  unfold bumpN
  dsimp only
  split
  · rfl
  · split
    · split <;> simp
    · simp

@[simp] theorem notEvents_bump (s : State) (a : Nat) : notEvents (bump s a) = notEvents s := notEvents_bumpN ..

@[simp] theorem notEvents_peak (s : State) (b : Nat) (f : FRef) (v : Nat) : notEvents (peak s b f v) = notEvents s := by
  unfold peak; split <;> simp

@[simp] theorem notEvents_bumpPort (s : State) (p o n : Nat) : notEvents (bumpPort s p o n) = notEvents s := by
  unfold bumpPort
  split
  · dsimp only
    split <;> simp
  · rfl

/-! The words that an occurrence or a counter leaves alone. -/

theorem plainWord_ne_common {a : Nat} (h : plainWord a) (p o : Nat) (ho : o < 0x40) : a ≠ pb p + o := by
  have h2 := h.2
  simp only [pb]
  omega

theorem rawRd_occMark (s : State) (p b : Nat) (i : Bool) (a : Nat) (h : plainWord a) :
    rawRd (occMark s p b i) a = rawRd s a := by
  have e1 : a ≠ pb p + oEVT_STATUS := plainWord_ne_common h _ _ (by simp [oEVT_STATUS])
  have e2 : a ≠ pb p + oEVT_INJECTED := plainWord_ne_common h _ _ (by simp [oEVT_INJECTED])
  unfold occMark
  dsimp only
  split
  · rw [rawRd_setBit_ne _ _ _ _ _ e1]
  · rw [rawRd_setBit_ne _ _ _ _ _ e2, rawRd_setBit_ne _ _ _ _ _ e1]

theorem plainWord_ne_fa {a : Nat} (h : plainWord a) (o : Nat) (ho : o < 0x1000) : a ≠ pb 0x006 + o := by
  have h1 := h.1
  simp only [pb]
  omega

theorem rawRd_occCount (s : State) (on : Bool) (o a : Nat) (ho : o + 4 < 0x1000) (h : plainWord a) :
    rawRd (occCount s on o) a = rawRd s a := by
  unfold occCount
  split
  · exact rawRd_addRaw_ne _ _ _ _ (plainWord_ne_fa h o (by omega)) (by
      have := plainWord_ne_fa h (o + 4) ho
      omega)
  · rfl

theorem rawRd_logPush (s : State) (e : LogEnt) (a : Nat) (h : plainWord a) : rawRd (logPush s e) a = rawRd s a := by
  unfold logPush
  split
  · rfl
  · rw [rawRd_setBit_ne _ _ _ _ _ (plainWord_ne_fa h oEVT_STATUS (by decide))]
    dsimp only
    split
    · rfl
    · rw [rawRd_addRaw_ne _ _ _ _ (plainWord_ne_fa h R.FA_LOG_LOST (by simp [R.FA_LOG_LOST])) (plainWord_ne_fa h (R.FA_LOG_LOST + 4) (by simp [R.FA_LOG_LOST]))]
      rfl

theorem fatalOccur_regs (s : State) (o : FatalOcc) (b : Bool) : (fatalOccur s o b).regs = s.regs := by
  unfold fatalOccur
  split
  · rfl
  · split
    · rfl
    · dsimp only
      split <;> first | rfl | (split <;> first | rfl | (split <;> rfl))

theorem rawRd_occurrence (s : State) (p b : Nat) (i : Bool) (d : Detail) (a : Nat) (h : plainWord a) :
    rawRd (occurrence s p b i d) a = rawRd s a := by
  unfold occurrence
  split
  · rfl
  · have e1 : ∀ (t : State) (e : Nat) (x : Bool), rawRd (occFatal t p b e x i) a = rawRd t a := by
      intro t e x
      unfold occFatal
      split
      · exact rawRd_congr _ _ _ (fatalOccur_regs ..)
      · rfl
    have e2 : ∀ (t : State) (c e : Nat) (x : Bool), rawRd (occLog t p b c e x i d) a = rawRd t a := by
      intro t c e x
      unfold occLog
      split
      · exact rawRd_logPush _ _ _ h
      · rfl
    dsimp only
    rw [e1, e2, rawRd_occCount _ _ _ _ (by simp [R.FA_INJECTIONS]) h, rawRd_occCount _ _ _ _ (by simp [R.FA_ESCALATIONS]) h]
    rw [rawRd_congr (occMark s p b i) (occHold (occMark s p b i) p b _) a rfl, rawRd_occMark _ _ _ _ _ h]

theorem rawRd_raise (s : State) (p b a : Nat) (h : plainWord a) : rawRd (raise s p b) a = rawRd s a :=
  rawRd_occurrence _ _ _ _ _ _ h

theorem rawRd_raiseD (s : State) (p b : Nat) (d : Detail) (a : Nat) (h : plainWord a) :
    rawRd (raiseD s p b d) a = rawRd s a := rawRd_occurrence _ _ _ _ _ _ h

theorem rawRd_setLevel (s : State) (p b : Nat) (on : Bool) (a : Nat) (h : plainWord a) :
    rawRd (setLevel s p b on) a = rawRd s a := by
  have e1 : a ≠ pb p + oEVT_CAUSE := plainWord_ne_common h _ _ (by simp [oEVT_CAUSE])
  have e2 : a ≠ pb p + oEVT_TRANSIENT := plainWord_ne_common h _ _ (by simp [oEVT_TRANSIENT])
  unfold setLevel
  dsimp only
  split
  · rfl
  · split
    · rw [rawRd_raise _ _ _ _ h, rawRd_setBit_ne _ _ _ _ _ e1]
    · split
      · rw [rawRd_setBit_ne _ _ _ _ _ e2, rawRd_setBit_ne _ _ _ _ _ e1]
      · rw [rawRd_setBit_ne _ _ _ _ _ e1]

theorem rawRd_bumpN (s : State) (c n a : Nat) (h : plainWord a) (h1 : a ≠ c) (h2 : a ≠ c + 4) :
    rawRd (bumpN s c n) a = rawRd s a := by
  unfold bumpN
  dsimp only
  split
  · rfl
  · split
    · split
      · rw [rawRd_raise _ _ _ _ h, rawRd_addRaw_ne _ _ _ _ h1 h2]
      · rw [rawRd_addRaw_ne _ _ _ _ h1 h2]
    · rw [rawRd_addRaw_ne _ _ _ _ h1 h2]

/-- A counter of a page that is not frozen counts. -/
theorem rd64_bumpN (s : State) (a n : Nat) (hf : frozen s (a / 0x1000) = false) (h : plainWord a) (h4 : plainWord (a + 4)) :
    rd64 (bumpN s a n) a = (rd64 s a + n) % 2 ^ 64 := by
  have key : ∀ t : State, rawRd t a = rawRd (addRaw s a n).2 a → rawRd t (a + 4) = rawRd (addRaw s a n).2 (a + 4) →
      rd64 t a = (rd64 s a + n) % 2 ^ 64 := by
    intro t e1 e2
    rw [← rd64_addRaw]
    unfold rd64
    rw [e1, e2]
  apply key
  · unfold bumpN
    dsimp only
    rw [hf]
    simp only [Bool.false_eq_true, if_false]
    split
    · split
      · exact rawRd_raise _ _ _ _ h
      · rfl
    · rfl
  · unfold bumpN
    dsimp only
    rw [hf]
    simp only [Bool.false_eq_true, if_false]
    split
    · split
      · exact rawRd_raise _ _ _ _ h4
      · rfl
    · rfl

theorem rd64_bump (s : State) (a : Nat) (hf : frozen s (a / 0x1000) = false) (h : plainWord a) (h4 : plainWord (a + 4)) :
    rd64 (bump s a) a = (rd64 s a + 1) % 2 ^ 64 := rd64_bumpN s a 1 hf h h4

theorem rawRd_bump (s : State) (c a : Nat) (h : plainWord a) (h1 : a ≠ c) (h2 : a ≠ c + 4) :
    rawRd (bump s c) a = rawRd s a := rawRd_bumpN _ _ _ _ h h1 h2

theorem rawRd_peak (s : State) (b : Nat) (f : FRef) (v a : Nat) (h : a ≠ b + f.off) : rawRd (peak s b f v) a = rawRd s a := by
  unfold peak
  split
  · exact rawRd_fs_ne _ _ _ _ _ h
  · rfl

theorem fg_raise (s : State) (p b x : Nat) (f : FRef) (h : plainWord (x + f.off)) : fg (raise s p b) x f = fg s x f := by
  unfold fg; rw [rawRd_raise _ _ _ _ h]

theorem fg_setLevel (s : State) (p b : Nat) (on : Bool) (x : Nat) (f : FRef) (h : plainWord (x + f.off)) :
    fg (setLevel s p b on) x f = fg s x f := by
  unfold fg; rw [rawRd_setLevel _ _ _ _ _ h]

theorem fg_bumpN (s : State) (c n x : Nat) (f : FRef) (h : plainWord (x + f.off)) (h1 : x + f.off ≠ c)
    (h2 : x + f.off ≠ c + 4) : fg (bumpN s c n) x f = fg s x f := by
  unfold fg; rw [rawRd_bumpN _ _ _ _ h h1 h2]

/-- An event occurrence on a present page leaves its EVT_STATUS bit set (R498). -/
theorem evStatus_raise (s : State) (p b : Nat) (hp : pagePresent s p = true) (hb : b < 32) (h6 : p ≠ 6) :
    evStatus (raise s p b) p b = true := by
  have hne : ∀ o, o < 0x1000 → pb p + oEVT_STATUS ≠ pb 0x006 + o := by
    intro o ho
    simp only [pb, oEVT_STATUS]
    omega
  have e1 : ∀ (t : State) (e : Nat) (x : Bool), rawRd (occFatal t p b e x false) (pb p + oEVT_STATUS) = rawRd t (pb p + oEVT_STATUS) := by
    intro t e x
    unfold occFatal
    split
    · exact rawRd_congr _ _ _ (fatalOccur_regs ..)
    · rfl
  have e2 : ∀ (t : State) (c e : Nat) (x : Bool), rawRd (occLog t p b c e x false 0) (pb p + oEVT_STATUS) = rawRd t (pb p + oEVT_STATUS) := by
    intro t c e x
    unfold occLog
    split
    · unfold logPush
      split
      · rfl
      · rw [rawRd_setBit_ne _ _ _ _ _ (hne oEVT_STATUS (by decide))]
        dsimp only
        split
        · rfl
        · rw [rawRd_addRaw_ne _ _ _ _ (hne R.FA_LOG_LOST (by simp [R.FA_LOG_LOST])) (hne (R.FA_LOG_LOST + 4) (by simp [R.FA_LOG_LOST]))]
          rfl
    · rfl
  have e3 : ∀ (t : State) (on : Bool) (o : Nat), o + 4 < 0x1000 →
      rawRd (occCount t on o) (pb p + oEVT_STATUS) = rawRd t (pb p + oEVT_STATUS) := by
    intro t on o ho
    unfold occCount
    split
    · exact rawRd_addRaw_ne _ _ _ _ (hne o (by omega)) (by have := hne (o + 4) ho; omega)
    · rfl
  have main : rawRd (raise s p b) (pb p + oEVT_STATUS) = setBits (rawRd s (pb p + oEVT_STATUS)) b 1 1 := by
    unfold raise occurrence
    rw [if_neg (by simp [hp])]
    dsimp only
    rw [e1, e2, e3 _ _ _ (by simp [R.FA_INJECTIONS]), e3 _ _ _ (by simp [R.FA_ESCALATIONS])]
    rw [rawRd_congr (occMark s p b false) (occHold (occMark s p b false) p b _) _ rfl]
    unfold occMark
    dsimp only
    rw [if_neg (by simp), rawRd_setBit_ne _ _ _ _ _ (by simp only [oEVT_STATUS, oEVT_INJECTED]; omega)]
    unfold setBit
    rw [rawRd_rawWr_self]
    rfl
  unfold evStatus
  rw [main, BitVec.getLsbD, setBits_toNat_testBit _ _ _ _ _ (by omega)]
  rw [if_pos (by omega)]
  simp

/-! The fields, one by one. -/

theorem notEvents_tm (s t : State) (h : notEvents t = notEvents s) : t.tm = s.tm := by
  have e := congrArg State.tm h
  exact e
theorem notEvents_eff (s t : State) (h : notEvents t = notEvents s) : t.eff = s.eff := by
  have e := congrArg State.eff h
  exact e
theorem notEvents_latch (s t : State) (h : notEvents t = notEvents s) : t.latch = s.latch := by
  have e := congrArg State.latch h
  exact e
theorem notEvents_reply (s t : State) (h : notEvents t = notEvents s) : t.reply = s.reply := by
  have e := congrArg State.reply h
  exact e
theorem notEvents_out (s t : State) (h : notEvents t = notEvents s) : t.out = s.out := by
  have e := congrArg State.out h
  exact e
theorem notEvents_freeIx (s t : State) (h : notEvents t = notEvents s) : t.freeIx = s.freeIx := by
  have e := congrArg State.freeIx h
  exact e
theorem notEvents_cnt (s t : State) (h : notEvents t = notEvents s) : t.cnt = s.cnt := by
  have e := congrArg State.cnt h
  exact e
theorem notEvents_lanes (s t : State) (h : notEvents t = notEvents s) : t.lanes = s.lanes := by
  have e := congrArg State.lanes h
  exact e
theorem notEvents_ports (s t : State) (h : notEvents t = notEvents s) : t.ports = s.ports := by
  have e := congrArg State.ports h
  exact e
theorem notEvents_frames (s t : State) (h : notEvents t = notEvents s) : t.frames = s.frames := by
  have e := congrArg State.frames h
  exact e
theorem notEvents_nextFrame (s t : State) (h : notEvents t = notEvents s) : t.nextFrame = s.nextFrame := by
  have e := congrArg State.nextFrame h
  exact e
theorem notEvents_slots (s t : State) (h : notEvents t = notEvents s) : t.slots = s.slots := by
  have e := congrArg State.slots h
  exact e
theorem notEvents_slotsInternal (s t : State) (h : notEvents t = notEvents s) : t.slotsInternal = s.slotsInternal := by
  have e := congrArg State.slotsInternal h
  exact e
theorem notEvents_core (s t : State) (h : notEvents t = notEvents s) : t.core = s.core := by
  have e := congrArg State.core h
  exact e
theorem notEvents_tmg (s t : State) (h : notEvents t = notEvents s) : t.tmg = s.tmg := by
  have e := congrArg State.tmg h
  exact e
theorem notEvents_arb (s t : State) (h : notEvents t = notEvents s) : t.arb = s.arb := by
  have e := congrArg State.arb h
  exact e
theorem notEvents_ev (s t : State) (h : notEvents t = notEvents s) : t.ev = s.ev := by
  have e := congrArg State.ev h
  exact e
theorem notEvents_sl (s t : State) (h : notEvents t = notEvents s) : t.sl = s.sl := by
  have e := congrArg State.sl h
  exact e
theorem notEvents_ref (s t : State) (h : notEvents t = notEvents s) : t.ref = s.ref := by
  have e := congrArg State.ref h
  exact e
theorem notEvents_framers (s t : State) (h : notEvents t = notEvents s) : t.framers = s.framers := by
  have e := congrArg State.framers h
  exact e
theorem notEvents_cls (s t : State) (h : notEvents t = notEvents s) : t.cls = s.cls := by
  have e := congrArg State.cls h
  exact e
theorem notEvents_fl (s t : State) (h : notEvents t = notEvents s) : t.fl = s.fl := by
  have e := congrArg State.fl h
  exact e
theorem notEvents_hbm (s t : State) (h : notEvents t = notEvents s) : t.hbm = s.hbm := by
  have e := congrArg State.hbm h
  exact e
theorem notEvents_dsp (s t : State) (h : notEvents t = notEvents s) : t.dsp = s.dsp := by
  have e := congrArg State.dsp h
  exact e
theorem notEvents_cores (s t : State) (h : notEvents t = notEvents s) : t.cores = s.cores := by
  have e := congrArg State.cores h
  exact e
theorem notEvents_boot (s t : State) (h : notEvents t = notEvents s) : t.boot = s.boot := by
  have e := congrArg State.boot h
  exact e
theorem notEvents_elec (s t : State) (h : notEvents t = notEvents s) : t.elec = s.elec := by
  have e := congrArg State.elec h
  exact e
theorem notEvents_sky (s t : State) (h : notEvents t = notEvents s) : t.sky = s.sky := by
  have e := congrArg State.sky h
  exact e
theorem notEvents_fuse (s t : State) (h : notEvents t = notEvents s) : t.fuse = s.fuse := by
  have e := congrArg State.fuse h
  exact e
theorem notEvents_pending (s t : State) (h : notEvents t = notEvents s) : t.pending = s.pending := by
  have e := congrArg State.pending h
  exact e

@[simp] theorem logPush_frame (s : State) (e : LogEnt) :
    (logPush s e).tm = s.tm ∧ (logPush s e).eff = s.eff ∧ (logPush s e).latch = s.latch ∧
    (logPush s e).reply = s.reply ∧ (logPush s e).out = s.out ∧ (logPush s e).freeIx = s.freeIx ∧
    (logPush s e).cnt = s.cnt ∧ (logPush s e).lanes = s.lanes ∧ (logPush s e).ports = s.ports ∧
    (logPush s e).frames = s.frames ∧ (logPush s e).nextFrame = s.nextFrame ∧ (logPush s e).slots = s.slots ∧
    (logPush s e).slotsInternal = s.slotsInternal ∧ (logPush s e).core = s.core ∧ (logPush s e).tmg = s.tmg ∧
    (logPush s e).arb = s.arb ∧ (logPush s e).ev = s.ev ∧ (logPush s e).sl = s.sl ∧ (logPush s e).ref = s.ref ∧
    (logPush s e).framers = s.framers ∧ (logPush s e).cls = s.cls ∧ (logPush s e).fl = s.fl ∧
    (logPush s e).hbm = s.hbm ∧ (logPush s e).dsp = s.dsp ∧ (logPush s e).cores = s.cores ∧
    (logPush s e).boot = s.boot ∧ (logPush s e).elec = s.elec ∧ (logPush s e).sky = s.sky ∧
    (logPush s e).fuse = s.fuse ∧ (logPush s e).pending = s.pending := by
  have h := notEvents_logPush s e
  exact ⟨notEvents_tm _ _ h, notEvents_eff _ _ h, notEvents_latch _ _ h, notEvents_reply _ _ h, notEvents_out _
    _ h, notEvents_freeIx _ _ h, notEvents_cnt _ _ h, notEvents_lanes _ _ h, notEvents_ports _ _ h,
    notEvents_frames _ _ h, notEvents_nextFrame _ _ h, notEvents_slots _ _ h, notEvents_slotsInternal _ _ h,
    notEvents_core _ _ h, notEvents_tmg _ _ h, notEvents_arb _ _ h, notEvents_ev _ _ h, notEvents_sl _ _ h,
    notEvents_ref _ _ h, notEvents_framers _ _ h, notEvents_cls _ _ h, notEvents_fl _ _ h, notEvents_hbm _ _ h,
    notEvents_dsp _ _ h, notEvents_cores _ _ h, notEvents_boot _ _ h, notEvents_elec _ _ h, notEvents_sky _ _ h,
    notEvents_fuse _ _ h, notEvents_pending _ _ h⟩

@[simp] theorem occurrence_frame (s : State) (p b : Nat) (i : Bool) (d : Detail) :
    (occurrence s p b i d).tm = s.tm ∧ (occurrence s p b i d).eff = s.eff ∧ (occurrence s p b i d).latch = s.latch ∧
    (occurrence s p b i d).reply = s.reply ∧ (occurrence s p b i d).out = s.out ∧
    (occurrence s p b i d).freeIx = s.freeIx ∧ (occurrence s p b i d).cnt = s.cnt ∧
    (occurrence s p b i d).lanes = s.lanes ∧ (occurrence s p b i d).ports = s.ports ∧
    (occurrence s p b i d).frames = s.frames ∧ (occurrence s p b i d).nextFrame = s.nextFrame ∧
    (occurrence s p b i d).slots = s.slots ∧ (occurrence s p b i d).slotsInternal = s.slotsInternal ∧
    (occurrence s p b i d).core = s.core ∧ (occurrence s p b i d).tmg = s.tmg ∧ (occurrence s p b i d).arb = s.arb ∧
    (occurrence s p b i d).ev = s.ev ∧ (occurrence s p b i d).sl = s.sl ∧ (occurrence s p b i d).ref = s.ref ∧
    (occurrence s p b i d).framers = s.framers ∧ (occurrence s p b i d).cls = s.cls ∧
    (occurrence s p b i d).fl = s.fl ∧ (occurrence s p b i d).hbm = s.hbm ∧ (occurrence s p b i d).dsp = s.dsp ∧
    (occurrence s p b i d).cores = s.cores ∧ (occurrence s p b i d).boot = s.boot ∧
    (occurrence s p b i d).elec = s.elec ∧ (occurrence s p b i d).sky = s.sky ∧
    (occurrence s p b i d).fuse = s.fuse ∧ (occurrence s p b i d).pending = s.pending := by
  have h := notEvents_occurrence s p b i d
  exact ⟨notEvents_tm _ _ h, notEvents_eff _ _ h, notEvents_latch _ _ h, notEvents_reply _ _ h, notEvents_out _
    _ h, notEvents_freeIx _ _ h, notEvents_cnt _ _ h, notEvents_lanes _ _ h, notEvents_ports _ _ h,
    notEvents_frames _ _ h, notEvents_nextFrame _ _ h, notEvents_slots _ _ h, notEvents_slotsInternal _ _ h,
    notEvents_core _ _ h, notEvents_tmg _ _ h, notEvents_arb _ _ h, notEvents_ev _ _ h, notEvents_sl _ _ h,
    notEvents_ref _ _ h, notEvents_framers _ _ h, notEvents_cls _ _ h, notEvents_fl _ _ h, notEvents_hbm _ _ h,
    notEvents_dsp _ _ h, notEvents_cores _ _ h, notEvents_boot _ _ h, notEvents_elec _ _ h, notEvents_sky _ _ h,
    notEvents_fuse _ _ h, notEvents_pending _ _ h⟩

@[simp] theorem raise_frame (s : State) (p b : Nat) :
    (raise s p b).tm = s.tm ∧ (raise s p b).eff = s.eff ∧ (raise s p b).latch = s.latch ∧
    (raise s p b).reply = s.reply ∧ (raise s p b).out = s.out ∧ (raise s p b).freeIx = s.freeIx ∧
    (raise s p b).cnt = s.cnt ∧ (raise s p b).lanes = s.lanes ∧ (raise s p b).ports = s.ports ∧
    (raise s p b).frames = s.frames ∧ (raise s p b).nextFrame = s.nextFrame ∧ (raise s p b).slots = s.slots ∧
    (raise s p b).slotsInternal = s.slotsInternal ∧ (raise s p b).core = s.core ∧ (raise s p b).tmg = s.tmg ∧
    (raise s p b).arb = s.arb ∧ (raise s p b).ev = s.ev ∧ (raise s p b).sl = s.sl ∧ (raise s p b).ref = s.ref ∧
    (raise s p b).framers = s.framers ∧ (raise s p b).cls = s.cls ∧ (raise s p b).fl = s.fl ∧
    (raise s p b).hbm = s.hbm ∧ (raise s p b).dsp = s.dsp ∧ (raise s p b).cores = s.cores ∧
    (raise s p b).boot = s.boot ∧ (raise s p b).elec = s.elec ∧ (raise s p b).sky = s.sky ∧
    (raise s p b).fuse = s.fuse ∧ (raise s p b).pending = s.pending := by
  have h := notEvents_raise s p b
  exact ⟨notEvents_tm _ _ h, notEvents_eff _ _ h, notEvents_latch _ _ h, notEvents_reply _ _ h, notEvents_out _
    _ h, notEvents_freeIx _ _ h, notEvents_cnt _ _ h, notEvents_lanes _ _ h, notEvents_ports _ _ h,
    notEvents_frames _ _ h, notEvents_nextFrame _ _ h, notEvents_slots _ _ h, notEvents_slotsInternal _ _ h,
    notEvents_core _ _ h, notEvents_tmg _ _ h, notEvents_arb _ _ h, notEvents_ev _ _ h, notEvents_sl _ _ h,
    notEvents_ref _ _ h, notEvents_framers _ _ h, notEvents_cls _ _ h, notEvents_fl _ _ h, notEvents_hbm _ _ h,
    notEvents_dsp _ _ h, notEvents_cores _ _ h, notEvents_boot _ _ h, notEvents_elec _ _ h, notEvents_sky _ _ h,
    notEvents_fuse _ _ h, notEvents_pending _ _ h⟩

@[simp] theorem raiseD_frame (s : State) (p b : Nat) (d : Detail) :
    (raiseD s p b d).tm = s.tm ∧ (raiseD s p b d).eff = s.eff ∧ (raiseD s p b d).latch = s.latch ∧
    (raiseD s p b d).reply = s.reply ∧ (raiseD s p b d).out = s.out ∧ (raiseD s p b d).freeIx = s.freeIx ∧
    (raiseD s p b d).cnt = s.cnt ∧ (raiseD s p b d).lanes = s.lanes ∧ (raiseD s p b d).ports = s.ports ∧
    (raiseD s p b d).frames = s.frames ∧ (raiseD s p b d).nextFrame = s.nextFrame ∧
    (raiseD s p b d).slots = s.slots ∧ (raiseD s p b d).slotsInternal = s.slotsInternal ∧
    (raiseD s p b d).core = s.core ∧ (raiseD s p b d).tmg = s.tmg ∧ (raiseD s p b d).arb = s.arb ∧
    (raiseD s p b d).ev = s.ev ∧ (raiseD s p b d).sl = s.sl ∧ (raiseD s p b d).ref = s.ref ∧
    (raiseD s p b d).framers = s.framers ∧ (raiseD s p b d).cls = s.cls ∧ (raiseD s p b d).fl = s.fl ∧
    (raiseD s p b d).hbm = s.hbm ∧ (raiseD s p b d).dsp = s.dsp ∧ (raiseD s p b d).cores = s.cores ∧
    (raiseD s p b d).boot = s.boot ∧ (raiseD s p b d).elec = s.elec ∧ (raiseD s p b d).sky = s.sky ∧
    (raiseD s p b d).fuse = s.fuse ∧ (raiseD s p b d).pending = s.pending := by
  have h := notEvents_raiseD s p b d
  exact ⟨notEvents_tm _ _ h, notEvents_eff _ _ h, notEvents_latch _ _ h, notEvents_reply _ _ h, notEvents_out _
    _ h, notEvents_freeIx _ _ h, notEvents_cnt _ _ h, notEvents_lanes _ _ h, notEvents_ports _ _ h,
    notEvents_frames _ _ h, notEvents_nextFrame _ _ h, notEvents_slots _ _ h, notEvents_slotsInternal _ _ h,
    notEvents_core _ _ h, notEvents_tmg _ _ h, notEvents_arb _ _ h, notEvents_ev _ _ h, notEvents_sl _ _ h,
    notEvents_ref _ _ h, notEvents_framers _ _ h, notEvents_cls _ _ h, notEvents_fl _ _ h, notEvents_hbm _ _ h,
    notEvents_dsp _ _ h, notEvents_cores _ _ h, notEvents_boot _ _ h, notEvents_elec _ _ h, notEvents_sky _ _ h,
    notEvents_fuse _ _ h, notEvents_pending _ _ h⟩

@[simp] theorem setLevel_frame (s : State) (p b : Nat) (on : Bool) :
    (setLevel s p b on).tm = s.tm ∧ (setLevel s p b on).eff = s.eff ∧ (setLevel s p b on).latch = s.latch ∧
    (setLevel s p b on).reply = s.reply ∧ (setLevel s p b on).out = s.out ∧ (setLevel s p b on).freeIx = s.freeIx ∧
    (setLevel s p b on).cnt = s.cnt ∧ (setLevel s p b on).lanes = s.lanes ∧ (setLevel s p b on).ports = s.ports ∧
    (setLevel s p b on).frames = s.frames ∧ (setLevel s p b on).nextFrame = s.nextFrame ∧
    (setLevel s p b on).slots = s.slots ∧ (setLevel s p b on).slotsInternal = s.slotsInternal ∧
    (setLevel s p b on).core = s.core ∧ (setLevel s p b on).tmg = s.tmg ∧ (setLevel s p b on).arb = s.arb ∧
    (setLevel s p b on).ev = s.ev ∧ (setLevel s p b on).sl = s.sl ∧ (setLevel s p b on).ref = s.ref ∧
    (setLevel s p b on).framers = s.framers ∧ (setLevel s p b on).cls = s.cls ∧ (setLevel s p b on).fl = s.fl ∧
    (setLevel s p b on).hbm = s.hbm ∧ (setLevel s p b on).dsp = s.dsp ∧ (setLevel s p b on).cores = s.cores ∧
    (setLevel s p b on).boot = s.boot ∧ (setLevel s p b on).elec = s.elec ∧ (setLevel s p b on).sky = s.sky ∧
    (setLevel s p b on).fuse = s.fuse ∧ (setLevel s p b on).pending = s.pending := by
  have h := notEvents_setLevel s p b on
  exact ⟨notEvents_tm _ _ h, notEvents_eff _ _ h, notEvents_latch _ _ h, notEvents_reply _ _ h, notEvents_out _
    _ h, notEvents_freeIx _ _ h, notEvents_cnt _ _ h, notEvents_lanes _ _ h, notEvents_ports _ _ h,
    notEvents_frames _ _ h, notEvents_nextFrame _ _ h, notEvents_slots _ _ h, notEvents_slotsInternal _ _ h,
    notEvents_core _ _ h, notEvents_tmg _ _ h, notEvents_arb _ _ h, notEvents_ev _ _ h, notEvents_sl _ _ h,
    notEvents_ref _ _ h, notEvents_framers _ _ h, notEvents_cls _ _ h, notEvents_fl _ _ h, notEvents_hbm _ _ h,
    notEvents_dsp _ _ h, notEvents_cores _ _ h, notEvents_boot _ _ h, notEvents_elec _ _ h, notEvents_sky _ _ h,
    notEvents_fuse _ _ h, notEvents_pending _ _ h⟩

@[simp] theorem bumpN_frame (s : State) (a n : Nat) :
    (bumpN s a n).tm = s.tm ∧ (bumpN s a n).eff = s.eff ∧ (bumpN s a n).latch = s.latch ∧
    (bumpN s a n).reply = s.reply ∧ (bumpN s a n).out = s.out ∧ (bumpN s a n).freeIx = s.freeIx ∧
    (bumpN s a n).cnt = s.cnt ∧ (bumpN s a n).lanes = s.lanes ∧ (bumpN s a n).ports = s.ports ∧
    (bumpN s a n).frames = s.frames ∧ (bumpN s a n).nextFrame = s.nextFrame ∧ (bumpN s a n).slots = s.slots ∧
    (bumpN s a n).slotsInternal = s.slotsInternal ∧ (bumpN s a n).core = s.core ∧ (bumpN s a n).tmg = s.tmg ∧
    (bumpN s a n).arb = s.arb ∧ (bumpN s a n).ev = s.ev ∧ (bumpN s a n).sl = s.sl ∧ (bumpN s a n).ref = s.ref ∧
    (bumpN s a n).framers = s.framers ∧ (bumpN s a n).cls = s.cls ∧ (bumpN s a n).fl = s.fl ∧
    (bumpN s a n).hbm = s.hbm ∧ (bumpN s a n).dsp = s.dsp ∧ (bumpN s a n).cores = s.cores ∧
    (bumpN s a n).boot = s.boot ∧ (bumpN s a n).elec = s.elec ∧ (bumpN s a n).sky = s.sky ∧
    (bumpN s a n).fuse = s.fuse ∧ (bumpN s a n).pending = s.pending := by
  have h := notEvents_bumpN s a n
  exact ⟨notEvents_tm _ _ h, notEvents_eff _ _ h, notEvents_latch _ _ h, notEvents_reply _ _ h, notEvents_out _
    _ h, notEvents_freeIx _ _ h, notEvents_cnt _ _ h, notEvents_lanes _ _ h, notEvents_ports _ _ h,
    notEvents_frames _ _ h, notEvents_nextFrame _ _ h, notEvents_slots _ _ h, notEvents_slotsInternal _ _ h,
    notEvents_core _ _ h, notEvents_tmg _ _ h, notEvents_arb _ _ h, notEvents_ev _ _ h, notEvents_sl _ _ h,
    notEvents_ref _ _ h, notEvents_framers _ _ h, notEvents_cls _ _ h, notEvents_fl _ _ h, notEvents_hbm _ _ h,
    notEvents_dsp _ _ h, notEvents_cores _ _ h, notEvents_boot _ _ h, notEvents_elec _ _ h, notEvents_sky _ _ h,
    notEvents_fuse _ _ h, notEvents_pending _ _ h⟩

@[simp] theorem bump_frame (s : State) (a : Nat) :
    (bump s a).tm = s.tm ∧ (bump s a).eff = s.eff ∧ (bump s a).latch = s.latch ∧ (bump s a).reply = s.reply ∧
    (bump s a).out = s.out ∧ (bump s a).freeIx = s.freeIx ∧ (bump s a).cnt = s.cnt ∧ (bump s a).lanes = s.lanes ∧
    (bump s a).ports = s.ports ∧ (bump s a).frames = s.frames ∧ (bump s a).nextFrame = s.nextFrame ∧
    (bump s a).slots = s.slots ∧ (bump s a).slotsInternal = s.slotsInternal ∧ (bump s a).core = s.core ∧
    (bump s a).tmg = s.tmg ∧ (bump s a).arb = s.arb ∧ (bump s a).ev = s.ev ∧ (bump s a).sl = s.sl ∧
    (bump s a).ref = s.ref ∧ (bump s a).framers = s.framers ∧ (bump s a).cls = s.cls ∧ (bump s a).fl = s.fl ∧
    (bump s a).hbm = s.hbm ∧ (bump s a).dsp = s.dsp ∧ (bump s a).cores = s.cores ∧ (bump s a).boot = s.boot ∧
    (bump s a).elec = s.elec ∧ (bump s a).sky = s.sky ∧ (bump s a).fuse = s.fuse ∧ (bump s a).pending = s.pending := by
  have h := notEvents_bump s a
  exact ⟨notEvents_tm _ _ h, notEvents_eff _ _ h, notEvents_latch _ _ h, notEvents_reply _ _ h, notEvents_out _
    _ h, notEvents_freeIx _ _ h, notEvents_cnt _ _ h, notEvents_lanes _ _ h, notEvents_ports _ _ h,
    notEvents_frames _ _ h, notEvents_nextFrame _ _ h, notEvents_slots _ _ h, notEvents_slotsInternal _ _ h,
    notEvents_core _ _ h, notEvents_tmg _ _ h, notEvents_arb _ _ h, notEvents_ev _ _ h, notEvents_sl _ _ h,
    notEvents_ref _ _ h, notEvents_framers _ _ h, notEvents_cls _ _ h, notEvents_fl _ _ h, notEvents_hbm _ _ h,
    notEvents_dsp _ _ h, notEvents_cores _ _ h, notEvents_boot _ _ h, notEvents_elec _ _ h, notEvents_sky _ _ h,
    notEvents_fuse _ _ h, notEvents_pending _ _ h⟩

@[simp] theorem peak_frame (s : State) (b : Nat) (f : FRef) (v : Nat) :
    (peak s b f v).tm = s.tm ∧ (peak s b f v).eff = s.eff ∧ (peak s b f v).latch = s.latch ∧
    (peak s b f v).reply = s.reply ∧ (peak s b f v).out = s.out ∧ (peak s b f v).freeIx = s.freeIx ∧
    (peak s b f v).cnt = s.cnt ∧ (peak s b f v).lanes = s.lanes ∧ (peak s b f v).ports = s.ports ∧
    (peak s b f v).frames = s.frames ∧ (peak s b f v).nextFrame = s.nextFrame ∧ (peak s b f v).slots = s.slots ∧
    (peak s b f v).slotsInternal = s.slotsInternal ∧ (peak s b f v).core = s.core ∧ (peak s b f v).tmg = s.tmg ∧
    (peak s b f v).arb = s.arb ∧ (peak s b f v).ev = s.ev ∧ (peak s b f v).sl = s.sl ∧ (peak s b f v).ref = s.ref ∧
    (peak s b f v).framers = s.framers ∧ (peak s b f v).cls = s.cls ∧ (peak s b f v).fl = s.fl ∧
    (peak s b f v).hbm = s.hbm ∧ (peak s b f v).dsp = s.dsp ∧ (peak s b f v).cores = s.cores ∧
    (peak s b f v).boot = s.boot ∧ (peak s b f v).elec = s.elec ∧ (peak s b f v).sky = s.sky ∧
    (peak s b f v).fuse = s.fuse ∧ (peak s b f v).pending = s.pending := by
  have h := notEvents_peak s b f v
  exact ⟨notEvents_tm _ _ h, notEvents_eff _ _ h, notEvents_latch _ _ h, notEvents_reply _ _ h, notEvents_out _
    _ h, notEvents_freeIx _ _ h, notEvents_cnt _ _ h, notEvents_lanes _ _ h, notEvents_ports _ _ h,
    notEvents_frames _ _ h, notEvents_nextFrame _ _ h, notEvents_slots _ _ h, notEvents_slotsInternal _ _ h,
    notEvents_core _ _ h, notEvents_tmg _ _ h, notEvents_arb _ _ h, notEvents_ev _ _ h, notEvents_sl _ _ h,
    notEvents_ref _ _ h, notEvents_framers _ _ h, notEvents_cls _ _ h, notEvents_fl _ _ h, notEvents_hbm _ _ h,
    notEvents_dsp _ _ h, notEvents_cores _ _ h, notEvents_boot _ _ h, notEvents_elec _ _ h, notEvents_sky _ _ h,
    notEvents_fuse _ _ h, notEvents_pending _ _ h⟩

@[simp] theorem bumpPort_frame (s : State) (p q n : Nat) :
    (bumpPort s p q n).tm = s.tm ∧ (bumpPort s p q n).eff = s.eff ∧ (bumpPort s p q n).latch = s.latch ∧
    (bumpPort s p q n).reply = s.reply ∧ (bumpPort s p q n).out = s.out ∧ (bumpPort s p q n).freeIx = s.freeIx ∧
    (bumpPort s p q n).cnt = s.cnt ∧ (bumpPort s p q n).lanes = s.lanes ∧ (bumpPort s p q n).ports = s.ports ∧
    (bumpPort s p q n).frames = s.frames ∧ (bumpPort s p q n).nextFrame = s.nextFrame ∧
    (bumpPort s p q n).slots = s.slots ∧ (bumpPort s p q n).slotsInternal = s.slotsInternal ∧
    (bumpPort s p q n).core = s.core ∧ (bumpPort s p q n).tmg = s.tmg ∧ (bumpPort s p q n).arb = s.arb ∧
    (bumpPort s p q n).ev = s.ev ∧ (bumpPort s p q n).sl = s.sl ∧ (bumpPort s p q n).ref = s.ref ∧
    (bumpPort s p q n).framers = s.framers ∧ (bumpPort s p q n).cls = s.cls ∧ (bumpPort s p q n).fl = s.fl ∧
    (bumpPort s p q n).hbm = s.hbm ∧ (bumpPort s p q n).dsp = s.dsp ∧ (bumpPort s p q n).cores = s.cores ∧
    (bumpPort s p q n).boot = s.boot ∧ (bumpPort s p q n).elec = s.elec ∧ (bumpPort s p q n).sky = s.sky ∧
    (bumpPort s p q n).fuse = s.fuse ∧ (bumpPort s p q n).pending = s.pending := by
  have h := notEvents_bumpPort s p q n
  exact ⟨notEvents_tm _ _ h, notEvents_eff _ _ h, notEvents_latch _ _ h, notEvents_reply _ _ h, notEvents_out _
    _ h, notEvents_freeIx _ _ h, notEvents_cnt _ _ h, notEvents_lanes _ _ h, notEvents_ports _ _ h,
    notEvents_frames _ _ h, notEvents_nextFrame _ _ h, notEvents_slots _ _ h, notEvents_slotsInternal _ _ h,
    notEvents_core _ _ h, notEvents_tmg _ _ h, notEvents_arb _ _ h, notEvents_ev _ _ h, notEvents_sl _ _ h,
    notEvents_ref _ _ h, notEvents_framers _ _ h, notEvents_cls _ _ h, notEvents_fl _ _ h, notEvents_hbm _ _ h,
    notEvents_dsp _ _ h, notEvents_cores _ _ h, notEvents_boot _ _ h, notEvents_elec _ _ h, notEvents_sky _ _ h,
    notEvents_fuse _ _ h, notEvents_pending _ _ h⟩


end Sys2Proof.Machine
end

