-- ==== Sys2Proof/Laws/Access.lean ====
section
/-! SUPPORT. What an allowed register access comes to. -/

namespace Sys2Proof.Machine

open Sys2Proof

/-- An open page is in the page map. -/
theorem opened_info (s : State) (p : Nat) (h : pageGate s p = .opened) : ∃ pi, pageInfo p = some pi := by
  unfold pageGate at h
  split at h
  · cases h
  · exact ⟨_, ‹_›⟩

/-- An allowed write is the write of its open page, unless that refuses a core. -/
theorem writeWord_open (s : State) (a : Agent) (addr : Nat) (v : Word) (pi : PageInfo) (h : Allowed s a addr v)
    (hp : pageInfo (addr / 0x1000) = some pi)
    (hd : isCore a = true → (writeOpen s a pi (addr / 0x1000) (addr % 0x1000) v).1 ≠ .denied) :
    checkedWrite s a addr v = writeOpen s a pi (addr / 0x1000) (addr % 0x1000) v := by
  obtain ⟨h1, h2, h3, h4⟩ := h
  unfold checkedWrite
  rw [if_neg (by
    cases hc : isCore a
    · have := h4 hc; simp; omega
    · simp)]
  unfold writeWord
  rw [if_neg (by omega)]
  simp only [h2, hp]
  rw [if_neg (by
    cases hc : isCore a
    · simp
    · simp [h3 hc])]
  rw [if_neg (by
    cases hc : isCore a
    · simp
    · simp [hd hc])]

theorem regWrite_open (s : State) (a : Agent) (addr : Nat) (v : Word) (pi : PageInfo) (h : Allowed s a addr v)
    (hp : pageInfo (addr / 0x1000) = some pi)
    (hd : isCore a = true → (writeOpen s a pi (addr / 0x1000) (addr % 0x1000) v).1 ≠ .denied) :
    regWrite s a addr v =
      { (writeOpen s a pi (addr / 0x1000) (addr % 0x1000) v).2 with
        reply := ⟨(writeOpen s a pi (addr / 0x1000) (addr % 0x1000) v).1, 0⟩ } := by
  unfold regWrite
  rw [writeWord_open s a addr v pi h hp hd]

/-- An allowed operation on a page is the operation. -/
theorem regOp_open (s : State) (a : Agent) (addr : Nat) (v : Word) (op : State → Res × State) (h : Allowed s a addr v) :
    regOp s a addr v op = { (op s).2 with reply := ⟨(op s).1, 0⟩ } := by
  obtain ⟨h1, h2, h3, h4⟩ := h
  unfold regOp
  simp only [h2]
  rw [if_neg (by
    cases hc : isCore a
    · have := h4 hc; simp; omega
    · simp), if_neg (by
    cases hc : isCore a
    · simp
    · simp [h3 hc])]

/-- A readable register answers what its page reads. -/
theorem regRead_open (s : State) (a : Agent) (addr dt : Nat) (hw : Option Word) (pi : PageInfo) (h : Readable s a addr)
    (hp : pageInfo (addr / 0x1000) = some pi) :
    regRead s a addr dt hw =
      { (readOpen s a pi addr dt hw).2 with reply := ⟨.ok, (readOpen s a pi addr dt hw).1⟩ } := by
  obtain ⟨h1, h2, h3, h4⟩ := h
  unfold regRead
  rw [if_neg (by
    cases hc : isCore a
    · simp [h4 hc]
    · simp)]
  unfold readWord
  rw [if_neg (by omega)]
  simp only [h2, hp]
  rw [if_neg (by
    cases hc : isCore a
    · simp
    · simp [h3 hc])]

end Sys2Proof.Machine
end

