-- ==== Sys2Proof/Laws/Exec.lean ====
section
/-! SUPPORT. What each command comes to: its operation, wrapped. One equation per constructor, and how it gives a completed
run. -/

namespace Sys2Proof.Machine

open Sys2Proof

theorem runs_kept {c : Instr} {s t : State} {P : State → Prop} (h : exec c s = .next (kept s t)) (p : P (kept s t)) :
    Runs c s P := ⟨_, h, rfl, p⟩

theorem runs_keptQueue {c : Instr} {s t : State} {P : State → Prop} (h : exec c s = .next (keptQueue s t))
    (p : P (keptQueue s t)) : Runs c s P := ⟨_, h, rfl, p⟩

theorem next_kept {c : Instr} {s t : State} (h : exec c s = .next (kept s t)) :
    ∃ u, exec c s = .next u ∧ u.pending = s.pending := ⟨_, h, rfl⟩

theorem next_keptQueue {c : Instr} {s t : State} (h : exec c s = .next (keptQueue s t)) :
    ∃ u, exec c s = .next u ∧ u.pending = s.pending := ⟨_, h, rfl⟩

/-- A wrapped operation leaves the fuses alone. -/
theorem fuse_kept {c : Instr} {s t u : State} (h : exec c s = .next (kept s t)) (h2 : exec c s = .next u) :
    u.fuse = s.fuse := by
  rw [h] at h2
  injection h2 with h2
  rw [← h2]
  rfl

theorem exec_registerWrite (a : Agent) (addr : Nat) (v : Word) (s : State) : exec (.registerWrite a addr v) s = .next
    (kept s (regWrite s a addr v)) := rfl
theorem exec_counterLowRead (a : Agent) (addr : Nat) (s : State) : exec (.counterLowRead a addr) s = .next (kept s
    (regRead s a addr (cycleTT s) none)) := rfl
theorem exec_rcFieldRead (a : Agent) (addr : Nat) (hw : Option Word) (s : State) : exec (.rcFieldRead a addr hw) s =
    .next (kept s (regRead s a addr (cycleTT s) hw)) := rfl
theorem exec_plyEdge (e : EdgeIn) (s : State) : exec (.plyEdge e) s = .next (keptQueue s (plyEdgeOp e s)) := rfl
theorem exec_kernelTick (s : State) : exec (.kernelTick) s = .next (kept s (kernelTickOp s)) := rfl
theorem exec_islandTick (tallyCycles : Nat) (s : State) : exec (.islandTick tallyCycles) s = .next (kept s
    (islandTickOp s tallyCycles)) := rfl
theorem exec_corePllLockLost (s : State) : exec (.corePllLockLost) s = .next (kept s (lockLost s)) := rfl
theorem exec_corePllLockRegained (s : State) : exec (.corePllLockRegained) s = .next (kept s (lockRegained s)) := rfl
theorem exec_alignmentMarkerLatch (lane : Fin 258) (dt : Nat) (s : State) : exec (.alignmentMarkerLatch lane dt) s =
    .next (kept s (latchMarker s lane dt)) := rfl
theorem exec_frameCapture (port : Fin 257) (lane : Fin 258) (bits : Nat) (head : List Byte) (fifoFull : Bool) (s :
    State) : exec (.frameCapture port lane bits head fifoFull) s = .next (kept s (captureOp s port lane bits head
    fifoFull)) := rfl
theorem exec_ingressSlotGrant (pipe : Fin 8) (s : State) : exec (.ingressSlotGrant pipe) s = .next (kept s (slotGrant
    s pipe)) := rfl
theorem exec_frameEnd (frame : Nat) (rest : List Byte) (s : State) : exec (.frameEnd frame rest) s = .next (kept s
    (frameEndOp s frame rest)) := rfl
theorem exec_amLockAcquired (lane : Fin 258) (rx : BitVec 24) (tx : BitVec 24) (s : State) : exec (.amLockAcquired
    lane rx tx) s = .next (kept s (amLock s lane rx.toNat tx.toNat)) := rfl
theorem exec_portEnableWrite (a : Agent) (port : Fin 257) (v : Word) (s : State) : exec (.portEnableWrite a port v) s
    = .next (kept s (regWrite s a (if port.val = 256 then pgHP + R.HP_HP_CTRL else portB port + R.PORT_PORT_CTRL) v))
    := rfl
theorem exec_linkTrainingComplete (port : Fin 257) (s : State) : exec (.linkTrainingComplete port) s = .next (kept s
    (trainingDone s port)) := rfl
theorem exec_upHoldExpiry (port : Fin 257) (s : State) : exec (.upHoldExpiry port) s = .next (kept s (holdExpired s
    port)) := rfl
theorem exec_remoteFaultReceived (port : Fin 257) (s : State) : exec (.remoteFaultReceived port) s = .next (kept s
    (remoteFault s port)) := rfl
theorem exec_linkLoss (port : Fin 257) (lane : Fin 258) (cause : LinkCause) (s : State) : exec (.linkLoss port lane
    cause) s = .next (kept s (linkLost s port lane cause)) := rfl
theorem exec_trainFail (lane : Fin 258) (s : State) : exec (.trainFail lane) s = .next (kept s (trainFailed s lane))
    := rfl
theorem exec_trainRetry (port : Fin 257) (s : State) : exec (.trainRetry port) s = .next (kept s (trainAgain s port))
    := rfl
theorem exec_serWindowEnd (lane : Fin 258) (errors : Nat) (corrected : Nat) (uncorrected : Nat) (s : State) : exec
    (.serWindowEnd lane errors corrected uncorrected) s = .next (kept s (serWindow s lane errors corrected
    uncorrected)) := rfl
theorem exec_portMapWrite (a : Agent) (group : Fin 32) (v : Word) (s : State) : exec (.portMapWrite a group v) s =
    .next (kept s (regWrite s a (pb (0x020 + group) + R.PG_PORT_MAP) v)) := rfl
theorem exec_pfcFrameReceived (port : Fin 256) (enable : Byte) (quanta : List (BitVec 16)) (fcsGood : Bool) (s :
    State) : exec (.pfcFrameReceived port enable quanta fcsGood) s = .next (kept s (pfcReceive s port enable quanta
    fcsGood)) := rfl
theorem exec_pfcPauseHold (port : Fin 256) (s : State) : exec (.pfcPauseHold port) s = .next (kept s (pfcHold s port))
    := rfl
theorem exec_pfcPauseExpiry (port : Fin 256) (prio : Fin 8) (s : State) : exec (.pfcPauseExpiry port prio) s = .next
    (kept s (pfcExpire s port prio)) := rfl
theorem exec_pfcFrameSend (port : Fin 256) (classB : Bool) (s : State) : exec (.pfcFrameSend port classB) s = .next
    (kept s (pfcSendDue s port classB)) := rfl
theorem exec_pfcRefresh (port : Fin 256) (classB : Bool) (s : State) : exec (.pfcRefresh port classB) s = .next (kept
    s (pfcRefreshOp s port classB)) := rfl
theorem exec_pfcWatchdogExpiry (port : Fin 256) (cls : Fin 8) (s : State) : exec (.pfcWatchdogExpiry port cls) s =
    .next (kept s (pfcWatchdog s port cls)) := rfl
theorem exec_framerCtrlWrite (a : Agent) (f : Fin 16) (v : Word) (s : State) : exec (.framerCtrlWrite a f v) s = .next
    (kept s (regWrite s a (pb (0x140 + f) + R.FRM_FRAMER_CTRL) v)) := rfl
theorem exec_flexoMarkerLatch (lane : Fin 256) (dt : Nat) (bits : Nat) (s : State) : exec (.flexoMarkerLatch lane dt
    bits) s = .next (kept s (latchFlexO s lane dt bits)) := rfl
theorem exec_flexoPatternSighting (f : Fin 16) (inst : Fin 8) (sightings : List (Nat × Byte)) (s : State) : exec
    (.flexoPatternSighting f inst sightings) s = .next (kept s (search s f inst sightings)) := rfl
theorem exec_flexoFrameCheck (f : Fin 16) (inst : Fin 8) (errors : Nat) (mfbyte : Byte) (s : State) : exec
    (.flexoFrameCheck f inst errors mfbyte) s = .next (kept s (frameCheck s f inst errors mfbyte)) := rfl
theorem exec_oofDeclare (f : Fin 16) (inst : Fin 8) (s : State) : exec (.oofDeclare f inst) s = .next (kept s
    (declareOof s f inst)) := rfl
theorem exec_defectDeclare (f : Fin 16) (defect : Fin 16) (s : State) : exec (.defectDeclare f defect) s = .next (kept
    s (setRaw s f defect true)) := rfl
theorem exec_defectClear (f : Fin 16) (defect : Fin 16) (s : State) : exec (.defectClear f defect) s = .next (kept s
    (setRaw s f defect false)) := rfl
theorem exec_degSecondEnd (f : Fin 16) (pm : Bool) (errors : Nat) (s : State) : exec (.degSecondEnd f pm errors) s =
    .next (kept s (degSecond s f pm errors)) := rfl
theorem exec_ttiCycle (f : Fin 16) (pm : Bool) (received : List Byte) (s : State) : exec (.ttiCycle f pm received) s =
    .next (kept s (ttiCycleOp s f pm received)) := rfl
theorem exec_ppsRisingEdge (dt : Nat) (s : State) : exec (.ppsRisingEdge dt) s = .next (kept s (ppsRise s (ttNow s
    dt))) := rfl
theorem exec_ppsFallingEdge (dt : Nat) (s : State) : exec (.ppsFallingEdge dt) s = .next (kept s (ppsFall s (ttNow s
    dt))) := rfl
theorem exec_ppsWidthTimeout (s : State) : exec (.ppsWidthTimeout) s = .next (kept s (ppsTimeout s)) := rfl
theorem exec_ppsMissing (s : State) : exec (.ppsMissing) s = .next (kept s (Sys2Proof.Machine.ppsMissing s)) := rfl
theorem exec_todMessage (begins : Nat) (ends : Nat) (msg : List Byte) (s : State) : exec (.todMessage begins ends msg)
    s = .next (kept s (todMessageOp s begins ends msg)) := rfl
theorem exec_todWindowClose (s : State) : exec (.todWindowClose) s = .next (kept s (todClose s)) := rfl
theorem exec_freqGateEnd (synce : Bool) (dev : Int) (s : State) : exec (.freqGateEnd synce dev) s = .next (kept s
    (freqGate s synce dev)) := rfl
theorem exec_freqEdgeLoss (synce : Bool) (s : State) : exec (.freqEdgeLoss synce) s = .next (kept s (freqLose s
    synce)) := rfl
theorem exec_ptpFrameDivert (port : Fin 256) (lane : Fin 256) (bits : Nat) (msg : List Byte) (s : State) : exec
    (.ptpFrameDivert port lane bits msg) s = .next (kept s (ptpDivertOp s port lane bits msg)) := rfl
theorem exec_ptpMessageSend (portB : Bool) (dt : Nat) (msg : List Byte) (s : State) : exec (.ptpMessageSend portB dt
    msg) s = .next (kept s (ptpSendOp s portB dt msg)) := rfl
theorem exec_ptpReceiptTimeout (portB : Bool) (which : PtpTimer) (s : State) : exec (.ptpReceiptTimeout portB which) s
    = .next (kept s (ptpTimeout s portB which)) := rfl
theorem exec_teMeasurement (te : Int) (s : State) : exec (.teMeasurement te) s = .next (kept s (measureTE s te)) :=
    rfl
theorem exec_ttNsRead (a : Agent) (dt : Nat) (s : State) : exec (.ttNsRead a dt) s = .next (kept s (regRead s a (pgTT
    + R.TT_TT_NS) dt none)) := rfl
theorem exec_routineDispatch (pipe : Fin 8) (s : State) : exec (.routineDispatch pipe) s = .next (kept s (dispatchOp s
    pipe)) := rfl
theorem exec_uwNext (pipe : Fin 8) (engine : Fin 64) (s : State) : exec (.uwNext pipe engine) s = .next (kept s
    (microOp s pipe engine sNEXT 0)) := rfl
theorem exec_uwJump (pipe : Fin 8) (engine : Fin 64) (s : State) : exec (.uwJump pipe engine) s = .next (kept s
    (microOp s pipe engine sJUMP 0)) := rfl
theorem exec_uwBrt (pipe : Fin 8) (engine : Fin 64) (s : State) : exec (.uwBrt pipe engine) s = .next (kept s (microOp
    s pipe engine sBRT 0)) := rfl
theorem exec_uwBrf (pipe : Fin 8) (engine : Fin 64) (s : State) : exec (.uwBrf pipe engine) s = .next (kept s (microOp
    s pipe engine sBRF 0)) := rfl
theorem exec_uwCall (pipe : Fin 8) (engine : Fin 64) (s : State) : exec (.uwCall pipe engine) s = .next (kept s
    (microOp s pipe engine sCALL 0)) := rfl
theorem exec_uwRet (pipe : Fin 8) (engine : Fin 64) (s : State) : exec (.uwRet pipe engine) s = .next (kept s (microOp
    s pipe engine sRET 0)) := rfl
theorem exec_uwWait (pipe : Fin 8) (engine : Fin 64) (s : State) : exec (.uwWait pipe engine) s = .next (kept s
    (microOp s pipe engine sWAIT 0)) := rfl
theorem exec_uwCommit (pipe : Fin 8) (engine : Fin 64) (s : State) : exec (.uwCommit pipe engine) s = .next (kept s
    (microOp s pipe engine sEND 0)) := rfl
theorem exec_uwDiscard (pipe : Fin 8) (engine : Fin 64) (s : State) : exec (.uwDiscard pipe engine) s = .next (kept s
    (microOp s pipe engine sEND 1)) := rfl
theorem exec_uwExcept (pipe : Fin 8) (engine : Fin 64) (s : State) : exec (.uwExcept pipe engine) s = .next (kept s
    (microOp s pipe engine sEND 2)) := rfl
theorem exec_uwCommitExcept (pipe : Fin 8) (engine : Fin 64) (s : State) : exec (.uwCommitExcept pipe engine) s =
    .next (kept s (microOp s pipe engine sEND 3)) := rfl
theorem exec_flowReady (ctx : Fin 4096) (upset : Fin 5) (s : State) : exec (.flowReady ctx upset) s = .next (kept s
    (flowReplyOp s ctx 0 upset)) := rfl
theorem exec_learnDone (ctx : Fin 4096) (upset : Fin 5) (s : State) : exec (.learnDone ctx upset) s = .next (kept s
    (flowReplyOp s ctx 5 upset)) := rfl
theorem exec_tblReply (ctx : Fin 4096) (upset : List Nat) (corrected : Bool) (s : State) : exec (.tblReply ctx upset
    corrected) s = .next (kept s (tblReplyOp s ctx upset corrected)) := rfl
theorem exec_hashDone (ctx : Fin 4096) (s : State) : exec (.hashDone ctx) s = .next (kept s (hashDoneOp s ctx)) := rfl
theorem exec_timeReady (ctx : Fin 4096) (dt : Nat) (s : State) : exec (.timeReady ctx dt) s = .next (kept s
    (timeReadyOp s ctx dt)) := rfl
theorem exec_paramReady (ctx : Fin 4096) (s : State) : exec (.paramReady ctx) s = .next (kept s (paramReadyOp s ctx))
    := rfl
theorem exec_assistDone (ctx : Fin 4096) (s : State) : exec (.assistDone ctx) s = .next (kept s (assistDoneOp s ctx))
    := rfl
theorem exec_ctrReady (ctx : Fin 4096) (s : State) : exec (.ctrReady ctx) s = .next (kept s (ctrReadyOp s ctx)) := rfl
theorem exec_stateReady (ctx : Fin 4096) (s : State) : exec (.stateReady ctx) s = .next (kept s (stateReadyOp s ctx))
    := rfl
theorem exec_journalCommit (ctx : Fin 4096) (s : State) : exec (.journalCommit ctx) s = .next (kept s (commitCtx s
    ctx)) := rfl
theorem exec_deadlineExpiry (frame : Nat) (s : State) : exec (.deadlineExpiry frame) s = .next (kept s (deadlineOp s
    frame)) := rfl
theorem exec_storeWrite (a : Agent) (pipe : Fin 8) (cmd : Word) (s : State) : exec (.storeWrite a pipe cmd) s = .next
    (kept s (regWrite s a (flowB pipe + R.FS_STORE_CMD) (setBits cmd 0 2 1))) := rfl
theorem exec_storeRead (a : Agent) (pipe : Fin 8) (cmd : Word) (s : State) : exec (.storeRead a pipe cmd) s = .next
    (kept s (regWrite s a (flowB pipe + R.FS_STORE_CMD) (setBits cmd 0 2 2))) := rfl
theorem exec_storeScrub (pipe : Fin 8) (nano : Bool) (line : Nat) (uncorrectable : Bool) (corrected : Bool) (s :
    State) : exec (.storeScrub pipe nano line uncorrectable corrected) s = .next (kept s (storeScrubOp s pipe line
    nano uncorrectable corrected)) := rfl
theorem exec_storeRepair (pipe : Fin 8) (nano : Bool) (line : Nat) (sourceOk : Bool) (s : State) : exec (.storeRepair
    pipe nano line sourceOk) s = .next (kept s (storeRepairOp s pipe line nano sourceOk)) := rfl
theorem exec_parse (frame : Nat) (more : List Byte) (s : State) : exec (.parse frame more) s = .next (kept s (parseOp
    s frame more)) := rfl
theorem exec_classify (frame : Nat) (more : List Byte) (upset : List Nat) (corrected : Bool) (s : State) : exec
    (.classify frame more upset corrected) s = .next (kept s (classifyOp s frame more upset corrected)) := rfl
theorem exec_pgWrite (a : Agent) (pipe : Fin 8) (cmd : Word) (s : State) : exec (.pgWrite a pipe cmd) s = .next (kept
    s (regWrite s a (prsB pipe + R.PRS_PG_CMD) (setBits cmd 0 2 1))) := rfl
theorem exec_pgRead (a : Agent) (pipe : Fin 8) (cmd : Word) (s : State) : exec (.pgRead a pipe cmd) s = .next (kept s
    (regWrite s a (prsB pipe + R.PRS_PG_CMD) (setBits cmd 0 2 2))) := rfl
theorem exec_tblInsert (a : Agent) (pipe : Fin 8) (cmd : Word) (s : State) : exec (.tblInsert a pipe cmd) s = .next
    (kept s (regWrite s a (clsB pipe + R.CLS_TBL_CMD) (setBits cmd 0 3 1))) := rfl
theorem exec_tblDelete (a : Agent) (pipe : Fin 8) (cmd : Word) (s : State) : exec (.tblDelete a pipe cmd) s = .next
    (kept s (regWrite s a (clsB pipe + R.CLS_TBL_CMD) (setBits cmd 0 3 2))) := rfl
theorem exec_tblModify (a : Agent) (pipe : Fin 8) (cmd : Word) (s : State) : exec (.tblModify a pipe cmd) s = .next
    (kept s (regWrite s a (clsB pipe + R.CLS_TBL_CMD) (setBits cmd 0 3 3))) := rfl
theorem exec_tblRead (a : Agent) (pipe : Fin 8) (cmd : Word) (s : State) : exec (.tblRead a pipe cmd) s = .next (kept
    s (regWrite s a (clsB pipe + R.CLS_TBL_CMD) (setBits cmd 0 3 4))) := rfl
theorem exec_tblWrite (a : Agent) (pipe : Fin 8) (cmd : Word) (s : State) : exec (.tblWrite a pipe cmd) s = .next
    (kept s (regWrite s a (clsB pipe + R.CLS_TBL_CMD) (setBits cmd 0 3 5))) := rfl
theorem exec_tblClear (a : Agent) (pipe : Fin 8) (cmd : Word) (s : State) : exec (.tblClear a pipe cmd) s = .next
    (kept s (regWrite s a (clsB pipe + R.CLS_TBL_CMD) (setBits cmd 0 3 6))) := rfl
theorem exec_tableConfigWrite (a : Agent) (pipe : Fin 8) (tern : Bool) (idx : Fin 8) (v : Word) (s : State) : exec
    (.tableConfigWrite a pipe tern idx v) s = .next (kept s (regWrite s a (clsB pipe + (if tern then R.CLS_TERN_CFG
    else R.CLS_EM_CFG) + 4 * idx) v)) := rfl
theorem exec_flip (a : Agent) (pipe : Fin 8) (v : Word) (s : State) : exec (.flip a pipe v) s = .next (kept s
    (regWrite s a (clsB pipe + R.CLS_GEN_CTRL) v)) := rfl
theorem exec_fragEntryExpiry (pipe : Fin 8) (s : State) : exec (.fragEntryExpiry pipe) s = .next (kept s (fragExpire s
    pipe)) := rfl
theorem exec_fragHoldRelease (pipe : Fin 8) (s : State) : exec (.fragHoldRelease pipe) s = .next (kept s (fragRelease
    s pipe)) := rfl
theorem exec_fragTimeout (pipe : Fin 8) (s : State) : exec (.fragTimeout pipe) s = .next (kept s (fragTimeoutOp s
    pipe)) := rfl
theorem exec_deckInstall (pipe : Fin 8) (s : State) : exec (.deckInstall pipe) s = .next (kept s (deckInstallOp s
    pipe)) := rfl
theorem exec_deckWriteback (pipe : Fin 8) (bank : Fin 16) (s : State) : exec (.deckWriteback pipe bank) s = .next
    (kept s (writebackSlot s pipe bank)) := rfl
theorem exec_writebackAck (pipe : Fin 8) (s : State) : exec (.writebackAck pipe) s = .next (kept s (writebackAckOp s
    pipe)) := rfl
theorem exec_indexWriteAck (s : State) : exec (.indexWriteAck) s = .next (kept s (indexAck s)) := rfl
theorem exec_cruiseAgeVisit (target : CruiseTarget) (s : State) : exec (.cruiseAgeVisit target) s = .next (kept s
    (cruiseVisit s target)) := rfl
theorem exec_dormantRefreshPass (s : State) : exec (.dormantRefreshPass) s = .next (kept s (dormantPass s)) := rfl
theorem exec_ftRead (a : Agent) (cmd : Word) (s : State) : exec (.ftRead a cmd) s = .next (kept s (regWrite s a (pgFT
    + R.FT_FT_CMD) (setBits cmd 0 4 1))) := rfl
theorem exec_ftWrite (a : Agent) (cmd : Word) (s : State) : exec (.ftWrite a cmd) s = .next (kept s (regWrite s a
    (pgFT + R.FT_FT_CMD) (setBits cmd 0 4 2))) := rfl
theorem exec_ftInsert (a : Agent) (cmd : Word) (s : State) : exec (.ftInsert a cmd) s = .next (kept s (regWrite s a
    (pgFT + R.FT_FT_CMD) (setBits cmd 0 4 3))) := rfl
theorem exec_ftFind (a : Agent) (cmd : Word) (s : State) : exec (.ftFind a cmd) s = .next (kept s (regWrite s a (pgFT
    + R.FT_FT_CMD) (setBits cmd 0 4 4))) := rfl
theorem exec_ftDelete (a : Agent) (cmd : Word) (s : State) : exec (.ftDelete a cmd) s = .next (kept s (regWrite s a
    (pgFT + R.FT_FT_CMD) (setBits cmd 0 4 5))) := rfl
theorem exec_pin (a : Agent) (cmd : Word) (s : State) : exec (.pin a cmd) s = .next (kept s (regWrite s a (pgFT +
    R.FT_FT_CMD) (setBits cmd 0 4 6))) := rfl
theorem exec_unpin (a : Agent) (cmd : Word) (s : State) : exec (.unpin a cmd) s = .next (kept s (regWrite s a (pgFT +
    R.FT_FT_CMD) (setBits cmd 0 4 7))) := rfl
theorem exec_flush (a : Agent) (cmd : Word) (s : State) : exec (.flush a cmd) s = .next (kept s (regWrite s a (pgFT +
    R.FT_FT_CMD) (setBits cmd 0 4 8))) := rfl
theorem exec_flushComplete (s : State) : exec (.flushComplete) s = .next (kept s (flushCompleteOp s)) := rfl
theorem exec_clearBad (a : Agent) (cmd : Word) (s : State) : exec (.clearBad a cmd) s = .next (kept s (regWrite s a
    (pgFT + R.FT_FT_CMD) (setBits cmd 0 4 9))) := rfl
theorem exec_ctrRead (a : Agent) (pipe : Fin 8) (cmd : Word) (s : State) : exec (.ctrRead a pipe cmd) s = .next (kept
    s (regWrite s a (deckB pipe + R.DECK_CTR_CMD) (setBits cmd 0 3 1))) := rfl
theorem exec_ctrWrite (a : Agent) (pipe : Fin 8) (cmd : Word) (sameCycleAdd : Option Nat) (s : State) : exec
    (.ctrWrite a pipe cmd sameCycleAdd) s = .next (kept s (regOp s a (deckB pipe + R.DECK_CTR_CMD) cmd (fun s =>
    writeCtrCmd s pipe (setBits cmd 0 3 2) sameCycleAdd))) := rfl
theorem exec_clearBank (a : Agent) (pipe : Fin 8) (cmd : Word) (s : State) : exec (.clearBank a pipe cmd) s = .next
    (kept s (regWrite s a (deckB pipe + R.DECK_CTR_CMD) (setBits cmd 0 3 4))) := rfl
theorem exec_throttleRateWrite (a : Agent) (profile : Fin 256) (v : Word) (s : State) : exec (.throttleRateWrite a
    profile v) s = .next (kept s (regWrite s a (thrAt profile) v)) := rfl
theorem exec_hbmRequest (port : Fin 21) (addr : Nat) (write : Option (List Byte)) (s : State) : exec (.hbmRequest port
    addr write) s = .next (kept s (hbmRequestOp s port addr write)) := rfl
theorem exec_hbmReadComplete (c : Fin 16) (errs : List (Nat × Nat)) (s : State) : exec (.hbmReadComplete c errs) s =
    .next (kept s (readCompleteOp s c errs)) := rfl
theorem exec_requestLate (c : Fin 16) (s : State) : exec (.requestLate c) s = .next (kept s (lateOp s c)) := rfl
theorem exec_limitWindowEnd (c : Fin 16) (s : State) : exec (.limitWindowEnd c) s = .next (kept s (limitEndOp s c)) :=
    rfl
theorem exec_hbmRefresh (c : Fin 16) (pc : Fin 4) (bank : Fin 64) (s : State) : exec (.hbmRefresh c pc bank) s = .next
    (kept s (refreshOp s c pc bank)) := rfl
theorem exec_hotReported (c : Fin 16) (temp : BitVec 8) (s : State) : exec (.hotReported c temp) s = .next (kept s
    (hotOp s c true temp.toNat)) := rfl
theorem exec_rowIdleClose (c : Fin 16) (pc : Fin 4) (bank : Nat) (s : State) : exec (.rowIdleClose c pc bank) s =
    .next (kept s (rowIdleOp s c pc bank)) := rfl
theorem exec_correctiveWrite (c : Fin 16) (s : State) : exec (.correctiveWrite c) s = .next (kept s (correctiveOp s
    c)) := rfl
theorem exec_hbmScrubRead (c : Fin 16) (errs : List (Nat × Nat)) (s : State) : exec (.hbmScrubRead c errs) s = .next
    (kept s (scrubOp s c errs)) := rfl
theorem exec_recentreProbe (c : Fin 16) (q : Fin 4) (lane : Fin 5) (write : Bool) (low : Bool) (high : Bool) (s :
    State) : exec (.recentreProbe c q lane write low high) s = .next (kept s (probeOp s c q lane write low high)) :=
    rfl
theorem exec_delayChangeApply (c : Fin 16) (s : State) : exec (.delayChangeApply c) s = .next (kept s (applyDelay s
    c)) := rfl
theorem exec_hbmTrainingComplete (c : Fin 16) (q : Fin 4) (lane : Fin 5) (write : Bool) (passes : BitVec 128) (s :
    State) : exec (.hbmTrainingComplete c q lane write passes) s = .next (kept s (trainOp s c q lane write passes)) :=
    rfl
theorem exec_srEnter (c : Fin 16) (s : State) : exec (.srEnter c) s = .next (kept s (srEnterOp s c)) := rfl
theorem exec_srCommit (c : Fin 16) (s : State) : exec (.srCommit c) s = .next (kept s (srCommitOp s c)) := rfl
theorem exec_srExit (a : Agent) (c : Fin 16) (v : Word) (s : State) : exec (.srExit a c v) s = .next (kept s (regWrite
    s a (mcB c + R.HBM_SR_CTRL) v)) := rfl
theorem exec_srExitComplete (c : Fin 16) (probeOk : Bool) (s : State) : exec (.srExitComplete c probeOk) s = .next
    (kept s (srExitDoneOp s c probeOk)) := rfl
theorem exec_srIdleReenter (c : Fin 16) (s : State) : exec (.srIdleReenter c) s = .next (kept s (srIdleOp s c)) := rfl
theorem exec_switchCoreAdmission (frame : Nat) (s : State) : exec (.switchCoreAdmission frame) s = .next (kept s
    (admitFrame s frame)) := rfl
theorem exec_reseqCellArrival (stream : Fin 512) (seq : Fin 4096) (s : State) : exec (.reseqCellArrival stream seq) s
    = .next (kept s (cellArrivesOp s stream seq)) := rfl
theorem exec_reseqTimeout (stream : Fin 512) (s : State) : exec (.reseqTimeout stream) s = .next (kept s (if
    timeoutDue s stream then declareLost s stream else s)) := rfl
theorem exec_planeFault (plane : Fin 8) (s : State) : exec (.planeFault plane) s = .next (kept s (planeFaulted s
    plane)) := rfl
theorem exec_limitWrite (a : Agent) (addr : Nat) (v : Word) (s : State) : exec (.limitWrite a addr v) s = .next (kept
    s (regWrite s a addr v)) := rfl
theorem exec_mcWrite (a : Agent) (cmd : Word) (s : State) : exec (.mcWrite a cmd) s = .next (kept s (regWrite s a
    (pgMC + R.MCM_MC_CMD) (setBits cmd 0 2 1))) := rfl
theorem exec_mcRead (a : Agent) (cmd : Word) (s : State) : exec (.mcRead a cmd) s = .next (kept s (regWrite s a (pgMC
    + R.MCM_MC_CMD) (setBits cmd 0 2 2))) := rfl
theorem exec_freeListCheck (s : State) : exec (.freeListCheck) s = .next (kept s (freeUnowned s)) := rfl
theorem exec_egressGrant (pipe : Fin 8) (s : State) : exec (.egressGrant pipe) s = .next (kept s
    (Sys2Proof.Machine.egressGrant s pipe)) := rfl
theorem exec_frameTransmitted (port : Fin 265) (s : State) : exec (.frameTransmitted port) s = .next (kept s (finishTx
    s port)) := rfl
theorem exec_polWrite (a : Agent) (pipe : Fin 8) (cmd : Word) (s : State) : exec (.polWrite a pipe cmd) s = .next
    (kept s (regWrite s a (pb (0x3A0 + pipe) + R.POL_POL_CMD) (setBits cmd 0 3 1))) := rfl
theorem exec_polRead (a : Agent) (pipe : Fin 8) (cmd : Word) (s : State) : exec (.polRead a pipe cmd) s = .next (kept
    s (regWrite s a (pb (0x3A0 + pipe) + R.POL_POL_CMD) (setBits cmd 0 3 2))) := rfl
theorem exec_polClearCounters (a : Agent) (pipe : Fin 8) (cmd : Word) (s : State) : exec (.polClearCounters a pipe
    cmd) s = .next (kept s (regWrite s a (pb (0x3A0 + pipe) + R.POL_POL_CMD) (setBits cmd 0 3 4))) := rfl
theorem exec_polResetLevels (a : Agent) (pipe : Fin 8) (cmd : Word) (s : State) : exec (.polResetLevels a pipe cmd) s
    = .next (kept s (regWrite s a (pb (0x3A0 + pipe) + R.POL_POL_CMD) (setBits cmd 0 4 9))) := rfl
theorem exec_seqCfgWrite (a : Agent) (out : Fin 32) (v : Word) (s : State) : exec (.seqCfgWrite a out v) s = .next
    (kept s (regWrite s a (seqB out + R.SEQ_SEQ_CFG) v)) := rfl
theorem exec_erWrite (a : Agent) (cmd : Word) (s : State) : exec (.erWrite a cmd) s = .next (kept s (regWrite s a
    (pgARB + R.ARB_ER_CMD) (setBits cmd 0 2 1))) := rfl
theorem exec_erRead (a : Agent) (cmd : Word) (s : State) : exec (.erRead a cmd) s = .next (kept s (regWrite s a (pgARB
    + R.ARB_ER_CMD) (setBits cmd 0 2 2))) := rfl
theorem exec_copyLaunch (port : Fin 256) (s : State) : exec (.copyLaunch port) s = .next (kept s (launch s port)) :=
    rfl
theorem exec_lateMaxExpiry (frame : Nat) (s : State) : exec (.lateMaxExpiry frame) s = .next (kept s (expireCopy s
    frame)) := rfl
theorem exec_withholdExpiry (frame : Nat) (s : State) : exec (.withholdExpiry frame) s = .next (kept s (withholdOp s
    frame)) := rfl
theorem exec_outcomeMaxExpiry (frame : Nat) (s : State) : exec (.outcomeMaxExpiry frame) s = .next (kept s (outcomeOp
    s frame)) := rfl
theorem exec_epochClose (s : State) : exec (.epochClose) s = .next (kept s (closeEpoch s)) := rfl
theorem exec_epochRecordSigned (firstOk : Bool) (secondOk : Bool) (s : State) : exec (.epochRecordSigned firstOk
    secondOk) s = .next (kept s (signEpoch s firstOk secondOk)) := rfl
theorem exec_exportFrameQueue (s : State) : exec (.exportFrameQueue) s = .next (kept s (exportOp s)) := rfl
theorem exec_ackSeqWrite (a : Agent) (hi : Word) (s : State) : exec (.ackSeqWrite a hi) s = .next (kept s (regWrite s
    a (pgAUD + R.AUD_ACK_SEQ + 4) hi)) := rfl
theorem exec_rewindSeqWrite (a : Agent) (hi : Word) (s : State) : exec (.rewindSeqWrite a hi) s = .next (kept s
    (regWrite s a (pgAUD + R.AUD_REWIND_SEQ + 4) hi)) := rfl
theorem exec_sealGo (a : Agent) (s : State) : exec (.sealGo a) s = .next (kept s (regWrite s a (pgSEAL +
    R.SEAL_SEAL_CMD) 1)) := rfl
theorem exec_sealVerifyComplete (s : State) : exec (.sealVerifyComplete) s = .next (kept s (sealVerifyOp s)) := rfl
theorem exec_sealedFieldWrite (a : Agent) (addr : Nat) (v : Word) (s : State) : exec (.sealedFieldWrite a addr v) s =
    .next (kept s (regWrite s a addr v)) := rfl
theorem exec_tallyPowerOn (s : State) : exec (.tallyPowerOn) s = .next (kept s (tallyPowerOp s)) := rfl
theorem exec_tallyFirmwareLoaded (copy0 : List Byte) (copy1 : List Byte) (keyOk : Bool) (engine0Ok : Bool) (engine1Ok
    : Bool) (s : State) : exec (.tallyFirmwareLoaded copy0 copy1 keyOk engine0Ok engine1Ok) s = .next (kept s
    (firmwareOp s copy0 copy1 keyOk engine0Ok engine1Ok)) := rfl
theorem exec_rngHealthFail (s : State) : exec (.rngHealthFail) s = .next (kept s (rngFail s)) := rfl
theorem exec_coreInstruction (core : Fin 16) (upset : Fin 4) (onFetch : Bool) (s : State) : exec (.coreInstruction
    core upset onFetch) s = .next (kept s (coreInsn s core upset onFetch)) := rfl
theorem exec_tdReady (a : Agent) (thread : BitVec 32) (lapse : Bool) (s : State) : exec (.tdReady a thread lapse) s =
    .next (kept s (tdAct s a 1 thread 0 (fun s => if lapse then lapseTh s else readyTh s thread.toNat))) := rfl
theorem exec_tdCancel (a : Agent) (thread : BitVec 32) (s : State) : exec (.tdCancel a thread) s = .next (kept s
    (tdAct s a 2 thread 0 (fun s => cancelTh s thread.toNat))) := rfl
theorem exec_tdDelay (a : Agent) (thread : BitVec 32) (ticks : BitVec 32) (lapse : Bool) (s : State) : exec (.tdDelay
    a thread ticks lapse) s = .next (kept s (tdAct s a 3 thread ticks (fun s => if lapse then lapseTh s else delayTh s
    thread.toNat ticks.toNat))) := rfl
theorem exec_tdNext (core : Fin 16) (s : State) : exec (.tdNext core) s = .next (kept s (tdResult core (nextTh s
    core))) := rfl
theorem exec_tdDone (core : Fin 16) (ticks : BitVec 32) (s : State) : exec (.tdDone core ticks) s = .next (kept s
    (tdResult core (doneTh s core ticks.toNat))) := rfl
theorem exec_tdCfgWrite (a : Agent) (v : Word) (s : State) : exec (.tdCfgWrite a v) s = .next (kept s (regWrite s a
    (pgTD + R.TD_TD_CFG) v)) := rfl
theorem exec_slotFill (core : Fin 16) (s : State) : exec (.slotFill core) s = .next (kept s (fillOp s core)) := rfl
theorem exec_delayExpiry (s : State) : exec (.delayExpiry) s = .next (kept s (expiryOp s)) := rfl
theorem exec_exceptionDelivery (pipe : Fin 8) (s : State) : exec (.exceptionDelivery pipe) s = .next (kept s
    (deliveryOp s pipe)) := rfl
theorem exec_ringConsWrite (a : Agent) (ring : Fin 16) (v : Word) (s : State) : exec (.ringConsWrite a ring v) s =
    .next (kept s (regWrite s a (rngB ring + R.RNG_CONS) v)) := rfl
theorem exec_doorbell (a : Agent) (v : Word) (s : State) : exec (.doorbell a v) s = .next (kept s (regWrite s a (pgDSP
    + R.DSP_DOORBELL) v)) := rfl
theorem exec_coreRunWrite (a : Agent) (v : Word) (s : State) : exec (.coreRunWrite a v) s = .next (kept s (regWrite s
    a (pgDSP + R.DSP_CORE_RUN) v)) := rfl
theorem exec_hostExceptionFrame (pipe : Fin 8) (s : State) : exec (.hostExceptionFrame pipe) s = .next (kept s
    (hostExcOp s pipe)) := rfl
theorem exec_skylineForward (frame : List Byte) (waiting : Option Nat) (s : State) : exec (.skylineForward frame
    waiting) s = .next (kept s (forwardOp s frame waiting)) := rfl
theorem exec_skyRead (r : SkyReq) (s : State) : exec (.skyRead r) s = .next (kept s (skyRequest s opREAD r)) := rfl
theorem exec_skyWrite (r : SkyReq) (s : State) : exec (.skyWrite r) s = .next (kept s (skyRequest s opWRITE r)) := rfl
theorem exec_skyMaskedWrite (r : SkyReq) (s : State) : exec (.skyMaskedWrite r) s = .next (kept s (skyRequest s
    opMASKED r)) := rfl
theorem exec_skyBurstRead (r : SkyReq) (s : State) : exec (.skyBurstRead r) s = .next (kept s (skyRequest s opBREAD
    r)) := rfl
theorem exec_skyBurstWrite (r : SkyReq) (s : State) : exec (.skyBurstWrite r) s = .next (kept s (skyRequest s opBWRITE
    r)) := rfl
theorem exec_skyWinRead (r : SkyReq) (s : State) : exec (.skyWinRead r) s = .next (kept s (skyRequest s opWREAD r)) :=
    rfl
theorem exec_skyWinWrite (r : SkyReq) (s : State) : exec (.skyWinWrite r) s = .next (kept s (skyRequest s opWWRITE r))
    := rfl
theorem exec_skyPoll (r : SkyReq) (s : State) : exec (.skyPoll r) s = .next (kept s (pollOp s r)) := rfl
theorem exec_skyEnum (r : SkyReq) (s : State) : exec (.skyEnum r) s = .next (kept s (enumOp s r)) := rfl
theorem exec_retryDeadline (s : State) : exec (.retryDeadline) s = .next (kept s (retryOp s)) := rfl
theorem exec_skylineAccessComplete (s : State) : exec (.skylineAccessComplete) s = .next (kept s (accessDone s)) :=
    rfl
theorem exec_skylineBypassExit (s : State) : exec (.skylineBypassExit) s = .next (kept s (bypassExit s)) := rfl
theorem exec_evtStatusClear (a : Agent) (page : Nat) (v : Word) (same : Word) (s : State) : exec (.evtStatusClear a
    page v same) s = .next (kept s (regOp s a (pb page + oEVT_STATUS) v (fun s => (.ok, evtClear s page v same)))) :=
    rfl
theorem exec_evtInject (a : Agent) (page : Nat) (v : Word) (s : State) : exec (.evtInject a page v) s = .next (kept s
    (regWrite s a (pb page + oEVT_INJECT) v)) := rfl
theorem exec_evtClassWrite (a : Agent) (page : Nat) (hi : Bool) (v : Word) (s : State) : exec (.evtClassWrite a page
    hi v) s = .next (kept s (regWrite s a (pb page + (if hi then oEVT_CLASS_HI else oEVT_CLASS)) v)) := rfl
theorem exec_logClear (a : Agent) (s : State) : exec (.logClear a) s = .next (kept s (regWrite s a (pgFA +
    R.FA_LOG_CTRL) 1)) := rfl
theorem exec_logEntryWrite (s : State) : exec (.logEntryWrite) s = .next (kept s (logWriteOp s)) := rfl
theorem exec_snap (a : Agent) (s : State) : exec (.snap a) s = .next (kept s (regWrite s a (pgCR + R.CR_SNAP_CMD) 1))
    := rfl
theorem exec_periodicSnapshot (s : State) : exec (.periodicSnapshot) s = .next (kept s (periodicOp s)) := rfl
theorem exec_pcValueWrite (a : Agent) (k : Fin 64) (hi : Word) (s : State) : exec (.pcValueWrite a k hi) s = .next
    (kept s (regWrite s a (pgCR + R.CR_PC_VALUE_LO + 16 * k + 4) hi)) := rfl
theorem exec_pcClear (a : Agent) (hi : Word) (s : State) : exec (.pcClear a hi) s = .next (kept s (regWrite s a (pgCR
    + R.CR_PC_CLEAR + 4) hi)) := rfl
theorem exec_microwordSample (pipe : Fin 8) (s : State) : exec (.microwordSample pipe) s = .next (kept s (sampleOp s
    pipe)) := rfl
theorem exec_instructionSample (core : Fin 16) (s : State) : exec (.instructionSample core) s = .next (kept s
    (sampleOp s (8 + core))) := rfl
theorem exec_sampleRecordWrite (s : State) : exec (.sampleRecordWrite) s = .next (kept s (recordOp s)) := rfl
theorem exec_sampConsWrite (a : Agent) (v : Word) (s : State) : exec (.sampConsWrite a v) s = .next (kept s (regWrite
    s a (pgCR + R.CR_SAMP_CONS) v)) := rfl
theorem exec_resetRelease (strap : Fin 4) (s : State) : exec (.resetRelease strap) s = .next (kept s (releaseOp s
    strap)) := rfl
theorem exec_imageLoadComplete (kind : Fin 8) (copy1 : Bool) (image : List Byte) (readOk : Bool) (s : State) : exec
    (.imageLoadComplete kind copy1 image readOk) s = .next (kept s (imageOp s kind copy1 (if readOk then some image
    else none))) := rfl
theorem exec_imageReadTimeout (kind : Fin 8) (copy1 : Bool) (s : State) : exec (.imageReadTimeout kind copy1) s =
    .next (kept s (imageOp s kind copy1 none)) := rfl
theorem exec_bootDataWrite (a : Agent) (w : Fin 512) (v : Word) (s : State) : exec (.bootDataWrite a w v) s = .next
    (kept s (regWrite s a (pgBOOT + R.BOOT_BOOT_DATA + 4 * w) v)) := rfl
theorem exec_bootSubmit (a : Agent) (kind : Fin 8) (s : State) : exec (.bootSubmit a kind) s = .next (kept s (regWrite
    s a (pgBOOT + R.BOOT_BOOT_CMD) (BitVec.ofNat 32 (1 + 2 * kind)))) := rfl
theorem exec_bootEnd (a : Agent) (s : State) : exec (.bootEnd a) s = .next (kept s (regWrite s a (pgBOOT +
    R.BOOT_BOOT_CMD) 16)) := rfl
theorem exec_provision (a : Agent) (item : Fin 8) (s : State) : exec (.provision a item) s = .next (kept s (lcWrite s
    a 1 item)) := rfl
theorem exec_commitField (a : Agent) (s : State) : exec (.commitField a) s = .next (kept s (lcWrite s a 2 0)) := rfl
theorem exec_revokeCust (a : Agent) (item : Fin 8) (s : State) : exec (.revokeCust a item) s = .next (kept s (lcWrite
    s a 3 item)) := rfl
theorem exec_enterReturn (a : Agent) (s : State) : exec (.enterReturn a) s = .next (kept s (lcWrite s a 4 0)) := rfl
theorem exec_vendorUnlock (a : Agent) (s : State) : exec (.vendorUnlock a) s = .next (kept s (lcWrite s a 5 0)) := rfl
theorem exec_retire (a : Agent) (s : State) : exec (.retire a) s = .next (kept s (lcWrite s a 6 0)) := rfl
theorem exec_revokeVendor (a : Agent) (item : Fin 8) (s : State) : exec (.revokeVendor a item) s = .next (kept s
    (lcWrite s a 7 item)) := rfl
theorem exec_lcOperationComplete (fuseOk : Bool) (s : State) : exec (.lcOperationComplete fuseOk) s = .next (kept s
    (lcCompleteOp s fuseOk)) := rfl
theorem exec_modeReqReset (a : Agent) (s : State) : exec (.modeReqReset a) s = .next (kept s (modeWrite s a .reset
    false)) := rfl
theorem exec_modeReqCalibrate (a : Agent) (s : State) : exec (.modeReqCalibrate a) s = .next (kept s (modeWrite s a
    .calibrate false)) := rfl
theorem exec_modeReqLive (a : Agent) (s : State) : exec (.modeReqLive a) s = .next (kept s (modeWrite s a .live
    false)) := rfl
theorem exec_modeReqDrain (a : Agent) (s : State) : exec (.modeReqDrain a) s = .next (kept s (modeWrite s a .drain
    false)) := rfl
theorem exec_modeReqDormant (a : Agent) (force : Bool) (s : State) : exec (.modeReqDormant a force) s = .next (kept s
    (modeWrite s a .dormant force)) := rfl
theorem exec_modeReqDiagnostic (a : Agent) (s : State) : exec (.modeReqDiagnostic a) s = .next (kept s (modeWrite s a
    .diagnostic false)) := rfl
theorem exec_calibrateComplete (s : State) : exec (.calibrateComplete) s = .next (kept s (calibrateDoneOp s)) := rfl
theorem exec_dormantComplete (s : State) : exec (.dormantComplete) s = .next (kept s (dormantDoneOp s)) := rfl
theorem exec_srEnterRetry (c : Fin 16) (s : State) : exec (.srEnterRetry c) s = .next (kept s (srRetryOp s c)) := rfl
theorem exec_drainTimeout (s : State) : exec (.drainTimeout) s = .next (kept s (drainTimeoutOp s)) := rfl
theorem exec_ageingMeasurement (degs : List Nat) (eyes : List (Nat × Nat × Nat)) (s : State) : exec
    (.ageingMeasurement degs eyes) s = .next (kept s (ageingOp s degs eyes)) := rfl
theorem exec_capturePathRecal (lane : Fin 256) (delta : Int) (s : State) : exec (.capturePathRecal lane delta) s =
    .next (kept s (recalOp s lane delta)) := rfl
theorem exec_avsAck (s : State) : exec (.avsAck) s = .next (kept s (avsAckOp s)) := rfl
theorem exec_avsTimeout (s : State) : exec (.avsTimeout) s = .next (kept s (avsTimeoutOp s)) := rfl
theorem exec_rstNAssert (s : State) : exec (.rstNAssert) s = .next (keptQueue s (rstOp s)) := rfl
theorem exec_underVoltage (rail : Fin 10) (s : State) : exec (.underVoltage rail) s = .next (keptQueue s
    (underVoltageOp s rail)) := rfl
theorem exec_thermalTrip (s : State) : exec (.thermalTrip) s = .next (keptQueue s (tripOp s)) := rfl
theorem exec_refclkLoss (input : Fin 8) (s : State) : exec (.refclkLoss input) s = .next (kept s (refclkOp s input
    false)) := rfl
theorem exec_softReset (a : Agent) (page : Nat) (v : Word) (s : State) : exec (.softReset a page v) s = .next (kept s
    (regWrite s a (pb page + oPAGE_CTRL) (v ||| 2))) := rfl
theorem exec_diePowerOn (s : State) : exec (.diePowerOn) s = .next (keptQueue s (powerOnOp s)) := rfl
theorem exec_tallyRailLoss (rail : Fin 10) (s : State) : exec (.tallyRailLoss rail) s = .next (kept s (tallyRailOp s
    rail)) := rfl
theorem exec_refclkRestored (input : Fin 8) (s : State) : exec (.refclkRestored input) s = .next (kept s (refclkOp s
    input true)) := rfl
theorem exec_hotCleared (c : Fin 16) (temp : BitVec 8) (s : State) : exec (.hotCleared c temp) s = .next (kept s
    (hotOp s c false temp.toNat)) := rfl
theorem exec_skylineLaneLock (lane : Fin 2) (lock : Bool) (aligned : Bool) (s : State) : exec (.skylineLaneLock lane
    lock aligned) s = .next (kept s (laneLockOp s lane lock aligned)) := rfl
theorem exec_skylineLinkLoss (lock : Fin 4) (s : State) : exec (.skylineLinkLoss lock) s = .next (kept s
    (skyLinkLossOp s lock)) := rfl
theorem exec_latchCalFail (s : State) : exec (.latchCalFail) s = .next (kept s (latchFailOp s)) := rfl

end Sys2Proof.Machine
end

