-- ==== Sys2Proof/Laws/Memory.lean ====
section
/-! SUPPORT. Flow memory: what a write puts where, and that every write keeps the canonical form. -/

namespace Sys2Proof.Machine

theorem mput_wf (bs : List Byte) (m : List Host.Cell) (a : Nat) (h : Memory.wf m = true) : Memory.wf (mput m a bs) = true := by
  induction bs generalizing m a with
  | nil => exact h
  | cons b bs ih => exact ih _ _ (twf_tset _ _ _ _ h)

/-- A write of flow memory keeps the canonical form. -/
theorem mwr_wf (s : State) (a : Nat) (bs : List Byte) (h : Memory.wf s.hbm.mem = true) :
    Memory.wf (mwr s a bs).hbm.mem = true := mput_wf bs _ a h

theorem tget_mput_out (bs : List Byte) (m : List Host.Cell) (a j : Nat) (h : j < a ∨ a + bs.length ≤ j) :
    tget (fun _ => (0 : Byte)) (mput m a bs) j = tget (fun _ => 0) m j := by
  induction bs generalizing m a with
  | nil => rfl
  | cons b bs ih =>
    simp only [List.length_cons] at h
    rw [mput, ih _ _ (by omega), tget_tset_ne _ _ _ _ _ (by omega)]

theorem tget_mput_in (bs : List Byte) (m : List Host.Cell) (a k : Nat) (h : k < bs.length) :
    tget (fun _ => (0 : Byte)) (mput m a bs) (a + k) = bs.getD k 0 := by
  induction bs generalizing m a k with
  | nil => simp at h
  | cons b bs ih =>
    cases k with
    | zero => rw [mput, tget_mput_out _ _ _ _ (by omega)]; simp
    | succ k =>
      have := ih (tset (fun _ => 0) m a b) (a + 1) k (by simpa using h)
      rw [mput, show a + (k + 1) = a + 1 + k by omega, this]
      simp

/-- A byte outside the written ones keeps its value. -/
theorem mget_mwr_out (s : State) (a : Nat) (bs : List Byte) (j : Nat) (h : j < a ∨ a + bs.length ≤ j) :
    mget (mwr s a bs) j = mget s j := tget_mput_out bs _ a j h

/-- A written byte reads as written. -/
theorem mget_mwr_in (s : State) (a : Nat) (bs : List Byte) (k : Nat) (h : k < bs.length) :
    mget (mwr s a bs) (a + k) = bs.getD k 0 := tget_mput_in bs _ a k h

/-- What was written reads back. -/
theorem mrd_mwr (s : State) (a : Nat) (bs : List Byte) : mrd (mwr s a bs) a bs.length = bs := by
  apply List.ext_getElem
  · simp [mrd]
  · intro k h1 h2
    simp only [mrd, List.getElem_map, List.getElem_range]
    rw [mget_mwr_in s a bs k h2]
    simp [h2]

end Sys2Proof.Machine
end

