-- ==== Sys2Proof/WellFormed.lean ====
section
/-! DEFINITION. Which commands are well formed: operands that a type does not already bound and that the spec bounds. A
command that is not well formed spells nothing the outside can send or do; its meaning is total all the same. -/

namespace Sys2Proof

/-- A byte address of a register word: 24 bits, a multiple of 4 (R15, R478). -/
def wfAddr (a : Nat) : Bool := decide (a < 2 ^ 24) && a % 4 == 0

/-- A page index is bits [23:12] of an address. -/
def wfPage (p : Nat) : Bool := decide (p < 2 ^ 12)

/-- A Skyline request carries at most 64 payload words, and 8 AUTH bytes at level 1 or higher (R477, R478). -/
def SkyReq.wf (r : SkyReq) : Bool := decide (r.payload.length ≤ 64) && r.auth.length == (if r.level = 0 then 0 else 8)

/-- An access to flow memory is of one granule of 64 bytes (R288). -/
def wfGranule (a : Nat) (w : Option (List Byte)) : Bool :=
  a % 64 == 0 && match w with
  | some bs => bs.length == 64
  | none => true

/-- Errors of a granule: one pair of symbols in error and syndrome for each of its four codewords (R303). -/
def wfErrs (e : List (Nat × Nat)) : Bool := decide (e.length ≤ 4)

def CruiseTarget.wf : CruiseTarget → Bool
  | .deck _ set _ => decide (set < 4096)
  | _ => true

/-- The command is well formed. -/
def Instr.wf : Instr → Bool
  | .registerWrite _ a _ | .counterLowRead _ a | .rcFieldRead _ a _ | .limitWrite _ a _ | .sealedFieldWrite _ a _ => wfAddr a
  | .evtStatusClear _ p _ _ | .evtInject _ p _ | .evtClassWrite _ p _ _ | .softReset _ p _ => wfPage p
  | .plyEdge e => e.deviations.all (fun x => decide (x.1 < 258))
  | .pfcFrameReceived _ _ q _ => q.length == 8
  | .defectDeclare _ d | .defectClear _ d => decide (d.val < 15)
  | .ttiCycle _ _ r => r.length == 64
  | .storeScrub _ _ line _ _ | .storeRepair _ _ line _ => decide (line < 8192)
  | .cruiseAgeVisit t => t.wf
  | .hbmRequest _ a w => wfGranule a w
  | .hbmReadComplete _ e | .hbmScrubRead _ e => wfErrs e
  | .skyRead r | .skyWrite r | .skyMaskedWrite r | .skyBurstRead r | .skyBurstWrite r | .skyWinRead r | .skyWinWrite r
  | .skyPoll r | .skyEnum r => r.wf
  | .skylineForward f _ => !f.isEmpty
  | .refclkLoss i | .refclkRestored i => decide (i.val < 7)
  | _ => true

end Sys2Proof
end

