-- ==== Sys2Proof/Tests/Slice0.lean ====
section
/-! SUPPORT. The model's own tests: for every statement with hypotheses a state and operands that meet them
(`witness_<statement>`), ill-formed commands for every check of `Instr.wf`, and worked examples of the spec and check
values of published algorithms against the model. -/

set_option maxRecDepth 20000
set_option Elab.async false

open Sys2Proof Sys2Proof.Machine

/-! States to test on. -/

/-- Write words into the registers and into the words in force. -/
def Tests.words (rs : List (Nat × Word)) (s : State) : State :=
  rs.foldl (fun s x => { rawWr s x.1 x.2 with eff := tset regReset s.eff x.1 x.2 }) s

/-- Set a field, in force too. -/
def Tests.field (b : Nat) (f : FRef) (x : Nat) (s : State) : State := fsBoth s b f x

/-- A device in LIVE after some plies: the core PLL locked, the Tally up. -/
def Tests.live : State :=
  Tests.field pgCLK F.CLK_PLY_STATUS_CORE_LOCK 1
    { State.reset with md := { mode := .live }, tm := { ply := 1000000, firstEdge := false },
                       elec := { island := true, firmware := true } }

/-- The live device with one-lane ports 0 and 1 mapped, port 0 UP. -/
def Tests.up : State :=
  Tests.words [(mapAddr 0, 9), (portB 0 + R.PORT_PORT_STATUS, 3)] Tests.live

/-- Port 0 with link state `code`. -/
def Tests.link (code : Nat) : State := Tests.field (portB 0) F.PORT_PORT_STATUS_LINK_STATE code Tests.up

def Tests.cpu : Agent := .core 0
def Tests.host : Agent := .sky 3

/-- The state after a command. -/
def Tests.after (c : Instr) (s : State) : State :=
  match exec c s with
  | .next t => t
  | _ => s

/-- A frame of 64 bytes with a good FCS. -/
def Tests.frame64 : List Byte :=
  let b : List Byte := List.replicate 12 2 ++ [8, 0] ++ List.replicate 46 1
  b ++ fcsBytes (crc32 b)

/-- Frame 1, live, at stage `g`, with bytes `bs`. -/
def Tests.framed (g : Stage) (bs : List Byte) (f : Frame) (s : State) : State :=
  { setF s 1 { f with live := true, stage := g, bytes := bs } with nextFrame := 2 }

/-- Context 4095 waits for request `r` of kind `kind`. -/
def Tests.asks (kind : Nat) (r : Req) (s : State) : State :=
  { s with fl := { s.fl with ctxs := [(4095, { busy := true, frame := 1, reqs := [(kind, some r)] })] } }

def Tests.request (op table : Nat) : Req := { op := op, key := List.replicate 64 1, table := table, src := 0, arg := 0 }

/-! Signed images. The key was made for the tests: the prime 2^3071 + 2291 as modulus. -/

def Tests.big (xs : List Nat) : List Byte := xs.flatMap (fun x => cbytes 32 x)
def Tests.modulus : List Byte := [0x80] ++ List.replicate 381 0 ++ [0x08, 0xF3]

/-- SHA-256 of the modulus. -/
def Tests.modHash : List Byte := cbytes 32 0x810E8406F2F08647C9A8A8713B4C0578FFFFE65AA12543A0FEF8616FBECBB775

/-- An image of a kind without payload: bytes 5 and 36-51 of its header, and its signature. -/
def Tests.image (kind flags tag : Nat) (sig : List Nat) : List Byte :=
  cbytes 4 0x5835494D ++ [BitVec.ofNat 8 kind, BitVec.ofNat 8 flags] ++ List.replicate 30 0 ++ cbytes 16 tag ++
    List.replicate 12 0 ++ Tests.modulus ++ Tests.big sig

def Tests.tallyImage : List Byte := Tests.image 5 1 0xE035695D18D4FB0BBE9020B593310ED2
    [0x242E4885F0E403382B9BBAF3471A81A0431F52CB8EC4BF3EEEAF7D43ACAC01AF,
    0x3B03F1DAE6E9D016F9C61ADF30AD56DD49D642CB3904C238A1E9F3B4C4697C61,
    0xF3F66BCC1166D67A88B4F300809322F6A2276CBCA320886449E0EC53FFB6F88F,
    0xE697ED9632BD7B8F312C8B48B6134BC4E23EBC96C1991901BAA94A165C6C7BB5,
    0x2F673485876DB2A21EE00431D7FD316127056BB91E189DCCDA06E5693CE242D1,
    0xACA9F140EDDFF41E15F952A6FBAF8BFE637D2F38AC90F7E34704096D8B79FD86,
    0x57BFDC6424CEBEEF2315D11578239F5689E8406567D91ADA55A41E713B1B4D91,
    0xC4F9B735758507CCC0A2DC310AE6FDF121D9CD6F596F6272A28D03A9F458EEB4,
    0xF6EC8380BC388BE61CE550509512A246DAF08AC42E16DD0BF365685F1ED04A3A,
    0x8509D978F36862B13F75B2E78BC57B3794407F77B05C6358B590982B96D6A24D,
    0x7E3383CDBDD9534442E9B9CA20A44470BC77AB6C1189BBCD3430792BD09A4F0E,
    0x5800733A6B7921E732A9B5646C3AC87BCD54BE2749ECE05C8DA36A8F79E05174]

def Tests.bootImage : List Byte := Tests.image 1 1 0xEA50E1226EF63C0C105151A1F4FF7C9A
    [0x3C16D620B1CAEF8DEF0C7FDA897BA494CD886AD7D4A44E5DF5B3AD2EB59779A8,
    0x8914D10E794A21A9F0E369E19A943447C13BA308252B4C09B8B2BF13504C8D5A,
    0xA49710D04ADBD083A2A5DFF9E194149383E9592D558A1F89A8478F6B0ABEB62D,
    0x6E7ABCACEBFFC3916A1ADE0B09F506BF8FAE532BF856AF4DCFB6EB92E6C3814C,
    0x449A4D82D316E41D4B9243CD2D1FEF92A6E0E42D4BB5CFD969C274AC50DF0375,
    0x34D4EA2C518C242E27B1BA9FF002F801232E97B6D33238CFC1F5FD8AEF0B4527,
    0xA304AA49B3A0A489D44AB26D077BF8A74FC5ECECC1C6BE51CADBEBE02CA05002,
    0x3B205A693695D6499992EFE929F94CB4E07BE04D0995800F09E1D4C7EDC73F8F,
    0x013C674468442AF333C7F24635C2D5A8569A65C5BEDB849F59C438D8EA753DA6,
    0x44B466AF0CD1793FFD6DB14B7D2429032AEB20DBB88DAB57E4893AA184DB2B62,
    0x20F7780F567CF87827C9E4B98DA0B3794DE748676D64E95CECE24F71C5B1FEAD,
    0x73993AEA76DA43FFF54A198857F784C6F0120DA56A3250935D28B4BC0CA67317]

def Tests.kernelImage : List Byte := Tests.image 4 0 0x00000000000000000000000000000000
    [0x66DB85E31D108CCB4F0007489F1B498A35AE18EB3ABF55EB5D45DA4309C6C0A3,
    0x55A2A43A574D3A59718B44017211A7139097033E84C7858B83C50A1C677C1176,
    0x4A7F35D26FB849170CEC80CB6558F3555FDFF0F13D39C1B91A4FC571E189E22C,
    0xEB2A0BF353197C4924732D0AEBEE74620923BA2A09A14CB757B3BA869BE03400,
    0x3E67AEA9E18CD3CCB31759EF190A59CC4C80A008B51CB5BFB4F34947482BEBDD,
    0x80DB9B11F9999C8FA0D1ED8EC507E788C32378F1A19D87DE26D66DC4E9CF6120,
    0x4A1677395C4CD0673AA2872E65BFFA6AD7383CDE393C59402B4F0AF52F31B9C0,
    0xC4A9871E2A2CD789752CEB3784B5EC0EEFF3B5E7917E755BD7B52E7D5E26EFCD,
    0x0293B279DC5785F5DE1E39EA5C1A3D72CE5C4F05F43964D3264A7CD3E3D3AA2A,
    0x3D8496778D93B4EA5A8F9C626258F605A687E90AC31159783CDFF0210D6D304B,
    0x315A2088D0C4331CCA0F3BFF0E4A427E7FDB9CC583781F003B39AB65E581CCC7,
    0x6203B4C1DD0720E6790A03DE344AC77EFD837EB0218496759CFBF00655B497B9]

/-- A request to seal with CAL_TOL 7 for the unit without a public key, and its signature. -/
def Tests.sealReq : List Byte := [0x51, 1, 0, 7] ++ List.replicate 48 0 ++ cbytes 8 0xA1A4F5721C1C4610 ++ List.replicate 4 0

def Tests.sealSig : List Byte := Tests.big
    [0x0C19DE8E775D886A91F79779DEBDB04B2CE129B0683805E1C34FB7716C2BCF03,
    0x888496F18AA80BA557101003B93677004113359831D3645E395F89EE6105C8DA,
    0xFC298CB25575599D30D93B772B5548054044F0773C1D3650E37DDB86754615B0,
    0x55DAA31EA9CDC4DAFFB1FA17BBADEA9316DD7350D512E5904F0B4992B1FBD693,
    0x6A4D50D2A1C86DACF1822401B9EAA9F80AE164ECBEC46B35F0D047C1EDF6B253,
    0xE3FE0C0AA9C9A625F92896D0BB2E572798F25E7E6E10837E0EC674142CB09231,
    0x618E64912C975ACD1E51488BD0524AA06710D27D40080DE9F941B2F8B42EF060,
    0xC9F02078426BD65BE79466FFA245F48643990D86DDB38CF73BFB0113EE403842,
    0x857DF8E63F019CD4087416AE0AEEEE0AB5291A8492E4C6B07C6C6F391E57E2EE,
    0x74FB8EEBB04E194AFD4F575D6F59A45478B8ED6F9E58047E0402417213E526C4,
    0xE9B85C965526B28B0EEFF422CE2E61533AFF605D4C55773623A7D1846297A5DA,
    0xA0C6AF4D9909638FC6B907F9F010C70F5F36C7E52207B610BE000B566A92873E]

/-- The SHA-256 of the modulus, AES-256 of two blocks under the zero key: computed with other tools. -/
theorem test_sha256_modulus : sha256 Tests.modulus = Tests.modHash := by decide +kernel

theorem test_aes_zero : aes256 (List.replicate 32 0) (List.replicate 16 0) =
    cbytes 16 0xDC95C078A2408989AD48A21492842087 := by decide +kernel

theorem test_aes_counter : aes256 (List.replicate 32 0) (List.replicate 12 0 ++ cbytes 4 1) =
    cbytes 16 0x530F8AFBC74536B9A963B4F1C4CB738B := by decide +kernel

/-- The tag that GCM gives under the zero key and IV, from the two blocks. -/
theorem Tests.tagOf (aad ct : List Byte) : gcmTag (List.replicate 32 0) (List.replicate 12 0) aad ct =
    (let m := pad16 aad ++ pad16 ct ++ cbytes 8 (aad.length * 8) ++ cbytes 8 (ct.length * 8)
     let h := BitVec.ofNat 128 (cnum (cbytes 16 0xDC95C078A2408989AD48A21492842087))
     xorBytes (cbytes 16 (ghash h (m.length / 16) 0 m).toNat) (cbytes 16 0x530F8AFBC74536B9A963B4F1C4CB738B)) := by
  simp only [gcmTag, test_aes_zero, test_aes_counter]

/-- What makes an image of a vendor kind authentic, check by check. -/
theorem Tests.authentic (s : State) (kind : Nat) (img : List Byte) (hv : vendorKind kind = true)
    (h1 : imgFormat kind img = true ∧ beAt img 6 1 = 0 ∧ beAt img 7 1 = 0 ∧ imgModulus img = Tests.modulus)
    (h2 : slotHash s kind 0 = some Tests.modHash) (h3 : tget (fun _ => 0) s.fuse.svnMin kind = 0)
    (h4 : pssVerify Tests.modulus (slice img 0 (448 + imgLen img)) (slice img (448 + imgLen img) 384) = true)
    (h5 : s.fuse.imageKey = List.replicate 32 0 ∧ slice img 24 12 = List.replicate 12 0)
    (h6 : gcmTag (List.replicate 32 0) (List.replicate 12 0) (imgAad img) (imgPayload img) = slice img 36 16)
    (h7 : beAt img 52 8 = 0) : imageCheck s kind img = 0 := by
  obtain ⟨hf, hs, hn, hm⟩ := h1
  have hk : kind ≠ 3 := by rintro rfl; exact absurd hv (by decide)
  simp [imageCheck, hf, hs, hn, hm, h2, h3, h4, h5.1, h5.2, h7, hk, test_sha256_modulus]
  exact fun _ => by simpa using h6

theorem Tests.tallyImage_authentic (s : State) (h2 : slotHash s 5 0 = some Tests.modHash)
    (h3 : tget (fun _ => 0) s.fuse.svnMin 5 = 0) (h5 : s.fuse.imageKey = List.replicate 32 0) :
    imageCheck s 5 Tests.tallyImage = 0 :=
  Tests.authentic s 5 _ rfl (by decide +kernel) h2 h3 (by decide +kernel) ⟨h5, by decide +kernel⟩
    (by rw [Tests.tagOf]; decide +kernel) (by decide +kernel)

theorem Tests.bootImage_authentic (s : State) (h2 : slotHash s 1 0 = some Tests.modHash)
    (h3 : tget (fun _ => 0) s.fuse.svnMin 1 = 0) (h5 : s.fuse.imageKey = List.replicate 32 0) :
    imageCheck s 1 Tests.bootImage = 0 :=
  Tests.authentic s 1 _ rfl (by decide +kernel) h2 h3 (by decide +kernel) ⟨h5, by decide +kernel⟩
    (by rw [Tests.tagOf]; decide +kernel) (by decide +kernel)

theorem test_seal_signature : pssVerify Tests.modulus Tests.sealReq Tests.sealSig = true := by decide +kernel

/-! Witnesses: for each statement with hypotheses, states and operands that meet those of each of its clauses. -/

theorem witness_StepRunsTheFrontCommand :
    ({ Tests.live with pending := [.kernelTick, .rstNAssert] } : State).pending = .kernelTick :: [.rstNAssert] ∧
    State.reset.pending = [] := by decide +kernel

theorem witness_FusesStayLegal : FuseLegal ({} : FuseSt) ∧
    FuseLegal { returned := true, custRevoked := 3, vendorRevoked := 15, svnMin := [(1, 4)] } ∧
    ∃ t, step { State.reset with pending := [.rstNAssert] } = .next t := by
  unfold FuseLegal; exact ⟨by decide +kernel, by decide +kernel, _, rfl⟩

theorem witness_FusesOnlyGrow : FuseLegal ({} : FuseSt) ∧
    ∃ t, step { State.reset with pending := [.diePowerOn] } = .next t := by
  unfold FuseLegal; exact ⟨by decide +kernel, _, rfl⟩

theorem witness_OnlyEdgesBlowFuses : ((Instr.kernelTick).mayFuse = false ∧ Tests.live.pending = []) ∧
    (∃ t, exec .kernelTick Tests.live = .next t) ∧ ∃ t, step Tests.live = .next t := by
  exact ⟨by decide +kernel, ⟨_, rfl⟩, _, rfl⟩

def Tests.holding : State := setP (Tests.link 4) 0 { holdSince := some 0 }
def Tests.aligned : State :=
  Tests.words [(laneB 0 + R.LANE_LANE_STATUS, 0xF), (laneB 0 + R.LANE_RX_DELAY, 0xFFFFFFFF)]
    (setP (Tests.link 2) 0 { holdSince := some 0 })

theorem witness_TrainingMovesThePort :
    (linkCode (Tests.link 1) 0 = 1 ∧ (getP (Tests.link 1) 0).retryAt = none) ∧
    ((getP Tests.aligned 0).holdSince = some 0 ∧ 0 + upHold Tests.aligned 0 ≤ plyNat Tests.aligned ∧
      linkCode Tests.aligned 0 = 2 ∧ upReady Tests.aligned 0 = true) ∧
    ((getP Tests.holding 0).holdSince = some 0 ∧ 0 + upHold Tests.holding 0 ≤ plyNat Tests.holding ∧
      linkCode Tests.holding 0 = 4) ∧
    linkCode Tests.up 0 = 3 ∧
    (portOfLane (Tests.link 2) 0 = some 0 ∧ linkCode (Tests.link 2) 0 = 2) ∧
    (let s := setP Tests.up 256 { retryAt := some 1000000 }
     (getP s 256).retryAt = some 1000000 ∧ 1000000 ≤ plyNat s) := by decide +kernel

theorem witness_LinkLossShowsItsCause :
    ((255 : Fin 258).val < 256 ∧ (255 : Fin 257).val < 256) ∧
    (LinkCause.signal ≠ .localFault ∧ 256 ≤ (256 : Fin 258).val) ∧ (256 : Fin 257).val = 256 := by decide +kernel

theorem witness_LaneMeasuresAreShown : (255 : Fin 258).val < 256 ∧ 256 ≤ (257 : Fin 258).val := by decide +kernel

theorem witness_CaptureMakesAFrameRecord :
    (isUp Tests.up 0 = true ∧ (0 : Fin 258).val ∈ portLanes Tests.up 0 ∧ Tests.up.md.mode = .live ∧
      rxIdled Tests.up 0 = false) ∧
    (let s := Tests.field pgHP F.HP_HP_STATUS_LINK_STATE 3 { Tests.up with md := { mode := .diagnostic } }
     isUp s 256 = true ∧ (257 : Fin 258).val ∈ portLanes s 256 ∧ s.md.mode = .diagnostic ∧ rxIdled s 256 = false ∧
      fgb s pgHP F.HP_HP_CTRL_INJECT_EN = false) := by decide +kernel

theorem witness_FrameEndsAndSlots :
    (let s := Tests.framed .fifo (Tests.frame64.take 32) {} Tests.up
     slotsUsed s 0 < 128 ∧
     (framesWhere s (fun _ f => f.pipe == 0 && waitsSlot f)).find? (fun k => decide (256 ≤ (getF s k).port)) = none ∧
     (framesWhere s (fun _ f => f.pipe == 0 && waitsSlot f)).find? (fun k => decide ((getF s k).port < 256)) = some 1 ∧
     (getF s 1).injected = false ∧
     (getF s 1).live = true ∧ (getF s 1).ended = false ∧ (getF s 1).isCopy = false ∧ (getF s 1).isMirror = false ∧
     (getF s 1).stage = .fifo ∧ (getF s 1).port < 256 ∧ (getF s 1).cutAt = 0 ∧
     let b := (getF s 1).bytes ++ Tests.frame64.drop 32
     etherOf b ≠ some 0x8808 ∧ 64 ≤ b.length ∧ b.length ≤ maxFrame s (getF s 1).port ∧ fcsOk b = true) := by decide +kernel

theorem witness_PfcLoadsAndHolds :
    (isUp (Tests.field (portB 0) F.PORT_PORT_CTRL_PFC_RX_EN 0x80 Tests.up) 0 = true ∧ (0x80 : Byte).getLsbD 7 = true ∧
      (fg (Tests.field (portB 0) F.PORT_PORT_CTRL_PFC_RX_EN 0x80 Tests.up) (portB 0) F.PORT_PORT_CTRL_PFC_RX_EN).testBit 7
        = true) ∧
    (let s := setP Tests.up 255 { loads := [⟨7, 1, 999998⟩, ⟨0, 1, 999999⟩] }
     ∃ x ∈ (getP s 255).loads, x.ply + 2 ≤ plyNat s) ∧
    (let s := setP Tests.up 255 { pauseEnd := [(7, 1000000)] }
     tget (fun _ => 0) (getP s 255).pauseEnd 7 ≠ 0 ∧ tget (fun _ => 0) (getP s 255).pauseEnd 7 ≤ plyNat s ∧
     ∀ x ∈ (getP s 255).loads, x.prio = 7 → x.ply + 1 ≠ tget (fun _ => 0) (getP s 255).pauseEnd 7) := by decide +kernel

def Tests.xoff : State :=
  Tests.words [(accB 0 + R.ACC_LL_STATUS, 3), (portB 0 + R.PORT_PFC_CTRL, 0x1FF), (portB 0 + R.PORT_PFC_TIMING, 1 <<< 16)]
    (setP Tests.up 0 { pfcA := some 5, pfcB := some 0 })

theorem witness_PfcFramesAreSent :
    ((getP Tests.xoff 0).pfcA = some 5 ∧ (getP Tests.xoff 0).pfcB = some 0 ∧ isUp Tests.xoff 0 = true) ∧
    (fgb Tests.xoff (accB 0) F.ACC_LL_STATUS_XOFF_A = true ∧ fgb Tests.xoff (portB 0) F.PORT_PFC_CTRL_PRIO_A_EN = true ∧
      (getP Tests.xoff 0).pfcLastA + pfcInterval Tests.xoff 0 ≤ plyNat Tests.xoff) ∧
    (fgb Tests.xoff (accB 0) F.ACC_LL_STATUS_XOFF_B = true ∧ fgb Tests.xoff (portB 0) F.PORT_PFC_CTRL_PRIO_B_EN = true ∧
      (getP Tests.xoff 0).pfcLastB + pfcInterval Tests.xoff 0 ≤ plyNat Tests.xoff) ∧
    (let s := Tests.field (portB 0) F.PORT_LINK_TIMING_PFC_WD 1 (setP Tests.xoff 0 { pausedAt := [(7, 1)] })
     fg s (portB 0) F.PORT_LINK_TIMING_PFC_WD ≠ 0 ∧ tget (fun _ => 0) (getP s 0).pausedAt 7 ≠ 0 ∧
     tget (fun _ => 0) (getP s 0).pausedAt 7 + 25 * fg s (portB 0) F.PORT_LINK_TIMING_PFC_WD ≤ plyNat s ∧
     fgb s (portB 0) F.PORT_PFC_CTRL_WD_DROP = true) := by decide +kernel

theorem witness_FramersSearchAndCheck :
    ((getInst Tests.up 15 7).pos = 0 ∧ (getInst Tests.up 15 7).cands = []) ∧
    (let s := setInst Tests.up 15 7 { pos := 1, fails := 5 }
     (getInst s 15 7).pos ≠ 0 ∧ 5 ≤ (getInst s 15 7).fails) := by decide +kernel

theorem witness_FramerDefectsAndTraces : (0 : Fin 16).val < 15 ∧ (14 : Fin 16).val < 15 := by decide +kernel

theorem witness_PortConfigurationWrites :
    Allowed Tests.up Tests.host (portB 0 + R.PORT_PORT_CTRL) 1 ∧
    Allowed Tests.up Tests.cpu (pgHP + R.HP_HP_CTRL) 1 ∧
    (Allowed Tests.up Tests.host (mapAddr 31) 4 ∧
      mapAllowed Tests.up 31 (effRd Tests.up (mapAddr 31)) 4 (framerWord Tests.up 15) = true ∧
      mapAllowed Tests.up 31 (effRd Tests.up (mapAddr 31)) 5 (framerWord Tests.up 15) = false) ∧
    (Allowed Tests.up Tests.host (frmB 15 + R.FRM_FRAMER_CTRL) 0x11 ∧ Tests.up.sl.isSealed = false ∧
      bitsOf (0x11 : Word) 1 4 = 8 ∧ bitsOf (framerWord Tests.up 15) 0 1 = 0 ∧
      mapMask (rawRd Tests.up (mapAddr 30)) &&& ownedMask Tests.up 30 0x11 = 0) ∧
    ¬ (1 ≤ bitsOf (0x12 : Word) 1 4 ∧ bitsOf (0x12 : Word) 1 4 ≤ 8) := by decide +kernel

theorem witness_AbsentPagesIgnoreAccesses :
    let s : State := { Tests.live with fuse := { sealCap := false } }
    (pb 0x016 + 0x040) % 4 = 0 ∧ (∃ pi, pageInfo ((pb 0x016 + 0x040) / 0x1000) = some pi ∧ presentIn s pi.absentIn = false) ∧
    writeLevel (pb 0x016 + 0x040) 1 ≤ agentLevel Tests.host := ⟨by decide, ⟨_, rfl, rfl⟩, by decide⟩

theorem witness_UnallocatedPagesReplyError :
    (0xFFFFFC : Nat) % 4 = 0 ∧ pageInfo (0xFFFFFC / 0x1000) = none ∧ writeLevel 0xFFFFFC 1 ≤ agentLevel (.sky 1) := by
  decide +kernel

theorem witness_RefusedAccesses :
    (isCore (.sky 0) = false ∧ agentLevel (.sky 0) < writeLevel (portB 0) 1 ∧ frozen Tests.live 0x008 = false) ∧
    ((pgTT + R.TT_TT_NS) % 4 = 0 ∧ isCore Tests.cpu = true ∧ pageGate Tests.live ((pgTT + R.TT_TT_NS) / 0x1000) = .opened ∧
      coreStoreRefused Tests.live ((pgTT + R.TT_TT_NS) / 0x1000) = true) ∧
    (writeLevel (portB 0) 1 ≤ agentLevel Tests.host ∧ portB 0 % 4 = 0 ∧
      pageGate State.reset (portB 0 / 0x1000) = .held) ∧
    ((portB 0 + 2) % 4 ≠ 0 ∧ writeLevel (portB 0 + 2) 1 ≤ agentLevel Tests.host) := by decide +kernel

theorem witness_OrdinaryWritesMerge :
    Allowed Tests.live Tests.host (portB 255 + R.PORT_PORT_FRAME) 0x600 ∧
    (∃ pi, pageInfo ((portB 255 + R.PORT_PORT_FRAME) / 0x1000) = some pi ∧
      0x40 ≤ (portB 255 + R.PORT_PORT_FRAME) % 0x1000 ∧
      ownWrite pi.type ((portB 255 + R.PORT_PORT_FRAME) % 0x1000) = false) ∧ Tests.live.sl.isSealed = false :=
  ⟨by decide +kernel, ⟨_, rfl, by decide +kernel, by decide +kernel⟩, rfl⟩

theorem witness_MergeFollowsTheAccessCodes :
    let fs : List FieldSpec := [⟨0, 1, .rw, 0⟩, ⟨1, 1, .w1c, 0⟩, ⟨2, 1, .w1s, 0⟩, ⟨31, 1, .rc, 0⟩]
    fs.Pairwise (fun f g => f.lo + f.width ≤ g.lo ∨ g.lo + g.width ≤ f.lo) ∧ ∀ f ∈ fs, f.lo + f.width ≤ 32 := by
  decide +kernel

theorem witness_ReadsLatchAndClear :
    (Readable Tests.live (.sky 0) (portB 0 + R.PORT_TX_FRAMES) ∧ low64 Tests.live (portB 0 + R.PORT_TX_FRAMES) = some 0) ∧
    (Readable Tests.live Tests.cpu (pb 5 + R.CLK_PLY_COUNT_LO + 4) ∧
      low64 Tests.live (pb 5 + R.CLK_PLY_COUNT_LO) = some 1000000) ∧
    (Readable Tests.live (.sky 1) (pgFT + R.FT_PENDING) ∧ (∃ pi, pageInfo ((pgFT + R.FT_PENDING) / 0x1000) = some pi ∧
      0x40 ≤ (pgFT + R.FT_PENDING) % 0x1000 ∧ pi.type ≠ 0x10) ∧ low64 Tests.live (pgFT + R.FT_PENDING) = none ∧
      low64 Tests.live (pgFT + R.FT_PENDING - 4) = none) ∧
    Readable Tests.live (.sky 0) (pgTT + R.TT_TT_NS) :=
  ⟨by decide +kernel, by decide +kernel, ⟨by decide +kernel, ⟨_, rfl, by decide +kernel, by decide +kernel⟩,
    by decide +kernel, by decide +kernel⟩, by decide +kernel⟩

theorem witness_PageControlsAndEvents :
    (let s : State := { Tests.live with md := { mode := .diagnostic } }
     Allowed s Tests.host (pb 0x3A0 + oPAGE_CTRL) (5 ||| 2) ∧ ctrlCap (pageType 0x3A0) = true ∧ s.md.mode = .diagnostic) ∧
    (Allowed Tests.live Tests.host (pb 0x3A0 + oPAGE_CTRL) (5 ||| 2) ∧ Tests.live.md.mode ≠ .diagnostic) ∧
    (let s := setBit (setBit (setBit Tests.live (pb 0x005 + oEVT_STATUS) 0 true) (pb 0x005 + oEVT_STATUS) 4 true)
        (pb 0x005 + oEVT_CAUSE) 4 true
     Allowed s Tests.host (pb 0x005 + oEVT_STATUS) 0x11 ∧ 4 < eventCount 0x005 ∧
     (0x11 : Word).getLsbD 0 = true ∧ (rawRd s (pb 0x005 + oEVT_CAUSE)).getLsbD 0 = false ∧
     (rawRd s (pb 0x005 + oEVT_CAUSE)).getLsbD 4 = true ∧ evStatus s 0x005 0 = true) ∧
    (Allowed Tests.live Tests.host (pb 0x005 + oEVT_INJECT) 1 ∧ 2 ≤ agentLevel Tests.host ∧
      (tallyPage 0x005 && Tests.live.sl.isSealed) = false) ∧
    (let s := Tests.field pgFA F.FA_FA_CTRL_CORE_INJECT 1 Tests.live
     Allowed s Tests.cpu (pb 0x005 + oEVT_INJECT) 1 ∧ fgb s pgFA F.FA_FA_CTRL_CORE_INJECT = true) ∧
    (Allowed Tests.live Tests.host (pb 0x020 + oEVT_CLASS_HI) 1 ∧ Allowed Tests.live Tests.host (pb 0x016 + oEVT_CLASS) 1 ∧
      (tallyPage 0x020 && Tests.live.sl.isSealed) = false) ∧
    (let s : State := { Tests.live with sl := { isSealed := true } }
     Allowed s Tests.host (pb 0x016 + oEVT_CLASS) 1 ∧ (tallyPage 0x016 && s.sl.isSealed) = true ∧
     isCore Tests.host = false) :=
  ⟨by decide +kernel, by decide +kernel, by decide +kernel, by decide +kernel, by decide +kernel, by decide +kernel,
    by decide +kernel⟩

theorem witness_EdgesTicksAndLock :
    (plyStopped Tests.live = false ∧ fgb Tests.live pgCLK F.CLK_PLY_STATUS_CORE_LOCK = true ∧ inReset Tests.live = false ∧
      Tests.live.md.mode = .live) ∧
    (plyStopped State.reset = true ∧ ({ State.reset with elec := { island := true } } : State).elec.island = true ∧
      plyStopped { State.reset with elec := { island := true } } = true) ∧
    evClass (Tests.words [(pb 0x005 + oEVT_CLASS, 3)] Tests.live) 0x005 0 = clsFATAL ∧
    ({ Tests.live with tm := { Tests.live.tm with kernelTick := true } } : State).tm.kernelTick = true :=
  ⟨by decide +kernel, by decide +kernel, by decide +kernel, rfl⟩

/-- The device with a 1PPS of state `p`, qualified or not. -/
def Tests.pps (ok : Bool) (p : PpsSt) : State :=
  setRefOk { Tests.live with ref := { pps := p }, tm := { Tests.live.tm with edgeTT := 2000 * ms256, tickTT := 2000 * ms256 } }
    F.REF_REF_STATUS_PPS_OK ok

theorem witness_PpsPulsesAreJudged :
    (let s := Tests.pps true { accepted := some (1001 * ms256 + 1) }
     ppsQualified s = true ∧ s.ref.pps.accepted = some (1001 * ms256 + 1) ∧ ttNow s 0 - (1001 * ms256 + 1) < 999 * ms256) ∧
    (let s := Tests.pps true { prev := some (999 * ms256), rise := some (1999 * ms256), high := true }
     s.ref.pps.rise = some (1999 * ms256) ∧ s.ref.pps.high = true ∧ ppsQualified s = true ∧ spacingOk s.ref.pps = true ∧
     widthOk s (ttNow s 0 - 1999 * ms256) = true ∧ widthOk s (ttNow s (1000 * ms256) - 1999 * ms256) = false) ∧
    (let s := Tests.pps false { prev := some (999 * ms256), rise := some (1999 * ms256), high := true, count := 9 }
     ppsQualified s = false ∧ (widthOk s (ttNow s 0 - 1999 * ms256) && spacingOk s.ref.pps) = true ∧
     max 1 (fg s pgREF F.REF_PPS_QUAL_QUAL_N) ≤ s.ref.pps.count + 1) := by
  exact ⟨by decide +kernel, by decide +kernel, by decide +kernel⟩

/-- A good ToD message of second 1. -/
def Tests.tod : List Byte :=
  let b : List Byte := [0xA5, 0x5A, 0, 0, 0, 0, 0, 1, 37, 4]
  b ++ beBytes 2 (crc16 b)

theorem witness_TodAndFrequencyInputs :
    (let s : State := { Tests.live with ref := { tod := { opened := some 5, waiting := true, prev := some 0, good := 2 } } }
     s.ref.tod.opened = some 5 ∧ s.ref.tod.waiting = true ∧ 10 * ms256 ≤ 10 * ms256 ∧ 10 * ms256 ≤ 500 * ms256 ∧
     Tests.tod.length = 12 ∧ beAt Tests.tod 0 2 = 0xA55A ∧ crc16 (Tests.tod.take 10) = beAt Tests.tod 10 2 ∧
     beAt Tests.tod 9 1 / 4 % 2 = 1 ∧ beAt Tests.tod 2 6 = 0 + 1 ∧ 2 ≤ s.ref.tod.good) ∧
    fg Tests.live pgREF F.REF_F10M_LIMIT_LIMIT * 1024 < (0x7FFFFFFF : Int).natAbs ∧
    (let s : State := { Tests.live with ref := { f10m := { bad := 1, good := 99 } } }
     1 ≤ (getFreq s false).bad ∧ 99 ≤ (getFreq s false).good) ∧
    refOk (setRefOk Tests.live F.REF_REF_STATUS_F10M_OK true) (freqOkBit false) = true := by
  exact ⟨by decide +kernel, by decide +kernel, by decide +kernel, by decide +kernel⟩

/-- Port 0 is UP and is PTP port A of the Tally, whose time-transmitter is the sender of `m`. -/
def Tests.ptp (m : List Byte) : State :=
  Tests.field pgREF F.REF_REF_CTRL_PTP_A_EN 1
    { Tests.up with ref := { ptpA := { master := some ⟨[], ptpSender m, 0, 0, 0, 2⟩ } } }

theorem witness_PtpAndTimeError :
    (let m : List Byte := List.replicate 44 0
     ptpOn (Tests.ptp m) 0 = some false ∧ isUp (Tests.ptp m) 0 = true ∧ (0 : Fin 256).val ∈ portLanes (Tests.ptp m) 0 ∧
     frozen (Tests.ptp m) 0x012 = false ∧ beAt m 0 1 % 16 = 0 ∧ fromMaster (getPtp (Tests.ptp m) false) m = true ∧
     ptpPort (Tests.ptp m) false = 0) ∧
    beAt [1] 0 1 % 16 = 1 ∧
    fg (Tests.field pgTT F.TT_TIME_STATE_TIME_SRC 1 Tests.live) pgTT F.TT_TIME_STATE_TIME_SRC ≠ 0 := by
  exact ⟨by decide +kernel, by decide +kernel, by decide +kernel⟩

/-- Context 4095 of the last engine of pipeline 7 runs frame 1 at `pc`, where microword `w` stands without a nanoword. -/
def Tests.engine (w : Word) (pc : Nat) (st : List Nat) : State :=
  let s := Tests.framed .flow Tests.frame64 { pipe := 7, since := 999999 } Tests.live
  { s with fl := { ctxs := [(4095, { busy := true, frame := 1, entry := 1000000, pc := pc, stack := st })],
                   micro := [(microKey 7 pc, w)] } }

/-- The context after the slots of a microword without a nanoword. -/
def Tests.issued (s : State) : Ctx := { getC s 4095 with last := 1 }

theorem witness_MicrowordsSequence :
    (let s := Tests.engine 0x00000000 0x5FFE []
     Issues s 7 63 4095 0x00000000 (Tests.issued s) ∧ uSeq 0x00000000 = sNEXT ∧ stepFault 0x5FFE = false) ∧
    (let s := Tests.engine 0x30000007 0x6000 []
     Issues s 7 63 4095 0x30000007 (Tests.issued s) ∧ uSeq 0x30000007 = sWAIT ∧ bitsOf (0x30000007 : Word) 4 11 < 512) ∧
    (let s := Tests.engine 0x08007FFF 0x6000 []
     Issues s 7 63 4095 0x08007FFF (Tests.issued s) ∧ uSeq 0x08007FFF = sJUMP ∧
     jumpFault 0x6000 (uTarget 0x08007FFF) = false ∧ uTarget 0x08007FFF ≠ 0x5E00 ∧ uTarget 0x08007FFF ≠ 0x5E04) ∧
    (let s := Tests.engine 0x10000001 0 []
     Issues s 7 63 4095 0x10000001 (Tests.issued s) ∧ uSeq 0x10000001 = sBRT ∧ uFlag (getC s 4095) 0x10000001 = false ∧
     stepFault 0 = false) ∧
    (let s := Tests.engine 0x18000001 0 []
     Issues s 7 63 4095 0x18000001 (Tests.issued s) ∧ uSeq 0x18000001 = sBRF ∧ uFlag (getC s 4095) 0x18000001 = false ∧
     jumpFault 0 (uTarget 0x18000001) = false) ∧
    (let s := Tests.engine 0x20005E08 0x6000 [1, 2, 3, 4, 5, 6, 7]
     Issues s 7 63 4095 0x20005E08 (Tests.issued s) ∧ uSeq 0x20005E08 = sCALL ∧ (getC s 4095).stack.length < 8 ∧
     jumpFault 0x6000 (uTarget 0x20005E08) = false) ∧
    (let s := Tests.engine 0x28000000 0 [9]
     Issues s 7 63 4095 0x28000000 (Tests.issued s) ∧ uSeq 0x28000000 = sRET ∧ (getC s 4095).stack = [9]) := by
  unfold Issues
  exact ⟨by decide +kernel, by decide +kernel, by decide +kernel, by decide +kernel, by decide +kernel, by decide +kernel,
    by decide +kernel⟩

/-- Frame 1 entered the dispatch stage of pipeline 7 in the ply before; entry 0 is enabled at address 5. -/
def Tests.dispatch : State :=
  Tests.words [(flowB 7 + R.FS_ENTRY, 0x8005)]
    (Tests.field (flowB 7) F.FS_FS_CTRL_DISPATCH_EN 1
      (Tests.framed .dispatch Tests.frame64 { pipe := 7, since := 999999, ended := true } Tests.live))

theorem witness_RoutinesStartAndEnd :
    (let s := Tests.dispatch
     idled s (fsPage 7) = false ∧ idled s (fsPage 7 + 1) = false ∧ tget (fun _ => []) s.fl.queue 7 = [] ∧
     entering s 7 = some 1 ∧ freeContext s 7 = some 3584 ∧ ctxPipe 3584 = 7 ∧
     fgb s (flowB 7) F.FS_FS_CTRL_DISPATCH_EN = true ∧
     (entryWord s 7 (getF s 1).verdict.entry).getLsbD 15 = true ∧
     s.fl.undecoded ≠ some (bitsOf (entryWord s 7 (getF s 1).verdict.entry) 0 15)) ∧
    (∀ n : Fin 4, let w : Word := 0x38000000 + BitVec.ofNat 32 n
      let s := Tests.engine w 0 []
      Issues s 7 63 4095 w (Tests.issued s) ∧ uSeq w = sEND ∧ bitsOf w 0 2 = n.val) ∧
    (∀ n : Fin 2, let s : State := { Tests.live with fl := { ctxs := [(4095, { busy := true, frame := 1, ended := 1 + 3 * n.val })] } }
      (getC s 4095).busy = true ∧ ((getC s 4095).ended = 1 ∨ (getC s 4095).ended = 4)) ∧
    (let s := { Tests.engine 0 0 [] with tm := { Tests.live.tm with ply := 1000004 } }
     s.fl.ctxs.find? (fun e => e.2.busy && e.2.frame == 1) = some (4095, getC s 4095) ∧ (getC s 4095).ended = 0 ∧
     deadline (getC s 4095).entry (getC s 4095).missDl ≤ plyNat s) := by
  unfold Issues
  exact ⟨by decide +kernel, by decide +kernel, by decide +kernel, by decide +kernel⟩

theorem witness_RepliesWriteTheirResults :
    ∀ kind ∈ [1, 2, 3, 4, 6, 11, 12],
      reqOf (getC (Tests.asks kind (Tests.request 3 0) Tests.live) 4095) kind = some (Tests.request 3 0) := by
  decide +kernel

/-- Flow table 0x40 is enabled, with learning. -/
def Tests.table : State :=
  Tests.words [(pgFT + F.FT_FT_CFG_EN.off, 0xFFFFFFFF)] (Tests.framed .flow Tests.frame64 { pipe := 7 } Tests.live)

theorem witness_FlowRepliesBindRecords :
    (∀ kind ∈ [0, 5], let r : Req := { Tests.request 1 0x40 with got := some 3 }
      reqOf (getC (Tests.asks kind r Tests.live) 4095) kind = some r ∧ r.got = some 3) ∧
    (∀ op ∈ [1, 2], let r := Tests.request op 0x4F
      let kind := if op = 1 then 0 else 5
      reqOf (getC (Tests.asks kind r Tests.live) 4095) kind = some r ∧ r.got = none ∧ r.waiting = false ∧ r.op = op ∧
      tableOn (Tests.asks kind r Tests.live) r.table = false) ∧
    (let s : State := Tests.asks 5 (Tests.request 2 0x40) { Tests.table with fuse := { hbm := false } }
     (learnTry s 4095 7 0x40 (Tests.request 2 0x40).key).status = 5 ∧
     (getC (learnTry s 4095 7 0x40 (Tests.request 2 0x40).key).st 4095).journal.length < 32) := by
  exact ⟨by decide +kernel, by decide +kernel, by decide +kernel⟩

theorem witness_ControlStoreCommands :
    (let s : State := { Tests.live with md := { mode := .boot } }
     Allowed s Tests.cpu (flowB 7 + R.FS_STORE_CMD) (setBits 0 0 2 1) ∧ s.md.mode = .boot) ∧
    (Allowed Tests.live (.sky 3) (flowB 7 + R.FS_STORE_CMD) (setBits 0 0 2 1) ∧
      Allowed Tests.live (.sky 2) (flowB 7 + R.FS_STORE_CMD) (setBits 0 0 2 2)) ∧
    (let s : State := { Tests.live with fl := { marks := [microKey 0 32764, microKey 7 32767, nanoMark 7 4095] } }
     (∃ m ∈ lineMarks 7 8191 false, m ∈ s.fl.marks) ∧ (∃ m ∈ lineMarks 7 8191 true, m ∈ s.fl.marks) ∧
     (∃ m ∈ lineMarks 0 8191 false, m ∈ s.fl.marks) ∧ ∀ m ∈ lineMarks 0 8191 true, m ∉ s.fl.marks) := by
  exact ⟨by decide +kernel, by decide +kernel, by decide +kernel⟩

/-- Frame 1 waits for the parser of pipeline 0, whose node 1 reads an Ethernet header and ends. -/
def Tests.parse (ended : Bool) : State :=
  let s := Tests.field (prsB 0) F.PRS_PG_CTRL_PARSE_EN 1 (Tests.framed .parse Tests.frame64 { ended := ended } Tests.live)
  { s with cls := { nodes := [(1, BitVec.ofNat 128 (2 ^ 70 + 2 ^ 60 + 14 * 2 ^ 8))] } }

theorem witness_ParseMakesTheHeaderVector :
    (∀ e : Bool, let s := Tests.parse e
      let f := getF (arrive s 1 []) 1
      let res := walk (arrive s 1 []) f.pipe f.bytes f.ended (transOf (arrive s 1 []) f.pipe) 65
        (fg (arrive s 1 []) (prsB f.pipe) F.PRS_PG_CTRL_START_NODE) {}
      (getF s 1).live = true ∧ (getF s 1).stage = .parse ∧ idled (arrive s 1 []) 0x200 = false ∧
      idled (arrive s 1 []) 0x201 = false ∧ fgb (arrive s 1 []) (prsB 0) F.PRS_PG_CTRL_PARSE_EN = true ∧
      res.map (fun w => walkReason w.status) = some none ∧
      res.map (fun w => lenReason (arrive s 1 []) f.pipe (w.cases ++ if e then frameEndCases { f with l3s := w.l3s } else []))
        = some none ∧ f.pipe < 8 ∧ frozen s 0x201 = false) ∧
    (let s := setF (Tests.parse false) 1 { getF (Tests.parse false) 1 with bytes := [1] }
     walk (arrive s 1 []) 0 [1] false (transOf s 0) 65 1 {} = none) := by
  exact ⟨by decide +kernel, by decide +kernel⟩

/-- Frame 1 waits for classification in pipeline 7 with PARSE_STATUS `st`; the miss entry is action entry 0, `act`. -/
def Tests.classify (act : Nat) (st : Byte) (ended : Bool) (t : Template) : State :=
  let s := Tests.field (frgB 7) F.FRG_FRAG_CTRL_EN 1
    (Tests.framed .classify Tests.frame64
      { pipe := 7, ended := ended, hv := List.replicate 0x31 0 ++ [st] ++ List.replicate 0xCE 0 } Tests.up)
  { s with cls := { act := [((7 * 2) * 4096, BitVec.ofNat 128 act)], tmpl := [((7 * 2) * 64, t)],
                    spread := [(7 * 256 + 255, { n := 1, members := [(0, 0)] })] } }

/-- The frame as CLASSIFY finds it, with its bytes and its generation, and the verdict of its action. -/
def Tests.took (s : State) : State := captureGen (arrive s 1 []) 1
def Tests.verdict (s : State) : Verdict := verdictOf (getAct (Tests.took s) 7 ((getF (Tests.took s) 1).gen % 2) 0) 0

/-- What every clause of ClassifyTakesTheAction asks of the frame. -/
def Tests.classifies (s : State) : Bool :=
  (getF s 1).live && (getF s 1).stage == .classify && decide ((getF (Tests.took s) 1).pipe < 8) &&
  !idled (Tests.took s) 0x272 && !idled (Tests.took s) 0x273

/-- No fragment, or a first one, without a policer, whose action is `op`; every byte its key needs has come. -/
def Tests.resolves (s : State) (op : Nat) : Bool :=
  Tests.classifies s && !isLaterFrag (Tests.took s) (getF (Tests.took s) 1) && (Tests.verdict s).policer == none &&
  (Tests.verdict s).op == op && !(Tests.verdict s).doMirror &&
  (getTmpl (Tests.took s) 7 ((getF (Tests.took s) 1).gen % 2) 0).ops.all
    (fun w => extractNeed (getF (Tests.took s) 1) w ≤ (getF (Tests.took s) 1).bytes.length)

theorem witness_ClassifyTakesTheAction :
    Tests.resolves (Tests.classify 3 0 false { ops := [0x800001] }) 3 = true ∧
    (Tests.resolves (Tests.classify 2 0 true {}) 2 = true ∧ (getF (Tests.took (Tests.classify 2 0 true {})) 1).ended = true) ∧
    (Tests.resolves (Tests.classify 1 0x60 false {}) 1 = true ∧ (Tests.verdict (Tests.classify 1 0x60 false {})).kind = 0 ∧
      isFirstFrag (Tests.took (Tests.classify 1 0x60 false {})) (getF (Tests.took (Tests.classify 1 0x60 false {})) 1) = true) ∧
    (Tests.resolves (Tests.classify (1 + 3 * 2 ^ 11 + 255 * 2 ^ 13) 0 false {}) 1 = true ∧
      (Tests.verdict (Tests.classify (1 + 3 * 2 ^ 11 + 255 * 2 ^ 13) 0 false {})).kind = 3 ∧
      (Tests.verdict (Tests.classify (1 + 3 * 2 ^ 11 + 255 * 2 ^ 13) 0 false {})).egress = 255 ∧
      spreadTo (Tests.classify 0 0 false {}) 7 255 (getF (Tests.classify 0 0 false {}) 1) = some 0) ∧
    (Tests.classifies (Tests.classify 0 0 false {}) = true ∧
      (getF (Tests.classify 0 0 false {}) 1).bytes.length < extractNeed (getF (Tests.classify 0 0 false {}) 1) 0x801FF9) ∧
    (Tests.classifies (Tests.classify 0 0x20 false {}) = true ∧
      isLaterFrag (Tests.classify 0 0x20 false {}) (getF (Tests.classify 0 0x20 false {}) 1) = true ∧
      fragFind (Tests.classify 0 0x20 false {}) (getF (Tests.classify 0 0x20 false {}) 1) = none ∧
      (heldOf (Tests.classify 0 0x20 false {}) 7).length < 64) := by
  exact ⟨by decide +kernel, by decide +kernel, by decide +kernel, by decide +kernel, by decide +kernel, by decide +kernel⟩

def Tests.fragment (fwd : Bool) : FragEnt :=
  { key := [1], fwd := fwd, kind := 0, egress := 3, cls := 2, doMirror := false, session := 0, flowIdx := 9, meterClass := 0,
    ply := 1000000 }

def Tests.holds (fwd : Bool) (key : List Byte) : State :=
  let s := Tests.framed .fragHold Tests.frame64 { pipe := 7, ended := true, fragKey := key } Tests.live
  { s with cls := { hold := [(7, [1])], frag := [(7, [Tests.fragment fwd])] } }

theorem witness_FragmentsFollowTheFirst :
    (∀ fwd : Bool, let s := Tests.holds fwd [1]
      (heldOf s 7).find? (fun j => (fragFind s (getF s j)).isSome) = some 1 ∧
      fragFind s (getF s 1) = some (Tests.fragment fwd) ∧ (Tests.fragment fwd).kind ≠ 3 ∧
      (Tests.fragment fwd).doMirror = false ∧ (getF s 1).ended = true ∧ frozen s 0x273 = false) ∧
    (let s := Tests.holds true [2]
     (heldOf s 7).find? (fun j => (getF s j).since + fragHoldMax s 7 ≤ plyNat s && (fragFind s (getF s j)).isNone) = some 1 ∧
     (getF s 1).ended = true) := by
  exact ⟨by decide +kernel, by decide +kernel⟩

theorem witness_ParseGraphCommands :
    (Allowed Tests.live Tests.host (prsB 7 + R.PRS_PG_CMD) (setBits 0 0 2 1) ∧
      Allowed Tests.live Tests.cpu (prsB 7 + R.PRS_PG_CMD) (setBits 0 0 2 2) ∧
      fgb Tests.live (prsB 7) F.PRS_PG_CTRL_PARSE_EN = false ∧ pgKind Tests.live 7 = false ∧ pgIndex Tests.live 7 < 256) ∧
    (let s := Tests.field (prsB 7) F.PRS_PG_CTRL_PARSE_EN 1 (Tests.words [(prsB 7 + R.PRS_PG_ADDR, 1023)] Tests.live)
     fgb s (prsB 7) F.PRS_PG_CTRL_PARSE_EN = true ∧ pgKind s 7 = false ∧ 256 ≤ pgIndex s 7 ∧
     Allowed s Tests.host (prsB 7 + R.PRS_PG_CMD) (setBits 0 0 2 1)) ∧
    (let s := Tests.words [(prsB 7 + R.PRS_PG_ADDR, 0x400)] Tests.live
     pgKind s 7 = true ∨ pgKind (Tests.words [(prsB 7 + R.PRS_PG_ADDR, 0xFFFFFFFF)] Tests.live) 7 = true) := by
  exact ⟨by decide +kernel, by decide +kernel, by decide +kernel⟩

theorem witness_TableCommandsWaitForAnEdge :
    (∀ op ∈ [1, 2, 3, 4, 5, 6], Allowed Tests.live Tests.host (clsB 7 + R.CLS_TBL_CMD) (setBits 0 0 3 op)) ∧
    tblBusy (Tests.field (clsB 7) F.CLS_TBL_STATUS_BUSY 1 Tests.live) 7 = true ∧
    (tblBusy Tests.live 7 = false ∧
      tOK ∉ (tblAll (tblSpell Tests.live 7 (setBits 0 0 3 2) 2) false [7] ([], Tests.live)).1) ∧
    (tblTargets 7 (tblSpell Tests.live 7 (setBits 0x20 0 3 5) 5) = [7] ∧
      tOK ∈ (tblAll (tblSpell Tests.live 7 (setBits 0x20 0 3 5) 5) false [7] ([], Tests.live)).1) ∧
    (tblAll (tblSpell Tests.live 7 (setBits 0x20 0 3 4) 4) true [7] ([], Tests.live)).1.head? = some tOK := by
  exact ⟨by decide +kernel, by decide +kernel, by decide +kernel, by decide +kernel, by decide +kernel⟩

/-- An exact-match command on table 0 of pipeline 7, which has 1,024 slots of 16-byte keys. -/
def Tests.tbl (op : Nat) : TblOp :=
  { op := op, space := 0, table := 0, bank := 0, bcast := false, index := 0, key := List.replicate 16 0x01020304,
    mask := [], res := 0xC000000000000000, hold := 0 }
def Tests.em : State := Tests.words [(clsB 7 + R.CLS_EM_CFG, 4 <<< 10)] Tests.live

theorem witness_InsertedEntriesAreFound :
    (tblOne Tests.em 7 (Tests.tbl 1)).1 = tOK ∧ (Tests.tbl 1).res.getLsbD 63 = true ∧
    (let s := (tblOne Tests.em 7 (Tests.tbl 1)).2
     (tblOne s 7 (Tests.tbl 3)).1 = tOK ∧ (tblOne s 7 (Tests.tbl 2)).1 = tOK ∧
     let k := slice (winBytes (Tests.tbl 2).key) 0 (keyBytes16 s 7 0)
     ∀ x ∈ emCandidates s 7 0 k, ∀ e ∈ getEm s 7 x, e.key = k → e.res.getLsbD 63 = true → emFind s 7 0 k = some x) := by
  decide +kernel

theorem witness_TableConfigurationAndFlip :
    (Allowed Tests.live Tests.host (clsB 7 + R.CLS_EM_CFG + 28) 0x1000 ∧
      Allowed Tests.live Tests.host (clsB 7 + R.CLS_TERN_CFG + 28) 0x40 ∧ bitsOf (0x1000 : Word) 10 8 % 4 = 0 ∧
      bitsOf (0x1400 : Word) 10 8 % 4 ≠ 0) ∧
    (∀ u < 8, emSize Tests.live 7 u = 0 ∧ ternSize Tests.live 7 u = 0) ∧
    (Allowed Tests.live Tests.host (clsB 7 + R.CLS_GEN_CTRL) 1 ∧ (1 : Word).getLsbD 0 = true ∧ retiring Tests.live 7 = false ∧
      7 ∉ Tests.live.cls.flip) ∧ (7 ∈ ({ Tests.live with cls := { flip := [7] } } : State).cls.flip) := by
  exact ⟨by decide +kernel, by decide +kernel, by decide +kernel, by decide +kernel⟩

/-- A valid record of table 0x40 with key bytes 7, throttle profile 1 and TIMEOUT 1. -/
def Tests.record : List Byte := List.replicate 40 7 ++ [0x40, 1, 5, 1, 0, 0, 0, 1] ++ List.replicate 80 0
def Tests.key : List Byte := List.replicate 40 7
def Tests.way : Nat := wayKey 7 (setOf 0x40 Tests.key) 15

/-- Flow table 0x40 is enabled with keys of 40 bytes. -/
def Tests.ft : State := Tests.words [(pgFT + F.FT_FT_CFG_EN.off, 0xFFFFFFFF)] Tests.live

/-- The record, index 5, stands dirty in a way of pipeline 7's Deck. -/
def Tests.inDeck (hbm : Bool) : State :=
  { Tests.ft with fuse := { hbm := hbm }
                  fl := { deck := [(Tests.way, { valid := true, idx := 5, record := Tests.record, dirty := true })],
                          dir := [(5, 8)] } }

/-- The record, index 5, and its index entry stand in flow memory. -/
def Tests.inArray (s : State) : State :=
  writeEntry (mwr s (arrayAt 5) Tests.record) ((buckets 0x40 Tests.key).getD 0 0) (mkEntry 0x40 5 (sigOf 0x40 Tests.key))

def Tests.fetch : Req := { op := 1, key := Tests.key, table := 0x40, src := 0, arg := 0, missed := true }
def Tests.fetching : State := Tests.asks 0 Tests.fetch (Tests.inArray Tests.ft)

theorem witness_DecksAndFlowMemory :
    (twf (fun _ => {}) Tests.fetching.fl.ctxs = true ∧ (getC Tests.fetching 4095).busy = true ∧ ctxPipe 4095 = 7 ∧
      flowReq (getC Tests.fetching 4095) = some Tests.fetch ∧ turnOf Tests.fetching 4095 Tests.fetch = true ∧
      (findTry Tests.fetching 7 0x40 Tests.key).status = 3 ∧ locate Tests.fetching 7 0x40 Tests.key = .array 5) ∧
    (let s : State := { Tests.inDeck true with fl := { (Tests.inDeck true).fl with sel := [(7 * 8 + 7, [Tests.way])] } }
     (7 : Fin 16).val < 8 ∧ tget (fun _ => []) s.fl.sel (7 * 8 + 7) = Tests.way :: [] ∧
     (getWay s Tests.way).valid = true ∧ (getWay s Tests.way).dirty = true) ∧
    (let i : WbItem := ⟨7, 67108863, Tests.record, true⟩
     let s : State := { Tests.live with fl := { wbq := [i], wbuf := [(7, [(67108863, Tests.record)])] } }
     s.fl.wbq.find? (fun i => i.pipe == 7) = some i ∧ s.fuse.hbm = true ∧ i.victim = true ∧ ∃ e ∈ wbOf s 7, e.1 = i.idx) ∧
    (let s : State := { Tests.live with fl := { pend := [⟨0x40, Tests.key, 5, 0, none⟩] } }
     s.fl.pend.find? (fun p => p.ctx.isNone) = some ⟨0x40, Tests.key, 5, 0, none⟩) ∧
    (let s : State := Tests.field pgFT F.FT_FT_STATUS_BUSY 1 { Tests.live with fl := { flushing := true } }
     s.fl.flushing = true ∧ s.fl.wbq = [] ∧ s.md.mode ≠ .dormant ∧ s.fl.ft = none ∧ fgb s pgFT F.FT_FT_STATUS_BUSY = true) := by
  exact ⟨by decide +kernel, by decide +kernel, by decide +kernel, by decide +kernel, by decide +kernel⟩

/-- `s` much later: throttle levels are due for a refresh and records have aged. -/
def Tests.late (s : State) : State :=
  Tests.field pgFT F.FT_FT_CTRL_AGE_EN 1
    { s with tm := { s.tm with ply := 0x400000000000, edgeTT := 2 ^ 64, tickTT := 2 ^ 64 } }

theorem witness_CruiseRefreshesAndAges :
    ((let s := Tests.late (Tests.inDeck true)
      let w := getWay s Tests.way
      Machine.setOf 0x40 Tests.key < 4096 ∧ w.valid = true ∧ isBound s w.idx = false ∧ refreshes s = true ∧
      thrOld s w.record = true ∧ agesNow s = true ∧ isAged s w.idx w.record = true) ∧
     let s := { Tests.late (Tests.inDeck true) with md := { mode := .dormant } }
     s.md.mode = .dormant ∧ twf (fun _ => ({} : Way)) s.fl.deck = true) ∧
    (let s := Tests.late (Tests.inArray Tests.ft)
     let b := ((buckets 0x40 Tests.key).getD 0 0 - 0x200000000) / 64
     b < 16777216 ∧ s.fuse.hbm = true ∧ refreshes s = true ∧ agesNow s = true ∧
     (∀ a ∈ slotsOf (0x200000000 + b * 64), entryValid (entryAt s a) = true → a = (buckets 0x40 Tests.key).getD 0 0) ∧
     ∃ a ∈ slotsOf (0x200000000 + b * 64), entryValid (entryAt s a) = true ∧ poisoned s a 8 = false ∧
      entryIdx (entryAt s a) = 5 ∧ residentIn s 5 = none ∧ s.fl.bad.contains 5 = false ∧
      thrOld s (arrayRec s 5) = true ∧ isAged s 5 (arrayRec s 5) = true) ∧
    (let s := Tests.field pgFT F.FT_FT_CTRL_AGE_EN 1 (Tests.inArray Tests.ft)
     agesNow s = true ∧ thrOld s (arrayRec s 5) = false) := by
  exact ⟨by decide +kernel, by decide +kernel, by decide +kernel⟩

def Tests.ftAddr : Nat := pgFT + R.FT_FT_CMD

/-- The window holds the record; FT_ADDR names index 5. -/
def Tests.window (s : State) : State :=
  wrWords (Tests.field pgFT F.FT_FT_ADDR_INDEX 5 s) (pgFT + R.FT_FT_DATA) (packWords 32 Tests.record)

theorem witness_HostFindsAndReadsRecords :
    (∀ op ∈ [1, 2, 3, 4, 5, 6, 7, 8, 9], Allowed Tests.live Tests.host Tests.ftAddr (setBits 0 0 4 op)) ∧
    fgb (Tests.field pgFT F.FT_FT_STATUS_BUSY 1 Tests.live) pgFT F.FT_FT_STATUS_BUSY = true ∧
    (∀ hbm : Bool, let s := Tests.window (Tests.inDeck hbm)
      fgb s pgFT F.FT_FT_STATUS_BUSY = false ∧ (∀ e ∈ s.fl.ctxs, flowReq e.2 = none) ∧
      fg s pgFT F.FT_FT_ADDR_INDEX = 5 ∧ isBound s 5 = false ∧ isBad s 5 = false ∧ hostRec s 5 = Tests.record ∧
      (arrayUsable s 5).1 = true) ∧
    (tableOn (Tests.window (Tests.inArray Tests.ft)) 0x40 = true ∧
      rget (wordsBytes (rdWords (Tests.window (Tests.inArray Tests.ft)) (pgFT + R.FT_FT_DATA) 32)) oTABLE 1 = 0x40 ∧
      findKey (Tests.window (Tests.inArray Tests.ft)) 0x40 Tests.key = some 5 ∧
      findKey (Tests.window Tests.ft) 0x40 Tests.key = none ∧ tableOn (Tests.window Tests.live) 0x40 = false) ∧
    (hostRec (Tests.window Tests.ft) 5 = [] ∧
      ({ Tests.ft with fl := { bad := [5] } } : State).fl.bad.contains 5 = true ∧
      poisoned { Tests.ft with hbm := { poison := [47] } } (arrayAt 5) 128 = true ∧
      isBound { Tests.ft with fl := { bound := [(5, 1)] } } 5 = true) := by
  exact ⟨by decide +kernel, by decide +kernel, by decide +kernel, by decide +kernel, by decide +kernel⟩

theorem witness_HostChangesRecords :
    (∀ hbm : Bool, let s := Tests.window (Tests.inDeck hbm)
      fgb s pgFT F.FT_FT_STATUS_BUSY = false ∧ twf (fun _ => {}) s.fl.deck = true ∧ (∀ e ∈ s.fl.ctxs, flowReq e.2 = none) ∧
      isBound s 5 = false ∧ isBad s 5 = false ∧ hostRec s 5 ≠ [] ∧ deckByIdx s 5 = some Tests.way ∧
      (getWay s Tests.way).pin = false ∧ Tests.way / 65536 = 7) ∧
    (let d := wordsBytes (rdWords (Tests.window Tests.ft) (pgFT + R.FT_FT_DATA) 32)
     rget d oTABLE 1 = rget Tests.record oTABLE 1 ∧ slice d 0 40 = slice Tests.record 0 40 ∧
     slice d 0 40 ≠ slice (List.replicate 128 0) 0 40) ∧
    (let s := Tests.window Tests.ft
     tableOn s 0x40 = true ∧ findKey s 0x40 Tests.key = none ∧ isBound s noFlow = false ∧
     (allocIdx s).map (fun a => a.1) = some 0 ∧
     (reserveSlot s 0x40 Tests.key).map (fun e => (decide (0x200000000 ≤ e.1), e.1 % 8)) = some (true, 0)) ∧
    (let s : State := { Tests.window Tests.ft with fuse := { hbm := false } }
     (freeWayIn s (waysOf 0 (setOf 0x40 Tests.key))).isSome = true ∧ findKey s 0x40 Tests.key = none) ∧
    (({ Tests.ft with fl := { fresh := 67108864 } } : State).fuse.hbm = true ∧
      (allocIdx { Tests.ft with fl := { fresh := 67108864 } }).isNone = true) ∧
    (isBad { Tests.ft with fl := { bad := [5] } } 5 = true ∧
      12 ≤ pinnedIn { Tests.ft with fl := { deck := (List.range 12).map (fun n =>
        (wayKey 7 (setOf 0x40 Tests.key) n, { valid := true, pin := true, record := [1] })) } }
        (waysOf 7 (setOf 0x40 Tests.key))) := by
  exact ⟨by decide +kernel, by decide +kernel, by decide +kernel, by decide +kernel, by decide +kernel, by decide +kernel⟩

theorem witness_CounterBanksAndRates :
    (Allowed Tests.live Tests.host (deckB 7 + R.DECK_CTR_CMD) (setBits 0 0 3 1) ∧
      Allowed Tests.live Tests.cpu (deckB 7 + R.DECK_CTR_CMD) (setBits 0 0 3 4) ∧
      Allowed Tests.live Tests.host (thrAt 255) 7) ∧
    (let s : State := { Tests.live with fl := { ctr := [((7 * 16) * 8192, 0xFFFFFFFFFFFFFFFF)] } }
     ctrBankAt s 7 = 0 ∧ ctrIdxAt s 7 = 0 ∧ 2 ^ 64 ≤ (ctrGet s 7 0 0).toNat + 1 % 2 ^ 64) ∧
    ((255 : Fin 256).val ≠ 0 ∧ cg Tests.live (thrAt 255) F.THR_RATE_RATE ≠
      fg (Tests.words [(thrAt 255, 7)] Tests.live) (thrAt 255) F.THR_RATE_RATE) ∧
    0 * 16 + 15 ∉ [7 * 16] := by
  exact ⟨by decide +kernel, by decide +kernel, by decide +kernel, by decide +kernel⟩

/-- Controller 15 is trained, in self-refresh state `sr`, with scrub and recentring enabled and requests `m`. -/
def Tests.mc (sr : Nat) (m : McSt) : State :=
  setM (Tests.field (mcB 15) F.HBM_MC_CTRL_SCRUB_EN 1 (Tests.field (mcB 15) F.HBM_MC_CTRL_RECENTRE_EN 1
    (Tests.field (mcB 15) F.HBM_MC_CTRL_AUTO_REENTER 1 (Tests.field (mcB 15) F.HBM_MC_STATUS_SR_STATE sr
      (Tests.field (mcB 15) F.HBM_MC_STATUS_TRAINED 1 Tests.live))))) 15 m

/-- A granule of controller 15 in the record array, and its last one there. -/
def Tests.granule : Nat := 0xF00

theorem witness_FlowMemoryServesRequests :
    (Tests.live.fuse.hbm = true ∧ ctlOf Tests.granule = 15 ∧ Tests.granule % 64 = 0) ∧
    (portMay 0 Tests.granule true = false ∧ portMay 16 (Tests.granule + 63) true = true ∧
      portMay 7 Tests.granule false = true ∧ (Tests.granule + 63) % 64 + 1 ≤ 64) ∧
    (trained (Tests.mc 0 {}) 15 = true ∧ srState (Tests.mc 0 {}) 15 ≤ 1 ∧ srState (Tests.mc 3 {}) 15 ≥ 2 ∧
      trained Tests.live 15 = false) ∧
    (let s := { Tests.mc 0 {} with hbm := { (Tests.mc 0 {}).hbm with poison := [Tests.granule / 16] } }
     (∀ x ∈ touched Tests.granule 16, s.hbm.poison.contains x = true → whole Tests.granule 16 x = true) ∧
     ∃ x ∈ touched (Tests.granule + 1) 1, s.hbm.poison.contains x = true ∧ whole (Tests.granule + 1) 1 x = false) ∧
    (let r : HReq := { port := 20, addr := Tests.granule, t := 0 }
     let s := Tests.mc 0 { reads := [r] }
     nextRead s 15 = some r ∧ r.addr % 64 = 0 ∧ poisoned s r.addr 64 = false ∧
     (getM s 15).reads.find? (fun r => !r.late && urgency s 15 r == 3) = some r ∧ r.port < 22 ∧
     frozen s (mcPage 15) = false) ∧
    fgb (Tests.mc 0 {}) (mcB 15) F.HBM_MC_CTRL_SCRUB_EN = true := by
  exact ⟨by decide +kernel, by decide +kernel, by decide +kernel, by decide +kernel, by decide +kernel, by decide +kernel⟩

theorem witness_FlowMemoryUpkeep :
    (trained (Tests.mc 1 {}) 15 = true ∧ srState (Tests.mc 1 {}) 15 ≠ srSELF ∧ (getM (Tests.mc 1 {}) 15).reads = []) ∧
    (let s := Tests.mc 0 { rows := [(3 * 64 + 63, 5)] }
     (rowOpen (getM s 15) (3 * 64 + 63)).isSome = true ∧
     tget (fun _ => 0) (getM s 15).rowHit (3 * 64 + 63) + fg s (mcB 15) F.HBM_PAGE_CFG_OPEN_IDLE ≤ cmdNow s) ∧
    (fgb (Tests.mc 0 {}) (mcB 15) F.HBM_MC_CTRL_RECENTRE_EN = true ∧ (Tests.mc 0 {}).md.mode = .live ∧
      -128 ≤ sext 8 (fg (Tests.mc 0 {}) (mcB 15) (laneRef 3 4 (fDrift true))) + 1 ∧
      sext 8 (fg (Tests.mc 0 {}) (mcB 15) (laneRef 3 4 (fDrift true))) + 1 ≤ 127) ∧
    (let s := Tests.mc 0 { moves := [(39, true), (0, false)] }
     (getM s 15).moves = (39, true) :: [(0, false)] ∧
     fg s (mcB 15) (laneRef (39 / 2 / 5) (39 / 2 % 5) (fDelay (39 % 2 == 1))) < 127) ∧
    (let s : State := { Tests.mc 0 {} with md := { mode := .calibrate } }
     s.md.mode = .calibrate ∧ srState s 15 = srACTIVE ∧
     fg s (mcB 15) F.HBM_TRAIN_CFG_MIN_EYE ≤ (eyeOf (0xFFFFFFFF <<< 60)).2 ∧ (eyeOf (0xFFFFFFFF <<< 60)).2 < 128 ∧
     0 < (eyeOf (0xFFFFFFFF <<< 60)).2 ∧ (eyeOf 0).2 < fg s (mcB 15) F.HBM_TRAIN_CFG_MIN_EYE ∧
     39 ∉ (getM s 15).failedOnce ∧ 39 ∈ (getM (setM s 15 { failedOnce := [39] }) 15).failedOnce) ∧
    (srState (Tests.mc 1 {}) 15 = srENTERING ∧ srState (Tests.mc 3 {}) 15 = srEXITING ∧
      Allowed (Tests.mc 2 {}) Tests.host (mcB 15 + R.HBM_SR_CTRL) 2) ∧
    (let s : State := { Tests.mc 0 {} with md := { mode := .dormant } }
     s.md.mode = .dormant ∧ trained s 15 = true ∧ srState s 15 = srACTIVE ∧
     fgb s (mcB 15) F.HBM_MC_CTRL_AUTO_REENTER = true ∧ (getM s 15).byExit = false ∧ (getM s 15).reads = [] ∧
     (getM s 15).lastReq + fg s (mcB 15) F.HBM_SR_CTRL_SR_IDLE * 1200 ≤ cmdNow s) := by
  exact ⟨by decide +kernel, by decide +kernel, by decide +kernel, by decide +kernel, by decide +kernel, by decide +kernel,
    by decide +kernel⟩

/-- Frame 1 of port 0 has the verdict to go to (kind, egress), class 7; `rs` are words to set first. -/
def Tests.sent (kind egress : Nat) (rs : List (Nat × Word)) : State :=
  Tests.framed .flowDone Tests.frame64 { ended := true, verdict := { fwd := true, kind := kind, egress := egress, cls := 7 } }
    (Tests.words rs Tests.up)

/-- What the first clause of AdmissionAndResequencing asks of frame 1, sent to port `p`, class `c`. -/
def Tests.admits (s : State) (p c : Nat) : Bool :=
  let f := getF s 1
  f.live && f.stage == .flowDone && !f.bad && f.verdict.fwd && !f.verdict.doMirror && !f.isCopy && !f.isMirror &&
  f.acct == .none && f.banks.isEmpty && f.seqOut == none && decide (f.verdict.cls < 8) && (sprayList s 0).isEmpty &&
  !txIdled s p && !(limitTest s (accountOf s { f with out := p, outCls := c }) (cellsOf (maxFrame s f.port))).1 &&
  (List.range 8).all (fun b => usable s b && decide (bankUsed s b + 64 ≤ 73728))

/-- A QCFG word without a WRED profile, of the limit of all cells. -/
def Tests.limits : List (Nat × Word) := [(pgSC + R.SC_PLANE_STATUS, 0xFF), (accB 1 + F.ACC_QCFG_QLIMIT.off + 28, 0xFFFFF)]
def Tests.cell (q : Nat) : Cell := ⟨1, 1, false, 511, q, 3, 0⟩
def Tests.reseq (r : Reseq) : State :=
  let s := Tests.framed .spraying (Tests.frame64 ++ List.replicate 448 0) {} Tests.live
  { s with core := { reseq := [(511, r)], flight := [Tests.cell 4095, Tests.cell 5] } }

theorem witness_AdmissionAndResequencing :
    (Tests.admits (Tests.sent 0 1 Tests.limits) 1 7 = true ∧
      accountOf (Tests.sent 0 1 Tests.limits) { getF (Tests.sent 0 1 Tests.limits) 1 with out := 1, outCls := 7 } = .queue 1 7 ∧
      cg (Tests.sent 0 1 Tests.limits) (accB 1) (F.ACC_QCFG_WRED_PROFILE.fwd 28) = 0) ∧
    (Tests.admits (Tests.sent 1 31 ((seqB 31 + R.SEQ_SEQ_CFG, 0x1001D) :: Tests.limits)) 1 7 = true ∧
      seqEn (Tests.sent 1 31 ((seqB 31 + R.SEQ_SEQ_CFG, 0x1001D) :: Tests.limits)) 31 = true ∧
      seqPort (Tests.sent 1 31 ((seqB 31 + R.SEQ_SEQ_CFG, 0x1001D) :: Tests.limits)) 31 = 1 ∧
      seqClass (Tests.sent 1 31 ((seqB 31 + R.SEQ_SEQ_CFG, 0x1001D) :: Tests.limits)) 31 = 7) ∧
    (let s := Tests.sent 0 1 [(accB 1 + F.ACC_QCFG_QLIMIT.off + 28, 0)]
     scaled s (cg s (accB 1) (F.ACC_QCFG_QLIMIT.fwd 28)) < accUse s (.queue 1 7) + cellsOf (maxFrame s 0) ∧
     txIdled s 1 = false) ∧
    seqEn (Tests.sent 1 31 []) 31 = false ∧
    (let s := { Tests.sent 2 0 [] with core := { groups := [(0, { members := 3, valid := true })] } }
     idled s 0x381 = false ∧ (getGroup s 0).valid = true ∧ (groupTargets s (getGroup s 0) 0).1 = [0, 1]) ∧
    (let s := Tests.reseq { expected := 4095 }
     s.core.flight.find? (fun c => c.stream == 511 && c.seq == 4095) = some (Tests.cell 4095) ∧ (getR s 511).held = [] ∧
     (getF s 1).live = true ∧ (5 + 4096 - 4095) % 4096 < 1024 ∧
     s.core.flight.find? (fun c => c.stream == 511 && c.seq == 5) = some (Tests.cell 5) ∧ 1024 ≤ (5 + 4096 - 6) % 4096) ∧
    (let s := Tests.reseq { expected := 4094, held := [Tests.cell 4095] }
     timeoutDue s 511 = true ∧ (getR s 511).expected < 4096 ∧ ∀ c ∈ (getR s 511).held, c.seq < 4096) := by
  exact ⟨by decide +kernel, by decide +kernel, by decide +kernel, by decide +kernel, by decide +kernel, by decide +kernel,
    by decide +kernel⟩

/-- Frame 1 stands at the head of port 0's queue of class 7, or of its release queue. -/
def Tests.queued (rel : Bool) : State :=
  setP (Tests.framed .queued Tests.frame64 { ended := true, passed := 1, out := 0, outCls := 7 } Tests.up) 0
    (if rel then { release := [1] } else { queue := [(7, [1])] })

/-- Frame 1 is being sent on port `p`. -/
def Tests.sending (p : Nat) (bad : Bool) : State :=
  setP (Tests.framed .granted Tests.frame64 { ended := true, passed := 1, out := p, bad := bad, acct := .queue 0 7 } Tests.up) p
    { granted := [1], begun := true }

/-- Copy 1 at the launch gate of port 0, or waiting there, missed. -/
def Tests.launch (up begun : Bool) (pol : Nat) : State :=
  setP (Tests.framed .store Tests.frame64 { ended := true, isCopy := true, orig := 1 }
    (Tests.field pgARB F.ARB_ER_CTRL_LATE_POLICY pol (if up then Tests.up else Tests.link 1))) 0 { gate := [1], begun := begun }

theorem witness_EgressGrantsAndTransmits :
    (forwards (Tests.queued true) = true ∧ choose (noteHeads (Tests.queued true) 0) 0 = some (.release 0) ∧
      (getP (noteHeads (Tests.queued true) 0) 0).release.head? = some 1) ∧
    ((∃ P pos, choose (noteHeads (Tests.queued false) 0) 0 = some (.cls 0 7 P pos)) ∧
      (queueIds (noteHeads (Tests.queued false) 0) 0 7).head? = some 1 ∧
      wdDrops (noteHeads (Tests.queued false) 0) 0 7 = false ∧ isUp (noteHeads (Tests.queued false) 0) 0 = true ∧
      (getF (noteHeads (Tests.queued false) 0) 1).bad = false ∧ ttlDrops (getF (noteHeads (Tests.queued false) 0) 1) = false ∧
      brandWanted (noteHeads (Tests.queued false) 0) (getF (noteHeads (Tests.queued false) 0) 1) 0 = 0 ∧
      tget (fun _ => 0) (Tests.queued false).tmg.grantsPly 0 < 128) ∧
    (∀ p ∈ [0, 256, 257, 264], ∀ bad ∈ [true, false], (getP (Tests.sending p bad) p).granted = 1 :: [] ∧
      (getP (Tests.sending p bad) p).begun = true ∧ complete (getF (Tests.sending p bad) 1) = true ∧
      (getF (Tests.sending p bad) 1).out = p ∧ (getF (Tests.sending p bad) 1).acct = .queue 0 7) ∧
    (gateHead (Tests.launch true false 0) 0 = some 1 ∧ isUp (Tests.launch true false 0) 0 = true ∧
      (getP (Tests.launch true true 1) 0).begun = true ∧ erField (Tests.launch true true 1) 0 F.ARB_ER_CTRL_LATE_POLICY = 1 ∧
      erField (Tests.launch true true 0) 0 F.ARB_ER_CTRL_LATE_POLICY = 0 ∧ isUp (Tests.launch false false 0) 0 = false ∧
      (getF (Tests.launch false false 0) 1).ended = true) ∧
    (let s := setP (setF (Tests.launch true false 0) 1 { getF (Tests.launch true false 0) 1 with missed := some 3, handed := some 1 })
        0 { lateWait := [1] }
     gateHead s 0 = none ∧ busyHead s 0 = some 1 ∧ (getP s 0).begun = false ∧ isUp s 0 = true ∧ s.md.mode ≠ .contained ∧
     lateExpired s 1 = true ∧ (getF s 1).ended = true ∧ (getF s 1).acct = .none) ∧
    accountOk (.queue 0 7) ∧ accountOk .none := by
  refine ⟨by decide +kernel, ⟨⟨_, _, rfl⟩, by decide +kernel⟩, by decide +kernel, by decide +kernel, by decide +kernel,
    by decide +kernel, trivial⟩

/-- The partition's sum with `n` cells for frames of the host. -/
def Tests.sumWithHost (n : Word) : Nat := partitionSum (rawWr Tests.live (pgSC + R.SC_POOL_HOST) n)

theorem witness_SwitchWindowsTakeHoldAtTheEdge :
    (Allowed Tests.live Tests.host (pgSC + R.SC_POOL_RECIRC + 28) 5 ∧
      Allowed Tests.live Tests.cpu (accB 255 + F.ACC_QCFG_QLIMIT.off + 28) 5 ∧
      pageType ((accB 255 + F.ACC_QCFG_QLIMIT.off + 28) / 0x1000) = 0x53 ∧
      isAccLimit ((accB 255 + F.ACC_QCFG_QLIMIT.off + 28) % 0x1000) = true ∧
      Tests.sumWithHost 5 ≤ 589824 ∧ 589824 < Tests.sumWithHost 0xFFFFF) ∧
    (Allowed Tests.live Tests.host (pgMC + R.MCM_MC_CMD) (setBits 0 0 2 1) ∧
      Allowed Tests.live Tests.host (pgMC + R.MCM_MC_CMD) (setBits 0 0 2 2) ∧
      Allowed Tests.live Tests.host (pgARB + R.ARB_ER_CMD) (setBits 0 0 2 1) ∧
      Allowed Tests.live Tests.host (pgARB + R.ARB_ER_CMD) (setBits 0 0 2 2)) ∧
    (fgb (Tests.field pgMC F.MCM_MC_STATUS_BUSY 1 Tests.live) pgMC F.MCM_MC_STATUS_BUSY = true ∧
      fgb (Tests.field pgARB F.ARB_ER_STATUS_BUSY 1 Tests.live) pgARB F.ARB_ER_STATUS_BUSY = true ∧
      fgb Tests.live pgMC F.MCM_MC_STATUS_BUSY = false ∧ fgb Tests.live pgARB F.ARB_ER_STATUS_BUSY = false) ∧
    (Allowed Tests.live Tests.host (pb 0x3A7 + R.POL_POL_CMD) (setBits 0 0 3 1) ∧
      Allowed Tests.live Tests.host (pb 0x3A7 + R.POL_POL_CMD) (setBits 0 0 3 2) ∧
      Allowed Tests.live Tests.host (pb 0x3A7 + R.POL_POL_CMD) (setBits 0 0 3 4) ∧
      Allowed Tests.live Tests.host (pb 0x3A7 + R.POL_POL_CMD) (setBits 0 0 4 9) ∧ fgb Tests.live (pb 0x3A7) F.POL_POL_STATUS_BUSY = false ∧
      fgb (Tests.field (pb 0x3A7) F.POL_POL_STATUS_BUSY 1 Tests.live) (pb 0x3A7) F.POL_POL_STATUS_BUSY = true ∧
      (setBits (0 : Word) 0 4 9).getLsbD 1 = false) ∧
    (Allowed Tests.up Tests.host (seqB 31 + R.SEQ_SEQ_CFG) 0x1001D ∧
      portMapped { Tests.up with eff := Tests.up.regs } (bitsOf (0x1001D : Word) 16 8) = true ∧
      portMapped { Tests.up with eff := Tests.up.regs } (bitsOf (0xFF001D : Word) 16 8) = false) := by
  exact ⟨by decide +kernel, by decide +kernel, by decide +kernel, by decide +kernel, by decide +kernel⟩

/-- The live device with entry `p` in the pending table of frame 7. -/
def Tests.pending (p : Pend) : State := pset Tests.live 7 (some p)
def Tests.pend : Pend := { cap := {}, pipe := 0, ply := 0 }

def Tests.ended (record : Bool) : EpochEnd :=
  { epoch := 3, batches := [], ttStart := 0, records := if record then 1 else 0, worstTQ := 0, full := false,
    paramEvent := false, tieUsed := false, dieStart := false, key := 0, record := record, eventCount := 0,
    isSealed := false, unrecorded := 0 }

def Tests.closing (record : Bool) (used : Nat) : State :=
  { Tests.live with ev := { ended := [Tests.ended record], bookUsed := used } }

/-- The audit port is port 0, UP; one tier place waits for its export, and an earlier frame was sent. -/
def Tests.auditing (sent : Bool) : State :=
  Tests.words [(accB 0 + F.ACC_QCFG_QLIMIT.off, 0xFFFFF)] (Tests.field pgAUD F.AUD_AUDIT_CTRL_EN 1
    { Tests.up with ev := { tierNext := 1, exportSeq := 5, exports := if sent then [⟨5, 1, 0, 1, true, true⟩] else [] } })

theorem witness_EvidenceIsRecordedSignedAndExported :
    (let p := { Tests.pend with outcome := some (0, 0), outPly := 997500 }
     pget (Tests.pending p) 7 = some p ∧ p.outcome.isSome = true ∧ p.places = 0 ∧
     p.outPly + withholdMax (Tests.pending p) ≤ plyNat (Tests.pending p)) ∧
    (let p := { Tests.pend with withheldAt := 997501 }
     pget (Tests.pending p) 7 = some p ∧ p.outcome = none ∧ p.withheldAt ≠ 0 ∧
     p.withheldAt - 1 + withholdMax (Tests.pending p) ≤ plyNat (Tests.pending p) ∧
     releaseGate (Tests.pending p) 7 true = .hold) ∧
    (let p := { Tests.pend with ply := 974400, places := 1, digestReady := true }
     pget (Tests.pending p) 7 = some p ∧ p.outcome = none ∧ p.ply + outcomeMax (Tests.pending p) ≤ plyNat (Tests.pending p)) ∧
    ((Tests.closing false 0).ev.ended = [Tests.ended false] ∧ recordDue (Tests.closing false 0) (Tests.ended false) = false ∧
      recordDue (Tests.closing true 16384) (Tests.ended true) = true ∧ bookFree (Tests.closing true 16384) = 0 ∧
      recordDue (Tests.closing true 16383) (Tests.ended true) = true ∧ bookFree (Tests.closing true 16383) ≠ 0) ∧
    (let s := { Tests.live with ev := { signing := [⟨3, [], [], 0⟩] } }
     s.ev.signing = ⟨3, [], [], 0⟩ :: []) ∧
    (nextExport (Tests.auditing false) = some ⟨6, 1, 0, 1, false, false⟩ ∧ audOn (Tests.auditing false) = true ∧
      isUp (Tests.auditing false) (audPort (Tests.auditing false)) = true ∧
      (framesWhere (Tests.auditing false) (fun _ f => f.exportSeq ≠ 0)).length < 16 ∧
      (limitTest (Tests.auditing false) (.queue (audPort (Tests.auditing false))
        (fg (Tests.auditing false) pgAUD F.AUD_AUDIT_CTRL_CLASS))
        (cellsOf (exportBytes (Tests.auditing false) ⟨6, 1, 0, 1, false, false⟩).length)).1 = false) ∧
    (Allowed Tests.live Tests.host (pgAUD + R.AUD_ACK_SEQ + 4) 0 ∧ Allowed Tests.live Tests.host (pgAUD + R.AUD_REWIND_SEQ + 4) 0 ∧
      (∃ x ∈ (Tests.auditing true).ev.exports, x.seq = 5 ∧ x.sent = true) ∧
      ∀ x ∈ (Tests.auditing true).ev.exports, x.seq = 6 → x.sent = false) := by
  exact ⟨by decide +kernel, by decide +kernel, by decide +kernel, by decide +kernel, by decide +kernel, by decide +kernel,
    by decide +kernel⟩

/-- The request and signature of the officer in the seal registers, with the officer's key in the fuses. -/
def Tests.sealing : State :=
  let s := wrWords (wrWords (wrWords Tests.live (pgSEAL + R.SEAL_SEAL_REQ) (packWords 16 Tests.sealReq))
    (pgSEAL + R.SEAL_SEAL_SIG) (packWords 96 Tests.sealSig)) (pgSEAL + R.SEAL_OFFICER_N) (packWords 96 Tests.modulus)
  { s with fuse := { s.fuse with items := [(5, Tests.modHash)] }, sl := { s.sl with busy := true } }

/-- A request without an officer's key is verified. -/
def Tests.verifying : State := { Tests.live with sl := { busy := true } }

/-- Sealed with CAL_TOL 5 and `n` entries in the log. -/
def Tests.isSealed (n : Nat) : State :=
  Tests.field pgCAL F.CAL_CAL_STATE_LATCH_CAL_DONE 1 { Tests.live with sl := { isSealed := true, calTol := 5, logHead := n } }

/-- The island has power and runs no firmware; the fuses name the images' key. -/
def Tests.islandUp (sealedUp : Bool) : State :=
  { Tests.live with elec := { island := true, lastDigest := [1] }, sl := { isSealed := sealedUp },
                    fuse := { imageKey := List.replicate 32 0, vendorHash := [(0, Tests.modHash)] } }

theorem witness_SealProtectsTheParameters :
    (Allowed Tests.live Tests.host (pgSEAL + R.SEAL_SEAL_CMD) 1 ∧ Tests.live.sl.busy = false ∧
      Allowed Tests.verifying Tests.host (pgSEAL + R.SEAL_SEAL_CMD) 1 ∧ Tests.verifying.sl.busy = true ∧
      Tests.verifying.sl.waiting = none ∧ sealCheck Tests.verifying ≠ 0) ∧
    (Tests.sealing.sl.busy = true ∧ Tests.sealing.sl.waiting = none ∧ sealCheck Tests.sealing = 0) ∧
    (let s := Tests.isSealed 0
     let a := pgCAL + R.CAL_LANE_TRIM + 4 * 255
     Allowed s Tests.host a 5 ∧ (pageInfo (a / 0x1000)).isSome = true ∧ 0x40 ≤ a % 0x1000 ∧
     ownWrite (pageType (a / 0x1000)) (a % 0x1000) = false ∧
     (rawRd s a).toNat &&& sealedMask s a ≠ (5 : Word).toNat &&& sealedMask s a ∧ logRoom s = true ∧
     logRoom (Tests.isSealed 1024) = false ∧ s.sl.eventCount ≠ 0xFFFFFFFF ∧
     tolField a 5 = some 5 ∧ tolField a 6 = some 6 ∧ tolField a (atSealing s a) = some 0 ∧ s.sl.calTol = 5) ∧
    ((Tests.islandUp true).elec.island = true ∧ (Tests.islandUp true).elec.firmware = false ∧
      imageCheck (Tests.islandUp true) 5 [] ≠ 0 ∧ (Tests.islandUp true).elec.lastDigest ≠ [] ∧
      sha256 Tests.tallyImage ≠ (Tests.islandUp true).elec.lastDigest ∧ logRoom (Tests.islandUp true) = true) ∧
    imageCheck (Tests.islandUp true) 5 Tests.tallyImage = 0 ∧ imageCheck (Tests.islandUp false) 5 Tests.tallyImage = 0 := by
  exact ⟨by decide +kernel, by decide +kernel, by decide +kernel, by decide +kernel,
    Tests.tallyImage_authentic _ rfl rfl rfl, Tests.tallyImage_authentic _ rfl rfl rfl⟩

/-- Core 15 runs at the start of shared SRAM, where the `n` bytes of `w` stand. -/
def Tests.coreAt (h : Hart) (n w : Nat) : State :=
  coreWr { Tests.live with cores := { on := [15], harts := [(15, { h with pc := 0x20000000 })] } } 15 0x20000000 (leBytes n w)

/-- x1 is the address 0x20001000, x2 a value. -/
def Tests.hart : Hart := { x := [(1, 0x20001000), (2, 0xFFFFFFFFFFFFFFFF)] }

/-- The instruction word `w` reaches core 15 as `i`: what CoresExecuteInstructions asks of its fetch. -/
def Tests.fetches (h : Hart) (short : Bool) (w : Nat) (i : Option Rv) : Bool :=
  let n := if short then 2 else 4
  let s := Tests.coreAt h n w
  let h := getH s 15
  let bits := leNat (coreRd s 15 h.pc.toNat n)
  coreOn s 15 && !inReset s && !pendWork s 15 && !pendTick s 15 && !h.waiting &&
  reach s h h.machine h.pc.toNat n == .sram && !coreBad s 15 h.pc.toNat n && !sampled s 15 &&
  (short == (bits % 4 != 3)) && (if short then decode16 bits else decode32 bits) == i

/-- Data of size `n` at the address in x1 plus `off` can be reached. -/
def Tests.reaches (off : DWord) (n : Nat) : Bool :=
  let s := Tests.coreAt Tests.hart 4 0x13
  let a := (xget (getH s 15) 1 + off).toNat
  reach s (getH s 15) (dataMachine (getH s 15)) a n == .sram && a % n == 0 && !coreBad s 15 a n

theorem witness_CoresExecuteInstructions :
    (Tests.fetches Tests.hart false 0xFFFFFFB7 (some (.lui 31 0xFFFFFFFFFFFFF000)) = true ∧
      Tests.fetches Tests.hart false 0x00001097 (some (.auipc 1 0x1000)) = true ∧
      Tests.fetches Tests.hart false 0xFFDFF0EF (some (.jal 1 0xFFFFFFFFFFFFFFFC)) = true ∧
      Tests.fetches Tests.hart false 0x00008067 (some (.jalr 0 1 0)) = true ∧
      Tests.fetches Tests.hart false 0xFE000EE3 (some (.branch .eq 0 0 0xFFFFFFFFFFFFFFFC)) = true ∧
      Tests.fetches Tests.hart false 0xFFF08093 (some (.alui .add false 1 1 0xFFFFFFFFFFFFFFFF)) = true ∧
      Tests.fetches Tests.hart true 0x10FD (some (.alui .add false 1 1 0xFFFFFFFFFFFFFFFF)) = true ∧
      Tests.fetches Tests.hart false 0x022081B3 (some (.alu .mul false 3 1 2)) = true) ∧
    (Tests.fetches Tests.hart false 0xFF80B183 (some (.load 8 true 3 1 0xFFFFFFFFFFFFFFF8)) = true ∧
      Tests.fetches Tests.hart false 0x0020B423 (some (.store 8 1 2 8)) = true ∧
      Tests.fetches Tests.hart false 0x1000B1AF (some (.lr 8 3 1)) = true ∧
      Tests.fetches Tests.hart false 0x1820A1AF (some (.sc 4 3 1 2)) = true ∧
      Tests.fetches { Tests.hart with resv := some (0x20001000, 4) } false 0x1820A1AF (some (.sc 4 3 1 2)) = true ∧
      Tests.fetches Tests.hart false 0x0020A1AF (some (.amo .add 4 3 1 2)) = true ∧
      Tests.reaches 0xFFFFFFFFFFFFFFF8 8 = true ∧ Tests.reaches 8 8 = true ∧ Tests.reaches 0 4 = true) ∧
    (Tests.fetches Tests.hart false 0x340111F3 (some (.csr .write 3 false 2 0x340)) = true ∧
      Tests.fetches Tests.hart false 0x305111F3 (some (.csr .write 3 false 2 0x305)) = true ∧
      Tests.fetches Tests.hart false 0x341021F3 (some (.csr .set 3 false 0 0x341)) = true ∧
      Tests.fetches Tests.hart false 0x0FF0000F (some .fence) = true ∧
      Tests.fetches Tests.hart false 0x00000073 (some .ecall) = true ∧
      Tests.fetches Tests.hart false 0x00100073 (some .ebreak) = true ∧
      Tests.fetches Tests.hart false 0x30200073 (some .mret) = true ∧
      Tests.fetches Tests.hart false 0x10500073 (some .wfi) = true ∧
      Tests.fetches Tests.hart false 0xFFFFFFFF none = true ∧ Tests.fetches Tests.hart true 0 none = true) ∧
    (Tests.fetches { Tests.hart with machine := false, win0 := 0x20000000 } false 0x30200073 (some .mret) = false ∧
      reach Tests.live { Tests.hart with machine := false } false 0x20000000 2 = .none ∧
      pendTick (Tests.coreAt { Tests.hart with tickEn := true, tick := true, mie := true } 4 0x13) 15 = true) ∧
    (Allowed Tests.live Tests.host (pgDSP + R.DSP_CORE_RUN) 0xFFFE ∧ coresEnabled Tests.live = true ∧
      coreOn Tests.live 15 = false ∧ coreOn (Tests.coreAt {} 4 0x13) 15 = true) := by
  exact ⟨by decide +kernel, by decide +kernel, by decide +kernel, by decide +kernel, by decide +kernel⟩

/-- Threads and queues of the dispatcher. -/
def Tests.threads (d : DspSt) : State :=
  Tests.field pgDSP F.DSP_DSP_CTRL_EN 1 { Tests.live with dsp := d, cores := { on := [0, 15] } }
def Tests.thread (st : ThSt) : Thread := { prio := 31, enable := true, st := st, core := 15 }

/-- Thread 1023 in a state, queued where it is READY. -/
def Tests.one (st : ThSt) (rearm : Bool) : State :=
  let d : DspSt := { threads := [(1023, { Tests.thread st with rearm := rearm })],
                     queues := if st = .ready then [(31, [1023])] else [],
                     slot := if st = .slotted then [(15, some 1023)] else [],
                     run := if st = .running then [(15, some 1023)] else [] }
  Tests.field pgTD F.TD_TD_INDEX_THREAD 1023 (Tests.threads d)

theorem witness_DispatcherMovesThreads :
    (isCore Tests.cpu = true ∧ Allowed Tests.live Tests.host (pgTD + R.TD_TD_OP) 0 ∧ (1023 : BitVec 32).toNat < 1024 ∧
      1024 ≤ (1024 : BitVec 32).toNat) ∧
    (∀ st ∈ [ThSt.disabled, .idle, .ready, .slotted, .delayed, .running],
      (getT (Tests.one st false) 1023).st = st ∧ (getT (Tests.one st false) 1023).rearm = false) ∧
    (slotAt (Tests.one .idle false) 15 = none ∧ dspEn Tests.live = false ∧
      slotAt (Tests.one .slotted false) 15 = some 1023 ∧ dspEn (Tests.one .slotted false) = true ∧
      runAt (Tests.one .slotted false) 15 = none) ∧
    (let s := Tests.threads { threads := [(0, Tests.thread .running), (1023, Tests.thread .slotted)], slot := [(15, some 1023)],
                              run := [(15, some 0)] }
     slotAt s 15 = some 1023 ∧ dspEn s = true ∧ runAt s 15 = some 0) ∧
    (runAt (Tests.one .running true) 15 = some 1023 ∧ (getT (Tests.one .running true) 1023).rearm = true ∧
      (getT (Tests.one .running true) 1023).enable = true ∧ runAt (Tests.one .idle true) 15 = none ∧
      (let s := setT (Tests.one .running true) 1023 { Tests.thread .running with enable := false }
       runAt s 15 = some 1023 ∧ (getT s 1023).enable = false)) ∧
    (Allowed (Tests.one .ready false) Tests.host (pgTD + R.TD_TD_CFG) 0x3E ∧
      fg (Tests.one .ready false) pgTD F.TD_TD_INDEX_THREAD = 1023 ∧ bitsOf (0x3E : Word) 0 5 ≠ 31 ∧
      (0x3E : Word).getLsbD 5 = true ∧ (0x1E : Word).getLsbD 5 = false) ∧
    (let s := Tests.threads { threads := [(1023, Tests.thread .ready), (5, Tests.thread .slotted)], queues := [(31, [1023])],
                              slot := [(0, some 5)] }
     dspEn s = true ∧ coreOn s 15 = true ∧ slotAt s 15 = none ∧ bestFor s 15 = some 1023 ∧
     ∀ k ∈ List.range 16, k ≠ 15 → coreOn s k = true → slotAt s k ≠ none) ∧
    (let s := Tests.threads { threads := [(3, { Tests.thread .delayed with due := 40000 }),
                                          (1023, { Tests.thread .delayed with due := 40001 })], expiry := true }
     s.dsp.expiry = true ∧ twf (fun _ => ({} : Thread)) s.dsp.threads = true ∧ (getT s 3).st = .delayed ∧
     (getT s 3).due ≤ tickNow s ∧ tickNow s < (getT s 1023).due) := by
  exact ⟨by decide +kernel, by decide +kernel, by decide +kernel, by decide +kernel, by decide +kernel, by decide +kernel,
    by decide +kernel, by decide +kernel⟩

def Tests.delivery : Delivery :=
  { primary := 0, secondary := 0, pipe := 0, port := 0, gen := 0, tt := 0, flowIdx := 0, pc := 0, actionIdx := 0,
    excCode := 0, tq := 0, fcsGood := true, metered := false, isNotify := false, bytes := Tests.frame64, queue := 15 }

/-- A delivery waits for ring 15 and one for the host; ring 15 is at the start of shared SRAM, of the last thread. -/
def Tests.ringed (en prod : Word) : State :=
  Tests.words [(rngB 15, 0x20000000), (rngB 15 + R.RNG_RING_CFG, 0x3FF00 + en), (rngB 15 + R.RNG_PROD, prod)]
    { Tests.one .idle false with cls := { toCores := [(7, [Tests.delivery])], toHost := [(7, [Tests.delivery])] } }

theorem witness_RingsTakeExceptions :
    (deliveries (Tests.ringed 1 0).cls.toCores 7 = Tests.delivery :: [] ∧ Tests.delivery.queue < 16 ∧
      ringOpen (Tests.ringed 1 0) 15 = true ∧ ringFull (Tests.ringed 1 0) 15 = false ∧
      coreRegion (Tests.ringed 1 0) 0x20000000 (excEntry Tests.delivery 224).length = .sram ∧
      ringOpen (Tests.ringed 0 0) 15 = false ∧ ringFull (Tests.ringed 1 1) 15 = true ∧
      (getT (Tests.ringed 1 0) (fg (Tests.ringed 1 0) (rngB 15) F.RNG_RING_CFG_THREAD)).st = .idle) ∧
    (let s := Tests.words [(pgSC + R.SC_POOL_HOST, 100)] (Tests.ringed 1 0)
     deliveries s.cls.toHost 7 = Tests.delivery :: [] ∧ forwards s = true ∧
     (limitTest s .host (cellsOf (18 + (excEntry Tests.delivery 64).length))).1 = false) ∧
    (Allowed Tests.live Tests.cpu (rngB 15 + R.RNG_CONS) 0xFFFFFFFF ∧ Allowed Tests.live Tests.host (pgDSP + R.DSP_DOORBELL) 1) := by
  exact ⟨by decide +kernel, by decide +kernel, by decide +kernel⟩

/-- The live device, controller 15 trained or not, its node out of bypass and addressed as 63. -/
def Tests.node (ready : Bool) : State :=
  Tests.field (mcB 15) F.HBM_MC_STATUS_TRAINED (if ready then 1 else 0) (Tests.words [(pgCAL + 0x400, 9)]
    (Tests.field pgSKY F.SKY_SKY_STATUS_ASSIGNED 1 (Tests.field pgSKY F.SKY_SKY_STATUS_ADDR 63
      { Tests.live with sky := { bypass := false } })))

/-- A request of operation `op` to node 63 with a good CRC. -/
def Tests.sky (op : Nat) (level : Fin 4) (addr : Word) (count : BitVec 16) (payload : List Word) : SkyReq :=
  let r : SkyReq := { level := level, bcast := false, dest := 63, tag := 0xFFFF, count := count, addr := addr, nonce := 1,
                      payload := payload, auth := [], crc := 0 }
  { r with crc := crc32c (reqBody op r) }

def Tests.broadcast (op : Nat) (payload : List Word) : SkyReq :=
  let r := { Tests.sky op 0 0 0 payload with bcast := true }
  { r with crc := crc32c (reqBody op r) }

/-- A word of registers answers as the register operations of SkylineServesTheHost ask, for `l` reading or writing `v`. -/
abbrev Tests.plain (s : State) (l : Fin 4) (x : Nat) (v : Word) : Prop :=
  Readable s (.sky l) x ∧ 0x40 ≤ x % 0x1000 ∧ low64 s x = none ∧ low64 s (x - 4) = none ∧ pageType (x / 0x1000) ≠ 0x10 ∧
  (pageInfo (x / 0x1000)).isSome = true ∧ (1 ≤ l.val → Allowed s (.sky l) x v) ∧ x / 0x1000 ≠ 6 ∧ x / 0x1000 ≠ 8 ∧
  ownWrite (pageType (x / 0x1000)) (x % 0x1000) = false

def Tests.words64 : List Word := List.replicate 64 5

def Tests.inProgress (retried : Bool) : State :=
  { Tests.node true with sky := { bypass := false, prog := [⟨opWREAD, Tests.sky opWREAD 1 60 16 [], retried⟩] } }

theorem witness_SkylineServesTheHost :
    (Tests.live.sky.bypass = true ∧ (Tests.node true).sky.bypass = false ∧ 8192 - 64 + Tests.frame64.length ≤ 8192 ∧
      8192 < 8192 - 63 + Tests.frame64.length ∧
      Tests.frame64.drop 60 ≠ crcTail (Tests.frame64.take 60) true ∧
      (let bs := Tests.frame64 ++ crcTail Tests.frame64 true
       bs.drop (bs.length - 4) = crcTail (bs.take (bs.length - 4)) true)) ∧
    (let r := Tests.broadcast opPOLL (List.replicate 16 0)
     r.bcast = true ∧ r.level.val = 0 ∧ r.count.toNat = 0 ∧ reqCrcGood opPOLL r = true ∧ (Tests.node true).sky.bypass = false ∧
     addressed (Tests.node true) = true) ∧
    (let r := Tests.broadcast opENUM [setBits 0 24 8 63]
     let s := { Tests.live with sky := { bypass := false } }
     r.bcast = true ∧ r.level.val = 0 ∧ r.count.toNat = 0 ∧ addressed s = false ∧ bitsOf (r.payload.getD 0 0) 24 8 = 63 ∧
     reqCrcGood opENUM r = true ∧ reqCrcGood opENUM { r with crc := ~~~ r.crc } = false) ∧
    (let r := Tests.sky opREAD 3 0x13400 1 []
     r.bcast = false ∧ r.dest.toNat = nodeAddr (Tests.node true) ∧ reqCrcGood opREAD r = true ∧
     reqCrcGood opREAD { r with crc := 0 } = false ∧ levelRule (Tests.node true) 3 = .refused) ∧
    (let s := { Tests.node true with fuse := { level3Key := List.replicate 32 0 } }
     let r := Tests.sky opWRITE 3 0x13400 1 [5]
     reqCrcGood opWRITE r = true ∧ levelRule s 3 = .keyed (List.replicate 32 0) ∧
     authOf (List.replicate 32 0) (nodeAddr s) 3 false r.nonce (reqHead opWRITE r) ≠ r.auth.take 8) ∧
    (let r := Tests.sky opWRITE 2 0x13400 1 [5]
     let k : SkyKept := ⟨2, 0xFFFF, 1, opWRITE, .ok, [], 1, true⟩
     let s := { Tests.node true with sky := { bypass := false, kept := [k] } }
     reqCrcGood opWRITE r = true ∧ levelRule s 2 = .noAuth ∧ s.sky.prog = [] ∧
     s.sky.kept.find? (fun k => k.level == 2 && sameReq r k.tag k.nonce) = some k) := by
  exact ⟨by decide +kernel, by decide +kernel, by decide +kernel, by decide +kernel, by decide +kernel, by decide +kernel⟩

theorem Tests.skyAccepts (op : Nat) (l : Fin 3) (addr : Word) (count : BitVec 16) (payload : List Word)
    (hc : reqCrcGood op (Tests.sky op l.castSucc addr count payload) = true) :
    SkyAccepts (Tests.node true) op (Tests.sky op l.castSucc addr count payload) ∧
    SkyAccepts (Tests.node false) op (Tests.sky op l.castSucc addr count payload) := by
  have h : ∀ b : Bool, (Tests.node b).sky.bypass = false ∧ addressed (Tests.node b) = true ∧ nodeAddr (Tests.node b) = 63 ∧
      (Tests.node b).sky.prog = [] ∧ (Tests.node b).sky.kept = [] ∧ ∀ l : Fin 3, levelRule (Tests.node b) l = .noAuth := by
    decide +kernel
  constructor
  · obtain ⟨h1, h2, h3, h4, h5, h6⟩ := h true
    refine ⟨h1, h2, rfl, by rw [h3]; rfl, hc, h4, by simp [h5], ?_⟩
    show match levelRule (Tests.node true) l with | .refused => False | .noAuth => True | .keyed _ => _
    rw [h6]; trivial
  · obtain ⟨h1, h2, h3, h4, h5, h6⟩ := h false
    refine ⟨h1, h2, rfl, by rw [h3]; rfl, hc, h4, by simp [h5], ?_⟩
    show match levelRule (Tests.node false) l with | .refused => False | .noAuth => True | .keyed _ => _
    rw [h6]; trivial

theorem witness_SkylineServesTheHost_registers :
    (SkyAccepts (Tests.node true) opREAD (Tests.sky opREAD 0 0x134FC 1 []) ∧
      SkyAccepts (Tests.node true) opBREAD (Tests.sky opBREAD 0 0x13400 64 []) ∧
      SkyAccepts (Tests.node true) opWRITE (Tests.sky opWRITE 2 0x13400 1 [5]) ∧
      SkyAccepts (Tests.node true) opMASKED (Tests.sky opMASKED 2 0x13400 1 [5, 6]) ∧
      SkyAccepts (Tests.node true) opBWRITE (Tests.sky opBWRITE 2 0x13400 64 Tests.words64)) ∧
    Tests.plain (skyTaken (Tests.node true) (Tests.sky opREAD 0 0x134FC 1 [])) 0 0x134FC 0 ∧
    (∀ k ∈ List.range 64, Tests.plain (skyTaken (Tests.node true) (Tests.sky opBREAD 0 0x13400 64 [])) 0 (0x13400 + 4 * k) 0) ∧
    (∀ k ∈ List.range 64,
      Tests.plain (skyTaken (Tests.node true) (Tests.sky opBWRITE 2 0x13400 64 Tests.words64)) 2 (0x13400 + 4 * k) 5) ∧
    (let u := skyTaken (Tests.node true) (Tests.sky opMASKED 2 0x13400 1 [5, 6])
     Tests.plain u 2 0x13400 (maskedValue u (.sky 2) 0x13400 5 6) ∧
     (pageInfo 0x13).all (fun pi => showWord u 2 pi 0x13 0x400 == rawRd u 0x13400) = true ∧ low64 u 0x13400 = none) ∧
    (Tests.node true).sl.isSealed = false := by
  exact ⟨⟨(Tests.skyAccepts opREAD 0 0x134FC 1 [] (by decide +kernel)).1,
    (Tests.skyAccepts opBREAD 0 0x13400 64 [] (by decide +kernel)).1,
    (Tests.skyAccepts opWRITE 2 0x13400 1 [5] (by decide +kernel)).1,
    (Tests.skyAccepts opMASKED 2 0x13400 1 [5, 6] (by decide +kernel)).1,
    (Tests.skyAccepts opBWRITE 2 0x13400 64 Tests.words64 (by decide +kernel)).1⟩,
    by decide +kernel, by decide +kernel, by decide +kernel, by decide +kernel, rfl⟩

theorem witness_SkylineServesTheHost_windows :
    SkyAccepts (Tests.node true) opWREAD (Tests.sky opWREAD 1 60 16 []) ∧
    SkyAccepts (Tests.node false) opWREAD (Tests.sky opWREAD 1 60 16 []) ∧
    SkyAccepts (Tests.node true) opWWRITE (Tests.sky opWWRITE 2 60 16 (Tests.words64.take 16)) ∧
    ((Tests.node true).fuse.hbm = true ∧ winDenied opWREAD (Tests.sky opWREAD 1 60 16 []) = false ∧
      winRefused (Tests.node true) opWREAD (Tests.sky opWREAD 1 60 16 []) = none ∧
      winReady (Tests.node true) (Tests.sky opWREAD 1 60 16 []) = true ∧
      winReady (Tests.node false) (Tests.sky opWREAD 1 60 16 []) = false ∧
      (∀ k ∈ List.range 1, poisoned (Tests.node true) (winAddr (Tests.sky opWREAD 1 60 16 []) + 64 * k) 64 = false)) ∧
    (winRefused (Tests.node true) opWWRITE (Tests.sky opWWRITE 2 60 16 (Tests.words64.take 16)) = none ∧
      winReady (Tests.node true) (Tests.sky opWWRITE 2 60 16 (Tests.words64.take 16)) = true ∧
      (Tests.sky opWWRITE 2 60 16 (Tests.words64.take 16)).payload.length = 16 ∧
      ∀ w ∈ touched 0xF00 64, (Tests.node true).hbm.poison.contains w = false) ∧
    (∀ b : Bool, (Tests.inProgress b).sky.prog = ⟨opWREAD, Tests.sky opWREAD 1 60 16 [], b⟩ :: []) ∧
    winReady (Tests.inProgress true) (Tests.sky opWREAD 1 60 16 []) = true ∧ Tests.live.sky.bypass = true := by
  exact ⟨(Tests.skyAccepts opWREAD 1 60 16 [] (by decide +kernel)).1, (Tests.skyAccepts opWREAD 1 60 16 [] (by decide +kernel)).2,
    (Tests.skyAccepts opWWRITE 2 60 16 _ (by decide +kernel)).1, by decide +kernel, by decide +kernel, by decide +kernel,
    by decide +kernel⟩

def Tests.logged : LogEnt := ⟨0, 0, 0, 1, 1, false, false, 0, 0, false⟩

/-- The fault log with a waiting entry of class `c`. -/
def Tests.logging (frozen : Bool) (general fatalUsed c : Nat) : State :=
  { Tests.live with flt := { queue := [{ Tests.logged with eff := c }], general := general, fatalUsed := fatalUsed, frozen := frozen } }

/-- A sampling buffer of 128 slots in the telemetry region, `prod` slots written and one record waiting. -/
def Tests.buffer (prod : Word) : State :=
  Tests.words [(pgCR + R.CR_SAMP_BASE + 4, 4), (pgCR + R.CR_SAMP_PROD, prod)] (Tests.field pgCR F.CR_SAMP_SIZE_SIZE 12
    (Tests.field pgCR F.CR_SAMP_CTRL_UW_EN 1 { Tests.live with cnt := { queue := [1], periodicDue := true } }))

def Tests.dues (u n : Nat) : State := { Tests.live with cnt := { due := [⟨u, 0, 7⟩], queue := List.replicate n 1 } }

theorem witness_LogsSnapshotsAndSamples :
    (Allowed Tests.live Tests.host (pgFA + R.FA_LOG_CTRL) 1 ∧ Allowed Tests.live Tests.host (pgCR + R.CR_SNAP_CMD) 1 ∧
      snapPending Tests.live = false ∧ snapPending { Tests.live with cnt := { snapReq := true } } = true) ∧
    ((Tests.logging false 246 0 1).flt.frozen = false ∧ (Tests.logging false 246 0 1).flt.general + 1 < 248 ∧
      (Tests.logging false 247 0 1).flt.general = 247 ∧ (Tests.logging true 248 7 3).flt.frozen = true ∧
      (Tests.logging true 248 7 3).flt.queue = { Tests.logged with eff := clsFATAL } :: [] ∧
      (Tests.logging true 248 7 3).flt.fatalUsed < 8 ∧ 8 ≤ (Tests.logging true 248 8 3).flt.fatalUsed) ∧
    ((Tests.buffer 127).cnt.periodicDue = true ∧ bufEnabled (Tests.buffer 127) = true ∧ sampModes (Tests.buffer 127) = true ∧
      bufPlaced (Tests.buffer 127) = true ∧ (snapSlots (Tests.buffer 127)).length ≤ bufFree (Tests.buffer 127) ∧
      bufFree (Tests.buffer 128) < (snapSlots (Tests.buffer 128)).length ∧ bufFree (Tests.buffer 128) = 0) ∧
    (Allowed Tests.live Tests.host (pgCR + R.CR_PC_VALUE_LO + 16 * 63 + 4) 5 ∧
      Allowed Tests.live Tests.host (pgCR + R.CR_PC_CLEAR + 4) 0x80000000 ∧
      Allowed Tests.live Tests.host (pgCR + R.CR_SAMP_CONS) 0xFFFFFFFF) ∧
    ((Tests.dues 7 63).cnt.due.find? (fun d => d.unit == 7) = some ⟨7, 0, 7⟩ ∧ (Tests.dues 7 63).cnt.queue.length < 64 ∧
      (Tests.dues 23 64).cnt.due.find? (fun d => d.unit == 23) = some ⟨23, 0, 7⟩ ∧ 64 ≤ (Tests.dues 23 64).cnt.queue.length ∧
      (Tests.buffer 127).cnt.queue = 1 :: [] ∧ bufFree (Tests.buffer 127) ≠ 0) := by
  exact ⟨by decide +kernel, by decide +kernel, by decide +kernel, by decide +kernel, by decide +kernel⟩

/-- The boot in a step, from a source; the fuses name the images' key in vendor slot 0 and customer slot 0. -/
def Tests.booting (step src : Nat) (failed host : Bool) : State :=
  Tests.field pgBOOT F.BOOT_BOOT_STATUS_AWAIT_HOST (if host then 1 else 0) (Tests.field pgBOOT F.BOOT_BOOT_STATUS_STEP step
    { Tests.live with md := { mode := .boot }, boot := { src := src, copy0Failed := failed },
                      fuse := { imageKey := List.replicate 32 0, vendorHash := [(0, Tests.modHash)], items := [(3, Tests.modHash)] } })

/-- The staging area holds `img`. -/
def Tests.staging (step : Nat) (img : List Byte) : State :=
  let s := Tests.booting step 1 false true
  { s with cores := { s.cores with sram := mput [] Config.stagingBase.val img } }

theorem Tests.staged (step : Nat) (img : List Byte) (hl : img.length = 832) (h0 : beNat ((img.drop 12).take 4) = 0) :
    stagedImage (Tests.staging step img) = img := by
  have hb := Config.stagingBase.isLt
  have hr : ∀ o n, o + n ≤ 832 → coreRd (Tests.staging step img) 16 (stageAddr o) n = (img.drop o).take n := by
    intro o n h
    have hreg : coreRegion (Tests.staging step img) (stageAddr o) n = .sram := by
      unfold coreRegion stageAddr
      simp only [Bool.and_eq_true, decide_eq_true_eq]
      split_ifs <;> first | rfl | omega
    have hs : stageAddr o - 0x20000000 = Config.stagingBase.val + o := by unfold stageAddr; omega
    simp only [coreRd, hreg, hs]
    apply List.ext_getElem
    · simp [bytesOf]; omega
    · intro k h1 h2
      simp only [bytesOf, List.length_map, List.length_range] at h1
      have hk : o + k < img.length := by omega
      simp only [bytesOf, List.getElem_map, List.getElem_range, List.getElem_take, List.getElem_drop]
      have := tget_mput_in img [] Config.stagingBase.val (o + k) hk
      rw [show Config.stagingBase.val + o + k = Config.stagingBase.val + (o + k) by omega]
      simpa [Tests.staging, hk] using this
  have h12 := hr 12 4 (by omega)
  have h := hr 0 832 (by omega)
  unfold stagedImage
  rw [h12, h0]
  simp only [Nat.zero_add]
  rw [if_pos (by omega), h]
  simp [← hl]

theorem witness_BootAndLifecycleOperations :
    (Tests.live.md.mode ≠ .reset ∧ State.reset.md.mode = .reset ∧ (Tests.live.fuse.retired = false ∧
      ({ Tests.live.fuse with retired := true } : FuseSt).retired = true)) ∧
    ((Tests.booting 7 0 false false).md.mode = .boot ∧ awaiting (Tests.booting 7 0 false false) = false ∧
      kindOfStep (bootStep (Tests.booting 7 0 false false)) = 4 ∧ (Tests.booting 7 0 true false).boot.copy0Failed = true ∧
      (Tests.booting 7 0 false false).fuse.returned = false ∧ kindOfStep (bootStep (Tests.booting 3 2 true false)) = 1 ∧
      (Tests.booting 3 2 true false).boot.noMore = false ∧ imageCheck (Tests.booting 3 2 true false) 1 [] ≠ 0) ∧
    imageCheck (Tests.booting 7 0 false false) 4 Tests.kernelImage = 0 ∧
    imageCheck (Tests.booting 3 0 false false) 1 Tests.bootImage = 0 ∧
    (Allowed (Tests.booting 3 1 false true) Tests.host (pgBOOT + R.BOOT_BOOT_DATA + 4 * 511) 5 ∧
      awaiting (Tests.booting 3 1 false true) = true ∧
      fg (Tests.booting 3 1 false true) pgBOOT F.BOOT_BOOT_ADDR_ADDR / 4 * 4 + 4 * 511 < 0x1000000 ∧
      0x1000000 ≤ fg (Tests.field pgBOOT F.BOOT_BOOT_ADDR_ADDR 0xFFFFFC (Tests.booting 3 1 false true)) pgBOOT
        F.BOOT_BOOT_ADDR_ADDR / 4 * 4 + 4 * 1) ∧
    (Allowed (Tests.booting 3 1 false true) Tests.host (pgBOOT + R.BOOT_BOOT_CMD) (BitVec.ofNat 32 (1 + 2 * 7)) ∧
      Allowed (Tests.booting 7 1 false true) Tests.host (pgBOOT + R.BOOT_BOOT_CMD) 16 ∧
      bootStep (Tests.booting 7 1 false true) = 7 ∧ bootStep (Tests.booting 6 2 false true) = 6 ∧
      (Tests.booting 6 2 false true).boot.src = 2 ∧ bootStep (Tests.booting 5 1 false true) = 5 ∧
      awaiting (Tests.booting 5 1 false true) = true ∧ awaiting (Tests.booting 6 2 false true) = true) ∧
    imageCheck (Tests.staging 3 Tests.bootImage) 1 (stagedImage (Tests.staging 3 Tests.bootImage)) = 0 ∧
    ((∀ c ∈ [(1, 7), (2, 0), (3, 7), (4, 0), (5, 0), (6, 0), (7, 7)],
      Allowed Tests.live (.sky 3) (pgLC + R.LC_LC_CMD) (BitVec.ofNat 32 (c.1 + 16 * c.2))) ∧ isCore Tests.host = false ∧
      lcBusy Tests.live = false ∧ lcBusy (Tests.field pgLC F.LC_LC_RESULT_BUSY 1 Tests.live) = true ∧
      plyStopped Tests.live = false ∧ plyStopped (Tests.field pgCLK F.CLK_PLY_STATUS_CORE_LOCK 0 Tests.live) = true) ∧
    (∀ op ∈ List.range 8, ({ Tests.live with boot := { lcWork := some ⟨op, 0, []⟩ } } : State).boot.lcWork = some ⟨op, 0, []⟩) := by
  refine ⟨by decide +kernel, by decide +kernel, by decide +kernel, Tests.bootImage_authentic _ rfl rfl rfl,
    by decide +kernel, by decide +kernel, ?_, by decide +kernel, by decide +kernel⟩
  rw [Tests.staged 3 _ (by decide +kernel) (by decide +kernel)]
  exact Tests.bootImage_authentic _ rfl rfl rfl

def Tests.inMode (m : Mode) : State := { Tests.live with md := { mode := m } }

/-- Recalibration is enabled, on a part with sealing or without; sealed with CAL_TOL 50 or not. -/
def Tests.recal (cap isSealed : Bool) : State :=
  Tests.field pgAGE F.AGE_AGE_CTRL_RECAL_EN 1 { Tests.live with fuse := { sealCap := cap }, sl := { isSealed := isSealed, calTol := 50 } }

theorem witness_ModesSuppliesAndAgeing :
    ((∀ v ∈ [(Mode.reset, false), (.calibrate, false), (.live, false), (.drain, false), (.dormant, true), (.dormant, false),
        (.diagnostic, false)], Allowed Tests.live Tests.host (pgMOD + R.MOD_MODE_REQ) (BitVec.ofNat 32 (v.1.code + if v.2 then 8 else 0))) ∧
      plyStopped Tests.live = false ∧ plyStopped (Tests.field pgCLK F.CLK_PLY_STATUS_CORE_LOCK 0 Tests.live) = true ∧
      Tests.live.md.req = none) ∧
    (let s := { Tests.inMode .calibrate with fuse := { hbm := false } }
     s.md.mode = .calibrate ∧ fgb s pgMOD F.MOD_MODE_STATUS_CAL_DONE = false ∧ s.md.latchFailed = false ∧ hbmReady s = true ∧
     ({ s with md := { s.md with latchFailed := true } } : State).md.latchFailed = true) ∧
    (let md : ModeSt := { mode := .dormant, busy := true, step := 5 }
     let s := Tests.field (mcB 15) F.HBM_MC_STATUS_TRAINED 1 { Tests.live with md := { md with srTries := [(15, 999)] } }
     s.md.mode = .dormant ∧ s.md.busy = true ∧ s.md.step = 5 ∧ s.fuse.hbm = true ∧ srState s 15 = srACTIVE ∧
     trained s 15 = true ∧ srTries s 15 < 1000 ∧ srTries { s with md := { md with srTries := [(15, 1000)] } } 15 = 1000 ∧
     ∀ c ∈ List.range 16, srSettled { s with md := { md with srTries := [(15, 1001)] } } c = true) ∧
    (let s := { Tests.live with md := { mode := .drain, drainPly := 750000 } }
     s.md.mode = .drain ∧ s.md.drainWarned = false ∧ s.md.drainPly + 25 * fg s pgMOD F.MOD_DRAIN_CTRL_DRAIN_MAX ≤ plyNat s) ∧
    (inReset Tests.up = false ∧ portOfLane Tests.up 0 = some 0 ∧ isUp Tests.up 0 = true ∧
      fg Tests.up pgAGE F.AGE_EYE_MIN_EYE_MIN_H ≤ 65535 ∧ ¬ fg Tests.up pgAGE F.AGE_EYE_MIN_EYE_MIN_H ≤ 0 ∧
      (getL (setL Tests.up 0 { eyeLow := 9 }) 0).eyeLow = 9) ∧
    (let s := Tests.recal true true
     let a := pgCAL + R.CAL_LANE_TRIM + 4 * 255
     s.elec.island = true ∧ fgb s pgAGE F.AGE_AGE_CTRL_RECAL_EN = true ∧ s.md.mode = .live ∧
     tget (fun _ => 0) s.elec.recalAt 255 = 0 ∧ max 1 (fg s pgAGE F.AGE_AGE_CTRL_RECAL_STEP) ≤ (50 : Int).natAbs ∧
     s.sl.isSealed = true ∧ logRoom s = true ∧ (Tests.recal false false).sl.isSealed = false ∧
     (Tests.recal false false).fuse.sealCap = false ∧
     (rawRd s a).toNat &&& sealedMask s a ≠ (BitVec.ofNat 32 (trunc 16 (sext 16 (fg s (pgCAL + 4 * 255) F.CAL_LANE_TRIM_TRIM) + 50))).toNat
       &&& sealedMask s a ∧
     tolField a (trunc 16 50) = some 50 ∧ tolField a (trunc 16 (-51)) = some (-51) ∧ tolField a (atSealing s a) = some 0 ∧
     s.sl.calTol = 50 ∧ s.sl.eventCount ≠ 0xFFFFFFFF) ∧
    (({ Tests.live with elec := { avsWait := some 255, gbAcked := 255 } } : State).elec.avsWait = some 255 ∧
      ({ Tests.live with elec := { avsWait := some 255, gbAcked := 255 } } : State).elec.gbAcked < 256) := by
  exact ⟨by decide +kernel, by decide +kernel, by decide +kernel, by decide +kernel, by decide +kernel, by decide +kernel,
    by decide +kernel⟩

/-! Ill-formed terms, one for each check of `Instr.wf`, which refuses them. -/

def Tests.host64 : SkyReq := Tests.sky opWRITE 0 0 1 [0]

theorem test_wf_addresses : (Instr.registerWrite Tests.host 2 0).wf = false ∧ (Instr.counterLowRead Tests.host 0x1000000).wf = false ∧
    (Instr.rcFieldRead Tests.host 1 none).wf = false ∧ (Instr.limitWrite Tests.host 0x1000000 0).wf = false ∧
    (Instr.sealedFieldWrite Tests.host 3 0).wf = false ∧ (Instr.registerWrite Tests.host 0xFFFFFC 0).wf = true := by decide

theorem test_wf_pages : (Instr.evtStatusClear Tests.host 0x1000 0 0).wf = false ∧ (Instr.evtInject Tests.host 0x1000 0).wf = false ∧
    (Instr.evtClassWrite Tests.host 0x1000 true 0).wf = false ∧ (Instr.softReset Tests.host 0x1000 0).wf = false ∧
    (Instr.evtInject Tests.host 0xFFF 0).wf = true := by decide

theorem test_wf_bounds : (Instr.plyEdge ⟨0, [(258, 0)], [], 0⟩).wf = false ∧
    (Instr.pfcFrameReceived 0 0 [0, 0, 0, 0, 0, 0, 0] true).wf = false ∧ (Instr.defectDeclare 0 15).wf = false ∧
    (Instr.defectClear 0 15).wf = false ∧ (Instr.ttiCycle 0 true []).wf = false ∧
    (Instr.storeScrub 0 true 8192 true true).wf = false ∧ (Instr.storeRepair 0 true 8192 true).wf = false ∧
    (Instr.cruiseAgeVisit (.deck 0 4096 0)).wf = false ∧ (Instr.skylineForward [] none).wf = false ∧
    (Instr.refclkLoss 7).wf = false ∧ (Instr.refclkRestored 7).wf = false ∧ Instr.kernelTick.wf = true := by decide

theorem test_wf_granules : (Instr.hbmRequest 0 1 none).wf = false ∧ (Instr.hbmRequest 0 64 (some [0])).wf = false ∧
    (Instr.hbmReadComplete 0 (List.replicate 5 (1, 1))).wf = false ∧ (Instr.hbmScrubRead 0 (List.replicate 5 (1, 1))).wf = false ∧
    (Instr.hbmRequest 0 64 none).wf = true := by decide

theorem test_wf_requests : (Instr.skyWrite { Tests.host64 with payload := List.replicate 65 0 }).wf = false ∧
    (Instr.skyRead { Tests.host64 with level := 1 }).wf = false ∧ (Instr.skyWrite Tests.host64).wf = true := by decide +kernel

/-! Worked examples of the spec, and check values of published algorithms. -/

/-- The check values of CRC-32 and CRC-32C over "123456789". -/
theorem test_crc_check_values : crc32 [0x31, 0x32, 0x33, 0x34, 0x35, 0x36, 0x37, 0x38, 0x39] = 0xCBF43926 ∧
    crc32c [0x31, 0x32, 0x33, 0x34, 0x35, 0x36, 0x37, 0x38, 0x39] = 0xE3069283 := by decide +kernel

/-- The capture example of Lanes and Ethernet Ports and the Brand example of Tally: port 16 on lane 16. -/
theorem test_capture_example :
    demarcAt (setL (Tests.words [(mapAddr 2, 9), (pgCAL + 0x400 + 4 * 16, 0x3D40)] Tests.live) 16
      { tam := (1735689600 * 1000000000 + 500000000) * 256, rxDelay := 0x2A80 }) 16 16 40000 =
    (1735689600 * 1000000000 + 500000084) * 256 + 124 ∧
    brandTT ((1735689600 * 1000000000 + 500000084) * 256 + 124) = 0x6774858077359551 := by decide +kernel

/-- The base record of the proof path example (R413). -/
theorem test_record_example : baseRecord
    { cap := { port := 16, t := (1735689600 * 1000000000 + 500000084) * 256 + 124, tq := 0 }, pipe := 0, flowIdx := 0x12D687,
      flowSeq := 0xA3C, digest := 0xD0D1D2D3D4D5D6D7, ply := 0, kind := 0, egress := 40 } 0 0 =
    beBytes 32 0x2100677485807735955100100012D68700000A3C00000028D0D1D2D3D4D5D6D7 := by decide +kernel

/-- Record 0x12D687 lies at controller 8, pseudo-channel 2 (R286, R287); the read sweep's eye is steps 37 to 84 (R307). -/
theorem test_memory_examples : ctlOf (0x12D687 * 128) = 8 ∧ pcOf (0x12D687 * 128) = 2 ∧ pcOf (0x12D687 * 128 + 64) = 3 ∧
    eyeOf (BitVec.ofNat 128 ((2 ^ 6 - 1) * 2 ^ 6 + (2 ^ 48 - 1) * 2 ^ 37)) = (37, 48) := by decide +kernel

/-- Lane 77's PAGE_ID; a controller's page in D and an unallocated page (the example of Register Page Index). -/
theorem test_page_examples :
    (readWord Tests.live Tests.host 0x8D000 0 none).1 = (.ok, 0x214D0101) ∧
    (readWord { Tests.live with fuse := { hbm := false } } Tests.host 0x305000 0 none).1 = (.ok, 0) ∧
    (readWord Tests.live Tests.host 0x283000 0 none).1 = (.error, 0) := by decide +kernel

/-- Thread 40 of priority 20 preempts thread 7 of priority 5 on core 3 (the example of Control Cores). -/
theorem test_next_example :
    let s := Tests.threads { threads := [(7, { Tests.thread .running with prio := 5, core := 3 }),
                                         (40, { Tests.thread .slotted with prio := 20, core := 3 })],
                             slot := [(3, some 40)], run := [(3, some 7)] }
    let t := Tests.after (.tdNext 3) s
    tget (fun _ => 0) t.dsp.result 3 = 0xD028 ∧ (getT t 40).st = .running ∧ (getT t 7).st = .ready ∧ queueAt t 5 = [7] ∧
    rd64 t (pgDSP + R.DSP_PREEMPTS) = 1 := by decide +kernel

/-- A second ECC_CE while the first stands unacknowledged is escalated to UCC (the example of Fault Aggregation). -/
theorem test_escalation_example :
    let s := Tests.words [(mcB 5 + oEVT_ENABLE, 3)] Tests.live
    let t := raise (raise s 0x305 0) 0x305 0
    t.flt.queue.map (fun e => (e.source, e.event, e.eff, e.esc)) = [(469, 0, 1, false), (469, 0, 2, true)] := by decide +kernel

/-- FIFO order: a step takes the command at the front; on an empty queue the ply is unchanged (log entry 4). -/
theorem test_step_takes_the_front :
    let s := { Tests.live with pending := [.snap Tests.host, .kernelTick] }
    (∃ t, step s = .next t ∧ t.pending = [.kernelTick] ∧ t.cnt.snapReq = true) ∧ ∃ t, step State.reset = .next t ∧ t.tm.ply = 0 := by
  exact ⟨⟨_, rfl, by decide +kernel, by decide +kernel⟩, ⟨_, rfl, by decide +kernel⟩⟩
end

section
/-! The step and the state after power-on (R21, R442). -/

namespace Sys2Proof.Machine

open Sys2Proof

/-! The step. -/

theorem step_cons {s : State} {c : Instr} {rest : List Instr} (h : s.pending = c :: rest) :
    step s = exec c { s with pending := rest } := by
  unfold step
  rw [h]

theorem step_nil {s : State} (h : s.pending = []) : step s = .next (kept s (coreCycle s)) := by
  unfold step
  rw [h]
  rfl

/-- Settles O1, from the two arms of `step`. -/
theorem stepRunsTheFrontCommand : Obligations.StepRunsTheFrontCommand :=
  fun _ => ⟨fun _ _ => step_cons, step_nil⟩

/-! Power-on. -/

theorem rawRd_reset (a : Nat) : rawRd State.reset a = regReset a := rfl

theorem effRd_reset (a : Nat) : effRd State.reset a = regReset a := rfl

/-- Settles O3: every table of the reset state is empty, so every register reads its Reset column. -/
theorem resetState : Obligations.ResetState :=
  ⟨rfl, rfl, rfl, fun a => ⟨rawRd_reset a, effRd_reset a⟩, rfl, rfl, rfl, rfl, rfl⟩
end Sys2Proof.Machine
end

section
/-! Fuses: how they grow through the operations that may blow them (R540, R541, R549-R554). -/

namespace Sys2Proof.Machine

open Sys2Proof

/-! Growth is a preorder that every fuse operation respects. -/

theorem grows_refl (f : FuseSt) : Grows f f := by simp [Grows]

theorem grows_trans {f g h : FuseSt} (hfg : Grows f g) (hgh : Grows g h) : Grows f h := by
  obtain ⟨a1, a2, a3, a4, a5, a6, a7, a8, a9, aCom, aRet, aRtd, aCust, aVend, aSpent, aSvn⟩ := hfg
  obtain ⟨b1, b2, b3, b4, b5, b6, b7, b8, b9, bCom, bRet, bRtd, bCust, bVend, bSpent, bSvn⟩ := hgh
  exact ⟨b1.trans a1, b2.trans a2, b3.trans a3, b4.trans a4, b5.trans a5, b6.trans a6, b7.trans a7, b8.trans a8,
    b9.trans a9, bCom ∘ aCom, bRet ∘ aRet, bRtd ∘ aRtd, fun k => bCust k ∘ aCust k, fun k => bVend k ∘ aVend k,
    fun i => bSpent i ∘ aSpent i, fun k => (aSvn k).trans (bSvn k)⟩

theorem grows_of_eq {f g : FuseSt} (h : g = f) : Grows f g := h ▸ grows_refl f

theorem grows_lcFuse (f : FuseSt) (o : LcOp) : Grows f (lcFuse f o) := by
  unfold lcFuse
  split
  · split <;> simp [Grows]
  all_goals simp +contextual [Grows, Nat.testBit_or]

theorem grows_spendItem (f : FuseSt) (i : Nat) : Grows f (spendItem f i) := by
  simp +contextual [Grows, spendItem]

theorem grows_fuseAfter (f : FuseSt) (o : LcOp) (r : Nat) : Grows f (fuseAfter f o r) := by
  unfold fuseAfter
  split
  · exact grows_lcFuse f o
  · split
    · exact grows_spendItem f _
    · exact grows_refl f

theorem grows_fuseCut (f : FuseSt) (o : LcOp) (blown : Bool) : Grows f (fuseCut f o blown) := by
  unfold fuseCut
  split
  · exact grows_spendItem f _
  · split
    · exact grows_lcFuse f o
    · exact grows_refl f

/-- An advance never lowers a minimum (R541). -/
theorem le_raiseSvn (up : List (Nat × Nat)) (m : Tab Nat) (k : Nat) :
    tget (fun _ => 0) m k ≤ tget (fun _ => 0) (raiseSvn m up) k := by
  induction up generalizing m with
  | nil => exact le_rfl
  | cons e up ih =>
    refine le_trans ?_ (ih _)
    dsimp only
    split
    · rw [tget_tset]
      split
      · subst_vars; omega
      · exact le_rfl
    · exact le_rfl

/-! The fuses that each part of an edge, a reset or a cut leaves. -/

theorem grows_lcFinish (s : State) : Grows s.fuse (lcFinish s).fuse := by
  unfold lcFinish
  split
  · exact grows_refl _
  · exact grows_fuseAfter ..

theorem grows_lcEdge (s : State) : Grows s.fuse (lcEdge s).fuse := grows_lcFinish s

theorem grows_svnAdvance (s : State) : Grows s.fuse (svnAdvance s).fuse := by
  unfold svnAdvance
  split
  · exact grows_refl _
  · have h := le_raiseSvn (s.boot.advance.filter (fun e => decide (tget (fun _ => 0) s.fuse.svnMin e.1 < e.2))) s.fuse.svnMin
    simpa [Grows] using h

theorem grows_modeEdge (s : State) : Grows s.fuse (modeEdge s).fuse := by
  unfold modeEdge
  dsimp only
  split
  · exact grows_svnAdvance (holdTime s _)
  · exact grows_refl _

theorem closeEdge_fuse (e : EdgeIn) (first : Bool) (prevTT m : Nat) (s : State) :
    (closeEdge e first prevTT m s).fuse = s.fuse := by
  unfold closeEdge
  dsimp only
  split <;> split <;> rfl

theorem grows_plyEdgeOp (e : EdgeIn) (s : State) : Grows s.fuse (plyEdgeOp e s).fuse := by
  unfold plyEdgeOp
  split
  · exact grows_refl _
  · dsimp only
    rw [closeEdge_fuse]
    refine grows_trans ?_ (grows_modeEdge _)
    rw [holdTime_fuse]
    refine grows_trans ?_ (grows_lcEdge _)
    rw [holdTime_fuse, hold_fuse]
    exact grows_refl _

theorem grows_lcCut (s : State) : Grows s.fuse (lcCut s).fuse := by
  unfold lcCut
  cases s.boot.lcDone with
  | none =>
    dsimp only
    split
    · exact grows_fuseCut ..
    · exact grows_refl _
  | some d =>
    dsimp only
    split
    · exact grows_trans (grows_fuseAfter ..) (grows_fuseCut ..)
    · exact grows_fuseAfter ..

theorem grows_hardReset (s : State) (rails : Bool) : Grows s.fuse (hardReset s rails).fuse := by
  unfold hardReset
  dsimp only
  rw [hold_fuse]
  exact grows_lcCut s

theorem grows_underVoltageOp (s : State) (rail : Nat) : Grows s.fuse (underVoltageOp s rail).fuse := by
  unfold underVoltageOp
  split
  · exact grows_refl _
  · dsimp only
    rw [hold_fuse]
    exact grows_hardReset s true

theorem grows_tripOp (s : State) : Grows s.fuse (tripOp s).fuse := by
  have h : (tripOp s).fuse = (hardReset s true).fuse := by simp [tripOp]
  rw [h]
  exact grows_hardReset s true

theorem grows_powerOnOp (s : State) : Grows s.fuse (powerOnOp s).fuse := by
  unfold powerOnOp
  dsimp only
  rw [hold_fuse]
  exact grows_hardReset s false

/-- Every command is an operation under `kept`, but for the edge and the four cuts, which may blow fuses. -/
theorem exec_eq_kept_or (c : Instr) (s : State) : (∃ u, exec c s = .next (kept s u)) ∨ (∃ e, c = .plyEdge e) ∨
    c = .rstNAssert ∨ (∃ rail, c = .underVoltage rail) ∨ c = .thermalTrip ∨ c = .diePowerOn := by
  cases c
  case plyEdge e => exact .inr (.inl ⟨e, rfl⟩)
  case rstNAssert => exact .inr (.inr (.inl rfl))
  case underVoltage rail => exact .inr (.inr (.inr (.inl ⟨rail, rfl⟩)))
  case thermalTrip => exact .inr (.inr (.inr (.inr (.inl rfl))))
  case diePowerOn => exact .inr (.inr (.inr (.inr (.inr rfl))))
  all_goals exact .inl ⟨_, rfl⟩

/-- A command that may blow fuses leaves those of its operation. -/
theorem fuse_keptQueue {c : Instr} {s t u : State} (h : exec c s = .next (keptQueue s t)) (h2 : exec c s = .next u) :
    u.fuse = t.fuse := by
  rw [h] at h2
  injection h2 with h2
  rw [← h2]
  rfl

theorem grows_exec (c : Instr) (s t : State) (h : exec c s = .next t) : Grows s.fuse t.fuse := by
  obtain ⟨u, hu⟩ | ⟨e, rfl⟩ | rfl | ⟨rail, rfl⟩ | rfl | rfl := exec_eq_kept_or c s
  · exact grows_of_eq (fuse_kept hu h)
  · rw [fuse_keptQueue (exec_plyEdge e s) h]; exact grows_plyEdgeOp e s
  · rw [fuse_keptQueue (exec_rstNAssert s) h]; exact grows_hardReset s true
  · rw [fuse_keptQueue (exec_underVoltage rail s) h]; exact grows_underVoltageOp s rail
  · rw [fuse_keptQueue (exec_thermalTrip s) h]; exact grows_tripOp s
  · rw [fuse_keptQueue (exec_diePowerOn s) h]; exact grows_powerOnOp s

/-- Settles O6, command by command: outside an edge and a cut the fuses are kept, and each fuse operation of an edge or
a cut only adds. -/
theorem fusesOnlyGrow : Obligations.FusesOnlyGrow := by
  intro s t _ h
  cases hp : s.pending with
  | nil =>
    rw [step_nil hp] at h
    cases h
    exact grows_refl _
  | cons c rest =>
    rw [step_cons hp] at h
    exact grows_exec c { s with pending := rest } t h

end Sys2Proof.Machine
end

section
/-! Accesses to pages without a block behind them (R9, R10). -/

namespace Sys2Proof.Machine

open Sys2Proof

/-! A page that does not answer: absent in the variant, or allocated in none. -/

theorem pageGate_absent {s : State} {page : Nat} {pi : PageInfo} (hp : pageInfo page = some pi)
    (ha : presentIn s pi.absentIn = false) : pageGate s page = .absent := by
  simp [pageGate, hp, ha]

theorem pageGate_unallocated {s : State} {page : Nat} (hp : pageInfo page = none) : pageGate s page = .unallocated := by
  simp [pageGate, hp]

/-- A write by an agent of sufficient level is not judged beyond its level. -/
theorem checkedWrite_of_level {s : State} {a : Agent} {addr : Nat} {v : Word}
    (hl : isCore a = false → writeLevel addr v ≤ agentLevel a) : checkedWrite s a addr v = writeWord s a addr v := by
  unfold checkedWrite
  rw [if_neg]
  simpa using hl

theorem regWrite_absent {s : State} {a : Agent} {addr : Nat} {v : Word} (h4 : addr % 4 = 0)
    (hg : pageGate s (addr / 0x1000) = .absent) (hl : isCore a = false → writeLevel addr v ≤ agentLevel a) :
    regWrite s a addr v = { s with reply := ⟨.ok, 0⟩ } := by
  simp [regWrite, checkedWrite_of_level hl, writeWord, h4, hg]

theorem regWrite_unallocated {s : State} {a : Agent} {addr : Nat} {v : Word} (h4 : addr % 4 = 0)
    (hg : pageGate s (addr / 0x1000) = .unallocated) (hl : isCore a = false → writeLevel addr v ≤ agentLevel a) :
    regWrite s a addr v = { s with reply := ⟨.error, 0⟩ } := by
  simp [regWrite, checkedWrite_of_level hl, writeWord, h4, hg]

/-- Only the counter reader's page, which every variant has, holds words that a level may not read (R520). -/
theorem mayRead_of_not_opened {s : State} {addr : Nat} (l : Nat)
    (hg : pageGate s (addr / 0x1000) = .absent ∨ pageGate s (addr / 0x1000) = .unallocated) : mayRead l addr = true := by
  have h7 : addr / 0x1000 ≠ 0x007 := by
    intro h
    rw [h] at hg
    simp [pageGate, pageInfo, findRange, pageRanges, presentIn, alwaysPage] at hg
  simp [mayRead, h7]

theorem regRead_absent {s : State} {a : Agent} {addr : Nat} (dt : Nat) (hw : Option Word) (h4 : addr % 4 = 0)
    (hg : pageGate s (addr / 0x1000) = .absent) : regRead s a addr dt hw = { s with reply := ⟨.ok, 0⟩ } := by
  simp [regRead, mayRead_of_not_opened _ (.inl hg), readWord, h4, hg]

theorem regRead_unallocated {s : State} {a : Agent} {addr : Nat} (dt : Nat) (hw : Option Word) (h4 : addr % 4 = 0)
    (hg : pageGate s (addr / 0x1000) = .unallocated) : regRead s a addr dt hw = { s with reply := ⟨.error, 0⟩ } := by
  simp [regRead, mayRead_of_not_opened _ (.inr hg), readWord, h4, hg]

/-- `kept` changes nothing of a state that left the queue and the fuses alone. -/
theorem kept_eq {s t : State} (hf : t.fuse = s.fuse) (hp : t.pending = s.pending) : kept s t = t := by
  unfold kept
  rw [← hf, ← hp]

/-- A command that comes to `t` and a reply completes with them. -/
theorem runs_reply {c : Instr} {s t u : State} {r : Reply} (h : exec c s = .next (kept s u))
    (hu : u = { t with reply := r }) (hf : t.fuse = s.fuse) (hp : t.pending = s.pending) :
    Runs c s (fun x => x = { t with reply := r }) :=
  runs_kept h (by rw [hu]; exact kept_eq hf hp)

/-- Settles O19: the gate of such a page is `absent`, where an access ends with its reply. -/
theorem absentPagesIgnoreAccesses : Obligations.AbsentPagesIgnoreAccesses := by
  intro s a addr pi h4 hp ha
  have hg := pageGate_absent hp ha
  exact ⟨fun v hl => runs_reply (exec_registerWrite a addr v s) (regWrite_absent h4 hg hl) rfl rfl,
    runs_reply (exec_counterLowRead a addr s) (regRead_absent _ _ h4 hg) rfl rfl,
    fun hw => runs_reply (exec_rcFieldRead a addr hw s) (regRead_absent _ _ h4 hg) rfl rfl⟩

/-- Settles O20: the gate of such a page is `unallocated`, where an access ends with its reply. -/
theorem unallocatedPagesReplyError : Obligations.UnallocatedPagesReplyError := by
  intro s a addr h4 hp
  have hg := pageGate_unallocated (s := s) hp
  exact ⟨fun v hl => runs_reply (exec_registerWrite a addr v s) (regWrite_unallocated h4 hg hl) rfl rfl,
    runs_reply (exec_counterLowRead a addr s) (regRead_unallocated _ _ h4 hg) rfl rfl,
    fun hw => runs_reply (exec_rcFieldRead a addr hw s) (regRead_unallocated _ _ h4 hg) rfl rfl⟩

end Sys2Proof.Machine
end

section
/-! The merge of a written word (R17): what each access code leaves of a bit, and that the fields of every register of
the map lie within their word, apart from each other. -/

namespace Sys2Proof.Machine

open Sys2Proof

/-! Bits of a field. -/

/-- Taking the common bits of `x` away from `o` clears them. -/
theorem testBit_sub_and (o x i : Nat) : (o - (o &&& x)).testBit i = (o.testBit i && !x.testBit i) := by
  have hhalf : ∀ o x : Nat, (o &&& x) / 2 = o / 2 &&& x / 2 := fun o x => Nat.and_div_two
  have hlow : ∀ o x : Nat, (o &&& x) % 2 = o % 2 &&& x % 2 := fun o x => Nat.and_mod_two_pow (n := 1)
  induction i generalizing o x with
  | zero =>
    have h0 := hlow o x
    have hle : (o &&& x) ≤ o := Nat.and_le_left
    simp only [Nat.testBit_zero]
    generalize o &&& x = y at h0 hle ⊢
    rcases Nat.mod_two_eq_zero_or_one o with ho | ho <;> rcases Nat.mod_two_eq_zero_or_one x with hx | hx <;>
      simp only [ho, hx] at h0 ⊢ <;> simp at h0 ⊢ <;> omega
  | succ i ih =>
    have hle : (o &&& x) % 2 ≤ o % 2 := hlow o x ▸ Nat.and_le_left
    have hdiv : (o - (o &&& x)) / 2 = o / 2 - (o / 2 &&& x / 2) := by
      rw [← hhalf]
      generalize o &&& x = y at hle ⊢
      omega
    simp only [Nat.testBit_succ, hdiv, ih]

theorem getLsbD_eq_testBit (w : Word) (k : Nat) : w.getLsbD k = w.toNat.testBit k := rfl

/-- Bit `k` of a word one of whose fields was written. -/
theorem getLsbD_setBits (w : Word) (lo wd x k : Nat) (h : lo + wd ≤ 32) :
    (setBits w lo wd x).getLsbD k = if lo ≤ k ∧ k < lo + wd then x.testBit (k - lo) else w.getLsbD k :=
  setBits_toNat_testBit w lo wd x k h

/-- A bit of a field, read through the field. -/
theorem testBit_bitsOf_sub (w : Word) {lo wd k : Nat} (h : lo ≤ k ∧ k < lo + wd) :
    (bitsOf w lo wd).testBit (k - lo) = w.getLsbD k := by
  have h1 : k - lo < wd := by omega
  have h2 : lo + (k - lo) = k := by omega
  rw [bitsOf_testBit, h2, getLsbD_eq_testBit]
  simp [h1]

/-! The merge, bit by bit. -/

/-- The bit that a write of `v` leaves in a field whose register held `old`; `w` is the bit so far. -/
def mergedBit (c : Acc) (old v w : Bool) : Bool :=
  match c with
  | .rw | .rwS => v
  | .w1c => old && !v
  | .w1s => old || v
  | .ro | .cnt | .rc | .wo => w

/-- A field's write decides the bits of the field, by its access code, and no other. -/
theorem getLsbD_mergeField (old v w : Word) (f : FieldSpec) (h : f.lo + f.width ≤ 32) (k : Nat) :
    (mergeField old v f w).getLsbD k =
      if f.lo ≤ k ∧ k < f.lo + f.width then mergedBit f.acc (old.getLsbD k) (v.getLsbD k) (w.getLsbD k)
      else w.getLsbD k := by
  unfold mergeField
  split
  case h_1 hacc | h_2 hacc => -- RW
    rw [getLsbD_setBits _ _ _ _ _ h, hacc]
    split
    · exact testBit_bitsOf_sub v ‹_›
    · rfl
  case h_3 hacc => -- W1C
    rw [getLsbD_setBits _ _ _ _ _ h, hacc]
    split
    · rw [testBit_sub_and, testBit_bitsOf_sub v ‹_›, testBit_bitsOf_sub old ‹_›]
      rfl
    · rfl
  case h_4 hacc => -- W1S
    rw [getLsbD_setBits _ _ _ _ _ h, hacc]
    split
    · rw [Nat.testBit_or, testBit_bitsOf_sub v ‹_›, testBit_bitsOf_sub old ‹_›]
      rfl
    · rfl
  all_goals
    next hacc =>
      rw [hacc]
      exact (ite_self _).symm

/-- The fields of one word: within its 32 bits, apart from each other. -/
def FieldsApart (fs : List FieldSpec) : Prop :=
  fs.Pairwise (fun f g => f.lo + f.width ≤ g.lo ∨ g.lo + g.width ≤ f.lo) ∧ ∀ f ∈ fs, f.lo + f.width ≤ 32

/-- A bit of no field keeps its value through the fold of the merge. -/
theorem getLsbD_foldl_mergeField_of_not_mem (fs : List FieldSpec) (old v w : Word) (h32 : ∀ f ∈ fs, f.lo + f.width ≤ 32)
    (k : Nat) (hk : ∀ f ∈ fs, k < f.lo ∨ f.lo + f.width ≤ k) :
    (fs.foldl (fun w f => mergeField old v f w) w).getLsbD k = w.getLsbD k := by
  induction fs generalizing w with
  | nil => rfl
  | cons g fs ih =>
    have hg := hk g (by simp)
    rw [List.foldl_cons, ih _ (fun f hf => h32 f (by simp [hf])) (fun f hf => hk f (by simp [hf])),
      getLsbD_mergeField _ _ _ _ (h32 g (by simp)), if_neg (by omega)]

/-- A bit of a field is decided where the fold of the merge comes to the field. -/
theorem getLsbD_foldl_mergeField_of_mem (fs : List FieldSpec) (old v w : Word) (ha : FieldsApart fs) (f : FieldSpec)
    (hf : f ∈ fs) (k : Nat) (hk : f.lo ≤ k ∧ k < f.lo + f.width) :
    (fs.foldl (fun w f => mergeField old v f w) w).getLsbD k =
      mergedBit f.acc (old.getLsbD k) (v.getLsbD k) (w.getLsbD k) := by
  obtain ⟨hp, h32⟩ := ha
  induction fs generalizing w with
  | nil => simp at hf
  | cons g fs ih =>
    obtain ⟨hg, hp⟩ := List.pairwise_cons.mp hp
    have h32' : ∀ f ∈ fs, f.lo + f.width ≤ 32 := fun f hf => h32 f (by simp [hf])
    rw [List.foldl_cons]
    rcases List.mem_cons.mp hf with rfl | hf
    · rw [getLsbD_foldl_mergeField_of_not_mem _ _ _ _ h32' _ (fun e he => by have := hg e he; omega),
        getLsbD_mergeField _ _ _ _ (h32 f (by simp)), if_pos hk]
    · have hout : ¬ (g.lo ≤ k ∧ k < g.lo + g.width) := by have := hg f hf; omega
      rw [ih _ hf hp h32', getLsbD_mergeField _ _ _ _ (h32 g (by simp)), if_neg hout]

/-! The register map. -/

/-- `FieldsApart` as a check. -/
def fieldsApart (fs : List FieldSpec) : Bool :=
  decide (fs.Pairwise (fun f g => f.lo + f.width ≤ g.lo ∨ g.lo + g.width ≤ f.lo)) &&
    fs.all (fun f => decide (f.lo + f.width ≤ 32))

theorem fieldsApart_iff (fs : List FieldSpec) : fieldsApart fs = true ↔ FieldsApart fs := by
  simp [fieldsApart, FieldsApart]

theorem rowsOf_apart (ty : Nat) : (rowsOf ty).all (fun r => r.words.all fieldsApart) = true := by
  unfold rowsOf
  split <;> decide +kernel

theorem commonFields_apart (o : Nat) : FieldsApart (commonFields o) := by
  rw [← fieldsApart_iff]
  unfold commonFields
  repeat' split
  all_goals decide

theorem mem_words_of_at? {r : RegRow} {o : Nat} {f : List FieldSpec} (h : r.at? o = some f) : f ∈ r.words := by
  simp only [RegRow.at?, Option.ite_none_left_eq_some] at h
  obtain ⟨-, -, -, -, h⟩ := h
  exact List.mem_of_getElem? h

/-- The fields found at an offset are those of a word of one of the rows, or none. -/
theorem findFields_mem (o : Nat) (rs : List RegRow) : findFields o rs = [] ∨ ∃ r ∈ rs, findFields o rs ∈ r.words := by
  induction rs with
  | nil => exact .inl rfl
  | cons r rs ih =>
    unfold findFields
    split
    next f hf => exact .inr ⟨r, by simp, mem_words_of_at? hf⟩
    · obtain h | ⟨r', hr', hm⟩ := ih
      · exact .inl h
      · exact .inr ⟨r', by simp [hr'], hm⟩

/-- The fields of every register lie within its word, apart from each other. -/
theorem fieldsAt_apart (ty o : Nat) : FieldsApart (fieldsAt ty o) := by
  unfold fieldsAt
  split
  · exact commonFields_apart o
  · rw [← fieldsApart_iff]
    obtain h | ⟨r, hr, hm⟩ := findFields_mem o (rowsOf ty)
    · rw [h]; decide
    · have h := rowsOf_apart ty
      rw [List.all_eq_true] at h
      exact List.all_eq_true.mp (h r hr) _ hm

/-- Settles O23, by induction on the fields, and for the register map by evaluating its rows. -/
theorem mergeFollowsTheAccessCodes : Obligations.MergeFollowsTheAccessCodes := by
  refine ⟨fun fs old v hp h32 => ⟨fun f hf k hlo hhi => ?_, fun k hk => ?_⟩, fieldsAt_apart⟩
  · rw [mergeWord, getLsbD_foldl_mergeField_of_mem fs old v old ⟨hp, h32⟩ f hf k ⟨hlo, hhi⟩]
    cases f.acc <;> rfl
  · exact getLsbD_foldl_mergeField_of_not_mem fs old v old h32 k hk

end Sys2Proof.Machine
end

section
/-! Reads (R16, R17, R20, R157, R480): which words latch, what a read answers, and what it leaves alone. -/

namespace Sys2Proof.Machine

open Sys2Proof

/-! The latches of R16. -/

@[simp] theorem getLatch_setLatch_self (s : State) (a : Agent) (addr : Nat) (v : Word) :
    getLatch (setLatch s a addr v) a addr = v := tget_tset_self _ _ _ _

/-- The latches of other agents and of other counters keep their values. -/
theorem getLatch_setLatch_ne (s : State) (a b : Agent) (addr x : Nat) (v : Word)
    (h : agentIx b ≠ agentIx a ∨ x ≠ addr) (hx : x < 2 ^ 24) (ha : addr < 2 ^ 24) :
    getLatch (setLatch s a addr v) b x = getLatch s b x := by
  refine tget_tset_ne _ _ _ _ _ ?_
  simp only [latchKey]
  omega

@[simp] theorem rawRd_setLatch (s : State) (a : Agent) (addr : Nat) (v : Word) (x : Nat) :
    rawRd (setLatch s a addr v) x = rawRd s x := rfl

/-! Which words latch. -/

theorem pcLoOf_isSome (o : Nat) : (pcLoOf o).isSome = true ↔ 0x104 ≤ o ∧ o < 0x504 ∧ (o - 0x104) % 16 = 0 := by
  unfold pcLoOf
  split <;> simp_all

/-- The words beside the performance counters' values hold no counter of 64 bits. -/
theorem reader_not_cnt : ∀ k < 64,
    (fieldsAt 0x08 (0x100 + 16 * k)).any (fun f => f.acc == .cnt) = false ∧
    (fieldsAt 0x08 (0x108 + 16 * k)).any (fun f => f.acc == .cnt) = false := by decide +kernel

theorem counterLow_aligned {s : State} {addr : Nat} (h : counterLow s addr = true) : addr % 8 = 0 := by
  simp only [counterLow, Bool.and_eq_true, beq_iff_eq] at h
  exact h.1.2

theorem counterLow_reader {s : State} {addr : Nat} (hp : addr / 0x1000 = 0x007) (hlo : 0x100 ≤ addr % 0x1000)
    (hhi : addr % 0x1000 < 0x500) : counterLow s addr = false := by
  rw [Bool.eq_false_iff]
  intro h
  have h8 := counterLow_aligned h
  obtain ⟨hsel, hcnt⟩ := reader_not_cnt ((addr % 0x1000 - 0x100) / 16) (by omega)
  simp only [counterLow, hp, Bool.and_eq_true] at h
  have h := h.2
  rcases (show addr % 0x1000 = 0x100 + 16 * ((addr % 0x1000 - 0x100) / 16) ∨
      addr % 0x1000 = 0x108 + 16 * ((addr % 0x1000 - 0x100) / 16) by omega) with e | e
  · rw [e] at h
    exact absurd (hsel.symm.trans h) (by decide)
  · rw [e] at h
    exact absurd (hcnt.symm.trans h) (by decide)

/-- A word that latches is the value of a performance counter, or is aligned to 8 bytes outside their block. -/
theorem low64_place {s : State} {addr v : Nat} (h : low64 s addr = some v) :
    (addr / 0x1000 = 0x007 ∧ 0x104 ≤ addr % 0x1000 ∧ addr % 0x1000 < 0x504 ∧ (addr % 0x1000 - 0x104) % 16 = 0) ∨
    (addr % 8 = 0 ∧ ¬ (addr / 0x1000 = 0x007 ∧ 0x100 ≤ addr % 0x1000 ∧ addr % 0x1000 < 0x500)) := by
  unfold low64 at h
  dsimp only at h
  split at h
  case isTrue hply =>
    simp only [R.CLK_PLY_COUNT_LO] at hply
    exact .inr (by omega)
  split at h
  case isTrue hpage =>
    simp only [oPAGE_PLY] at hpage
    exact .inr (by omega)
  split at h
  case isTrue hpc =>
    rw [pcLoOf_isSome] at hpc
    exact .inl hpc
  split at h
  case isTrue hsnap => exact .inr (by omega)
  split at h
  case isTrue hcnt =>
    refine .inr ⟨counterLow_aligned hcnt, fun ⟨hp, hlo, hhi⟩ => ?_⟩
    rw [counterLow_reader hp hlo hhi] at hcnt
    cases hcnt
  case isFalse => cases h

/-- The word after one that latches does not latch. -/
theorem low64_next {s : State} {addr v : Nat} (h : low64 s addr = some v) : low64 s (addr + 4) = none := by
  rw [Option.eq_none_iff_forall_ne_some]
  intro w hw
  rcases low64_place h with h | h <;> rcases low64_place hw with hw | hw <;> omega

theorem tallyTime_not_cnt : ∀ o < 0x50, (fieldsAt 0x10 o).any (fun f => f.acc == .cnt) = false := by decide +kernel

/-- Tally Time's words do not latch by R16. -/
theorem low64_tallyTime (s : State) {addr : Nat} (hlo : 0x10034 ≤ addr) (hhi : addr < 0x10050) :
    low64 s addr = none := by
  have hpg : addr / 0x1000 = 0x010 := by omega
  have ho : addr % 0x1000 < 0x50 := by omega
  have hc : counterLow s addr = false := by
    have h := tallyTime_not_cnt _ ho
    simp only [counterLow, hpg]
    rw [show pageType 0x010 = 0x10 from rfl, h, Bool.and_false]
  unfold low64
  simp only [hpg, hc]
  rw [if_neg (by omega), if_neg (by simp only [oPAGE_PLY]; omega), if_neg (by omega), if_neg (by omega)]
  rfl

/-- A word that latches, and the one after, are none of Tally Time's. -/
theorem not_tallyTime_of_low64 {s : State} {addr v : Nat} (h : low64 s addr = some v) :
    addr < 0x10034 ∨ 0x10050 ≤ addr := by
  by_contra hc
  rw [low64_tallyTime s (by omega) (by omega)] at h
  cases h

theorem isTTRest_eq_false {addr : Nat} (h : addr < 0x10044 ∨ 0x10050 ≤ addr) : isTTRest addr = false := by
  simp only [isTTRest, pgTT, pb, R.TT_TT_FRAC, R.TT_TT_SEC_LO, R.TT_TT_SEC_HI, Bool.or_eq_false_iff, beq_eq_false_iff_ne]
  omega

/-! What an open page reads. -/

/-- The low word of a 64-bit counter latches its high word for the reader. -/
theorem readOpen_low {s : State} {a : Agent} {pi : PageInfo} {addr v : Nat} (dt : Nat) (hw : Option Word)
    (h : low64 s addr = some v) :
    readOpen s a pi addr dt hw = (half v false, setLatch s a addr (half v true)) := by
  have htt := not_tallyTime_of_low64 h
  unfold readOpen
  dsimp only
  rw [if_neg (by simp only [pgTT, pb, R.TT_TT_NS]; omega), if_neg (by simp [isTTRest_eq_false (addr := addr) (by omega)]), h]

/-- The high word reads as the reader latched it. -/
theorem readOpen_high {s : State} {a : Agent} {pi : PageInfo} {addr v : Nat} (dt : Nat) (hw : Option Word)
    (h4 : (addr + 4) % 4 = 0) (h : low64 s addr = some v) :
    readOpen s a pi (addr + 4) dt hw = (getLatch s a addr, s) := by
  have htt := not_tallyTime_of_low64 h
  have hplace := low64_place h
  unfold readOpen
  dsimp only
  rw [if_neg (by simp only [pgTT, pb, R.TT_TT_NS]; omega), if_neg (by simp [isTTRest_eq_false (addr := addr + 4) (by omega)]),
    low64_next h]
  dsimp only
  rw [Nat.add_sub_cancel, if_pos ⟨by omega, by rw [h]; rfl⟩]

/-- An ordinary register reads as it shows; a reader above level 0 clears its RC fields. -/
theorem readOpen_plain {s : State} {a : Agent} {pi : PageInfo} {addr : Nat} (dt : Nat) (hw : Option Word)
    (hpg : addr / 0x1000 ≠ 0x010) (ho : 0x40 ≤ addr % 0x1000) (h : low64 s addr = none) (h4 : low64 s (addr - 4) = none) :
    readOpen s a pi addr dt hw =
      (showWord s (agentLevel a) pi (addr / 0x1000) (addr % 0x1000),
       if isCore a || agentLevel a != 0 then clearRc s addr hw else s) := by
  unfold readOpen
  dsimp only
  rw [if_neg (by simp only [pgTT, pb, R.TT_TT_NS]; omega), if_neg (by simp [isTTRest_eq_false (addr := addr) (by omega)]), h]
  dsimp only
  rw [if_neg (by simp [h4]), if_neg (by simp only [oEVT_STATUS]; omega)]
  by_cases hc : (isCore a || agentLevel a != 0) = true
  · rw [if_pos (by simpa using hc), if_pos hc]
  · rw [if_neg (by simpa using hc), if_neg hc]

theorem readOpen_TT_NS (s : State) (a : Agent) (pi : PageInfo) (dt : Nat) (hw : Option Word) :
    readOpen s a pi (pgTT + R.TT_TT_NS) dt hw = readTT s a dt := by
  unfold readOpen
  exact if_pos rfl

/-! RC fields. -/

theorem fieldMask_lt (fs : List FieldSpec) (p : Acc → Bool) (h : ∀ f ∈ fs, f.lo + f.width ≤ 32) :
    fieldMask fs p < 2 ^ 32 := by
  suffices gen : ∀ m < 2 ^ 32, fs.foldl (fun m f => if p f.acc then m ||| (2 ^ f.width - 1) <<< f.lo else m) m < 2 ^ 32 from
    gen 0 (by omega)
  induction fs with
  | nil => exact fun m hm => hm
  | cons f fs ih =>
    intro m hm
    refine ih (fun g hg => h g (by simp [hg])) _ ?_
    dsimp only
    split
    · refine Nat.or_lt_two_pow hm ?_
      calc (2 ^ f.width - 1) <<< f.lo
          < 2 ^ f.width <<< f.lo := by
            rw [Nat.shiftLeft_eq, Nat.shiftLeft_eq]
            exact Nat.mul_lt_mul_of_pos_right (Nat.sub_lt (Nat.two_pow_pos _) (by omega)) (Nat.two_pow_pos _)
        _ = 2 ^ (f.width + f.lo) := by rw [Nat.shiftLeft_eq, Nat.pow_add]
        _ ≤ 2 ^ 32 := Nat.pow_le_pow_right (by omega) (by have := h f (by simp); omega)
    · exact hm

/-- The RC fields of the register at `addr`, as a mask. -/
def rcMask (addr : Nat) : Nat := fieldMask (fieldsAt (pageType (addr / 0x1000)) (addr % 0x1000)) (fun c => c == .rc)

theorem rcMask_lt (addr : Nat) : rcMask addr < 2 ^ 32 := fieldMask_lt _ _ (fieldsAt_apart _ _).2

/-- A read clears the RC fields but for what the hardware writes there in the same cycle (R20). -/
theorem getLsbD_clearRc (s : State) (addr : Nat) (hw : Option Word) {k : Nat} (hk : k < 32) :
    (rawRd (clearRc s addr hw) addr).getLsbD k =
      if (rcMask addr).testBit k then (hw.getD 0).getLsbD k else (rawRd s addr).getLsbD k := by
  have hmask : ∀ m < 2 ^ 32, (0xFFFFFFFF - m).testBit k = !m.testBit k := by
    intro m hm
    have h := Nat.testBit_two_pow_sub_succ hm k
    simpa [hk, show 2 ^ 32 - (m + 1) = 0xFFFFFFFF - m by omega] using h
  unfold clearRc
  dsimp only
  rw [show fieldMask _ _ = rcMask addr from rfl]
  split
  next h0 => simp [h0]
  · rw [rawRd_rawWr_self, BitVec.getLsbD_ofNat, Nat.testBit_or, Nat.testBit_and, hmask _ (rcMask_lt addr)]
    simp only [hk, decide_true, Bool.true_and]
    cases hw <;> cases h : (rcMask addr).testBit k <;> simp [h, getLsbD_eq_testBit]

theorem rawRd_clearRc_ne (s : State) (addr : Nat) (hw : Option Word) {x : Nat} (h : x ≠ addr) :
    rawRd (clearRc s addr hw) x = rawRd s x := by
  unfold clearRc
  dsimp only
  split
  · rfl
  · exact rawRd_rawWr_ne _ _ _ _ h

@[simp] theorem clearRc_hbm (s : State) (addr : Nat) (hw : Option Word) : (clearRc s addr hw).hbm = s.hbm := by
  unfold clearRc
  dsimp only
  split <;> simp

/-! The reading commands. -/

/-- COUNTER_LOW_READ of a low word answers it and latches the high word. -/
theorem regRead_low {s : State} {a : Agent} {addr v : Nat} (dt : Nat) (hw : Option Word) (hr : Readable s a addr)
    (h : low64 s addr = some v) :
    regRead s a addr dt hw = { setLatch s a addr (half v true) with reply := ⟨.ok, half v false⟩ } := by
  obtain ⟨pi, hp⟩ := opened_info s _ hr.2.1
  rw [regRead_open s a addr dt hw pi hr hp, readOpen_low dt hw h]

/-- A read of the high word answers the reader's latch. -/
theorem regRead_high {s : State} {a : Agent} {addr v : Nat} (dt : Nat) (hw : Option Word) (hr : Readable s a (addr + 4))
    (h : low64 s addr = some v) : regRead s a (addr + 4) dt hw = { s with reply := ⟨.ok, getLatch s a addr⟩ } := by
  obtain ⟨pi, hp⟩ := opened_info s _ hr.2.1
  rw [regRead_open s a (addr + 4) dt hw pi hr hp, readOpen_high dt hw hr.1 h]

/-- Page 0x010 is the one of its type. -/
theorem page_ne_tallyTime {page : Nat} {pi : PageInfo} (hp : pageInfo page = some pi) (hty : pi.type ≠ 0x10) :
    page ≠ 0x010 := by
  rintro rfl
  cases hp
  exact hty rfl

theorem pageType_of_pageInfo {page : Nat} {pi : PageInfo} (hp : pageInfo page = some pi) : pageType page = pi.type := by
  simp [pageType, hp]

/-- A read of an ordinary register. -/
theorem regRead_plain {s : State} {a : Agent} {addr : Nat} {pi : PageInfo} (dt : Nat) (hw : Option Word)
    (hr : Readable s a addr) (hp : pageInfo (addr / 0x1000) = some pi) (ho : 0x40 ≤ addr % 0x1000)
    (h : low64 s addr = none) (h4 : low64 s (addr - 4) = none) (hty : pi.type ≠ 0x10) :
    regRead s a addr dt hw =
      { (if isCore a || agentLevel a != 0 then clearRc s addr hw else s) with
        reply := ⟨.ok, showWord s (agentLevel a) pi (addr / 0x1000) (addr % 0x1000)⟩ } := by
  rw [regRead_open s a addr dt hw pi hr hp, readOpen_plain dt hw (page_ne_tallyTime hp hty) ho h h4]

/-- TT_NS_READ answers the nanoseconds and latches the rest. -/
theorem regRead_TT_NS {s : State} {a : Agent} (dt : Nat) (hw : Option Word) (hr : Readable s a (pgTT + R.TT_TT_NS)) :
    regRead s a (pgTT + R.TT_TT_NS) dt hw = { (readTT s a dt).2 with reply := ⟨.ok, (readTT s a dt).1⟩ } := by
  obtain ⟨pi, hp⟩ := opened_info s _ hr.2.1
  rw [regRead_open s a _ dt hw pi hr hp, readOpen_TT_NS]

theorem getLatch_readTT (s : State) (a : Agent) (dt : Nat) :
    getLatch (readTT s a dt).2 a (pgTT + R.TT_TT_FRAC) = BitVec.ofNat 32 (ttNow s dt % 256) ∧
    getLatch (readTT s a dt).2 a (pgTT + R.TT_TT_SEC_LO) = BitVec.ofNat 32 (ttNow s dt / sec256) ∧
    getLatch (readTT s a dt).2 a (pgTT + R.TT_TT_SEC_HI) = BitVec.ofNat 32 (ttNow s dt / sec256 / 2 ^ 32 % 2 ^ 16) := by
  have apart : ∀ (t : State) (v : Word) (x y : Nat), x ≠ y → x < 2 ^ 24 → y < 2 ^ 24 →
      getLatch (setLatch t a y v) a x = getLatch t a x :=
    fun t v x y h hx hy => getLatch_setLatch_ne t a a y x v (.inr h) hx hy
  unfold readTT
  refine ⟨?_, ?_, getLatch_setLatch_self ..⟩
  · rw [apart _ _ _ _ (by decide) (by decide) (by decide), apart _ _ _ _ (by decide) (by decide) (by decide),
      getLatch_setLatch_self]
  · rw [apart _ _ _ _ (by decide) (by decide) (by decide), getLatch_setLatch_self]

/-- Settles O24: one reading rule per kind of word, each with its frame. -/
theorem readsLatchAndClear : Obligations.ReadsLatchAndClear := by
  refine fun s a => ⟨fun addr v hr h => ?_, fun addr v hw hr h => ?_, fun addr hw pi hr hp ho h h4 hty => ?_,
    fun dt hr => ?_⟩
  · refine runs_kept (exec_counterLowRead a addr s) ?_
    rw [regRead_low _ _ hr h]
    exact ⟨rfl, getLatch_setLatch_self s a addr _,
      fun b x hne hx ha => getLatch_setLatch_ne s a b addr x _ hne hx ha, fun x => rfl, rfl⟩
  · refine runs_kept (exec_rcFieldRead a (addr + 4) hw s) ?_
    rw [regRead_high _ _ hr h]
    rfl
  · refine runs_kept (exec_rcFieldRead a addr hw s) ?_
    have hmask : fieldMask (fieldsAt pi.type (addr % 0x1000)) (fun c => c == .rc) = rcMask addr := by
      rw [rcMask, pageType_of_pageInfo hp]
    rw [regRead_plain _ _ hr hp ho h h4 hty, hmask]
    by_cases hc : (isCore a || agentLevel a != 0) = true
    · simp only [hc, if_true, Bool.true_and]
      exact ⟨rfl, fun k hk => getLsbD_clearRc s addr hw hk, fun x hx => rawRd_clearRc_ne s addr hw hx, clearRc_hbm s addr hw⟩
    · simp only [Bool.not_eq_true] at hc
      simp only [hc, Bool.false_eq_true, if_false, Bool.false_and]
      exact ⟨rfl, fun k _ => rfl, fun x _ => rfl, rfl⟩
  · refine runs_kept (exec_ttNsRead a dt s) ?_
    rw [regRead_TT_NS _ _ hr]
    obtain ⟨hfrac, hlo, hhi⟩ := getLatch_readTT s a dt
    exact ⟨rfl, hfrac, hlo, hhi, fun x => rfl, rfl⟩

end Sys2Proof.Machine
end

section
/-! Page controls and events (R19, R501, R504-R508, R582): accesses to the common layout, acknowledgement, and what an
occurrence does to EVT_STATUS. -/

namespace Sys2Proof.Machine

open Sys2Proof

/-! The fold over an index range. -/

/-- Induction over the turns of `upTo`. -/
theorem upTo_ind {n : Nat} {f : State → Nat → State} {s : State} (P : Nat → State → Prop) (h0 : P 0 s)
    (hstep : ∀ k t, k < n → P k t → P (k + 1) (f t k)) : P n (upTo n f s) := by
  induction n with
  | zero => exact h0
  | succ n ih =>
    rw [upTo, List.range_succ, List.foldl_append]
    exact hstep n _ (by omega) (ih (fun k t hk => hstep k t (by omega)))

/-! Accesses to the common layout. -/

theorem pb_add_div (page : Nat) {o : Nat} (h : o < 0x1000) : (pb page + o) / 0x1000 = page := by
  simp only [pb]
  omega

theorem pb_add_mod (page : Nat) {o : Nat} (h : o < 0x1000) : (pb page + o) % 0x1000 = o := by
  simp only [pb]
  omega

/-- An allowed write below offset 0x040 is the common layout's. -/
theorem regWrite_common {s t : State} {a : Agent} {page o : Nat} {v : Word} {r : Res} (ho : o < 0x40)
    (h : Allowed s a (pb page + o) v) (hw : writeCommon s a page o v = (r, t)) (hd : isCore a = true → r ≠ .denied) :
    regWrite s a (pb page + o) v = { t with reply := ⟨r, 0⟩ } := by
  obtain ⟨pi, hp⟩ := opened_info s _ h.2.1
  have hopen : writeOpen s a pi ((pb page + o) / 0x1000) ((pb page + o) % 0x1000) v = (r, t) := by
    rw [pb_add_div page (by omega), pb_add_mod page (by omega), ← hw]
    exact if_pos ho
  rw [regWrite_open s a _ v pi h hp (by rwa [hopen]), hopen]

theorem pagePresent_of_opened {s : State} {page : Nat} (h : pageGate s page = .opened) : pagePresent s page = true := by
  unfold pageGate at h
  unfold pagePresent
  split at h
  · cases h
  · split at h
    next hp _ => cases h
    next pi hp hpres => simpa [hp] using hpres

theorem pagePresent_congr {s t : State} (h : t.fuse = s.fuse) (page : Nat) : pagePresent t page = pagePresent s page := by
  unfold pagePresent
  split
  next pi _ => cases hpi : pi.absentIn <;> simp [presentIn, h]
  · rfl

/-! PAGE_CTRL. -/

/-- SOFT_RESET is bit 1: setting it leaves the other bits. -/
theorem bitsOf_or_two (v : Word) {lo : Nat} (h : lo ≠ 1) : bitsOf (v ||| 2) lo 1 = bitsOf v lo 1 := by
  apply Nat.eq_of_testBit_eq
  intro i
  rw [bitsOf_testBit, bitsOf_testBit, BitVec.toNat_or, Nat.testBit_or]
  by_cases hi : i < 1
  · have h2 : (2 : Word).toNat.testBit (lo + i) = false := by
      rw [show (2 : Word).toNat = 2 ^ 1 from rfl, Nat.testBit_two_pow]
      simpa using by omega
    rw [h2, Bool.or_false]
  · simp [hi]

theorem getLsbD_or_two (v : Word) : (v ||| 2).getLsbD 1 = true := by simp

theorem rawWr_md (s : State) (a : Nat) (v : Word) : (rawWr s a v).md = s.md := rfl

/-- SOFT_RESET in DIAGNOSTIC on a page that can be reset. -/
theorem pageCtrlOp_soft {s : State} {page : Nat} {v : Word} (hcap : ctrlCap (pageType page) = true)
    (hm : s.md.mode = .diagnostic) :
    ∃ l, page ∈ l ∧ pageCtrlOp s page (v ||| 2) =
      (.ok, setMd (rawWr s (pb page + oPAGE_CTRL) (BitVec.ofNat 32 (bitsOf v 0 1 + 4 * bitsOf v 2 1)))
        { s.md with softReset := l }) := by
  unfold pageCtrlOp
  dsimp only
  rw [if_neg (by simp [hcap, hm]), bitsOf_or_two v (show 0 ≠ 1 by omega), bitsOf_or_two v (show 2 ≠ 1 by omega), hcap,
    if_pos rfl, getLsbD_or_two, Bool.true_and]
  by_cases hin : s.md.softReset.contains page = true
  · exact ⟨s.md.softReset, by simpa using hin, by rw [rawWr_md, hin]; rfl⟩
  · exact ⟨s.md.softReset ++ [page], by simp, by rw [rawWr_md, if_pos (by simpa using hin)]⟩

/-- SOFT_RESET elsewhere is an error. -/
theorem pageCtrlOp_refused {s : State} {page : Nat} {v : Word}
    (h : ctrlCap (pageType page) = false ∨ s.md.mode ≠ .diagnostic) : pageCtrlOp s page (v ||| 2) = (.error, s) := by
  unfold pageCtrlOp
  refine if_pos ?_
  rw [getLsbD_or_two]
  obtain h | h := h <;> simp [h]

/-! Bits of EVT_STATUS. -/

theorem rawRd_setBit_self (s : State) (a b : Nat) (v : Bool) :
    rawRd (setBit s a b v) a = setBits (rawRd s a) b 1 (if v then 1 else 0) := rawRd_rawWr_self ..

theorem getLsbD_setBit_self (s : State) (a : Nat) {b : Nat} (hb : b < 32) (v : Bool) (k : Nat) :
    (rawRd (setBit s a b v) a).getLsbD k = if k = b then v else (rawRd s a).getLsbD k := by
  rw [rawRd_setBit_self, getLsbD_setBits _ _ _ _ _ (by omega)]
  by_cases h : k = b
  · subst h
    cases v <;> simp
  · rw [if_neg (by omega), if_neg h]

theorem evStatus_congr {s t : State} {page : Nat} (h : rawRd t (pb page + oEVT_STATUS) = rawRd s (pb page + oEVT_STATUS))
    (b : Nat) : evStatus t page b = evStatus s page b := by
  unfold evStatus
  rw [h]

theorem evStatus_setBit (s : State) (page : Nat) {b : Nat} (hb : b < 32) (v : Bool) (k : Nat) :
    evStatus (setBit s (pb page + oEVT_STATUS) b v) page k = if k = b then v else evStatus s page k :=
  getLsbD_setBit_self s _ hb v k

theorem eventCount_lt (page : Nat) : eventCount page < 32 := by
  unfold eventCount evClasses
  split <;> decide

/-! Acknowledgement. -/

theorem evKey_inj {page b k : Nat} : evKey page k = evKey page b ↔ k = b := by
  simp [evKey]

theorem notEvents_dropEvent (s : State) (page b : Nat) : notEvents (dropEvent s page b) = notEvents s := rfl

/-- The registers that an acknowledgement writes. -/
theorem rawRd_dropEvent_eq (s : State) (page b x : Nat) : rawRd (dropEvent s page b) x =
    rawRd (setBit (setBit (setBit s (pb page + oEVT_STATUS) b false) (pb page + oEVT_INJECTED) b false)
      (pb page + oEVT_TRANSIENT) b false) x := rfl

theorem rawRd_dropEvent_cause (s : State) (page b : Nat) :
    rawRd (dropEvent s page b) (pb page + oEVT_CAUSE) = rawRd s (pb page + oEVT_CAUSE) := by
  rw [rawRd_dropEvent_eq, rawRd_setBit_ne _ _ _ _ _ (by simp), rawRd_setBit_ne _ _ _ _ _ (by simp),
    rawRd_setBit_ne _ _ _ _ _ (by simp)]

theorem evStatus_dropEvent (s : State) (page : Nat) {b : Nat} (hb : b < 32) (k : Nat) :
    evStatus (dropEvent s page b) page k = if k = b then false else evStatus s page k := by
  rw [← evStatus_setBit s page hb]
  refine evStatus_congr ?_ k
  rw [rawRd_dropEvent_eq, rawRd_setBit_ne _ _ _ _ _ (by simp), rawRd_setBit_ne _ _ _ _ _ (by simp)]

theorem heldClass_dropEvent (s : State) (page b k : Nat) :
    heldClass (dropEvent s page b) page k = if k = b then 0 else heldClass s page k := by
  unfold heldClass dropEvent
  dsimp only
  rw [tget_tset]
  simp only [evKey_inj]
  rfl

/-- What the acknowledgement of the bits of `v` below `n` leaves of state `s` (R504-R506). -/
structure Acked (s : State) (page : Nat) (v : Word) (n : Nat) (t : State) : Prop where
  rest : notEvents t = notEvents s
  cause : rawRd t (pb page + oEVT_CAUSE) = rawRd s (pb page + oEVT_CAUSE)
  gone : ∀ b < n, v.getLsbD b = true → (rawRd s (pb page + oEVT_CAUSE)).getLsbD b = false →
    evStatus t page b = false ∧ (evStatus s page b = true → heldClass t page b = 0)
  stays : ∀ b, n ≤ b ∨ v.getLsbD b = false ∨ (rawRd s (pb page + oEVT_CAUSE)).getLsbD b = true →
    evStatus t page b = evStatus s page b ∧ heldClass t page b = heldClass s page b

/-- A turn that leaves bit `n` as it was, rightly. -/
theorem Acked.skip {s t : State} {page n : Nat} {v : Word} (h : Acked s page v n t)
    (hn : v.getLsbD n = true → (rawRd s (pb page + oEVT_CAUSE)).getLsbD n = false → evStatus t page n = false) :
    Acked s page v (n + 1) t := by
  refine ⟨h.rest, h.cause, fun b hb hv hc => ?_, fun b hb => h.stays b (hb.imp_left Nat.le_of_succ_le)⟩
  rcases Nat.lt_succ_iff_lt_or_eq.mp hb with hb | rfl
  · exact h.gone b hb hv hc
  · have hst := (h.stays b (.inl (Nat.le_refl b))).1
    exact ⟨hn hv hc, fun hs => absurd (hst.symm.trans (hn hv hc)) (by simp [hs])⟩

/-- A turn that drops bit `n`. -/
theorem Acked.drop {s t : State} {page n : Nat} {v : Word} (h : Acked s page v n t) (hn : n < 32)
    (hv : v.getLsbD n = true) (hc : (rawRd s (pb page + oEVT_CAUSE)).getLsbD n = false) :
    Acked s page v (n + 1) (dropEvent t page n) := by
  have hcause := rawRd_dropEvent_cause t page n
  refine ⟨(notEvents_dropEvent t page n).trans h.rest, hcause.trans h.cause, fun b hb hbv hbc => ?_, fun b hb => ?_⟩
  · rw [evStatus_dropEvent t page hn, heldClass_dropEvent]
    by_cases hbn : b = n
    · simp [hbn]
    · rw [if_neg hbn, if_neg hbn]
      exact h.gone b (by omega) hbv hbc
  · have hbn : b ≠ n := by
      rintro rfl
      rcases hb with hb | hb | hb
      · omega
      · simp [hv] at hb
      · simp [hc] at hb
    rw [evStatus_dropEvent t page hn, heldClass_dropEvent, if_neg hbn, if_neg hbn]
    exact h.stays b (hb.imp_left Nat.le_of_succ_le)

/-- The acknowledgements of a write of `v`. -/
theorem acked_upTo (s : State) (page : Nat) (v : Word) : Acked s page v (eventCount page)
    (upTo (eventCount page) (fun s b => if v.getLsbD b then ackEvent s page b else s) s) := by
  have hcount := eventCount_lt page
  refine upTo_ind (Acked s page v) ⟨rfl, rfl, by simp, fun b _ => ⟨rfl, rfl⟩⟩ fun n t hn h => ?_
  split
  next hv =>
    unfold ackEvent
    split
    next hst => exact h.skip fun _ _ => by simpa using hst
    · split
      next hc => exact h.skip fun _ hc' => by rw [h.cause, hc'] at hc; cases hc
      next hc => exact h.drop (by omega) hv (by rw [← h.cause]; simpa using hc)
  next hv => exact h.skip fun hv' => absurd hv' hv

/-! Occurrences. -/

/-- No bit of EVT_STATUS is cleared from `s` to `t`. -/
def StatusGrows (s t : State) : Prop := ∀ page b, evStatus s page b = true → evStatus t page b = true

theorem StatusGrows.trans {s t u : State} (h : StatusGrows s t) (h' : StatusGrows t u) : StatusGrows s u :=
  fun page b hb => h' page b (h page b hb)

theorem statusGrows_of_words {s t : State}
    (h : ∀ page, rawRd t (pb page + oEVT_STATUS) = rawRd s (pb page + oEVT_STATUS)) : StatusGrows s t :=
  fun page b hb => (evStatus_congr (h page) b).trans hb

/-- Setting a bit of a word at offset `o` of a page, EVT_STATUS or another. -/
theorem statusGrows_setBit (s : State) (page o : Nat) {b : Nat} (hb : b < 32) (v : Bool) (ho : o < 0x1000)
    (hv : o = oEVT_STATUS → v = true) : StatusGrows s (setBit s (pb page + o) b v) := by
  intro q k hk
  by_cases h : pb q + oEVT_STATUS = pb page + o
  · unfold evStatus at hk ⊢
    rw [h] at hk ⊢
    have hvt : v = true := hv (by simp only [pb, oEVT_STATUS] at h ⊢; omega)
    rw [getLsbD_setBit_self s _ hb, hk, hvt]
    exact ite_self _
  · rw [evStatus_congr (rawRd_setBit_ne s _ b v _ h)]
    exact hk

theorem statusGrows_addFault (s : State) (o n : Nat) (hlo : 0x40 ≤ o) (hhi : o < 0xFF8) :
    StatusGrows s (addRaw s (pb 0x006 + o) n).2 :=
  statusGrows_of_words fun page => rawRd_addRaw_ne _ _ _ _ (by simp only [pb, oEVT_STATUS]; omega)
    (by simp only [pb, oEVT_STATUS]; omega)

theorem statusGrows_occMark (s : State) (page : Nat) {b : Nat} (hb : b < 32) (inj : Bool) :
    StatusGrows s (occMark s page b inj) := by
  have hset := statusGrows_setBit s page oEVT_STATUS hb true (by decide) (fun _ => rfl)
  unfold occMark
  dsimp only
  split
  · exact hset
  · exact hset.trans (statusGrows_setBit _ page oEVT_INJECTED hb inj (by decide) (by simp))

theorem statusGrows_occHold (s : State) (page b eff : Nat) : StatusGrows s (occHold s page b eff) :=
  statusGrows_of_words fun _ => rawRd_congr _ _ _ rfl

theorem statusGrows_occCount (s : State) (on : Bool) (o : Nat) (hlo : 0x40 ≤ o) (hhi : o < 0xFF8) :
    StatusGrows s (occCount s on o) := by
  unfold occCount
  split
  · exact statusGrows_addFault s o 1 hlo hhi
  · exact fun _ _ h => h

theorem statusGrows_logPush (s : State) (e : LogEnt) : StatusGrows s (logPush s e) := by
  unfold logPush
  split
  · exact fun _ _ h => h
  · refine StatusGrows.trans ?_ (statusGrows_setBit _ 0x006 oEVT_STATUS (by omega) true (by decide) (fun _ => rfl))
    dsimp only
    split
    · exact fun _ _ h => h
    · exact statusGrows_addFault _ R.FA_LOG_LOST 1 (by decide) (by decide)

theorem statusGrows_occLog (s : State) (page b cls eff : Nat) (esc inj : Bool) (d : Detail) :
    StatusGrows s (occLog s page b cls eff esc inj d) := by
  unfold occLog
  split
  · exact statusGrows_logPush s _
  · exact fun _ _ h => h

theorem statusGrows_occFatal (s : State) (page b eff : Nat) (esc inj : Bool) :
    StatusGrows s (occFatal s page b eff esc inj) := by
  unfold occFatal
  split
  · exact statusGrows_of_words fun q => rawRd_congr _ _ _ (fatalOccur_regs ..)
  · exact fun _ _ h => h

/-- What follows the mark of an occurrence clears no bit of EVT_STATUS. -/
theorem statusGrows_occurrence_of_mark {s : State} {page b : Nat} (hp : pagePresent s page = true) (inj : Bool)
    (d : Detail) : StatusGrows (occMark s page b inj) (occurrence s page b inj d) := by
  unfold occurrence
  rw [if_neg (by simp [hp])]
  dsimp only
  refine StatusGrows.trans ?_ (statusGrows_occFatal _ _ _ _ _ _)
  refine StatusGrows.trans ?_ (statusGrows_occLog _ _ _ _ _ _ _ _)
  refine StatusGrows.trans ?_ (statusGrows_occCount _ _ R.FA_INJECTIONS (by decide) (by decide))
  exact (statusGrows_occHold _ page b _).trans (statusGrows_occCount _ _ R.FA_ESCALATIONS (by decide) (by decide))

theorem statusGrows_occurrence (s : State) (page : Nat) {b : Nat} (hb : b < 32) (inj : Bool) (d : Detail) :
    StatusGrows s (occurrence s page b inj d) := by
  by_cases hp : pagePresent s page = true
  · exact (statusGrows_occMark s page hb inj).trans (statusGrows_occurrence_of_mark hp inj d)
  · unfold occurrence
    rw [if_pos hp]
    exact fun _ _ h => h

/-- An occurrence on a present page sets its bit of EVT_STATUS (R498), injected or not. -/
theorem evStatus_occurrence {s : State} {page b : Nat} (hp : pagePresent s page = true) (hb : b < 32) (inj : Bool)
    (d : Detail) : evStatus (occurrence s page b inj d) page b = true := by
  refine statusGrows_occurrence_of_mark hp inj d page b ?_
  have hset : evStatus (setBit s (pb page + oEVT_STATUS) b true) page b = true := by
    rw [evStatus_setBit s page hb, if_pos rfl]
  unfold occMark
  dsimp only
  split
  · exact hset
  · exact statusGrows_setBit _ page oEVT_INJECTED hb inj (by decide) (by simp) page b hset

/-- The occurrences of the bits of `v` set them, and touch nothing but the registers, the events and the mode. -/
theorem upTo_occurrence {s : State} {page : Nat} (hp : pagePresent s page = true) (v : Word) (inj : Bool) (d : Detail) :
    let t := upTo (eventCount page) (fun s b => if v.getLsbD b then occurrence s page b inj d else s) s
    notEvents t = notEvents s ∧ ∀ b < eventCount page, v.getLsbD b = true → evStatus t page b = true := by
  have hcount := eventCount_lt page
  refine upTo_ind (fun n t => notEvents t = notEvents s ∧ ∀ b < n, v.getLsbD b = true → evStatus t page b = true)
    ⟨rfl, by simp⟩ fun n t hn ⟨hrest, hset⟩ => ?_
  have hpt : pagePresent t page = true := (pagePresent_congr (notEvents_fuse s t hrest) page).trans hp
  split
  · refine ⟨(notEvents_occurrence t page n inj d).trans hrest, fun b hb hv => ?_⟩
    rcases Nat.lt_succ_iff_lt_or_eq.mp hb with hb | rfl
    · exact statusGrows_occurrence t page (by omega) inj d page b (hset b hb hv)
    · exact evStatus_occurrence hpt (by omega) inj d
  next hv =>
    refine ⟨hrest, fun b hb hbv => ?_⟩
    rcases Nat.lt_succ_iff_lt_or_eq.mp hb with hb | rfl
    · exact hset b hb hbv
    · exact absurd hbv hv

/-- EVT_STATUS_CLEAR without an occurrence of the same cycle acknowledges alone. -/
theorem evtClear_zero (s : State) (page : Nat) (v : Word) : evtClear s page v 0 =
    upTo (eventCount page) (fun s b => if v.getLsbD b then ackEvent s page b else s) s := by
  unfold evtClear
  exact upTo_ind (fun _ t => t = upTo (eventCount page) (fun s b => if v.getLsbD b then ackEvent s page b else s) s) rfl
    (fun k t _ h => by simpa using h)

/-! The commands. -/

theorem softReset_taken {s : State} {a : Agent} {page : Nat} {v : Word} (h : Allowed s a (pb page + oPAGE_CTRL) (v ||| 2))
    (hcap : ctrlCap (pageType page) = true) (hm : s.md.mode = .diagnostic) :
    Runs (.softReset a page v) s (fun t =>
      t.reply = ⟨.ok, 0⟩ ∧ page ∈ t.md.softReset ∧
      rawRd t (pb page + oPAGE_CTRL) = BitVec.ofNat 32 (bitsOf v 0 1 + 4 * bitsOf v 2 1) ∧
      (∀ x, x ≠ pb page + oPAGE_CTRL → rawRd t x = rawRd s x) ∧ t.hbm = s.hbm) := by
  obtain ⟨l, hmem, hop⟩ := pageCtrlOp_soft (v := v) hcap hm
  have hw : writeCommon s a page oPAGE_CTRL (v ||| 2) = _ := (if_pos rfl).trans hop
  refine runs_kept (exec_softReset a page v s) ?_
  rw [regWrite_common (by decide) h hw (by simp)]
  exact ⟨rfl, hmem, rawRd_rawWr_self s _ _, fun x hx => rawRd_rawWr_ne s _ x _ hx, rfl⟩

theorem softReset_refused {s : State} {a : Agent} {page : Nat} {v : Word} (h : Allowed s a (pb page + oPAGE_CTRL) (v ||| 2))
    (hno : ctrlCap (pageType page) = false ∨ s.md.mode ≠ .diagnostic) :
    Runs (.softReset a page v) s (fun t => t = { s with reply := ⟨.error, 0⟩ }) := by
  have hw : writeCommon s a page oPAGE_CTRL (v ||| 2) = (.error, s) := (if_pos rfl).trans (pageCtrlOp_refused hno)
  exact runs_reply (exec_softReset a page v s) (regWrite_common (by decide) h hw (by simp)) rfl rfl

theorem evtStatusClear_acknowledges {s : State} {a : Agent} {page : Nat} {v : Word}
    (h : Allowed s a (pb page + oEVT_STATUS) v) :
    Runs (.evtStatusClear a page v 0) s (fun t => t.reply = ⟨.ok, 0⟩ ∧ t.hbm = s.hbm ∧ ∀ b, b < eventCount page →
      (v.getLsbD b = true → (rawRd s (pb page + oEVT_CAUSE)).getLsbD b = false →
        evStatus t page b = false ∧ (evStatus s page b = true → heldClass t page b = 0)) ∧
      ((v.getLsbD b = false ∨ (rawRd s (pb page + oEVT_CAUSE)).getLsbD b = true) →
        evStatus t page b = evStatus s page b ∧ heldClass t page b = heldClass s page b)) := by
  have hack := acked_upTo s page v
  rw [← evtClear_zero] at hack
  have hhbm := notEvents_hbm s _ hack.rest
  refine runs_kept (exec_evtStatusClear a page v 0 s) ?_
  rw [regOp_open s a _ v _ h]
  exact ⟨rfl, hhbm, fun b hb => ⟨hack.gone b hb, fun hno => hack.stays b (.inr hno)⟩⟩

theorem evtStatusClear_sets_same {s : State} {a : Agent} {page : Nat} {v : Word}
    (h : Allowed s a (pb page + oEVT_STATUS) v) (same : Word) :
    Runs (.evtStatusClear a page v same) s (fun t => t.reply = ⟨.ok, 0⟩ ∧ t.hbm = s.hbm ∧
      ∀ b, b < eventCount page → same.getLsbD b = true → evStatus t page b = true) := by
  have hp : pagePresent s page = true := by
    have h2 := h.2.1
    rw [pb_add_div page (by decide)] at h2
    exact pagePresent_of_opened h2
  have hack := (acked_upTo s page v).rest
  obtain ⟨hrest, hset⟩ := upTo_occurrence ((pagePresent_congr (notEvents_fuse s _ hack) page).trans hp) same false 0
  have hhbm := notEvents_hbm s _ (hrest.trans hack)
  refine runs_kept (exec_evtStatusClear a page v same s) ?_
  rw [regOp_open s a _ v _ h]
  exact ⟨rfl, hhbm, hset⟩

theorem injectOp_taken {s : State} {a : Agent} {page : Nat} {v : Word} (hsky : isCore a = false → 2 ≤ agentLevel a)
    (hcore : isCore a = true → fgb s pgFA F.FA_FA_CTRL_CORE_INJECT = true)
    (hseal : (tallyPage page && s.sl.isSealed) = false) : injectOp s a page v =
      (.ok, upTo (eventCount page) (fun s b => if v.getLsbD b then occurrence s page b true 0 else s) s) := by
  unfold injectOp
  cases a with
  | sky l =>
    have hl : 2 ≤ l.val := hsky rfl
    exact if_neg (by simp [hseal, hl])
  | core n => exact if_neg (by simp [hseal, hcore rfl])

theorem evtInject_sets {s : State} {a : Agent} {page : Nat} {v : Word} (h : Allowed s a (pb page + oEVT_INJECT) v)
    (hsky : isCore a = false → 2 ≤ agentLevel a) (hcore : isCore a = true → fgb s pgFA F.FA_FA_CTRL_CORE_INJECT = true)
    (hseal : (tallyPage page && s.sl.isSealed) = false) :
    Runs (.evtInject a page v) s (fun t => t.reply = ⟨.ok, 0⟩ ∧ t.hbm = s.hbm ∧ t.frames = s.frames ∧ t.ev = s.ev ∧
      t.tm = s.tm ∧ ∀ b, b < eventCount page → v.getLsbD b = true → evStatus t page b = true) := by
  have hp : pagePresent s page = true := by
    have h2 := h.2.1
    rw [pb_add_div page (by decide)] at h2
    exact pagePresent_of_opened h2
  obtain ⟨hrest, hset⟩ := upTo_occurrence hp v true 0
  have hw : writeCommon s a page oEVT_INJECT v = _ := injectOp_taken hsky hcore hseal
  have hhbm := notEvents_hbm s _ hrest
  have hframes := notEvents_frames s _ hrest
  have hev := notEvents_ev s _ hrest
  have htm := notEvents_tm s _ hrest
  refine runs_kept (exec_evtInject a page v s) ?_
  rw [regWrite_common (by decide) h hw (by simp)]
  exact ⟨rfl, hhbm, hframes, hev, htm, hset⟩

theorem writeCommon_class (s : State) (a : Agent) (page : Nat) (hi : Bool) (v : Word) :
    writeCommon s a page (if hi then oEVT_CLASS_HI else oEVT_CLASS) v = classOp s page hi v := by
  cases hi <;> rfl

theorem evtClassWrite_taken {s : State} {a : Agent} {page : Nat} {v : Word} (hi : Bool)
    (h : Allowed s a (pb page + (if hi then oEVT_CLASS_HI else oEVT_CLASS)) v)
    (hseal : (tallyPage page && s.sl.isSealed) = false) :
    Runs (.evtClassWrite a page hi v) s (fun t =>
      t = { rawWr s (pb page + (if hi then oEVT_CLASS_HI else oEVT_CLASS)) (classWord page hi v) with
            reply := ⟨.ok, 0⟩ }) := by
  have hop : classOp s page hi v = _ := if_neg (by simp [hseal])
  have hw := (writeCommon_class s a page hi v).trans hop
  exact runs_reply (exec_evtClassWrite a page hi v s) (regWrite_common (by cases hi <;> decide) h hw (by simp))
    (by simp) (by simp)

theorem evtClassWrite_refused {s : State} {a : Agent} {page : Nat} {v : Word} (hi : Bool)
    (h : Allowed s a (pb page + (if hi then oEVT_CLASS_HI else oEVT_CLASS)) v)
    (hseal : (tallyPage page && s.sl.isSealed) = true) (hsky : isCore a = false) :
    Runs (.evtClassWrite a page hi v) s (fun t => t = { s with reply := ⟨.denied, 0⟩ }) := by
  have hw := (writeCommon_class s a page hi v).trans (if_pos hseal)
  exact runs_reply (exec_evtClassWrite a page hi v s) (regWrite_common (by cases hi <;> decide) h hw (by simp [hsky])) rfl rfl

/-- Settles O25, one lemma per command. -/
theorem pageControlsAndEvents : Obligations.PageControlsAndEvents :=
  fun _ _ _ _ => ⟨softReset_taken, softReset_refused,
    fun h => ⟨evtStatusClear_acknowledges h, evtStatusClear_sets_same h⟩, evtInject_sets,
    fun hi h => ⟨evtClassWrite_taken hi h, evtClassWrite_refused hi h⟩⟩

end Sys2Proof.Machine
end

section
/-! Edges, ticks and the core PLL (R22, R37-R44, R123, R603): what the parts of an edge leave of the time, and the mode
that a reset and an occurrence leave. -/

namespace Sys2Proof.Machine

open Sys2Proof

/-! The mode under occurrences. -/

theorem fatalOccur_mode (s : State) (o : FatalOcc) (acts : Bool) : (fatalOccur s o acts).md.mode = s.md.mode := by
  unfold fatalOccur
  split
  · rfl
  · dsimp only
    split
    · rfl
    · split
      case h_1 | h_2 | h_3 => -- the modes that are contained
        split
        · rfl
        · split <;> rfl
      all_goals rfl

theorem occMark_md (s : State) (page b : Nat) (inj : Bool) : (occMark s page b inj).md = s.md := by
  unfold occMark
  dsimp only
  split <;> simp

theorem occCount_md (s : State) (on : Bool) (o : Nat) : (occCount s on o).md = s.md := by
  unfold occCount
  split <;> simp

theorem logPush_md (s : State) (e : LogEnt) : (logPush s e).md = s.md := by
  unfold logPush
  dsimp only
  split
  · rfl
  · split <;> simp

theorem occLog_md (s : State) (page b cls eff : Nat) (esc inj : Bool) (d : Detail) :
    (occLog s page b cls eff esc inj d).md = s.md := by
  unfold occLog
  split
  · exact logPush_md s _
  · rfl

/-- The state in which an occurrence comes to its reaction. -/
def occNoted (s : State) (page b : Nat) (inj : Bool) (d : Detail) : State :=
  let cls := evClass s page b
  let esc := escalates s page b inj
  let eff := if esc then cls + 1 else cls
  let u := occCount (occCount (occHold (occMark s page b inj) page b eff) esc R.FA_ESCALATIONS) inj R.FA_INJECTIONS
  occLog u page b cls eff esc inj d

theorem occurrence_eq {s : State} {page : Nat} (hp : pagePresent s page = true) (b : Nat) (inj : Bool) (d : Detail) :
    occurrence s page b inj d = occFatal (occNoted s page b inj d) page b
      (if escalates s page b inj then evClass s page b + 1 else evClass s page b) (escalates s page b inj) inj :=
  if_neg (by simp [hp])

theorem occNoted_md (s : State) (page b : Nat) (inj : Bool) (d : Detail) : (occNoted s page b inj d).md = s.md := by
  unfold occNoted
  dsimp only
  rw [occLog_md, occCount_md, occCount_md]
  exact occMark_md ..

theorem occFatal_mode (s : State) (page b eff : Nat) (esc inj : Bool) :
    (occFatal s page b eff esc inj).md.mode = s.md.mode := by
  unfold occFatal
  split
  · exact fatalOccur_mode ..
  · rfl

/-- An occurrence never changes the mode: containment is due at the next edge (R509). -/
theorem occurrence_mode (s : State) (page b : Nat) (inj : Bool) (d : Detail) :
    (occurrence s page b inj d).md.mode = s.md.mode := by
  by_cases hp : pagePresent s page = true
  · rw [occurrence_eq hp, occFatal_mode, occNoted_md]
  · rw [occurrence, if_pos hp]

theorem raise_mode (s : State) (page b : Nat) : (raise s page b).md.mode = s.md.mode := occurrence_mode ..

theorem setLevel_mode (s : State) (page b : Nat) (on : Bool) : (setLevel s page b on).md.mode = s.md.mode := by
  unfold setLevel
  dsimp only
  split
  · rfl
  · split
    · rw [raise_mode]; simp
    · split <;> simp

/-- The reaction to a FATAL occurrence in LIVE makes the device due to be contained. -/
theorem fatalOccur_contain {s : State} (o : FatalOcc) (hm : s.md.mode = .live) :
    (fatalOccur s o true).flt.contain.isSome = true := by
  unfold fatalOccur
  rw [if_neg (by simp [inReset, hm])]
  dsimp only [Bool.not_true]
  rw [if_neg (by decide), hm]
  dsimp only
  cases s.flt.contain with
  | none => rfl
  | some p =>
    dsimp only
    split
    · rfl
    · simp

/-- A FATAL event of class FATAL in LIVE makes the device due to be contained. -/
theorem raise_contain {s : State} {page b : Nat} (hp : pagePresent s page = true) (hc : evClass s page b = clsFATAL)
    (hm : s.md.mode = .live) : (raise s page b).flt.contain.isSome = true := by
  have hesc : escalates s page b false = false := by simp [escalates, hc]
  rw [raise, occurrence_eq hp, hesc, hc]
  exact fatalOccur_contain _ (by rw [occNoted_md]; exact hm)

/-! A reset of the die ends in mode RESET. -/

theorem refclkEval_mode (s : State) : (refclkEval s).md.mode = s.md.mode := setLevel_mode ..

theorem dieReset_mode (s : State) (hard rails : Bool) (pres : Nat → Bool) :
    (dieReset s hard rails pres).md.mode = .reset := by
  unfold dieReset
  extract_lets tm0 ev0 el0 t u
  have hu : u.md = {} := by
    refine upTo_ind (fun _ t => t.md = {}) rfl fun c t _ h => ?_
    split
    · simpa [setSr] using h
    · exact h
  split
  · rw [refclkEval_mode, hu]
  · rw [hu]

theorem softReset_mode (s : State) : (softReset s).md.mode = .reset := dieReset_mode ..

/-! Tally Time's own work. -/

/-- Everything but what the Tally's work at an edge may touch: the registers, the events and the mode, the references,
the master counter and Tally Time. -/
def notTally (s : State) : State :=
  let u := notEvents s
  { u with ref := {}, tm := { u.tm with ttAcc := 0, tickTT := 0 } }

theorem notTally_of_notEvents {s t : State} (h : notEvents t = notEvents s) : notTally t = notTally s := by
  unfold notTally
  rw [h]

@[simp] theorem notTally_fs (s : State) (b : Nat) (f : FRef) (x : Nat) : notTally (fs s b f x) = notTally s := rfl
@[simp] theorem notTally_setRef (s : State) (r : RefSt) : notTally (setRef s r) = notTally s := rfl
@[simp] theorem notTally_setRefOk (s : State) (f : FRef) (b : Bool) : notTally (setRefOk s f b) = notTally s := rfl
@[simp] theorem notTally_stepTT (s : State) (d : Int) : notTally (stepTT s d) = notTally s := rfl
@[simp] theorem notTally_advanceTT (s : State) (n : Nat) : notTally (advanceTT s n) = notTally s := rfl
@[simp] theorem notTally_tickTT (s : State) (x : Nat) : notTally { s with tm := { s.tm with tickTT := x } } = notTally s := rfl
@[simp] theorem notTally_raise (s : State) (p b : Nat) : notTally (raise s p b) = notTally s :=
  notTally_of_notEvents (notEvents_raise s p b)

@[simp] theorem notTally_ptpEval (s : State) (b : Bool) : notTally (ptpEval s b) = notTally s := by
  unfold ptpEval
  dsimp only
  split <;> simp

@[simp] theorem notTally_goState (s : State) (n : Nat) : notTally (goState s n) = notTally s := by
  unfold goState
  dsimp only
  split <;> simp

@[simp] theorem notTally_timeState (s : State) (src : Nat) : notTally (timeState s src) = notTally s := by
  unfold timeState
  split
  · split
    · rfl
    · dsimp only
      split <;> simp
  · split
    · split <;> simp
    · split <;> simp
  · split
    · simp
    · split <;> simp
  · split <;> simp

@[simp] theorem notTally_holdoverStep (s : State) (entered : Bool) : notTally (holdoverStep s entered) = notTally s := by
  unfold holdoverStep
  split
  · dsimp only
    split <;> split <;> simp
  · simp

theorem holdoverStep_tm (s : State) (entered : Bool) : (holdoverStep s entered).tm = s.tm := by
  unfold holdoverStep
  split
  · dsimp only
    split <;> split <;> simp
  · simp

@[simp] theorem notTally_tallyTick (s : State) : notTally (tallyTick s) = notTally s := by
  unfold tallyTick
  dsimp only
  split <;> split <;> simp

theorem notTally_tallyAdvance (s : State) (n : Nat) : notTally (tallyAdvance s n) = notTally s := by
  unfold tallyAdvance
  split
  · rfl
  · dsimp only
    split
    · rw [notTally_tallyTick, notTally_advanceTT]
    · rfl

theorem tallyTick_tickTT (s : State) : (tallyTick s).tm.tickTT = ttOf (tallyTick s).tm.ttAcc := by
  unfold tallyTick
  dsimp only
  rw [(fs_frame ..).1, holdoverStep_tm]

/-- While the island has power, a count of the master counter ends with Tally Time read from it. -/
theorem tallyAdvance_tickTT {s : State} (h : s.elec.island = true) (n : Nat) :
    (tallyAdvance s n).tm.tickTT = ttOf (tallyAdvance s n).tm.ttAcc := by
  unfold tallyAdvance
  rw [if_neg (by simp [h])]
  dsimp only
  split
  · exact tallyTick_tickTT _
  · rfl

/-- Without its firmware the Tally only counts (R123). -/
theorem tallyAdvance_counts {s : State} (h : s.elec.island = true) (hf : s.elec.firmware = false) (n : Nat) :
    (tallyAdvance s n).tm.ttAcc = s.tm.ttAcc + n * addend s ∧ (tallyAdvance s n).regs = s.regs := by
  have hf' : ¬ (advanceTT s n).elec.firmware = true := by
    change ¬ s.elec.firmware = true
    simp [hf]
  unfold tallyAdvance
  rw [if_neg (by simp [h])]
  dsimp only
  rw [if_neg hf']
  exact ⟨rfl, rfl⟩

theorem tallyAdvance_ply (s : State) (n : Nat) : (tallyAdvance s n).tm.ply = s.tm.ply :=
  (congrArg (fun t : State => t.tm.ply) (notTally_tallyAdvance s n) :)

theorem tallyAdvance_cycle (s : State) (n : Nat) : (tallyAdvance s n).tm.cycle = s.tm.cycle :=
  (congrArg (fun t : State => t.tm.cycle) (notTally_tallyAdvance s n) :)

theorem tallyAdvance_hbm (s : State) (n : Nat) : (tallyAdvance s n).hbm = s.hbm :=
  (congrArg (fun t : State => t.hbm) (notTally_tallyAdvance s n) :)

/-! The time through the parts of an edge. -/

/-- The time as step 1 of the edge that starts ply `m` leaves it. -/
def StartsPly (m : Nat) (t : TimeSt) : Prop := t.ply = BitVec.ofNat 64 m ∧ t.cycle = 0 ∧ t.edgeTT = t.tickTT

theorem startsPly_tallyAdvance {s : State} {m : Nat} (n : Nat) (hp : s.tm.ply = BitVec.ofNat 64 m) (hc : s.tm.cycle = 0) :
    StartsPly m { (tallyAdvance s n).tm with edgeTT := (tallyAdvance s n).tm.tickTT } :=
  ⟨(tallyAdvance_ply s n).trans hp, (tallyAdvance_cycle s n).trans hc, rfl⟩

theorem startsPly_openEdge (e : EdgeIn) (first : Bool) (m : Nat) (s : State) : StartsPly m (openEdge e first m s).tm := by
  unfold openEdge
  extract_lets u v tm0 w x
  have hw : w.tm = { v.tm with ply := BitVec.ofNat 64 m, cycle := 0 } := rfl
  clear_value w
  exact startsPly_tallyAdvance (s := w) e.tallyCycles (by rw [hw]) (by rw [hw])

theorem lcFinish_tm (s : State) : (lcFinish s).tm = s.tm := by
  unfold lcFinish
  split
  · rfl
  · dsimp only
    split
    · simp
    · split
      · simp
      · split <;> simp

theorem lcEdge_tm (s : State) : (lcEdge s).tm = s.tm := lcFinish_tm s

theorem svnAdvance_tm (s : State) : (svnAdvance s).tm = s.tm := by
  unfold svnAdvance
  split
  · rfl
  · dsimp only
    split <;> simp

theorem modeEdge_tm (s : State) : (modeEdge s).tm = s.tm := by
  unfold modeEdge
  dsimp only
  split
  · exact svnAdvance_tm (holdTime s _)
  · rfl

theorem hold_tm (s t : State) : (hold s t).tm = t.tm := rfl

/-- The end of an edge: the device is reset, or the time stays but for the kernel tick of every 25th ply (R39). -/
theorem closeEdge_tm (e : EdgeIn) (first : Bool) (prevTT m : Nat) (s : State) :
    (closeEdge e first prevTT m s).md.mode = .reset ∨
      (closeEdge e first prevTT m s).tm = { s.tm with kernelTick := s.tm.kernelTick || m % 25 == 0 } := by
  unfold closeEdge
  dsimp only
  split <;> split
  case isTrue.isTrue | isFalse.isTrue => exact .inl (softReset_mode _)
  all_goals exact .inr rfl

/-- While the ply counter is stopped no edge falls (R603). -/
theorem plyEdge_stopped {s : State} (e : EdgeIn) (h : plyStopped s = true) : Runs (.plyEdge e) s (fun t => t = s) := by
  have he : plyEdgeOp e s = s := if_pos h
  have hx := exec_plyEdge e s
  rw [he] at hx
  exact runs_keptQueue hx rfl

/-- The number of the ply that an edge starts. -/
def nextPly (s : State) : Nat := if s.tm.firstEdge then plyNat s else (plyNat s + 1) % 2 ^ 64

theorem nextPly_lt (s : State) : nextPly s < 2 ^ 64 := by
  unfold nextPly plyNat
  split
  · exact s.tm.ply.isLt
  · omega

theorem plyEdgeOp_tm {s : State} {m : Nat} (e : EdgeIn) (h : plyStopped s = false) (hm : nextPly s = m) :
    (plyEdgeOp e s).md.mode = .reset ∨
      StartsPly m (plyEdgeOp e s).tm ∧ (m % 25 = 0 → (plyEdgeOp e s).tm.kernelTick = true) := by
  unfold plyEdgeOp
  rw [if_neg (by simp [h])]
  extract_lets first m' prevTT u before v w
  replace hm : m' = m := hm
  have hv : v.tm = u.tm := (lcEdge_tm _).trans (holdTime_tm ..)
  have hw : w.tm = u.tm := ((modeEdge_tm _).trans (holdTime_tm ..)).trans hv
  have hs := startsPly_openEdge e first m' s
  rw [← hold_tm s] at hs
  replace hs : StartsPly m' u.tm := hs
  clear_value w v before u -- the parts of the edge count by these facts alone from here
  obtain ⟨hply, hcyc, htt⟩ := hs
  refine (closeEdge_tm e first prevTT m' w).imp_right fun hc => ?_
  rw [hc, hw, ← hm]
  exact ⟨⟨hply, hcyc, htt⟩, fun hm => Bool.or_eq_true_iff.mpr (.inr (beq_iff_eq.mpr hm))⟩

theorem ofNat_nextPly (s : State) :
    BitVec.ofNat 64 (nextPly s) = if s.tm.firstEdge then s.tm.ply else s.tm.ply + 1 := by
  apply BitVec.eq_of_toNat_eq
  unfold nextPly plyNat
  split
  · simp
  · simp [BitVec.toNat_add]

/-- A ply edge starts the next ply (R22, R39). -/
theorem plyEdge_starts {s : State} (e : EdgeIn) (h : plyStopped s = false) :
    Runs (.plyEdge e) s (fun t => t.md.mode = .reset ∨
      (t.tm.ply = (if s.tm.firstEdge then s.tm.ply else s.tm.ply + 1) ∧ t.tm.cycle = 0 ∧ t.tm.edgeTT = t.tm.tickTT ∧
       (t.tm.ply.toNat % 25 = 0 → t.tm.kernelTick = true))) := by
  refine runs_keptQueue (exec_plyEdge e s) ((plyEdgeOp_tm e h rfl).imp_right fun hm => ?_)
  obtain ⟨⟨hply, hcyc, htt⟩, hk⟩ := hm
  refine ⟨hply.trans (ofNat_nextPly s), hcyc, htt, fun h25 => hk ?_⟩
  have hnat := congrArg BitVec.toNat hply
  rw [BitVec.toNat_ofNat, Nat.mod_eq_of_lt (nextPly_lt s)] at hnat
  rw [← hnat]
  exact h25

/-! KERNEL_TICK. -/

theorem getH_modH_ne (s : State) {c k : Nat} (g : Hart → Hart) (h : k ≠ c) : getH (modH s c g) k = getH s k :=
  tget_tset_ne _ _ _ _ _ h

/-- `t` is `s` with TICK set at the first `n` harts. -/
structure Ticked (s : State) (n : Nat) (t : State) : Prop where
  tick : ∀ c, c < n → (getH t c).tick = true
  other : ∀ c, n ≤ c → getH t c = getH s c
  tm : t.tm = s.tm
  regs : t.regs = s.regs
  hbm : t.hbm = s.hbm

theorem ticked_upTo (s : State) (n : Nat) :
    Ticked s n (upTo n (fun s c => modH s c (fun h => { h with tick := true })) s) := by
  refine upTo_ind (Ticked s) ⟨by omega, fun _ _ => rfl, rfl, rfl, rfl⟩ fun c t _ h => ?_
  refine ⟨fun k hk => ?_, fun k hk => ?_, h.tm, h.regs, h.hbm⟩
  · by_cases hkc : k = c
    · rw [hkc, getH_modH]
    · rw [getH_modH_ne _ _ hkc]
      exact h.tick k (by omega)
  · rw [getH_modH_ne _ _ (by omega)]
    exact h.other k (by omega)

/-- A due kernel tick reaches every core and no other hart (R39). -/
theorem kernelTick_ticks {s : State} (h : s.tm.kernelTick = true) :
    Runs .kernelTick s (fun t => t.tm.kernelTick = false ∧ (∀ c, c < 16 → (getH t c).tick = true) ∧
      (∀ c, 16 ≤ c → getH t c = getH s c) ∧ t.regs = s.regs ∧ t.hbm = s.hbm) := by
  obtain ⟨u, x, hu, he⟩ : ∃ u x, Ticked { s with tm := { s.tm with kernelTick := false } } 16 u ∧
      kernelTickOp s = { u with dsp := x } := ⟨_, _, ticked_upTo _ 16, if_neg (by simp [h])⟩
  have hx := exec_kernelTick s
  rw [he] at hx
  exact runs_kept hx ⟨congrArg TimeSt.kernelTick hu.tm, hu.tick, hu.other, hu.regs, hu.hbm⟩

/-! ISLAND_TICK. -/

theorem islandTick_counts {s : State} (n : Nat) (h : plyStopped s = true) (hi : s.elec.island = true) :
    Runs (.islandTick n) s (fun t => t.tm.ply = s.tm.ply ∧ t.tm.tickTT = ttOf t.tm.ttAcc ∧
      (s.elec.firmware = false → t.tm.ttAcc = s.tm.ttAcc + n * addend s ∧ t.regs = s.regs) ∧ t.hbm = s.hbm) := by
  have he : islandTickOp s n = tallyAdvance s n := if_pos h
  have hx := exec_islandTick n s
  rw [he] at hx
  exact runs_kept hx ⟨tallyAdvance_ply s n, tallyAdvance_tickTT hi n, fun hf => tallyAdvance_counts hi hf n,
    tallyAdvance_hbm s n⟩

theorem islandTick_running {s : State} (n : Nat) (h : plyStopped s = false) :
    Runs (.islandTick n) s (fun t => t = s) := by
  have he : islandTickOp s n = s := if_neg (by simp [h])
  have hx := exec_islandTick n s
  rw [he] at hx
  exact runs_kept hx rfl

/-! The core PLL (R42). -/

/-- CORE_LOCK cleared and LOCK_LOST set: what the loss leaves before its event. -/
def unlockedClk (s : State) : State :=
  fs (fs s pgCLK F.CLK_PLY_STATUS_CORE_LOCK 0) pgCLK F.CLK_PLY_STATUS_LOCK_LOST 1

theorem lockLost_eq {s : State} (h : fgb s pgCLK F.CLK_PLY_STATUS_CORE_LOCK = true) :
    lockLost s = raise (unlockedClk s) 0x005 0 := if_neg (by simp [h])

theorem unlockedClk_fields (s : State) : fg (unlockedClk s) pgCLK F.CLK_PLY_STATUS_CORE_LOCK = 0 ∧
    fg (unlockedClk s) pgCLK F.CLK_PLY_STATUS_LOCK_LOST = 1 := by
  unfold unlockedClk
  refine ⟨?_, fg_fs_self _ _ _ _ (by decide)⟩
  rw [fg_fs_field _ pgCLK F.CLK_PLY_STATUS_LOCK_LOST _ pgCLK F.CLK_PLY_STATUS_CORE_LOCK rfl (by decide) (by decide)]
  exact fg_fs_self _ _ _ _ (by decide)

theorem clkPage_present (s : State) : pagePresent s 0x005 = true := rfl

theorem plyStopped_of_unlocked {s : State} (h : fg s pgCLK F.CLK_PLY_STATUS_CORE_LOCK = 0) : plyStopped s = true := by
  simp [plyStopped, fgb, h]

/-- A loss of lock stops the ply counter where it stands (R42). -/
theorem corePllLockLost_stops {s : State} (h : fgb s pgCLK F.CLK_PLY_STATUS_CORE_LOCK = true) :
    Runs .corePllLockLost s (fun t =>
      plyStopped t = true ∧ fg t pgCLK F.CLK_PLY_STATUS_LOCK_LOST = 1 ∧ t.tm = s.tm ∧ evStatus t 0x005 0 = true ∧
      (evClass s 0x005 0 = clsFATAL → s.md.mode = .live → t.flt.contain.isSome = true) ∧ t.hbm = s.hbm) := by
  obtain ⟨hlock, hlost⟩ := unlockedClk_fields s
  have hmem : (raise (unlockedClk s) 0x005 0).hbm = s.hbm := by simp [unlockedClk]
  have hx := exec_corePllLockLost s
  rw [lockLost_eq h] at hx
  refine runs_kept hx ⟨?_, ?_, ?_, ?_, ?_, ?_⟩
  · exact plyStopped_of_unlocked ((fg_raise _ _ _ _ _ (by decide)).trans hlock)
  · exact (fg_raise _ _ _ _ _ (by decide)).trans hlost
  · exact (raise_frame ..).1
  · exact evStatus_raise _ _ _ (clkPage_present _) (by decide) (by decide)
  · exact fun hc hm => raise_contain (clkPage_present _) hc hm
  · exact hmem

/-- With lock regained outside RESET the ply counter goes on (R42). -/
theorem corePllLockRegained_resumes {s : State} (h : inReset s = false) :
    Runs .corePllLockRegained s (fun t => plyStopped t = false ∧ t.tm = s.tm ∧
      (∀ a, a ≠ pgCLK + F.CLK_PLY_STATUS_CORE_LOCK.off → rawRd t a = rawRd s a) ∧ t.hbm = s.hbm) := by
  have he : lockRegained s = fs s pgCLK F.CLK_PLY_STATUS_CORE_LOCK 1 := if_neg (by simp [h])
  have hlock : fg (fs s pgCLK F.CLK_PLY_STATUS_CORE_LOCK 1) pgCLK F.CLK_PLY_STATUS_CORE_LOCK = 1 :=
    fg_fs_self _ _ _ _ (by decide)
  have hgo : plyStopped (fs s pgCLK F.CLK_PLY_STATUS_CORE_LOCK 1) = false := by
    unfold plyStopped fgb
    rw [hlock]
    simpa [inReset] using h
  have hx := exec_corePllLockRegained s
  rw [he, kept_eq (by simp) (by simp)] at hx
  exact ⟨_, hx, by simp, hgo, by simp, fun a ha => rawRd_fs_ne _ _ _ _ _ ha, by simp⟩

/-- Settles O26, clause by clause: the time through the parts of an edge, the due kernel tick, the Tally's count while
the ply counter stands, and the core PLL's loss and return of lock. -/
theorem edgesTicksAndLock : Obligations.EdgesTicksAndLock := fun _ =>
  ⟨fun e => plyEdge_starts e,
   plyEdge_stopped,
   kernelTick_ticks,
   fun n => islandTick_counts n,
   fun n => islandTick_running n,
   corePllLockLost_stops,
   corePllLockRegained_resumes⟩

end Sys2Proof.Machine
end

section
/-! What the books leave alone: the Tally's pending table (R404-R415), the buffer's accounts (R326), the stores and the
counters, which frames meet on their way through and out of the device. -/

namespace Sys2Proof.Machine

open Sys2Proof

/-! Everything but the books. -/

/-- Everything but the registers, the events and the mode, and what the evidence, the switch core, the traffic manager,
the Arbiter and the seal keep of frames. -/
def notBooks (s : State) : State :=
  { notEvents s with freeIx := 0, core := {}, tmg := {}, arb := {}, ev := {}, sl := {} }

/-- The flow memory, the fuses and the queue, which no command of a frame's way touches. -/
def still (s : State) : HbmSt × FuseSt × List Instr := (s.hbm, s.fuse, s.pending)

theorem notBooks_of_notEvents {s t : State} (h : notEvents t = notEvents s) : notBooks t = notBooks s := by
  unfold notBooks
  rw [h]

/-- Everything but the books and the ports. -/
def notPorts (s : State) : State := { notBooks s with ports := [] }

/-- Everything but the books, the ports and the frames. -/
def aside (s : State) : State := { notPorts s with frames := [] }

theorem notPorts_of_notBooks {s t : State} (h : notBooks t = notBooks s) : notPorts t = notPorts s := by
  unfold notPorts
  rw [h]

theorem aside_of_notPorts {s t : State} (h : notPorts t = notPorts s) : aside t = aside s := by
  unfold aside
  rw [h]

theorem aside_of_notBooks {s t : State} (h : notBooks t = notBooks s) : aside t = aside s :=
  aside_of_notPorts (notPorts_of_notBooks h)

theorem still_of_aside {s t : State} (h : aside t = aside s) : still t = still s := (congrArg still h :)
theorem eff_of_aside {s t : State} (h : aside t = aside s) : t.eff = s.eff := (congrArg State.eff h :)
theorem tm_of_aside {s t : State} (h : aside t = aside s) : t.tm = s.tm := (congrArg State.tm h :)
theorem out_of_aside {s t : State} (h : aside t = aside s) : t.out = s.out := (congrArg State.out h :)
theorem fuse_of_aside {s t : State} (h : aside t = aside s) : t.fuse = s.fuse := (congrArg State.fuse h :)
theorem nextFrame_of_aside {s t : State} (h : aside t = aside s) : t.nextFrame = s.nextFrame :=
  (congrArg State.nextFrame h :)
theorem frames_of_notPorts {s t : State} (h : notPorts t = notPorts s) : t.frames = s.frames := (congrArg State.frames h :)
theorem ports_of_notBooks {s t : State} (h : notBooks t = notBooks s) : t.ports = s.ports := (congrArg State.ports h :)

@[simp] theorem aside_setF (s : State) (k : Nat) (f : Frame) : aside (setF s k f) = aside s := rfl
@[simp] theorem aside_modF (s : State) (k : Nat) (g : Frame → Frame) : aside (modF s k g) = aside s := rfl
@[simp] theorem aside_setP (s : State) (p : Nat) (P : PortSt) : aside (setP s p P) = aside s := rfl
@[simp] theorem aside_modP (s : State) (p : Nat) (g : PortSt → PortSt) : aside (modP s p g) = aside s := rfl

theorem getF_of_frames {s t : State} (h : t.frames = s.frames) (k : Nat) : getF t k = getF s k := by
  unfold getF
  rw [h]

theorem getP_of_ports {s t : State} (h : t.ports = s.ports) (p : Nat) : getP t p = getP s p := by
  unfold getP
  rw [h]

theorem getF_of_notBooks {s t : State} (h : notBooks t = notBooks s) (k : Nat) : getF t k = getF s k :=
  getF_of_frames (frames_of_notPorts (notPorts_of_notBooks h)) k

theorem getP_of_notBooks {s t : State} (h : notBooks t = notBooks s) (p : Nat) : getP t p = getP s p :=
  getP_of_ports (ports_of_notBooks h) p

theorem plyNat_of_tm {s t : State} (h : t.tm = s.tm) : plyNat t = plyNat s := by
  unfold plyNat
  rw [h]

/-- A command comes to a state that is still. -/
theorem runs_still {c : Instr} {s t : State} {P : State → Prop} (h : exec c s = .next (kept s t))
    (hs : still t = still s) (ht : P t) : Runs c s P :=
  runs_kept h (by rwa [kept_eq (congrArg (fun x => x.2.1) hs) (congrArg (fun x => x.2.2) hs)])

theorem hbm_of_still {s t : State} (h : still t = still s) : t.hbm = s.hbm := congrArg Prod.fst h

/-- What every step of a fold leaves alone, the fold leaves alone. -/
theorem foldl_keeps {α β γ : Type} (π : β → γ) {f : β → α → β} (h : ∀ b a, π (f b a) = π b) (l : List α) (b : β) :
    π (l.foldl f b) = π b := by
  induction l generalizing b with
  | nil => rfl
  | cons a l ih => rw [List.foldl_cons, ih, h]

@[simp] theorem notBooks_fs (s : State) (b : Nat) (f : FRef) (x : Nat) : notBooks (fs s b f x) = notBooks s := rfl
@[simp] theorem notBooks_wr64 (s : State) (a v : Nat) : notBooks (wr64 s a v) = notBooks s := rfl
@[simp] theorem notBooks_pset (s : State) (k : Nat) (p : Option Pend) : notBooks (pset s k p) = notBooks s := rfl
@[simp] theorem notBooks_noteActual (s : State) (id n : Nat) (b : Bool) : notBooks (noteActual s id n b) = notBooks s := rfl
@[simp] theorem notBooks_moveBank (s : State) (b : Nat) (n : Int) : notBooks (moveBank s b n) = notBooks s := rfl

@[simp] theorem notBooks_raise (s : State) (p b : Nat) : notBooks (raise s p b) = notBooks s :=
  notBooks_of_notEvents (notEvents_raise ..)
@[simp] theorem notBooks_bumpN (s : State) (a n : Nat) : notBooks (bumpN s a n) = notBooks s :=
  notBooks_of_notEvents (notEvents_bumpN ..)
@[simp] theorem notBooks_bump (s : State) (a : Nat) : notBooks (bump s a) = notBooks s := notBooks_bumpN ..
@[simp] theorem notBooks_peak (s : State) (b : Nat) (f : FRef) (v : Nat) : notBooks (peak s b f v) = notBooks s :=
  notBooks_of_notEvents (notEvents_peak ..)
@[simp] theorem notBooks_bumpPort (s : State) (p o n : Nat) : notBooks (bumpPort s p o n) = notBooks s :=
  notBooks_of_notEvents (notEvents_bumpPort ..)

@[simp] theorem notBooks_bumpTx (s : State) (p o : Nat) (hp : Option Nat) (n : Nat) :
    notBooks (bumpTx s p o hp n) = notBooks s := by
  unfold bumpTx
  split
  · cases hp with
    | none => rfl
    | some a => exact notBooks_bumpN ..
  · exact notBooks_bumpPort ..

@[simp] theorem notBooks_countMiss (s : State) (r : Nat) : notBooks (countMiss s r) = notBooks s := by simp [countMiss]

/-! The pending table. -/

@[simp] theorem notBooks_writeRecord (s : State) (r : Rec) : notBooks (writeRecord s r) = notBooks s := by
  unfold writeRecord
  split <;> rfl

@[simp] theorem notBooks_tryComplete (s : State) (id : Nat) : notBooks (tryComplete s id) = notBooks s := by
  unfold tryComplete
  split
  · rfl
  · split
    · rfl
    · split <;> simp

@[simp] theorem notBooks_noteDigest (s : State) (id : Nat) (f : Frame) : notBooks (noteDigest s id f) = notBooks s := by
  unfold noteDigest
  split
  · rfl
  · split <;> simp

@[simp] theorem notBooks_setOutcome (s : State) (id c r : Nat) : notBooks (setOutcome s id c r) = notBooks s := by
  unfold setOutcome
  split
  · simp
  · split <;> simp

@[simp] theorem notBooks_copyOutcome (s : State) (id p o : Nat) : notBooks (copyOutcome s id p o) = notBooks s := by
  unfold copyOutcome
  split
  · simp
  · dsimp only
    split <;> simp

@[simp] theorem notBooks_tellOutcome (s : State) (id c r : Nat) : notBooks (tellOutcome s id c r) = notBooks s := by
  unfold tellOutcome
  dsimp only
  split
  · rfl
  · split <;> simp

@[simp] theorem notBooks_modPend (s : State) (id : Nat) (g : Pend → Pend) : notBooks (modPend s id g) = notBooks s := by
  unfold modPend
  dsimp only
  split
  · rfl
  · split <;> rfl

@[simp] theorem notBooks_noteWithheld (s : State) (id : Nat) : notBooks (noteWithheld s id) = notBooks s := by
  unfold noteWithheld
  split
  · rfl
  · dsimp only
    split <;> rfl

@[simp] theorem notBooks_dropRecord (s : State) (id : Nat) : notBooks (dropRecord s id) = notBooks s := notBooks_bump ..

@[simp] theorem notBooks_markUnrecorded (s : State) (id : Nat) : notBooks (markUnrecorded s id) = notBooks s := by
  unfold markUnrecorded
  split <;> simp

@[simp] theorem notBooks_freeExport (s : State) (x : Export) : notBooks (freeExport s x) = notBooks s := by
  unfold freeExport
  split <;> rfl

@[simp] theorem notBooks_exportSent (s : State) (q : Nat) : notBooks (exportSent s q) = notBooks s := by
  unfold exportSent
  split
  · rfl
  · rename_i x _
    extract_lets u v
    have hu : notBooks u = notBooks s := by simp [u]
    have hv : notBooks v = notBooks u := by
      unfold v
      split <;> simp
    rw [← hu, ← hv]
    split
    · rfl
    · exact notBooks_freeExport ..

/-! Stores. -/

@[simp] theorem notBooks_setStore (s : State) (o : Nat) (l : List Nat) : notBooks (setStore s o l) = notBooks s := by
  simp only [setStore, showStore, notBooks_peak, notBooks_fs]
  rfl

@[simp] theorem notBooks_setErStore (s : State) (l : List Nat) : notBooks (setErStore s l) = notBooks s := by
  simp only [setErStore, showErStore, notBooks_peak, notBooks_fs]
  rfl

/-! The words of the books. -/

theorem rd64_of_words {s t : State} {a : Nat} (hlo : rawRd t a = rawRd s a) (hhi : rawRd t (a + 4) = rawRd s (a + 4)) :
    rd64 t a = rd64 s a := by
  unfold rd64
  rw [hlo, hhi]

theorem fg_of_word {s t : State} {b : Nat} {f : FRef} (h : rawRd t (b + f.off) = rawRd s (b + f.off)) :
    fg t b f = fg s b f := by
  unfold fg
  rw [h]

/-- A word that no outcome, freed cell or emptied queue writes: outside the event registers, the evidence page, the
switch core's page and the reorder stores' pages, above the uses and the status of an account block, and above the
even-release store's own words. -/
structure Spared (a : Nat) : Prop where
  plain : plainWord a
  evidence : a / 0x1000 ≠ 0x14
  core : a / 0x1000 ≠ 0x380
  stores : a / 0x1000 < 0x3D0
  account : 0x390 ≤ a / 0x1000 → a / 0x1000 < 0x3A0 → 0x60 ≤ (a % 0x1000 - 0x400) % 0xC0
  erStore : a / 0x1000 = 0x3C0 → 0x58 ≤ a % 0x1000

theorem rawRd_bump_ev {s : State} {a o : Nat} (ha : plainWord a) (hp : a / 0x1000 ≠ 0x14) (ho : o + 4 < 0x1000) :
    rawRd (bump s (pgEV + o)) a = rawRd s a :=
  rawRd_bump _ _ _ ha (by simp only [pgEV, pb]; omega) (by simp only [pgEV, pb]; omega)

theorem writeRecord_regs (s : State) (r : Rec) : (writeRecord s r).regs = s.regs := by
  unfold writeRecord
  split <;> rfl

theorem tryComplete_regs (s : State) (id : Nat) : (tryComplete s id).regs = s.regs := by
  unfold tryComplete
  split
  · rfl
  · split
    · rfl
    · split
      · rfl
      · exact writeRecord_regs ..

theorem rawRd_setOutcome (s : State) (id c r : Nat) {a : Nat} (ha : Spared a) :
    rawRd (setOutcome s id c r) a = rawRd s a := by
  unfold setOutcome
  split
  · exact rawRd_bump_ev ha.plain ha.evidence (by decide)
  · split
    · rfl
    · exact rawRd_congr _ _ _ (tryComplete_regs ..)

theorem rawRd_copyOutcome (s : State) (id p o : Nat) {a : Nat} (ha : Spared a) :
    rawRd (copyOutcome s id p o) a = rawRd s a := by
  unfold copyOutcome
  split
  · exact rawRd_bump_ev ha.plain ha.evidence (by decide)
  · dsimp only
    split
    · exact rawRd_congr _ _ _ (tryComplete_regs ..)
    · rfl

theorem rawRd_tellOutcome (s : State) (id c r : Nat) {a : Nat} (ha : Spared a) :
    rawRd (tellOutcome s id c r) a = rawRd s a := by
  unfold tellOutcome
  dsimp only
  split
  · rfl
  · split
    · exact rawRd_copyOutcome _ _ _ _ ha
    · exact rawRd_setOutcome _ _ _ _ ha

theorem rawRd_exportSent (s : State) (q : Nat) {a : Nat} (ha : Spared a) (hx : a / 0x1000 ≠ 0x17) :
    rawRd (exportSent s q) a = rawRd s a := by
  have hev := ha.evidence
  have hne (o : Nat) (ho : o < 0x1000) : a ≠ pgAUD + o := by simp only [pgAUD, pb]; omega
  have hbump (u : State) (o n : Nat) (ho : o + 4 < 0x1000) : rawRd (bumpN u (pgAUD + o) n) a = rawRd u a :=
    rawRd_bumpN _ _ _ _ ha.plain (hne o (by omega)) (hne (o + 4) ho)
  unfold exportSent
  split
  · rfl
  · rename_i x _
    extract_lets u v
    have hu : rawRd u a = rawRd s a :=
      (rawRd_wr64_ne _ _ _ _ (hne _ (by decide)) (hne (R.AUD_EXPORT_SEQ + 4) (by decide))).trans (hbump _ _ _ (by decide))
    have hv : rawRd v a = rawRd u a := by
      unfold v
      split <;> exact hbump _ _ _ (by decide)
    rw [← hu, ← hv]
    split
    · rfl
    · unfold freeExport
      split
      · rfl
      · exact rawRd_fs_ne _ _ _ _ _ (by simp only [pgEV, pb]; omega)
      · rfl

/-! Accounts and cells (R326, R330). -/

/-- A port but for the PFC frames that it is asked for. -/
def notPfc (P : PortSt) : PortSt := { P with pfcA := none, pfcB := none }

/-- `t` is `s` but for the books and the PFC frames that ports are asked for. -/
structure ButPfc (s t : State) : Prop where
  rest : notPorts t = notPorts s
  port : ∀ p, notPfc (getP t p) = notPfc (getP s p)

theorem ButPfc.of_books {s t : State} (h : notBooks t = notBooks s) : ButPfc s t :=
  ⟨notPorts_of_notBooks h, fun p => congrArg notPfc (getP_of_notBooks h p)⟩

theorem ButPfc.trans {s t u : State} (h : ButPfc s t) (h' : ButPfc t u) : ButPfc s u :=
  ⟨h'.rest.trans h.rest, fun p => (h'.port p).trans (h.port p)⟩

theorem butPfc_askPfc (s : State) (p : Nat) (b : Bool) (n : Nat) : ButPfc s (askPfc s p b n) := by
  unfold askPfc
  extract_lets en
  split
  · refine ⟨rfl, fun q => ?_⟩
    by_cases hq : q = p
    · subst hq
      rw [getP_modP]
      split <;> rfl
    · rw [getP_modP_ne _ _ _ _ hq]
  · exact .of_books rfl

theorem askPfc_regs (s : State) (p : Nat) (b : Bool) (n : Nat) : (askPfc s p b n).regs = s.regs := by
  unfold askPfc
  extract_lets en
  split <;> rfl

theorem butPfc_xoffEval (s : State) (p : Nat) (b : Bool) : ButPfc s (xoffEval s p b) := by
  unfold xoffEval
  extract_lets f use lim d
  split
  · split
    · exact .trans (.of_books (notBooks_fs ..)) (butPfc_askPfc ..)
    · exact .of_books rfl
  · split
    · exact .trans (.of_books (notBooks_fs ..)) (butPfc_askPfc ..)
    · exact .of_books rfl

theorem butPfc_moveUse (s : State) (a : Account) (n : Int) : ButPfc s (moveUse s a n) := by
  have h (m : Nat) : ButPfc s (setAccUse s a m) := by
    unfold setAccUse
    split <;> exact .of_books rfl
  unfold moveUse
  extract_lets u
  split
  · exact .trans (h _) (butPfc_xoffEval ..)
  · exact h _

theorem portB_add (p o : Nat) : portB p + o = pb (0x020 + p / 8) + (0x100 + 0x100 * (p % 8) + o) := by
  simp only [portB, Nat.add_assoc]

theorem accB_add (p o : Nat) : accB p + o = pb (0x390 + p / 16) + (0x400 + 0xC0 * (p % 16) + o) := by
  simp only [accB, Nat.add_assoc]

/-- The use and status words of an account block are not spared. -/
theorem Spared.ne_account {a : Nat} (ha : Spared a) {p o : Nat} (hp : p < 256) (ho : o < 0x60) : a ≠ accB p + o := by
  rintro rfl
  have h := ha.account
  rw [accB_add, pb_add_div _ (by omega), pb_add_mod _ (by omega)] at h
  omega

theorem rawRd_xoffEval (s : State) {p : Nat} (b : Bool) {a : Nat} (ha : Spared a) (hp : p < 256) :
    rawRd (xoffEval s p b) a = rawRd s a := by
  have hfs (u : State) (x : Nat) : rawRd (fs u (accB p) (if b then F.ACC_LL_STATUS_XOFF_B else F.ACC_LL_STATUS_XOFF_A) x) a =
      rawRd u a := rawRd_fs_ne _ _ _ _ _ (ha.ne_account hp (by split <;> decide))
  have hask (u : State) (n : Nat) : rawRd (askPfc u p b n) a = rawRd u a := rawRd_congr _ _ _ (askPfc_regs ..)
  unfold xoffEval
  extract_lets f use lim d
  split
  · split
    · rw [hask, hfs]
    · rfl
  · split
    · rw [hask, hfs]
    · rfl

theorem rawRd_setAccUse (s : State) {acct : Account} (n : Nat) {a : Nat} (ha : Spared a) (hok : accountOk acct) :
    rawRd (setAccUse s acct n) a = rawRd s a := by
  cases acct with
  | lossless p b =>
    exact rawRd_fs_ne _ _ _ _ _ (ha.ne_account hok (by cases b <;> decide))
  | queue p c =>
    obtain ⟨hp, hc⟩ := hok
    exact rawRd_fs_ne _ _ _ _ _ (ha.ne_account hp (by simp only [FRef.fwd]; omega))
  | none | mirror | host | recirc p => rfl

theorem rawRd_moveUse (s : State) {acct : Account} (n : Int) {a : Nat} (ha : Spared a) (hok : accountOk acct) :
    rawRd (moveUse s acct n) a = rawRd s a := by
  unfold moveUse
  extract_lets u
  have hu : rawRd u a = rawRd s a := rawRd_setAccUse s _ ha hok
  rw [← hu]
  cases acct with
  | lossless p b => exact rawRd_xoffEval u b ha hok
  | none | mirror | host | recirc p | queue p c => rfl

theorem rawRd_moveBank (s : State) (b : Nat) (n : Int) {a : Nat} (ha : Spared a) : rawRd (moveBank s b n) a = rawRd s a := by
  have h := ha.core
  exact rawRd_fs_ne _ _ _ _ _ (by simp only [pgSC, pb]; omega)

/-- The state in which the cells and the reservation of a frame are free. -/
def cellsFreed (s : State) (id : Nat) : State :=
  moveUse ((getF s id).banks.foldl (fun s b => moveBank s b (-1)) s) (getF s id).acct (-((getF s id).resv : Int))

/-- A frame without cells. -/
def noCells (f : Frame) : Frame := { f with banks := [], resv := 0, acct := .none }

theorem freeCells_eq (s : State) (id : Nat) : freeCells s id = setF (cellsFreed s id) id (noCells (getF s id)) := rfl

theorem butPfc_cellsFreed (s : State) (id : Nat) : ButPfc s (cellsFreed s id) :=
  .trans (.of_books (foldl_keeps notBooks (fun t b => notBooks_moveBank t b (-1)) _ s)) (butPfc_moveUse ..)

theorem rawRd_cellsFreed (s : State) (id : Nat) {a : Nat} (ha : Spared a) (hok : accountOk (getF s id).acct) :
    rawRd (cellsFreed s id) a = rawRd s a := by
  rw [cellsFreed, rawRd_moveUse _ _ ha hok]
  exact foldl_keeps (fun t => rawRd t a) (fun t b => rawRd_moveBank t b (-1) ha) _ s

/-! Words that are spared. -/

theorem spared_of_port {p o : Nat} (hp : p < 256) (ho : o < 0x100) : Spared (portB p + o) := by
  have hlt : 0x100 + 0x100 * (p % 8) + o < 0x1000 := by omega
  constructor <;> rw [portB_add] <;> simp only [plainWord, pb_add_div _ hlt, pb_add_mod _ hlt] <;> omega

theorem spared_of_account {p o : Nat} (hp : p < 256) (hlo : 0x60 ≤ o) (ho : o < 0xC0) : Spared (accB p + o) := by
  have hlt : 0x400 + 0xC0 * (p % 16) + o < 0x1000 := by omega
  constructor <;> rw [accB_add] <;> simp only [plainWord, pb_add_div _ hlt, pb_add_mod _ hlt] <;> omega

theorem spared_of_arbiter {o : Nat} (hlo : 0x58 ≤ o) (ho : o < 0x1000) : Spared (pgARB + o) := by
  constructor <;> simp only [plainWord, pgARB, pb_add_div _ ho, pb_add_mod _ ho] <;> omega

/-! Queues (R341, R346). -/

theorem rawRd_setStore (s : State) (o : Nat) (l : List Nat) {a : Nat} (ha : Spared a) :
    rawRd (setStore s o l) a = rawRd s a := by
  have h := ha.stores
  have hne : a ≠ seqB o + 8 := by simp only [seqB, pb]; omega
  simp only [setStore, showStore]
  rw [rawRd_peak _ _ _ _ _ hne, rawRd_fs_ne _ _ _ _ _ hne]
  rfl

theorem rawRd_setErStore (s : State) (l : List Nat) {a : Nat} (ha : Spared a) : rawRd (setErStore s l) a = rawRd s a := by
  have h := ha.erStore
  have hne (o : Nat) (ho : o < 0x58) : a ≠ pgARB + o := by simp only [pgARB, pb]; omega
  simp only [setErStore, showErStore]
  rw [rawRd_peak _ _ _ _ _ (hne _ (by decide)), rawRd_fs_ne _ _ _ _ _ (hne _ (by decide))]
  rfl

/-- A frame leaves the queues of its port; the stores and the sprayer forget it. -/
theorem unqueue_books (s : State) (id : Nat) :
    notBooks (unqueue s id) = notBooks (modP s (getF s id).out (unqueuePort id)) := by
  unfold unqueue
  extract_lets f u v w spray
  have hv : notBooks v = notBooks u := by
    unfold v
    split
    · dsimp only
      split
      · exact notBooks_setStore ..
      · rfl
    · rfl
  have hw : notBooks w = notBooks v := by
    unfold w
    split
    · exact notBooks_setErStore ..
    · rfl
  exact (hw.trans hv :)

theorem rawRd_unqueue (s : State) (id : Nat) {a : Nat} (ha : Spared a) : rawRd (unqueue s id) a = rawRd s a := by
  unfold unqueue
  extract_lets f u v w spray
  have hv : rawRd v a = rawRd u a := by
    unfold v
    split
    · dsimp only
      split
      · exact rawRd_setStore _ _ _ ha
      · rfl
    · rfl
  have hw : rawRd w a = rawRd v a := by
    unfold w
    split
    · exact rawRd_setErStore _ _ ha
    · rfl
  exact (hw.trans hv :)

/-! A frame leaves (R72, R341). -/

/-- A frame whose last bit came leaves no record. -/
theorem endFrame_eq {s : State} {id : Nat} (h : (getF s id).ended = true) :
    ∃ u, notBooks u = notBooks s ∧ u.regs = s.regs ∧ endFrame s id = setF u id {} := by
  unfold endFrame
  extract_lets f ev u
  have hu : notBooks u = notBooks s ∧ u.regs = s.regs := by
    unfold u
    split <;> exact ⟨rfl, rfl⟩
  exact ⟨u, hu.1, hu.2, if_pos (by simp [f, h])⟩

/-- Frame `id` gives its cells, its queues and its record up. -/
def leave (s : State) (id : Nat) : State := endFrame (unqueue (freeCells s id) id) id

/-- What a frame that left has left behind. -/
structure Left (s t : State) (id : Nat) : Prop where
  rest : aside t = aside s
  gone : getF t id = {}
  other : ∀ j, j ≠ id → getF t j = getF s j
  port : notPfc (getP t (getF s id).out) = notPfc (unqueuePort id (getP s (getF s id).out))
  word : accountOk (getF s id).acct → ∀ a, Spared a → rawRd t a = rawRd s a

theorem left_leave {s : State} {id : Nat} (h : (getF s id).ended = true) : Left s (leave s id) id := by
  have hc := butPfc_cellsFreed s id
  have hf : getF (freeCells s id) id = noCells (getF s id) := getF_setF ..
  have hout : (noCells (getF s id)).out = (getF s id).out := rfl
  have hq := unqueue_books (freeCells s id) id
  rw [hf, hout] at hq
  obtain ⟨u, hu, hur, he⟩ := endFrame_eq (s := unqueue (freeCells s id) id) (id := id)
    (by rw [getF_of_notBooks hq]; exact (congrArg Frame.ended hf).trans h)
  have huq := hu.trans hq
  rw [leave, he]
  refine ⟨?_, getF_setF .., fun j hj => ?_, ?_, fun hok a ha => ?_⟩
  · calc aside (setF u id {}) = aside (modP (freeCells s id) (getF s id).out (unqueuePort id)) :=
        (aside_setF ..).trans (aside_of_notBooks huq)
      _ = aside (cellsFreed s id) := by rw [aside_modP, freeCells_eq, aside_setF]
      _ = aside s := aside_of_notPorts hc.rest
  · calc getF (setF u id {}) j = getF u j := getF_setF_ne _ _ _ _ hj
      _ = getF (freeCells s id) j := getF_of_notBooks huq j
      _ = getF (cellsFreed s id) j := getF_setF_ne _ _ _ _ hj
      _ = getF s j := getF_of_frames (frames_of_notPorts hc.rest) j
  · have hport := hc.port (getF s id).out
    change notPfc (getP u _) = _
    rw [getP_of_notBooks huq, getP_modP]
    exact congrArg (unqueuePort id) hport
  · change rawRd u a = rawRd s a
    rw [rawRd_congr _ _ _ hur, rawRd_unqueue _ _ ha]
    exact rawRd_cellsFreed s id ha hok

end Sys2Proof.Machine
end

section
/-! Receiving a frame (R29, R51, R72, R74, R491): its capture, its slot, and its last bit. -/

namespace Sys2Proof.Machine

open Sys2Proof

/-! Capture. -/

theorem tryInject_of_front {s : State} {id : Nat} (h : (getF s id).port ≠ 256) : tryInject s id = s :=
  if_pos (.inl h)

theorem tryInject_of_off {s : State} (id : Nat) (h : fgb s pgHP F.HP_HP_CTRL_INJECT_EN = false) : tryInject s id = s :=
  if_pos (.inr (.inr (.inr (by simp [h]))))

theorem intake_pass {s : State} (p : Nat) (h : s.md.mode = .live ∨ s.md.mode = .diagnostic) : intake s p = .pass := by
  unfold intake
  obtain h | h := h <;> rw [h]

/-- The record of a frame captured now. -/
def captureFrame (s : State) (p l bits : Nat) (head : List Byte) : Frame :=
  { bytes := head, port := p, pipe := pipeOf p, cap := captureNow s p l bits, stage := .fifo, since := plyNat s }

/-- The state in which a captured frame has its record. -/
def captured (s : State) (p l bits : Nat) (head : List Byte) : State :=
  (addF { s with freeIx := s.freeIx + 1 } (captureFrame s p l bits head)).2

theorem getF_captured (s : State) (p l bits : Nat) (head : List Byte) :
    getF (captured s p l bits head) s.nextFrame = { captureFrame s p l bits head with live := true } := getF_addF _ _

theorem getF_captured_ne (s : State) (p l bits : Nat) (head : List Byte) {k : Nat} (h : k ≠ s.nextFrame) :
    getF (captured s p l bits head) k = getF s k := getF_setF_ne _ _ _ _ h

/-- A frame that passes intake gets its record, and then goes to injection (R29, R491). -/
theorem captureOp_passed {s : State} {p l : Nat} (bits : Nat) (head : List Byte) {full : Bool} (hup : isUp s p = true)
    (hl : l ∈ portLanes s p) (hm : s.md.mode = .live ∨ s.md.mode = .diagnostic) (hi : rxIdled s p = false)
    (hf : p < 256 → full = false) :
    captureOp s p l bits head full = tryInject (captured s p l bits head) s.nextFrame := by
  have hin := intake_pass p hm
  have hroom : ¬ (full = true ∧ p < 256) := fun h => by simp [hf h.2] at h
  unfold captureOp
  rw [if_neg (by simp [hup, hl, hin])]
  extract_lets c u a v
  have hinv : intake v p = .pass := hin
  have hiv : rxIdled v p = false := hi
  rw [hinv]
  dsimp only
  rw [hiv, if_neg Bool.false_ne_true, if_neg hroom]
  rfl

/-- Settles O12: the passed frame's record is the one made at its capture, and injection does not touch it. -/
theorem captureMakesAFrameRecord : Obligations.CaptureMakesAFrameRecord := by
  intro s p l bits head full hup hl hm hi hf hinj
  have hrec := getF_captured s p l bits head
  have hsame : tryInject (captured s p l bits head) s.nextFrame = captured s p l bits head := by
    by_cases hp : p.val = 256
    · exact tryInject_of_off _ (hinj hp)
    · exact tryInject_of_front (by rw [hrec]; exact hp)
  have hx := exec_frameCapture p l bits head full s
  rw [captureOp_passed bits head hup hl hm hi hf, hsame] at hx
  refine runs_still hx rfl ⟨rfl, ?_⟩
  rw [hrec]
  exact ⟨rfl, rfl, rfl, rfl, rfl, fun k hk => getF_captured_ne s p l bits head hk, rfl, rfl⟩

/-! Slots. -/

/-- The frames of pipeline `pipe` that wait for a slot, in order of arrival. -/
def waiting (s : State) (pipe : Nat) : List Nat := framesWhere s (fun _ f => f.pipe == pipe && waitsSlot f)

/-- The state in which frame `id` has the next slot of the ply. -/
def slotted (s : State) (pipe id : Nat) : State :=
  let n := slotsUsed s pipe
  setF { s with slots := tset (fun _ => 0) s.slots pipe (n + 1) } id
    { getF s id with stage := .parse, slot := 128 * plyNat s + n, since := plyNat s }

/-- With a slot left and no internal frame waiting, the first front-panel frame takes the slot (R51). -/
theorem slotGrant_front {s : State} {pipe id : Nat} (hs : slotsUsed s pipe < 128)
    (hin : (waiting s pipe).find? (fun k => decide (256 ≤ (getF s k).port)) = none)
    (hout : (waiting s pipe).find? (fun k => decide ((getF s k).port < 256)) = some id)
    (hinj : (getF s id).injected = false) : slotGrant s pipe = slotted s pipe id := by
  have hp : (getF s id).port < 256 := by simpa using List.find?_some hout
  unfold slotGrant
  rw [if_neg (by omega)]
  unfold waiting at hin hout
  dsimp only
  rw [hin, hout, if_neg (by simp)]
  dsimp only
  rw [if_pos hp, if_neg (by omega), if_neg (by simp [hinj])]
  rfl

theorem ingressSlotGrant_passes {s : State} {pipe : Fin 8} {id : Nat} (hs : slotsUsed s pipe < 128)
    (hin : (waiting s pipe).find? (fun k => decide (256 ≤ (getF s k).port)) = none)
    (hout : (waiting s pipe).find? (fun k => decide ((getF s k).port < 256)) = some id)
    (hinj : (getF s id).injected = false) : Runs (.ingressSlotGrant pipe) s (fun t =>
        (getF t id).stage = .parse ∧ slotsUsed t pipe = slotsUsed s pipe + 1 ∧
        (∀ k, k ≠ id → getF t k = getF s k) ∧ t.regs = s.regs ∧ t.hbm = s.hbm) := by
  have hx := exec_ingressSlotGrant pipe s
  rw [slotGrant_front hs hin hout hinj] at hx
  refine runs_still hx rfl ⟨?_, ?_, fun k hk => getF_setF_ne _ _ _ _ hk, rfl, rfl⟩
  · rw [slotted, getF_setF]
  · exact tget_tset_self (fun _ => 0) s.slots pipe (slotsUsed s pipe + 1)

/-! The last bit. -/

/-- A frame that passes the MAC's checks counts at its port, no more (R72). -/
theorem macChecks_good {s : State} {p : Nat} {bs : List Byte} (hmin : 64 ≤ bs.length) (hmax : bs.length ≤ maxFrame s p)
    (hfcs : fcsOk bs = true) : (macChecks s p bs).1 = true ∧ notBooks (macChecks s p bs).2 = notBooks s := by
  have hrunt : decide (bs.length < 64) = false := decide_eq_false (by omega)
  have hgiant : decide (maxFrame s p < bs.length) = false := decide_eq_false (by omega)
  unfold macChecks
  dsimp only
  rw [hrunt, hgiant, hfcs]
  refine ⟨rfl, ?_⟩
  simp only [Bool.not_true, Bool.or_self, Bool.not_false, Bool.false_and, Bool.false_eq_true, if_false, if_true]
  split <;> simp

theorem wholeBytes_ended (bs : List Byte) (good : Bool) {f : Frame} (h : f.ended = true) : wholeBytes bs good f = f :=
  if_pos h

theorem wholeBytes_whole (bs : List Byte) (good : Bool) {f : Frame} (h : f.ended = false) (hc : f.cutAt = 0) :
    wholeBytes bs good f = { f with bytes := bs, ended := true, fcsGood := good } := by
  unfold wholeBytes
  rw [if_neg (by simp [h]), if_neg (by simp [hc])]

/-- A record that has ended keeps as it is when the whole frame's bytes reach others. -/
theorem getF_foldl_wholeBytes (bs : List Byte) (good : Bool) (ks : List Nat) {s : State} {id : Nat}
    (h : (getF s id).ended = true) :
    getF (ks.foldl (fun s k => modF s k (wholeBytes bs good)) s) id = getF s id := by
  induction ks generalizing s with
  | nil => rfl
  | cons k ks ih =>
    have hk : getF (modF s k (wholeBytes bs good)) id = getF s id := by
      by_cases hid : id = k
      · subst hid
        rw [getF_modF, wholeBytes_ended _ _ h]
      · exact getF_modF_ne _ _ _ _ hid
    rw [List.foldl_cons, ih (by rw [hk]; exact h), hk]

/-- The state in which the whole frame `id` has reached its record and its copies. -/
def wholeFrame (s : State) (id : Nat) (bs : List Byte) : State :=
  (id :: copiesOf s id).foldl (fun s k => modF s k (wholeBytes bs true)) s

theorem aside_wholeFrame (s : State) (id : Nat) (bs : List Byte) : aside (wholeFrame s id bs) = aside s :=
  foldl_keeps aside (fun t k => aside_modF t k _) _ s

theorem getF_wholeFrame {s : State} {id : Nat} (bs : List Byte) (h : (getF s id).ended = false)
    (hc : (getF s id).cutAt = 0) :
    getF (wholeFrame s id bs) id = { getF s id with bytes := bs, ended := true, fcsGood := true } := by
  have hid : getF (modF s id (wholeBytes bs true)) id = { getF s id with bytes := bs, ended := true, fcsGood := true } := by
    rw [getF_modF, wholeBytes_whole _ _ h hc]
  rw [wholeFrame, List.foldl_cons, getF_foldl_wholeBytes _ _ _ (by rw [hid]), hid]

/-- A frame that waits in the FIFO of a front-panel port and has not ended. -/
structure Arriving (f : Frame) : Prop where
  live : f.live = true
  ended : f.ended = false
  copy : f.isCopy = false
  mirror : f.isMirror = false
  stage : f.stage = .fifo
  port : f.port < 256
  injected : f.injected = false
  cut : f.cutAt = 0

/-- The state in which the last bytes of frame `id` have come. -/
def arrived (s : State) (id : Nat) (rest : List Byte) : State :=
  setF s id { getF s id with bytes := (getF s id).bytes ++ rest }

/-- A good last bit ends the record and its copies; the rest is the books' (R72, R407). -/
theorem frameEndOp_good {s : State} {id : Nat} {rest : List Byte} (hf : Arriving (getF s id))
    (hether : etherOf ((getF s id).bytes ++ rest) ≠ some 0x8808) (hmin : 64 ≤ ((getF s id).bytes ++ rest).length)
    (hmax : ((getF s id).bytes ++ rest).length ≤ maxFrame s (getF s id).port)
    (hfcs : fcsOk ((getF s id).bytes ++ rest) = true) :
    ∃ u, notBooks u = notBooks (arrived s id rest) ∧
      notBooks (frameEndOp s id rest) = notBooks (wholeFrame u id ((getF s id).bytes ++ rest)) := by
  obtain ⟨hlive, hended, hcopy, hmirror, hstage, hport, hinj, -⟩ := hf
  have hgot : getF (arrived s id rest) id = { getF s id with bytes := (getF s id).bytes ++ rest } := getF_setF ..
  obtain ⟨hgood, hbooks⟩ := macChecks_good (s := arrived s id rest) hmin hmax hfcs
  refine ⟨_, hbooks, ?_⟩
  unfold frameEndOp
  extract_lets f v w g all r good bs ids x y
  rw [if_neg (by simp [f, hlive, hended, hcopy, hmirror])]
  have hw : w = arrived s id rest := by
    unfold w
    rw [if_pos hstage]
    exact tryInject_of_front (ne_of_eq_of_ne (congrArg Frame.port hgot) (Nat.ne_of_lt hport))
  have hg : g = { getF s id with bytes := (getF s id).bytes ++ rest } := by rw [← hgot, ← hw]
  have hginj : ¬ g.injected = true := by simp [hg, hinj]
  have hall : all = (getF s id).bytes ++ rest := (if_neg hginj).trans (by rw [hg])
  have hr : r = macChecks (arrived s id rest) (getF s id).port ((getF s id).bytes ++ rest) := by
    unfold r
    rw [hw, hall, hg]
  have hbs : bs = (getF s id).bytes ++ rest := (if_neg (fun h => hginj h.1)).trans (by rw [hg])
  have hgd : good = true := by unfold good; rw [hr, hgood]
  have hx : x = wholeFrame r.2 id ((getF s id).bytes ++ rest) := by unfold x wholeFrame; rw [hbs, hgd]
  rw [if_neg (by simp [hg, hlive]), hall, if_neg hether, (show g.stage = .fifo by rw [hg]; exact hstage)]
  dsimp only
  rw [if_pos hgd, ← hr, ← hx]
  exact notBooks_noteDigest ..

/-- A good frame's last bit closes its record (R72). -/
theorem frameEnd_closes {s : State} {id : Nat} {rest : List Byte} (hf : Arriving (getF s id))
    (hether : etherOf ((getF s id).bytes ++ rest) ≠ some 0x8808) (hmin : 64 ≤ ((getF s id).bytes ++ rest).length)
    (hmax : ((getF s id).bytes ++ rest).length ≤ maxFrame s (getF s id).port)
    (hfcs : fcsOk ((getF s id).bytes ++ rest) = true) : Runs (.frameEnd id rest) s (fun t =>
        (getF t id).ended = true ∧ (getF t id).fcsGood = true ∧ (getF t id).bytes = (getF s id).bytes ++ rest ∧
        (getF t id).live = true ∧ t.hbm = s.hbm) := by
  obtain ⟨u, hu, ht⟩ := frameEndOp_good hf hether hmin hmax hfcs
  have hgot : getF u id = { getF s id with bytes := (getF s id).bytes ++ rest } :=
    (getF_of_notBooks hu id).trans (getF_setF ..)
  have hrec := getF_wholeFrame (s := u) (id := id) ((getF s id).bytes ++ rest) (by rw [hgot]; exact hf.ended)
    (by rw [hgot]; exact hf.cut)
  rw [hgot, ← getF_of_notBooks ht id] at hrec
  have haside : aside (frameEndOp s id rest) = aside s := calc
    aside (frameEndOp s id rest) = aside (wholeFrame u id _) := aside_of_notBooks ht
    _ = aside u := aside_wholeFrame ..
    _ = aside (arrived s id rest) := aside_of_notBooks hu
    _ = aside s := aside_setF ..
  have hstill := still_of_aside haside
  refine runs_still (exec_frameEnd id rest s) hstill ?_
  rw [hrec]
  exact ⟨rfl, rfl, rfl, hf.live, hbm_of_still hstill⟩

/-- Settles O13: the slot goes to the first front-panel frame, and the checks of a good frame only count. -/
theorem frameEndsAndSlots : Obligations.FrameEndsAndSlots := fun _ =>
  ⟨fun _ _ hs hin hout hinj => ingressSlotGrant_passes hs hin hout hinj,
   fun _ _ hlive hended hcopy hmirror hstage hport hinj hcut =>
    frameEnd_closes ⟨hlive, hended, hcopy, hmirror, hstage, hport, hinj, hcut⟩⟩

end Sys2Proof.Machine
end

section
/-! The end of a transmission (R27, R339, R343): what goes out, what counts, and what the frame leaves behind. -/

namespace Sys2Proof.Machine

open Sys2Proof

/-! Ports as the registers in force give them. -/

theorem frozen_of_eff {s t : State} (h : t.eff = s.eff) (page : Nat) : frozen t page = frozen s page := by
  unfold frozen effRd
  rw [h]

theorem portMapped_of_eff {s t : State} (h : t.eff = s.eff) (hf : t.fuse = s.fuse) (p : Nat) :
    portMapped t p = portMapped s p := by
  simp only [portMapped, mapLanes, groupMap, isClient, framerOn, cgb, cg, effRd, h, hf]

/-! Port counters (R16, R93). -/

theorem rawRd_bumpPort {s : State} {p o n a : Nat} (ha : plainWord a) (hlo : a ≠ portB p + o) (hhi : a ≠ portB p + o + 4)
    (hst : a ≠ portB p + 4) : rawRd (bumpPort s p o n) a = rawRd s a := by
  unfold bumpPort
  split
  · extract_lets c before u
    have hu : rawRd u a = rawRd s a := rawRd_bumpN _ _ _ _ ha hlo hhi
    rw [← hu]
    split
    · exact rawRd_fs_ne _ _ _ _ _ hst
    · rfl
  · rfl

/-- A mapped port's counter counts while its page is not frozen. -/
theorem rd64_bumpPort {s : State} {p o : Nat} (n : Nat) (hp : p < 256) (hm : portMapped s p = true)
    (hf : frozen s (0x020 + p / 8) = false) (hlo : 8 ≤ o) (hhi : o + 4 < 0x100) :
    rd64 (bumpPort s p o n) (portB p + o) = (rd64 s (portB p + o) + n) % 2 ^ 64 := by
  have hpage : (portB p + o) / 0x1000 = 0x020 + p / 8 := by
    rw [portB_add]
    exact pb_add_div _ (by omega)
  have hcount := rd64_bumpN s (portB p + o) n (by rw [hpage]; exact hf) (spared_of_port hp (by omega)).plain
    (by rw [Nat.add_assoc]; exact (spared_of_port hp hhi).plain)
  unfold bumpPort
  rw [if_pos ⟨hp, hm⟩]
  extract_lets c before u
  rw [← hcount]
  split
  · exact rd64_of_words (rawRd_fs_ne _ _ _ _ _ (by simp only; omega)) (rawRd_fs_ne _ _ _ _ _ (by simp only; omega))
  · rfl

/-! The steps of a transmission's end. -/

/-- The bytes sent on port `p` are noted and driven. -/
def sentNoted (s : State) (p id : Nat) : State :=
  let f := getF s id
  let b := sentBytes s f
  let s := { s with freeIx := s.freeIx + 1 }
  let s := if b.2 = 0 then s else bumpN s (deckB (pipeOf p) + R.DECK_EDIT_BAD) b.2
  let s := noteActual s id (b.1.length - brandBytes f.brandPlace) true
  if p ≤ 256 then emit s (.frame p b.1) else s

/-- A frame `f` of `n` bytes sent on port `p` is counted. -/
def sentCounted (s : State) (p n : Nat) (f : Frame) : State :=
  let s := if f.bad then
      (if p < 256 then bump s (accB p + R.ACC_STOMPED) else s)
    else
      let s := bumpTx s p R.PORT_TX_FRAMES (some R.HP_TX_FRAMES) 1
      let s := bumpTx s p R.PORT_TX_BYTES none n
      if f.exportSeq = 0 then s else exportSent s f.exportSeq
  if f.cutThrough ∧ p < 256 then bump s (accB p + R.ACC_CT_FRAMES) else s

/-- The Tally learns that frame `id` was sent, stomped where it was bad. -/
def sentTold (s : State) (id : Nat) (bad : Bool) : State :=
  let s := if bad then modPend s id (fun e => { e with poisoned := true }) else s
  tellOutcome s id (if bad then 1 else 0) 0

/-- Frame `id` is sent and gone, and port `p` goes on to its next. -/
def sentGone (s : State) (p id : Nat) : State :=
  setBegun (modP (leave s id) p (fun P => { P with begun := false })) p

/-- The state in which frame `id` has been sent on port `p`. -/
def frameSent (s : State) (p id : Nat) : State :=
  let f := getF s id
  sentGone (sentTold (sentCounted (sentNoted s p id) p (sentBytes s f).1.length f) id f.bad) p id

theorem finishTx_eq {s : State} {p id : Nat} {rest : List Nat} (hg : (getP s p).granted = id :: rest)
    (hb : (getP s p).begun = true) (hc : complete (getF s id) = true) :
    finishTx s p = if 256 < p ∧ ¬ (getF s id).bad then
        recirculate (frameSent s p id) (getF s id) (sentBytes s (getF s id)).1
      else frameSent s p id := by
  unfold finishTx
  rw [hg]
  dsimp only
  rw [if_neg (by simp [hb, hc])]
  rfl

/-- What goes out on port `p`: on a line or host port the frame, on a recirculation port nothing. -/
def driven (s : State) (p id : Nat) : State := if p ≤ 256 then emit s (.frame p (sentBytes s (getF s id)).1) else s

theorem notBooks_emit (s : State) (o : Out) : notBooks (emit s o) = emit (notBooks s) o := rfl

theorem sentNoted_books (s : State) (p id : Nat) : notBooks (sentNoted s p id) = notBooks (driven s p id) := by
  unfold sentNoted driven
  extract_lets f b u v w
  have hw : notBooks w = notBooks s := by
    unfold w v
    split
    · rfl
    · exact notBooks_bumpN ..
  split
  · rw [notBooks_emit, notBooks_emit, ← hw]
  · exact hw

theorem sentCounted_books (s : State) (p n : Nat) (f : Frame) : notBooks (sentCounted s p n f) = notBooks s := by
  unfold sentCounted
  extract_lets u v w
  have hw : notBooks w = notBooks s := by
    unfold w v u
    split
    · split <;> simp
    · split <;> simp
  rw [← hw]
  split <;> simp

theorem sentTold_books (s : State) (id : Nat) (bad : Bool) : notBooks (sentTold s id bad) = notBooks s := by
  unfold sentTold
  cases bad <;> simp

/-- Until the frame is gone, a transmission drives its bytes and writes the books. -/
theorem sentTold_all (s : State) (p id n : Nat) (f : Frame) (bad : Bool) :
    notBooks (sentTold (sentCounted (sentNoted s p id) p n f) id bad) = notBooks (driven s p id) :=
  (sentTold_books ..).trans ((sentCounted_books ..).trans (sentNoted_books ..))

theorem getF_driven (s : State) (p id k : Nat) : getF (driven s p id) k = getF s k := by
  unfold driven
  split <;> rfl

theorem getP_driven (s : State) (p id q : Nat) : getP (driven s p id) q = getP s q := by
  unfold driven
  split <;> rfl

theorem getF_setP (s : State) (p k : Nat) (P : PortSt) : getF (setP s p P) k = getF s k := rfl
theorem getF_of_modP (s : State) (p k : Nat) (g : PortSt → PortSt) : getF (modP s p g) k = getF s k := rfl
theorem rawRd_setP (s : State) (p a : Nat) (P : PortSt) : rawRd (setP s p P) a = rawRd s a := rfl
theorem rawRd_modP (s : State) (p a : Nat) (g : PortSt → PortSt) : rawRd (modP s p g) a = rawRd s a := rfl

theorem granted_of_notPfc {P Q : PortSt} (h : notPfc P = notPfc Q) : P.granted = Q.granted :=
  (congrArg PortSt.granted h :)

theorem granted_setP_begun (s : State) (p : Nat) (P : PortSt) (b : Bool) :
    (getP (setP s p { P with begun := b }) p).granted = P.granted := by rw [getP_setP]

theorem granted_modP_begun (s : State) (p : Nat) (b : Bool) :
    (getP (modP s p (fun P => { P with begun := b })) p).granted = (getP s p).granted := granted_setP_begun ..

/-- Only the flag that the head has begun changes. -/
theorem setBegun_eq (s : State) (p : Nat) : ∃ b, setBegun s p = setP s p { getP s p with begun := b } := by
  unfold setBegun modP
  dsimp only
  split <;> exact ⟨_, rfl⟩

/-- What frame `id`, sent on port `p`, has left behind. -/
structure Sent (s t : State) (p id : Nat) : Prop where
  rest : aside t = aside s
  gone : getF t id = {}
  other : ∀ j, j ≠ id → getF t j = getF s j
  granted : (getP t p).granted = (getP s p).granted.filter (· ≠ id)

theorem sentGone_sent {s : State} {p id : Nat} (he : (getF s id).ended = true) (ho : (getF s id).out = p) :
    Sent s (sentGone s p id) p id := by
  have hl := left_leave he
  obtain ⟨b, hb⟩ := setBegun_eq (modP (leave s id) p (fun P => { P with begun := false })) p
  have hp := granted_of_notPfc hl.port
  rw [ho] at hp
  unfold sentGone
  rw [hb]
  constructor
  · rw [aside_setP, aside_modP, hl.rest]
  · rw [getF_setP, getF_of_modP, hl.gone]
  · intro j hj
    rw [getF_setP, getF_of_modP, hl.other j hj]
  · rw [granted_setP_begun, granted_modP_begun, hp]
    rfl

theorem frameSent_sent {s : State} {p id : Nat} (he : (getF s id).ended = true) (ho : (getF s id).out = p) :
    Sent (driven s p id) (frameSent s p id) p id := by
  have hb := sentTold_all s p id (sentBytes s (getF s id)).1.length (getF s id) (getF s id).bad
  have hf := getF_of_notBooks hb
  have hd := getF_driven s p id
  obtain ⟨hrest, hgone, hother, hgranted⟩ := sentGone_sent
    (s := sentTold (sentCounted (sentNoted s p id) p (sentBytes s (getF s id)).1.length (getF s id)) id (getF s id).bad)
    (p := p) (id := id) (by rw [hf, hd]; exact he) (by rw [hf, hd]; exact ho)
  rw [getP_of_notBooks hb] at hgranted
  exact ⟨hrest.trans (aside_of_notBooks hb), hgone, fun j hj => (hother j hj).trans (hf j), hgranted⟩

/-! Words through a transmission. -/

/-- A word that no count of a transmission touches but those of its port and account. -/
structure Unsent (a : Nat) : Prop extends Spared a where
  deck : a / 0x1000 < 0x200 ∨ 0x300 ≤ a / 0x1000
  audit : a / 0x1000 ≠ 0x17

theorem rawRd_sentNoted (s : State) {p id a : Nat} (ha : Unsent a) (hp : p < 265) :
    rawRd (sentNoted s p id) a = rawRd s a := by
  have hpipe : pipeOf p < 8 := by unfold pipeOf; split_ifs <;> omega
  have hne (o : Nat) (ho : o < 0x1000) : a ≠ deckB (pipeOf p) + o := by
    have h := ha.deck
    simp only [deckB, pb]
    omega
  unfold sentNoted
  extract_lets f b u v w
  have hw : rawRd w a = rawRd s a := by
    unfold w v
    split
    · rfl
    · exact rawRd_bumpN _ _ _ _ ha.plain (hne _ (by decide)) (by rw [Nat.add_assoc]; exact hne _ (by decide))
  rw [← hw]
  split <;> rfl

theorem rawRd_sentTold (s : State) (id : Nat) (bad : Bool) {a : Nat} (ha : Spared a) :
    rawRd (sentTold s id bad) a = rawRd s a := by
  have hm (g : Pend → Pend) : rawRd (modPend s id g) a = rawRd s a := by
    unfold modPend
    extract_lets f
    split
    · rfl
    · split <;> rfl
  unfold sentTold
  extract_lets u
  rw [rawRd_tellOutcome _ _ _ _ ha]
  unfold u
  split
  · exact hm _
  · rfl

theorem rawRd_sentGone {s : State} {id : Nat} (p : Nat) {a : Nat} (ha : Spared a) (he : (getF s id).ended = true)
    (hok : accountOk (getF s id).acct) : rawRd (sentGone s p id) a = rawRd s a := by
  obtain ⟨b, hbegun⟩ := setBegun_eq (modP (leave s id) p (fun P => { P with begun := false })) p
  rw [sentGone, hbegun, rawRd_setP, rawRd_modP, (left_leave he).word hok a ha]

/-- After its counts, a transmission leaves every spared word alone. -/
theorem rawRd_frameSent {s : State} {p id a : Nat} (ha : Spared a) (he : (getF s id).ended = true)
    (hok : accountOk (getF s id).acct) : rawRd (frameSent s p id) a =
      rawRd (sentCounted (sentNoted s p id) p (sentBytes s (getF s id)).1.length (getF s id)) a := by
  have hf : getF (sentTold (sentCounted (sentNoted s p id) p (sentBytes s (getF s id)).1.length (getF s id)) id
      (getF s id).bad) id = getF s id := (getF_of_notBooks (sentTold_all ..) id).trans (getF_driven ..)
  exact (rawRd_sentGone p ha (by rw [hf]; exact he) (by rw [hf]; exact hok)).trans (rawRd_sentTold _ _ _ ha)

theorem bumpTx_front (s : State) {p : Nat} (o : Nat) (hp : Option Nat) (n : Nat) (h : p < 256) :
    bumpTx s p o hp n = bumpPort s p o n := if_neg (by omega)

/-- The count of a frame sent on a front-panel port: sent or stomped (R93, R343). -/
def sentFirst (s : State) (p : Nat) (f : Frame) : State :=
  if f.bad then bump s (accB p + R.ACC_STOMPED) else bumpPort s p R.PORT_TX_FRAMES 1

/-- The first counters of the port and its account keep their count through the rest. -/
theorem rawRd_sentCounted (s : State) {p : Nat} (n : Nat) (f : Frame) {a : Nat} (ha : Unsent a) (hp : p < 256)
    (hbytes : a ≠ portB p + 0x60 ∧ a ≠ portB p + 0x64) (hstatus : a ≠ portB p + 4)
    (hct : a ≠ accB p + 0xA0 ∧ a ≠ accB p + 0xA4) :
    rawRd (sentCounted s p n f) a = rawRd (sentFirst s p f) a := by
  unfold sentCounted
  extract_lets u v w
  have hw : rawRd w a = rawRd (sentFirst s p f) a := by
    unfold w sentFirst
    split
    · rfl
    · have hv : rawRd v a = rawRd (bumpPort s p R.PORT_TX_FRAMES 1) a := by
        unfold v u
        rw [bumpTx_front _ _ _ _ hp, bumpTx_front _ _ _ _ hp]
        exact rawRd_bumpPort ha.plain hbytes.1 hbytes.2 hstatus
      rw [← hv]
      split
      · rfl
      · exact rawRd_exportSent _ _ ha.toSpared ha.audit
  rw [← hw]
  split
  · exact rawRd_bump _ _ _ ha.plain hct.1 hct.2
  · rfl

theorem unsent_of_port {p o : Nat} (hp : p < 256) (ho : o < 0x100) : Unsent (portB p + o) := by
  have hlt : 0x100 + 0x100 * (p % 8) + o < 0x1000 := by omega
  refine ⟨spared_of_port hp ho, ?_, ?_⟩ <;> rw [portB_add, pb_add_div _ hlt] <;> omega

theorem unsent_of_account {p o : Nat} (hp : p < 256) (hlo : 0x60 ≤ o) (ho : o < 0xC0) : Unsent (accB p + o) := by
  have hlt : 0x400 + 0xC0 * (p % 16) + o < 0x1000 := by omega
  refine ⟨spared_of_account hp hlo ho, ?_, ?_⟩ <;> rw [accB_add, pb_add_div _ hlt] <;> omega

theorem driven_config (s : State) (p id : Nat) : (driven s p id).eff = s.eff ∧ (driven s p id).fuse = s.fuse := by
  unfold driven
  split <;> exact ⟨rfl, rfl⟩

/-- A frame sent whole on a front-panel port counts once: sent or stomped. -/
theorem rawRd_frameSent_front {s : State} {p id a : Nat} (ha : Unsent a) (hp : p < 256)
    (he : (getF s id).ended = true) (hok : accountOk (getF s id).acct)
    (hbytes : a ≠ portB p + 0x60 ∧ a ≠ portB p + 0x64) (hstatus : a ≠ portB p + 4)
    (hct : a ≠ accB p + 0xA0 ∧ a ≠ accB p + 0xA4) :
    rawRd (frameSent s p id) a = rawRd (sentFirst (sentNoted s p id) p (getF s id)) a :=
  (rawRd_frameSent ha.toSpared he hok).trans (rawRd_sentCounted _ _ _ ha hp hbytes hstatus hct)

theorem rd64_sentNoted (s : State) {p id a : Nat} (hp : p < 265) (hlo : Unsent a) (hhi : Unsent (a + 4)) :
    rd64 (sentNoted s p id) a = rd64 s a := rd64_of_words (rawRd_sentNoted s hlo hp) (rawRd_sentNoted s hhi hp)

theorem frameSent_counts_frames {s : State} {p id : Nat} (hp : p < 256) (hm : portMapped s p = true)
    (hbad : (getF s id).bad = false) (hf : frozen s (0x020 + p / 8) = false) (he : (getF s id).ended = true)
    (hok : accountOk (getF s id).acct) :
    rd64 (frameSent s p id) (portB p + R.PORT_TX_FRAMES) = (rd64 s (portB p + R.PORT_TX_FRAMES) + 1) % 2 ^ 64 := by
  have hlo : Unsent (portB p + R.PORT_TX_FRAMES) := unsent_of_port hp (by decide)
  have hhi : Unsent (portB p + R.PORT_TX_FRAMES + 4) := unsent_of_port (o := 0x5C) hp (by decide)
  have hbooks := aside_of_notBooks (sentNoted_books s p id)
  obtain ⟨heff, hfuse⟩ := driven_config s p id
  have heff' := (eff_of_aside hbooks).trans heff
  have hfirst : sentFirst (sentNoted s p id) p (getF s id) = bumpPort (sentNoted s p id) p R.PORT_TX_FRAMES 1 :=
    if_neg (by simp [hbad])
  have hword (o : Nat) (ho : 0x58 ≤ o) (ho' : o < 0x60) :
      rawRd (frameSent s p id) (portB p + o) = rawRd (bumpPort (sentNoted s p id) p R.PORT_TX_FRAMES 1) (portB p + o) := by
    rw [← hfirst]
    refine rawRd_frameSent_front (unsent_of_port hp (by omega)) hp he hok ?_ ?_ ?_ <;> simp only [portB, accB, pb] <;> omega
  rw [rd64_of_words (hword _ (by decide) (by decide)) (hword 0x5C (by decide) (by decide)),
    rd64_bumpPort 1 hp ((portMapped_of_eff heff' ((fuse_of_aside hbooks).trans hfuse) p).trans hm)
      ((frozen_of_eff heff' _).trans hf) (by decide) (by decide),
    rd64_sentNoted s (by omega) hlo hhi]

theorem frameSent_counts_stomped {s : State} {p id : Nat} (hp : p < 256) (hbad : (getF s id).bad = true)
    (hf : frozen s (0x390 + p / 16) = false) (he : (getF s id).ended = true) (hok : accountOk (getF s id).acct) :
    rd64 (frameSent s p id) (accB p + R.ACC_STOMPED) = (rd64 s (accB p + R.ACC_STOMPED) + 1) % 2 ^ 64 := by
  have hlo : Unsent (accB p + R.ACC_STOMPED) := unsent_of_account hp (by decide) (by decide)
  have hhi : Unsent (accB p + R.ACC_STOMPED + 4) := unsent_of_account (o := 0x8C) hp (by decide) (by decide)
  have heff := (eff_of_aside (aside_of_notBooks (sentNoted_books s p id))).trans (driven_config s p id).1
  have hpage : (accB p + R.ACC_STOMPED) / 0x1000 = 0x390 + p / 16 := by
    rw [accB_add, pb_add_div _ (by simp only [R.ACC_STOMPED]; omega)]
  have hfirst : sentFirst (sentNoted s p id) p (getF s id) = bump (sentNoted s p id) (accB p + R.ACC_STOMPED) :=
    if_pos hbad
  have hword (o : Nat) (ho : 0x88 ≤ o) (ho' : o < 0x90) :
      rawRd (frameSent s p id) (accB p + o) = rawRd (bump (sentNoted s p id) (accB p + R.ACC_STOMPED)) (accB p + o) := by
    rw [← hfirst]
    refine rawRd_frameSent_front (unsent_of_account hp (by omega) (by omega)) hp he hok ?_ ?_ ?_ <;>
      simp only [portB, accB, pb] <;> omega
  rw [rd64_of_words (hword _ (by decide) (by decide)) (hword 0x8C (by decide) (by decide)),
    rd64_bump _ _ (by rw [hpage, frozen_of_eff heff]; exact hf) hlo.plain hhi.plain,
    rd64_sentNoted s (by omega) hlo hhi]

/-! Recirculation (R27, R148). -/

/-- The record with which frame `f` enters the ingress of its pipeline again. -/
def recircFrame (s : State) (f : Frame) (bytes : List Byte) : Frame :=
  { bytes := bytes, ended := true, fcsGood := true, port := f.out, pipe := pipeOf f.out, cap := f.cap, stage := .fifo,
    since := plyNat s, gen := f.gen, genTaken := f.genTaken, genPipe := f.genPipe, metered := f.metered,
    flowSeq := f.flowSeq, flowIdx := f.flowIdx, unmeteredMark := f.unmeteredMark }

theorem recirculate_eq (s : State) (f : Frame) (bytes : List Byte) :
    ∃ u, notBooks u = notBooks s ∧ recirculate s f bytes = (addF u (recircFrame u f bytes)).2 := by
  unfold recirculate
  extract_lets p pipe u v
  exact ⟨v, (notBooks_bumpN ..).trans (notBooks_bump ..), rfl⟩

theorem driven_line {s : State} {p : Nat} (id : Nat) (hp : p ≤ 256) :
    driven s p id = emit s (.frame p (sentBytes s (getF s id)).1) := if_pos hp

theorem driven_recirc {s : State} {p : Nat} (id : Nat) (hp : 256 < p) : driven s p id = s := if_neg (by omega)

/-- A frame sent on a line or on the host port is driven out and gone (R339, R343). -/
theorem frameTransmitted_sends {s : State} {p : Fin 265} {id : Nat} {rest : List Nat} (hg : (getP s p).granted = id :: rest)
    (hb : (getP s p).begun = true) (hc : complete (getF s id) = true) (ho : (getF s id).out = p)
    (hok : accountOk (getF s id).acct) (hp : p.val ≤ 256) :
    Runs (.frameTransmitted p) s (fun t => t.out = s.out ++ [.frame p (sentBytes s (getF s id)).1] ∧ getF t id = {} ∧
      (getP t p).granted = rest.filter (· ≠ id) ∧ (∀ j, j ≠ id → getF t j = getF s j) ∧ t.hbm = s.hbm ∧
      (p.val < 256 → portMapped s p = true → (getF s id).bad = false → frozen s (0x020 + p / 8) = false →
        rd64 t (portB p + R.PORT_TX_FRAMES) = (rd64 s (portB p + R.PORT_TX_FRAMES) + 1) % 2 ^ 64) ∧
      (p.val < 256 → (getF s id).bad = true → frozen s (0x390 + p / 16) = false →
        rd64 t (accB p + R.ACC_STOMPED) = (rd64 s (accB p + R.ACC_STOMPED) + 1) % 2 ^ 64)) := by
  have he : (getF s id).ended = true := (Bool.and_eq_true_iff.mp hc).1
  obtain ⟨hrest, hgone, hother, hgranted⟩ := frameSent_sent he ho
  have hx := exec_frameTransmitted p s
  rw [finishTx_eq hg hb hc, if_neg (by omega)] at hx
  have hother' (j : Nat) (hj : j ≠ id) := (hother j hj).trans (getF_driven s p id j)
  rw [getP_driven] at hgranted
  rw [driven_line id hp] at hrest
  have hstill := still_of_aside hrest
  refine runs_still hx hstill ⟨out_of_aside hrest, hgone, ?_, hother', hbm_of_still hstill, ?_, ?_⟩
  · rw [hgranted, hg, List.filter_cons_of_neg (by simp)]
  · exact fun hlt hm hbad hf => frameSent_counts_frames hlt hm hbad hf he hok
  · exact fun hlt hbad hf => frameSent_counts_stomped hlt hbad hf he hok

/-- A frame sent on a recirculation port enters the ingress again, or is gone where it is bad (R27, R343). -/
theorem frameTransmitted_recirculates {s : State} {p : Fin 265} {id : Nat} {rest : List Nat}
    (hg : (getP s p).granted = id :: rest) (hb : (getP s p).begun = true) (hc : complete (getF s id) = true)
    (ho : (getF s id).out = p) (hp : 256 < p.val) :
    Runs (.frameTransmitted p) s (fun t => t.out = s.out ∧ (getP t p).granted = rest.filter (· ≠ id) ∧ t.hbm = s.hbm ∧
      ((getF s id).bad = true → t.nextFrame = s.nextFrame ∧ getF t id = {}) ∧
      ((getF s id).bad = false → t.nextFrame = s.nextFrame + 1 ∧
        let g := getF t s.nextFrame
        g.live = true ∧ g.bytes = (sentBytes s (getF s id)).1 ∧ g.ended = true ∧ g.stage = .fifo ∧ g.port = p ∧
        g.pipe = p - 257 ∧ g.cap = (getF s id).cap ∧ g.gen = (getF s id).gen ∧ g.flowIdx = (getF s id).flowIdx)) := by
  have he : (getF s id).ended = true := (Bool.and_eq_true_iff.mp hc).1
  obtain ⟨hrest, hgone, -, hgranted⟩ := frameSent_sent he ho
  have hx := exec_frameTransmitted p s
  rw [finishTx_eq hg hb hc] at hx
  rw [driven_recirc id hp] at hrest
  have hstill := still_of_aside hrest
  have hgr : (getP (frameSent s p id) p).granted = rest.filter (· ≠ id) := by
    rw [hgranted, getP_driven, hg, List.filter_cons_of_neg (by simp)]
  cases hbad : (getF s id).bad with
  | true =>
    rw [if_neg (by simp [hbad])] at hx
    exact runs_still hx hstill ⟨out_of_aside hrest, hgr, hbm_of_still hstill,
      fun _ => ⟨nextFrame_of_aside hrest, hgone⟩, fun h => absurd h (by decide)⟩
  | false =>
    obtain ⟨u, hu, hre⟩ := recirculate_eq (frameSent s p id) (getF s id) (sentBytes s (getF s id)).1
    have hua := (aside_of_notBooks hu).trans hrest
    have hnext := nextFrame_of_aside hua
    have hpipe : pipeOf p = p - 257 := by unfold pipeOf; rw [if_neg (by omega), if_neg (by omega)]
    rw [if_pos ⟨hp, by simp [hbad]⟩, hre] at hx
    refine runs_still hx (still_of_aside hua :) ⟨(out_of_aside hua :), ?_, (hbm_of_still (still_of_aside hua) :),
      fun h => absurd h (by decide), fun _ => ⟨?_, ?_⟩⟩
    · exact (congrArg PortSt.granted (getP_of_notBooks hu p)).trans hgr
    · rw [addF_nextFrame, hnext]
    · rw [← hnext, getF_addF]
      exact ⟨rfl, rfl, rfl, rfl, ho, (congrArg pipeOf ho).trans hpipe, rfl, rfl, rfl⟩

end Sys2Proof.Machine
end

section
/-! Launches of even-release copies (R394, R396): copies that begin, wait late or are dropped. -/

namespace Sys2Proof.Machine

open Sys2Proof

/-! A launch. -/

/-- Port `P` with copy `id` on its transmitter. -/
def beganPort (id : Nat) (P : PortSt) : PortSt :=
  { unqueuePort id P with granted := id :: (unqueuePort id P).granted, begun := true }

theorem not_mem_gate_unqueuePort (id : Nat) (P : PortSt) : id ∉ (unqueuePort id P).gate := by simp [unqueuePort]
theorem not_mem_lateWait_unqueuePort (id : Nat) (P : PortSt) : id ∉ (unqueuePort id P).lateWait := by simp [unqueuePort]

theorem getP_beginCopy (s : State) (p id : Nat) : getP (beginCopy s p id) p = beganPort id (getP s p) :=
  (getP_modP s p (beganPort id) :)

/-- What a copy `id` that begins on port `p` comes to. -/
structure Begins (s t : State) (p id : Nat) : Prop where
  rest : aside t = aside s
  begun : (getP t p).begun = true
  head : (getP t p).granted.head? = some id
  gate : id ∉ (getP t p).gate
  late : id ∉ (getP t p).lateWait
  stage : (getF t id).stage = .granted
  other : ∀ j, j ≠ id → getF t j = getF s j
  regs : t.regs = s.regs

theorem beginCopy_begins (s : State) (p id : Nat) : Begins s (beginCopy s p id) p id := by
  have hp := getP_beginCopy s p id
  refine ⟨rfl, ?_, ?_, ?_, ?_, ?_, fun j hj => getF_setF_ne _ _ _ _ hj, rfl⟩
  · rw [hp]; rfl
  · rw [hp]; rfl
  · rw [hp]; exact not_mem_gate_unqueuePort id _
  · rw [hp]; exact not_mem_lateWait_unqueuePort id _
  · rw [beginCopy, getF_setF]

/-- Copy `id` has left the gate of port `p`. -/
def gateLeft (s : State) (p id : Nat) : State := modP s p (fun P => { P with gate := P.gate.filter (· ≠ id) })

/-- Copy `id` at the gate of port `p` finds the transmitter on the air. -/
def busyAtGate (s : State) (p id : Nat) : State := setF (gateLeft s p id) id { getF s id with flagReleased := false }

theorem getF_busyAtGate (s : State) (p id : Nat) :
    getF (busyAtGate s p id) id = { getF s id with flagReleased := false } := getF_setF ..

theorem getF_busyAtGate_ne (s : State) (p : Nat) {id j : Nat} (h : j ≠ id) : getF (busyAtGate s p id) j = getF s j :=
  getF_setF_ne _ _ _ _ h

theorem not_mem_gateLeft (s : State) (p id : Nat) : id ∉ (getP (gateLeft s p id) p).gate := by
  rw [gateLeft, getP_modP]
  simp

theorem launch_up {s : State} {p id : Nat} (hh : gateHead s p = some id) (hup : isUp s p = true)
    (hb : (getP s p).begun = false) : launch s p = beginCopy (bump s (pgARB + R.ARB_ER_ON_TIME)) p id := by
  unfold launch
  dsimp only
  rw [hh]
  dsimp only
  rw [if_neg (by simp [hup]), if_neg (by simp [hb])]

theorem launch_down {s : State} {p id : Nat} (hh : gateHead s p = some id) (hup : isUp s p = false) :
    launch s p = missCopy (gateLeft s p id) id 4 := by
  unfold launch
  dsimp only
  rw [hh]
  dsimp only
  rw [if_pos (by simp [hup])]
  rfl

theorem launch_busy {s : State} {p id : Nat} (hh : gateHead s p = some id) (hup : isUp s p = true)
    (hb : (getP s p).begun = true) :
    launch s p = missCopy (busyAtGate s p id) id 3 := by
  unfold launch
  dsimp only
  rw [hh]
  dsimp only
  rw [if_neg (by simp [hup]), if_pos hb]
  rfl

/-- A late copy is about to begin on port `p` (R156, R409). -/
def lateMarked (s : State) (p id : Nat) : State :=
  let u := applyMark s id
  setF u id { getF u id with brandPlace := brandPlaceOf u (getF s id) p, grantPly := plyNat u }

theorem launch_late {s : State} {p id : Nat} (hg : gateHead s p = none) (hh : busyHead s p = some id)
    (hup : isUp s p = true) (hb : (getP s p).begun = false) :
    launch s p = beginCopy (bump (lateMarked s p id) (pgARB + R.ARB_ER_LATE)) p id := by
  unfold launch
  dsimp only
  rw [hg, hh]
  dsimp only
  rw [if_neg (by simp [hup, hb])]
  rfl

theorem frozen_arbiter {s t : State} (h : t.eff = s.eff) {o : Nat} (ho : o < 0x1000) (hf : frozen s 0x3C0 = false) :
    frozen t ((pgARB + o) / 0x1000) = false := by
  rw [pgARB, pb_add_div _ ho, frozen_of_eff h, hf]

/-- The arbiter's counters count while its page is not frozen (R402). -/
theorem rd64_bump_arbiter {s : State} {o : Nat} (hlo : 0x58 ≤ o) (ho : o + 4 < 0x1000) (hf : frozen s 0x3C0 = false) :
    rd64 (bump s (pgARB + o)) (pgARB + o) = (rd64 s (pgARB + o) + 1) % 2 ^ 64 :=
  rd64_bump _ _ (frozen_arbiter rfl (by omega) hf) (spared_of_arbiter hlo (by omega)).plain
    (by rw [Nat.add_assoc]; exact (spared_of_arbiter (by omega) ho).plain)

/-- A copy at the gate of an UP port whose transmitter is free begins (R394). -/
theorem copyLaunch_begins {s : State} {p : Fin 256} {id : Nat} (hh : gateHead s p = some id) (hup : isUp s p = true)
    (hb : (getP s p).begun = false) : Runs (.copyLaunch p) s (fun t => (getP t p).begun = true ∧
      (getP t p).granted.head? = some id ∧ id ∉ (getP t p).gate ∧ (getF t id).stage = .granted ∧
      (∀ j, j ≠ id → getF t j = getF s j) ∧ t.hbm = s.hbm ∧ (frozen s 0x3C0 = false →
        rd64 t (pgARB + R.ARB_ER_ON_TIME) = (rd64 s (pgARB + R.ARB_ER_ON_TIME) + 1) % 2 ^ 64)) := by
  have hbooks := notBooks_bump s (pgARB + R.ARB_ER_ON_TIME)
  have h := beginCopy_begins (bump s (pgARB + R.ARB_ER_ON_TIME)) p id
  have hx := exec_copyLaunch p s
  rw [launch_up hh hup hb] at hx
  have hstill := still_of_aside (h.rest.trans (aside_of_notBooks hbooks))
  refine runs_still hx hstill ⟨h.begun, h.head, h.gate, h.stage, fun j hj => ?_, hbm_of_still hstill, fun hf => ?_⟩
  · rw [h.other j hj, getF_of_notBooks hbooks]
  · rw [rd64_of_words (rawRd_congr _ _ _ h.regs) (rawRd_congr _ _ _ h.regs), rd64_bump_arbiter (by decide) (by decide) hf]

/-! Misses (R396). -/

theorem rawRd_countMiss {s : State} {r a : Nat} (ha : plainWord a) (h : a ≠ pgARB + R.ARB_ER_MISS + 8 * r)
    (h4 : a ≠ pgARB + R.ARB_ER_MISS + 8 * r + 4) : rawRd (countMiss s r) a = rawRd s a := by
  rw [countMiss, rawRd_raise _ _ _ _ ha, rawRd_bump _ _ _ ha h h4]

/-- A miss counts under its reason. -/
theorem rd64_countMiss {s : State} {r : Nat} (hr : r < 16) (hf : frozen s 0x3C0 = false) :
    rd64 (countMiss s r) (pgARB + R.ARB_ER_MISS + 8 * r) = (rd64 s (pgARB + R.ARB_ER_MISS + 8 * r) + 1) % 2 ^ 64 := by
  have hplain (o : Nat) (ho : o < 0x1000) (hlo : 0x58 ≤ o) : plainWord (pgARB + o) := (spared_of_arbiter hlo ho).plain
  have hcount := rd64_bump_arbiter (s := s) (o := R.ARB_ER_MISS + 8 * r) (by simp only [R.ARB_ER_MISS]; omega)
    (by simp only [R.ARB_ER_MISS]; omega) hf
  rw [← Nat.add_assoc] at hcount
  rw [← hcount]
  refine rd64_of_words (rawRd_raise _ _ _ _ ?_) (rawRd_raise _ _ _ _ ?_)
  · rw [Nat.add_assoc]; exact hplain _ (by simp only [R.ARB_ER_MISS]; omega) (by simp only [R.ARB_ER_MISS]; omega)
  · rw [Nat.add_assoc, Nat.add_assoc]
    exact hplain _ (by simp only [R.ARB_ER_MISS]; omega) (by simp only [R.ARB_ER_MISS]; omega)

theorem erField_of_eff {s t : State} (h : t.eff = s.eff) (k : Nat) (f : FRef) : erField t k f = erField s k f := by
  unfold erField cg effRd
  rw [h]

/-- The state in which copy `id` misses with reason `r`: counted, and its reservation gone. -/
def missNoted (s : State) (id r : Nat) : State :=
  modP (countMiss s r) (getF s id).out (fun P => { P with resv := P.resv.filter (fun e => e.1 ≠ id) })

theorem missNoted_parts (s : State) (id r : Nat) : aside (missNoted s id r) = aside s ∧
    (∀ j, getF (missNoted s id r) j = getF s j) ∧ ∀ a, rawRd (missNoted s id r) a = rawRd (countMiss s r) a :=
  ⟨(aside_modP ..).trans (aside_of_notBooks (notBooks_countMiss s r)),
   fun j => getF_of_notBooks (notBooks_countMiss s r) j, fun _ => rfl⟩

/-- What a copy `id` for port `p` that misses as BUSY and waits to be sent late comes to. -/
structure WaitsLate (s t : State) (p id : Nat) : Prop where
  rest : aside t = aside s
  missed : (getF t id).missed = some 3
  flag : (getF t id).flagLate = true
  late : id ∈ (getP t p).lateWait
  gate : (getP t p).gate = (getP s p).gate
  other : ∀ j, j ≠ id → getF t j = getF s j
  regs : t.regs = (countMiss s 3).regs

/-- Without a policy that drops it, a BUSY copy waits. -/
theorem missCopy_waits {s : State} {p id : Nat} (ho : (getF s id).out = p)
    (hp : erField s (getF s id).profile F.ARB_ER_CTRL_LATE_POLICY = 0) : WaitsLate s (missCopy s id 3) p id := by
  obtain ⟨haside, hf, -⟩ := missNoted_parts s id 3
  have hp' := (erField_of_eff (eff_of_aside haside) _ F.ARB_ER_CTRL_LATE_POLICY).trans hp
  have heq : missCopy s id 3 = modP (setF (missNoted s id 3) id { getF (missNoted s id 3) id with
      missed := some 3, handed := some (plyNat (missNoted s id 3)), flagLate := true }) p
      (fun P => { P with lateWait := P.lateWait ++ [id] }) := by
    unfold missCopy
    extract_lets f u v
    have hv : v = missNoted s id 3 := rfl
    rw [if_neg (by rw [hv]; simp [f, hp']), ← ho]
    rfl
  have hgate : (getP (missNoted s id 3) p).gate = (getP s p).gate := by
    rw [missNoted, ho, getP_modP, getP_of_notBooks (notBooks_countMiss s 3)]
  rw [heq]
  refine ⟨?_, ?_, ?_, ?_, ?_, fun j hj => ?_, ?_⟩
  · rw [aside_modP, aside_setF, haside]
  · rw [getF_of_modP, getF_setF]
  · rw [getF_of_modP, getF_setF]
  · rw [getP_modP]
    exact List.mem_append_right _ (List.mem_singleton_self id)
  · rw [getP_modP]
    exact hgate
  · rw [getF_of_modP, getF_setF_ne _ _ _ _ hj, hf]
  · simp [missNoted]

theorem missCopy_drops {s : State} {id r : Nat}
    (h : r = 4 ∨ erField s (getF s id).profile F.ARB_ER_CTRL_LATE_POLICY ≠ 0) :
    ∃ why, missCopy s id r = dropCopy (missNoted s id r) id why := by
  have heff := erField_of_eff (eff_of_aside (missNoted_parts s id r).1) (getF s id).profile F.ARB_ER_CTRL_LATE_POLICY
  unfold missCopy
  extract_lets f u v
  have hv : v = missNoted s id r := rfl
  refine ⟨_, if_pos ?_⟩
  rw [hv, heff]
  exact h.imp_right .inr

/-- A copy that finds the transmitter on the air waits to be sent late (R396). -/
theorem copyLaunch_busy {s : State} {p : Fin 256} {id : Nat} (hh : gateHead s p = some id) (hup : isUp s p = true)
    (hb : (getP s p).begun = true) (ho : (getF s id).out = p)
    (hpol : erField s (getF s id).profile F.ARB_ER_CTRL_LATE_POLICY = 0) :
    Runs (.copyLaunch p) s (fun t => (getF t id).missed = some 3 ∧ (getF t id).flagLate = true ∧
      id ∈ (getP t p).lateWait ∧ id ∉ (getP t p).gate ∧ (∀ j, j ≠ id → getF t j = getF s j) ∧ t.hbm = s.hbm ∧
      (frozen s 0x3C0 = false →
        rd64 t (pgARB + R.ARB_ER_MISS + 24) = (rd64 s (pgARB + R.ARB_ER_MISS + 24) + 1) % 2 ^ 64)) := by
  have hx := exec_copyLaunch p s
  rw [launch_busy hh hup hb] at hx
  have hf := getF_busyAtGate s p id
  have hw := missCopy_waits (s := busyAtGate s p id) (p := p) (id := id) (by rw [hf]; exact ho) (by rw [hf]; exact hpol)
  have hstill := still_of_aside hw.rest
  refine runs_still hx hstill ⟨hw.missed, hw.flag, hw.late, ?_, fun j hj => ?_, hbm_of_still hstill, fun hfr => ?_⟩
  · rw [hw.gate]
    exact not_mem_gateLeft s p id
  · rw [hw.other j hj, getF_busyAtGate_ne s p hj]
  · rw [rd64_of_words (rawRd_congr _ _ _ hw.regs) (rawRd_congr _ _ _ hw.regs)]
    exact rd64_countMiss (r := 3) (by decide) hfr

/-- A frame dropped after its last bit has left. -/
theorem left_dropFrame {s : State} {id : Nat} (r : Nat) (h : (getF s id).ended = true) : Left s (dropFrame s id r) id := by
  have hb := notBooks_tellOutcome s id 2 r
  have hf := getF_of_notBooks hb
  have hl := left_leave (s := tellOutcome s id 2 r) (id := id) (by rw [hf]; exact h)
  obtain ⟨hrest, hgone, hother, hport, hword⟩ := hl
  rw [hf] at hport hword
  rw [getP_of_notBooks hb] at hport
  refine ⟨hrest.trans (aside_of_notBooks hb), hgone, fun j hj => (hother j hj).trans (hf j), hport, fun hok a ha => ?_⟩
  exact (hword hok a ha).trans (rawRd_tellOutcome _ _ _ _ ha)

/-- A dropped copy has left. -/
theorem left_dropCopy {s : State} {id : Nat} (r : Nat) (h : (getF s id).ended = true) :
    Left (bump s (pgARB + R.ARB_ER_DROPPED)) (dropCopy s id r) id :=
  left_dropFrame r (by rw [getF_of_notBooks (notBooks_bump ..)]; exact h)

/-- A copy whose miss its policy or a port that is not UP makes a drop is gone (R396). -/
theorem missCopy_gone {s : State} {id r : Nat} (he : (getF s id).ended = true)
    (h : r = 4 ∨ erField s (getF s id).profile F.ARB_ER_CTRL_LATE_POLICY ≠ 0) :
    aside (missCopy s id r) = aside s ∧ getF (missCopy s id r) id = {} ∧
      ∀ j, j ≠ id → getF (missCopy s id r) j = getF s j := by
  obtain ⟨haside, hf, -⟩ := missNoted_parts s id r
  obtain ⟨why, heq⟩ := missCopy_drops h
  have hb := notBooks_bump (missNoted s id r) (pgARB + R.ARB_ER_DROPPED)
  have hl := left_dropCopy (s := missNoted s id r) why (by rw [hf]; exact he)
  rw [heq]
  exact ⟨hl.rest.trans ((aside_of_notBooks hb).trans haside), hl.gone,
    fun j hj => (hl.other j hj).trans ((getF_of_notBooks hb j).trans (hf j))⟩

/-- At a port that is not UP, or on the air under a policy that drops, a copy at the gate is dropped (R396). -/
theorem copyLaunch_drops {s : State} {p : Fin 256} {id : Nat} (hh : gateHead s p = some id)
    (h : isUp s p = false ∨ (getP s p).begun = true ∧ erField s (getF s id).profile F.ARB_ER_CTRL_LATE_POLICY ≠ 0)
    (he : (getF s id).ended = true) : Runs (.copyLaunch p) s (fun t => getF t id = {} ∧
      (∀ j, j ≠ id → getF t j = getF s j) ∧ t.hbm = s.hbm) := by
  have hx := exec_copyLaunch p s
  cases hup : isUp s p with
  | false =>
    obtain ⟨haside, hgone, hother⟩ := missCopy_gone (s := gateLeft s p id) (id := id) (r := 4) he (.inl rfl)
    rw [launch_down hh hup] at hx
    have hstill := still_of_aside haside
    exact runs_still hx hstill ⟨hgone, fun j hj => hother j hj, hbm_of_still hstill⟩
  | true =>
    obtain ⟨hb, hpol⟩ := h.resolve_left (by simp [hup])
    have hf := getF_busyAtGate s p id
    obtain ⟨haside, hgone, hother⟩ := missCopy_gone (s := busyAtGate s p id) (id := id) (r := 3) (by rw [hf]; exact he)
      (.inr (by rw [hf]; exact hpol))
    rw [launch_busy hh hup hb] at hx
    have hstill := still_of_aside haside
    exact runs_still hx hstill ⟨hgone, fun j hj => (hother j hj).trans (getF_busyAtGate_ne s p hj), hbm_of_still hstill⟩

/-! Late copies (R396, R409). -/

/-- Frame `id` is released: as it was, or unmetered from here and without a record (R409). -/
structure Released (s t : State) (id : Nat) : Prop where
  rest : aside t = aside s
  ports : t.ports = s.ports
  frame : ∃ m tr, getF t id = { getF s id with unmeteredMark := m, tracked := tr }
  other : ∀ j, j ≠ id → getF t j = getF s j
  word : ∀ a, plainWord a → a / 0x1000 ≠ 0x14 → rawRd t a = rawRd s a

theorem rawRd_markUnrecorded (s : State) (id : Nat) {a : Nat} (ha : plainWord a) (hp : a / 0x1000 ≠ 0x14) :
    rawRd (markUnrecorded s id) a = rawRd s a := by
  unfold markUnrecorded
  split
  · rfl
  · exact rawRd_bump_ev ha hp (by decide)

theorem applyMark_released (s : State) (id : Nat) : Released s (applyMark s id) id := by
  unfold applyMark
  extract_lets f
  have hb := notBooks_markUnrecorded s (origOf f id)
  split
  · exact ⟨(aside_setF ..).trans (aside_of_notBooks hb), (ports_of_notBooks hb :), ⟨true, false, getF_setF ..⟩,
      fun j hj => (getF_setF_ne _ _ _ _ hj).trans (getF_of_notBooks hb j), fun a ha hp => rawRd_markUnrecorded s _ ha hp⟩
  · exact ⟨rfl, rfl, ⟨_, _, rfl⟩, fun _ _ => rfl, fun _ _ _ => rfl⟩

/-- A BUSY copy begins once the transmitter is free (R396). -/
theorem copyLaunch_late {s : State} {p : Fin 256} {id : Nat} (hg : gateHead s p = none) (hh : busyHead s p = some id)
    (hb : (getP s p).begun = false) (hup : isUp s p = true) : Runs (.copyLaunch p) s (fun t => (getP t p).begun = true ∧
      (getP t p).granted.head? = some id ∧ id ∉ (getP t p).lateWait ∧ (getF t id).stage = .granted ∧ t.hbm = s.hbm) := by
  have hx := exec_copyLaunch p s
  rw [launch_late hg hh hup hb] at hx
  have h := beginCopy_begins (bump (lateMarked s p id) (pgARB + R.ARB_ER_LATE)) p id
  have haside : aside (lateMarked s p id) = aside s := (applyMark_released s id).rest
  have hstill := still_of_aside (h.rest.trans ((aside_of_notBooks (notBooks_bump ..)).trans haside))
  exact runs_still hx hstill ⟨h.begun, h.head, h.late, h.stage, hbm_of_still hstill⟩

/-- A late copy that has not begun in time is dropped and counted (R396). -/
theorem lateMaxExpiry_drops {s : State} {id : Nat} (hm : s.md.mode ≠ .contained) (hl : lateExpired s id = true)
    (he : (getF s id).ended = true) (hok : accountOk (getF s id).acct) :
    Runs (.lateMaxExpiry id) s (fun t => getF t id = {} ∧
      (∀ j, j ≠ id → getF t j = getF s j) ∧ t.hbm = s.hbm ∧ (frozen s 0x3C0 = false →
        rd64 t (pgARB + R.ARB_ER_DROPPED) = (rd64 s (pgARB + R.ARB_ER_DROPPED) + 1) % 2 ^ 64)) := by
  have hx := exec_lateMaxExpiry id s
  have heq : expireCopy s id = dropCopy (countMiss s 7) id rsnLATE_DROP := if_pos ⟨hm, hl⟩
  rw [heq] at hx
  have hb := (notBooks_bump (countMiss s 7) (pgARB + R.ARB_ER_DROPPED)).trans (notBooks_countMiss s 7)
  have hf := getF_of_notBooks (notBooks_countMiss s 7)
  have hleft := left_dropCopy (s := countMiss s 7) (id := id) rsnLATE_DROP (by rw [hf]; exact he)
  have hstill := still_of_aside (hleft.rest.trans (aside_of_notBooks hb))
  refine runs_still hx hstill ⟨hleft.gone, fun j hj => (hleft.other j hj).trans (getF_of_notBooks hb j),
    hbm_of_still hstill, fun hfr => ?_⟩
  have hword (o : Nat) (hlo : 0x58 ≤ o) (ho : o < 0x1000) :
      rawRd (dropCopy (countMiss s 7) id rsnLATE_DROP) (pgARB + o) =
        rawRd (bump (countMiss s 7) (pgARB + R.ARB_ER_DROPPED)) (pgARB + o) :=
    hleft.word (by rw [getF_of_notBooks hb]; exact hok) _ (spared_of_arbiter hlo ho)
  have hmiss (o : Nat) (hlo : 0x58 ≤ o) (ho : o < 0x800) : rawRd (countMiss s 7) (pgARB + o) = rawRd s (pgARB + o) :=
    rawRd_countMiss (spared_of_arbiter hlo (by omega)).plain (by simp only [R.ARB_ER_MISS]; omega)
      (by simp only [R.ARB_ER_MISS]; omega)
  have heff := eff_of_aside (aside_of_notBooks (notBooks_countMiss s 7))
  rw [rd64_of_words (hword _ (by decide) (by decide)) (hword 0x9C (by decide) (by decide)),
    rd64_bump_arbiter (by decide) (by decide) ((frozen_of_eff heff _).trans hfr),
    rd64_of_words (hmiss _ (by decide) (by decide)) (hmiss 0x9C (by decide) (by decide))]

end Sys2Proof.Machine
end

section
/-! Grants of the egress half (R366-R368, R156, R409). -/

namespace Sys2Proof.Machine

open Sys2Proof

/-! The words that a grant reads. -/

/-- `t` reads the ports' state, their frames' bounds and the Brand's control as `s` does. -/
structure SameFront (s t : State) : Prop where
  eff : t.eff = s.eff
  fuse : t.fuse = s.fuse
  word : ∀ a, plainWord a → a < 0x40000 → a / 0x1000 ≠ 0x14 → rawRd t a = rawRd s a

theorem SameFront.trans {s t u : State} (h : SameFront s t) (h' : SameFront t u) : SameFront s u :=
  ⟨h'.eff.trans h.eff, h'.fuse.trans h.fuse, fun a ha hl hp => (h'.word a ha hl hp).trans (h.word a ha hl hp)⟩

theorem sameFront_bump (s : State) {c : Nat} (hc : 0x40000 ≤ c) : SameFront s (bump s c) :=
  ⟨by simp, by simp, fun a ha hl _ => rawRd_bump _ _ _ ha (by omega) (by omega)⟩

theorem sameFront_applyMark (s : State) (id : Nat) : SameFront s (applyMark s id) := by
  have h := applyMark_released s id
  exact ⟨eff_of_aside h.rest, fuse_of_aside h.rest, fun a ha _ hp => h.word a ha hp⟩

theorem SameFront.port {s t : State} (h : SameFront s t) {p : Nat} (hp : p < 256) {f : FRef} (hf : f.off < 0x100) :
    fg t (portB p) f = fg s (portB p) f := by
  refine fg_of_word (h.word _ (spared_of_port hp hf).plain ?_ ?_)
  · simp only [portB, pb]; omega
  · exact (spared_of_port hp hf).evidence

theorem SameFront.isUp {s t : State} (h : SameFront s t) (p : Nat) : isUp t p = isUp s p := by
  have hlink : linkCode t p = linkCode s p := by
    unfold linkCode
    split
    · exact h.port ‹_› (by decide)
    · split
      · exact fg_of_word (h.word _ (by decide) (by decide) (by decide))
      · rfl
  simp only [Machine.isUp, portMapped_of_eff h.eff h.fuse p, hlink]

theorem SameFront.maxFrame {s t : State} (h : SameFront s t) (p : Nat) : maxFrame t p = maxFrame s p := by
  unfold Machine.maxFrame
  split
  · rw [h.port ‹_› (by decide)]
  · rfl

theorem SameFront.brandFits {s t : State} (h : SameFront s t) (f : Frame) (p w : Nat) :
    brandFits t f p w = brandFits s f p w := by
  simp only [Machine.brandFits, frameLen, estimateLen, h.maxFrame]

theorem SameFront.brandWanted {s t : State} (h : SameFront s t) (f : Frame) (p : Nat) :
    brandWanted t f p = brandWanted s f p := by
  unfold Machine.brandWanted
  split
  · rfl
  · rename_i hp
    have hctrl (g : FRef) (hg : g.off = 0x400) : brandCtrl t p g = brandCtrl s p g := by
      have hlt : 0x400 + 4 * p < 0x1000 := by omega
      have hpage := pb_add_div 0x010 hlt
      have hoff := pb_add_mod 0x010 hlt
      refine fg_of_word (h.word _ ⟨?_, ?_⟩ ?_ ?_) <;> simp only [FRef.fwd, hg, pgTT] <;> omega
    rw [hctrl _ rfl, hctrl _ rfl]

/-! Queues of a port. -/

/-- What a port's scheduler keeps in line: its class queues, its release queue and its granted frames. -/
def inLine (P : PortSt) : Tab (List Nat) × List Nat × List Nat := (P.queue, P.release, P.granted)

/-- Port `P` with frame `id` granted. -/
def grantedPort (id : Nat) (P : PortSt) : PortSt :=
  { unqueuePort id P with granted := (unqueuePort id P).granted ++ [id] }

theorem tget_eq_default_or_mem {α : Type} (d : Nat → α) (t : Tab α) (k : Nat) :
    tget d t k = d k ∨ ∃ e ∈ t, tget d t k = e.2 := by
  induction t with
  | nil => exact .inl rfl
  | cons e t ih =>
    by_cases hk : k = e.1
    · exact .inr ⟨e, List.mem_cons_self, if_pos hk⟩
    · rw [tget, if_neg hk]
      exact ih.imp_right fun ⟨e', he', h⟩ => ⟨e', List.mem_cons_of_mem _ he', h⟩

theorem not_mem_queue_unqueuePort (id : Nat) (P : PortSt) (c : Nat) :
    id ∉ tget (fun _ => []) (unqueuePort id P).queue c := by
  obtain h | ⟨e, he, h⟩ := tget_eq_default_or_mem (fun _ => []) (unqueuePort id P).queue c
  · rw [h]
    exact List.not_mem_nil
  · rw [h]
    obtain ⟨e', -, hmap⟩ := List.mem_filterMap.mp he
    dsimp only at hmap
    split at hmap
    · cases hmap
    · cases hmap
      simp

/-! The choice (R366-R368). -/

/-- Port `Q` is port `P` but for the visits and deficits of its scheduler. -/
def Visited (P Q : PortSt) : Prop := ∃ d v, Q = { P with deficit := d, visit := v }

theorem dwrr_visits {s : State} {p lvl : Nat} {elig : List Nat} {fuel : Nat} {P Q : PortSt} {cur c : Nat}
    (h : dwrr s p lvl elig fuel P cur = some (c, Q)) : Visited P Q := by
  induction fuel generalizing P cur with
  | zero => cases h
  | succ fuel ih =>
    unfold dwrr at h
    extract_lets headC go at h
    split at h
    · cases h
      exact ⟨_, _, rfl⟩
    · split at h
      · cases h
      · obtain ⟨d, v, hQ⟩ := ih h
        exact ⟨d, v, hQ⟩

theorem pickClass_visits {s : State} {p c : Nat} {Q : PortSt} (h : pickClass s p = some (c, Q)) : Visited (getP s p) Q := by
  unfold pickClass at h
  extract_lets elig at h
  split at h
  · cases h
  · exact dwrr_visits h

/-- A class queue is chosen with its port's queues as they stand. -/
theorem choose_visits {s : State} {pipe p c pos : Nat} {Q : PortSt} (h : choose s pipe = some (.cls p c Q pos)) :
    Visited (getP s p) Q := by
  unfold choose at h
  split at h
  · cases h
  · extract_lets last order at h
    obtain ⟨k, -, hk⟩ := List.exists_of_findSome?_eq_some h
    split at hk
    · cases hk
    · split at hk
      · obtain ⟨r, hr, hc⟩ := Option.map_eq_some_iff.mp hk
        cases hc
        exact pickClass_visits hr
      · cases hk

/-! A grant (R366, R368). -/

theorem inLine_modP (s : State) (p : Nat) {g : PortSt → PortSt} (h : ∀ P, inLine (g P) = inLine P) :
    inLine (getP (modP s p g) p) = inLine (getP s p) := by rw [getP_modP, h]

/-- The charges of a grant leave the port's lines and every frame alone. -/
structure Charged (s t : State) (p : Nat) : Prop where
  rest : notPorts t = notPorts s
  lines : inLine (getP t p) = inLine (getP s p)

theorem chargeGrant_charged (s : State) (p id cls : Nat) : Charged s (chargeGrant s p id cls) p := by
  unfold chargeGrant
  extract_lets f c u q v
  have hu : notPorts u = notPorts s ∧ inLine (getP u p) = inLine (getP s p) := by
    unfold u
    split
    · exact ⟨rfl, inLine_modP s p fun _ => rfl⟩
    · exact ⟨rfl, rfl⟩
  have hv : notPorts v = notPorts u ∧ inLine (getP v p) = inLine (getP u p) := by
    unfold v
    split
    · exact ⟨rfl, inLine_modP u p fun _ => rfl⟩
    · exact ⟨rfl, rfl⟩
  have h : Charged s v p := ⟨hv.1.trans hu.1, hv.2.trans hu.2⟩
  split
  · exact h
  · exact ⟨h.rest, h.lines⟩

/-- The state in which the grant of frame `id` is charged, and counted where it was late (R353, R396). -/
def grantCharged (s : State) (p id cls : Nat) : State :=
  let u := chargeGrant s p id cls
  if (getF s id).missed.isSome then bump u (pgARB + R.ARB_ER_LATE) else u

theorem grantCharged_charged (s : State) (p id cls : Nat) : Charged s (grantCharged s p id cls) p := by
  have h := chargeGrant_charged s p id cls
  unfold grantCharged
  extract_lets u
  have hb := notBooks_bump u (pgARB + R.ARB_ER_LATE)
  split
  · exact ⟨(notPorts_of_notBooks hb).trans h.rest, (congrArg inLine (getP_of_notBooks hb p)).trans h.lines⟩
  · exact h

/-- Frame `f` is granted on port `p` with the Brand's place `w`: the port is UP, the frame good, it keeps its TTL and
fits its Brand (R156, R366, R368). -/
structure Grantable (s : State) (f : Frame) (p cls w : Nat) : Prop where
  up : isUp s p = true
  kept : cls < 8 → wdDrops s p cls = false
  good : f.bad = false
  ttl : ttlDrops f = false
  wanted : brandWanted s f p = w
  fits : w = 0 ∨ brandFits s f p w = true

theorem grantFrame_eq {s : State} {p id cls w : Nat} (h : Grantable s (getF s id) p cls w) :
    grantFrame s p id cls = setF (modP (grantCharged (applyMark s id) p id cls) p (grantedPort id)) id
      { getF (applyMark s id) id with stage := .granted, grantPly := plyNat (grantCharged (applyMark s id) p id cls),
                                      brandPlace := w } := by
  obtain ⟨hup, hwd, hbad, httl, hw, hfit⟩ := h
  have hfront := sameFront_applyMark s id
  obtain ⟨m, tr, hf⟩ := (applyMark_released s id).frame
  unfold grantFrame
  extract_lets f x g w' skip y v z c b
  have hg : g = { getF s id with unmeteredMark := m, tracked := tr } := hf
  have httl' : ttlDrops g = false := by rw [hg]; exact httl
  have hw' : w' = w := by
    unfold w'
    rw [hfront.brandWanted, hg]
    exact hw
  have hfit' : w = 0 ∨ brandFits x g p w = true := by
    rw [hfront.brandFits, hg]
    exact hfit
  have hskip : skip = false := by
    unfold skip
    rw [hw']
    obtain h0 | h1 := hfit'
    · simp [h0]
    · simp [h1]
  have hy : y = x := if_neg (by simp [hskip])
  have hb : b = modP (grantCharged (applyMark s id) p id cls) p (grantedPort id) := by
    unfold b c z
    rw [hy]
    rfl
  rw [if_neg (by rw [hup]; simpa using hwd), if_neg (by simp [f, hbad]), if_neg (by simp [httl']),
    if_neg (by simp [hskip]), hskip, hb, hw']
  rfl

/-- What frame `id`, granted on port `p` with the Brand's place `w`, comes to. -/
structure Grants (s t : State) (p id w : Nat) : Prop where
  rest : aside t = aside s
  stage : (getF t id).stage = .granted
  ply : (getF t id).grantPly = plyNat s
  place : (getF t id).brandPlace = w
  lines : inLine (getP t p) = inLine (grantedPort id (getP s p))
  other : ∀ j, j ≠ id → getF t j = getF s j

theorem inLine_grantedPort {P Q : PortSt} (id : Nat) (h : inLine P = inLine Q) :
    inLine (grantedPort id P) = inLine (grantedPort id Q) := by
  obtain ⟨hq, hr, hg⟩ : P.queue = Q.queue ∧ P.release = Q.release ∧ P.granted = Q.granted := by simpa [inLine] using h
  simp [inLine, grantedPort, unqueuePort, hq, hr, hg]

theorem grantFrame_grants {s : State} {p id cls w : Nat} (h : Grantable s (getF s id) p cls w) :
    Grants s (grantFrame s p id cls) p id w := by
  have hmark := applyMark_released s id
  obtain ⟨hrest, hlines⟩ := grantCharged_charged (applyMark s id) p id cls
  have haside := (aside_of_notPorts hrest).trans hmark.rest
  rw [grantFrame_eq h]
  refine ⟨?_, ?_, ?_, ?_, ?_, fun j hj => ?_⟩
  · rw [aside_setF, aside_modP, haside]
  · rw [getF_setF]
  · rw [getF_setF]
    exact plyNat_of_tm (tm_of_aside haside)
  · rw [getF_setF]
  · change inLine (getP (modP _ p (grantedPort id)) p) = _
    rw [getP_modP]
    exact inLine_grantedPort id (hlines.trans (congrArg inLine (getP_of_ports hmark.ports p)))
  · rw [getF_setF_ne _ _ _ _ hj, getF_of_modP, getF_of_frames (frames_of_notPorts hrest), hmark.other j hj]

/-! One grant of a pipeline. -/

/-- State `v` is `u` up to what a choice counts before the grant on port `p`. -/
structure Chosen (u v : State) (p : Nat) : Prop where
  front : SameFront u v
  rest : notPorts v = notPorts u
  lines : inLine (getP v p) = inLine (getP u p)
  wdDrop : (getP v p).wdDrop = (getP u p).wdDrop

/-- One more grant of pipeline `pipe` in this ply, after `n`. -/
def grantTaken (s : State) (pipe n : Nat) : State :=
  { s with tmg := { s.tmg with grantsPly := tset (fun _ => 0) s.tmg.grantsPly pipe (n + 1) } }

theorem chosen_bump (u : State) (p : Nat) {c : Nat} (hc : 0x40000 ≤ c) : Chosen u (bump u c) p := by
  have hb := notBooks_bump u c
  exact ⟨sameFront_bump u hc, notPorts_of_notBooks hb, congrArg inLine (getP_of_notBooks hb p),
    congrArg PortSt.wdDrop (getP_of_notBooks hb p)⟩

theorem chosen_visited {u : State} {p : Nat} {P Q : PortSt} (hP : Visited (getP u p) P) (hQ : Visited P Q) :
    Chosen u (setP u p Q) p := by
  obtain ⟨d, v, rfl⟩ := hP
  obtain ⟨d', v', rfl⟩ := hQ
  refine ⟨⟨rfl, rfl, fun _ _ _ _ => rfl⟩, rfl, ?_, ?_⟩
  · rw [getP_setP]; rfl
  · rw [getP_setP]

theorem Chosen.trans {u v w : State} {p : Nat} (h : Chosen u v p) (h' : Chosen v w p) : Chosen u w p :=
  ⟨h.front.trans h'.front, h'.rest.trans h.rest, h'.lines.trans h.lines, h'.wdDrop.trans h.wdDrop⟩

/-- The head of the release queue is granted (R366). -/
theorem egressGrant_release {s : State} {pipe p id : Nat} (hfw : forwards s = true)
    (hn : tget (fun _ => 0) s.tmg.grantsPly pipe < 128) (hc : choose (noteHeads s pipe) pipe = some (.release p))
    (hq : (getP (noteHeads s pipe) p).release.head? = some id) :
    ∃ v, Chosen (noteHeads s pipe) v p ∧ egressGrant s pipe =
      grantTaken (grantFrame v p id 8) pipe (tget (fun _ => 0) s.tmg.grantsPly pipe) := by
  obtain ⟨rest, hq⟩ := List.head?_eq_some_iff.mp hq
  refine ⟨if p < 256 then bump (noteHeads s pipe) (pb 0x3C1 + 0x400 + 8 * p) else noteHeads s pipe, ?_, ?_⟩
  · split
    · exact chosen_bump _ p (by simp only [pb]; omega)
    · exact ⟨⟨rfl, rfl, fun _ _ _ _ => rfl⟩, rfl, rfl, rfl⟩
  · unfold egressGrant
    dsimp only
    rw [if_neg (by simp [hfw, hn]), hc]
    dsimp only
    rw [hq]
    rfl

/-- Class queue `cls` of port `p`, at position `pos`, is chosen with the scheduler's state `Q`. -/
def classChosen (u : State) (pipe p cls pos : Nat) (Q : PortSt) : State :=
  let v := bump (setP u p Q) (schB p + R.SCH_DEQ_FRAMES + 8 * cls)
  { v with tmg := { v.tmg with lastPos := tset (fun _ => 33) v.tmg.lastPos pipe pos } }

theorem classChosen_chosen {u : State} (pipe cls pos : Nat) {p : Nat} {P Q : PortSt} (hP : Visited (getP u p) P)
    (hQ : Visited P Q) : Chosen u (classChosen u pipe p cls pos Q) p := by
  have hb : Chosen (setP u p Q) (bump (setP u p Q) (schB p + R.SCH_DEQ_FRAMES + 8 * cls)) p :=
    chosen_bump _ p (by simp only [schB, pb]; omega)
  obtain ⟨⟨heff, hfuse, hword⟩, hrest, hlines, hwd⟩ := (chosen_visited hP hQ).trans hb
  exact ⟨⟨heff, hfuse, hword⟩, hrest, hlines, hwd⟩

/-- The head of a class queue is granted (R367). -/
theorem egressGrant_cls {s : State} {pipe p id cls pos : Nat} {P : PortSt} (hfw : forwards s = true)
    (hn : tget (fun _ => 0) s.tmg.grantsPly pipe < 128) (hc : choose (noteHeads s pipe) pipe = some (.cls p cls P pos))
    (hq : (queueIds (noteHeads s pipe) p cls).head? = some id) :
    ∃ v, Chosen (noteHeads s pipe) v p ∧ egressGrant s pipe =
      grantTaken (grantFrame v p id cls) pipe (tget (fun _ => 0) s.tmg.grantsPly pipe) := by
  obtain ⟨rest, hq⟩ := List.head?_eq_some_iff.mp hq
  refine ⟨classChosen (noteHeads s pipe) pipe p cls pos
    (if rest.isEmpty then { P with deficit := tset (fun _ => 0) P.deficit cls 0 } else P), ?_, ?_⟩
  · refine classChosen_chosen _ _ _ (choose_visits hc) ?_
    split
    · exact ⟨_, _, rfl⟩
    · exact ⟨_, _, rfl⟩
  · unfold egressGrant
    dsimp only
    rw [if_neg (by simp [hfw, hn]), hc]
    dsimp only
    rw [hq]
    rfl

/-- Before a grant only the Tally notes what it withholds (R409). -/
theorem noteHeads_books (s : State) (pipe : Nat) : notBooks (noteHeads s pipe) = notBooks s := by
  refine foldl_keeps notBooks (fun t p => foldl_keeps notBooks (fun u c => ?_) _ t) _ s
  split
  · split
    · exact notBooks_noteWithheld ..
    · rfl
  · rfl

theorem Chosen.grantable {u v : State} {p id cls w : Nat} (h : Chosen u v p) (hg : Grantable u (getF u id) p cls w) :
    Grantable v (getF v id) p cls w := by
  obtain ⟨hup, hwd, hbad, httl, hw, hfit⟩ := hg
  rw [getF_of_frames (frames_of_notPorts h.rest)]
  refine ⟨(h.front.isUp p).trans hup, fun hc => ?_, hbad, httl, (h.front.brandWanted _ p).trans hw, ?_⟩
  · rw [wdDrops, h.wdDrop]
    exact hwd hc
  · rw [h.front.brandFits]
    exact hfit

/-- What the choice picks is granted and uses one grant of the ply's share (R366-R368). -/
theorem egressGrant_grants {s v : State} {pipe : Fin 8} {p id cls w : Nat}
    (hg : Grantable (noteHeads s pipe) (getF (noteHeads s pipe) id) p cls w) (hv : Chosen (noteHeads s pipe) v p)
    (heq : egressGrant s pipe = grantTaken (grantFrame v p id cls) pipe (tget (fun _ => 0) s.tmg.grantsPly pipe)) :
    Runs (.egressGrant pipe) s (fun t => (getF t id).stage = .granted ∧ (getF t id).grantPly = plyNat s ∧
      (getF t id).brandPlace = w ∧
      (getP t p).granted = (getP (noteHeads s pipe) p).granted.filter (· ≠ id) ++ [id] ∧
      (∀ c, id ∉ queueIds t p c) ∧ id ∉ (getP t p).release ∧
      tget (fun _ => 0) t.tmg.grantsPly pipe = tget (fun _ => 0) s.tmg.grantsPly pipe + 1 ∧
      (∀ j, j ≠ id → getF t j = getF (noteHeads s pipe) j) ∧ t.hbm = s.hbm) := by
  have hs := aside_of_notBooks (noteHeads_books s pipe)
  have hvs := (aside_of_notPorts hv.rest).trans hs
  have hx := exec_egressGrant pipe s
  rw [heq] at hx
  obtain ⟨hrest, hstage, hply, hplace, hlines, hother⟩ := grantFrame_grants (hv.grantable hg)
  have hlines' := hlines.trans (inLine_grantedPort id hv.lines)
  generalize grantFrame v p id cls = t at *
  obtain ⟨hqueue, hrelease, hgranted⟩ : (getP t p).queue = _ ∧ (getP t p).release = _ ∧ (getP t p).granted = _ := by
    simpa [inLine] using hlines'
  have hstill := still_of_aside (hrest.trans hvs)
  refine runs_still hx (hstill :) ⟨hstage, hply.trans (plyNat_of_tm (tm_of_aside hvs)), hplace, hgranted, fun c => ?_, ?_,
    ?_, fun j hj => ?_, (hbm_of_still hstill :)⟩
  · change id ∉ tget (fun _ => []) (getP t p).queue c
    rw [hqueue]
    exact not_mem_queue_unqueuePort id _ c
  · change id ∉ (getP t p).release
    rw [hrelease]
    simp [grantedPort, unqueuePort]
  · exact tget_tset_self (fun _ => 0) t.tmg.grantsPly pipe (tget (fun _ => 0) s.tmg.grantsPly pipe + 1)
  · exact (hother j hj).trans (getF_of_frames (frames_of_notPorts hv.rest) j)

/-- Settles O50, command by command: grants, transmissions, launches, and the expiry of late copies. -/
theorem egressGrantsAndTransmits : Obligations.EgressGrantsAndTransmits := by
  intro s
  refine ⟨?_, ?_, ?_, ?_, ?_⟩
  · intro pipe p id cls u used f w hfw hn hpick hup hbad httl hfit
    obtain ⟨hc, hq, rfl⟩ | ⟨⟨P, pos, hc⟩, hq, -, hwd⟩ := hpick
    · obtain ⟨v, hv, heq⟩ := egressGrant_release hfw hn hc hq
      exact egressGrant_grants ⟨hup, fun h => absurd h (by decide), hbad, httl, rfl, hfit⟩ hv heq
    · obtain ⟨v, hv, heq⟩ := egressGrant_cls hfw hn hc hq
      exact egressGrant_grants ⟨hup, fun _ => hwd, hbad, httl, rfl, hfit⟩ hv heq
  · intro p id rest hg hb hc ho hok
    exact ⟨frameTransmitted_sends hg hb hc ho hok, frameTransmitted_recirculates hg hb hc ho⟩
  · intro p id hh
    exact ⟨copyLaunch_begins hh, copyLaunch_busy hh, copyLaunch_drops hh⟩
  · exact fun p id => copyLaunch_late
  · exact fun id => lateMaxExpiry_drops

end Sys2Proof.Machine
end

section
/-! Latches and links (R73, R79, R80, R82, R103, R104): a marker's time in the latch of its lane, and the link events that
name the next state of a port. -/

namespace Sys2Proof.Machine

open Sys2Proof

/-! What lanes, ports and the flow memory depend on. -/

theorem still_of_notEvents {s t : State} (h : notEvents t = notEvents s) : still t = still s := (congrArg still h :)

theorem getL_of_lanes {s t : State} (h : t.lanes = s.lanes) (l : Nat) : getL t l = getL s l := by
  unfold getL
  rw [h]

/-! Markers (R73, R103, R104). -/

theorem notEvents_showSkew (low : Nat) (s : State) (l : Nat) : notEvents (showSkew low s l) = notEvents s := by
  unfold showSkew
  dsimp only
  split <;> rfl

/-- Beyond the latch, a marker shows skews, which are registers (R91). -/
theorem notEvents_latchMarker (s : State) (l dt : Nat) :
    notEvents (latchMarker s l dt) = notEvents (modL s l (fun L => { L with tam := ttNow s dt })) := by
  unfold latchMarker
  extract_lets u
  split
  · rfl
  · exact foldl_keeps notEvents (notEvents_showSkew _) _ _

theorem alignmentMarkerLatch_latches (s : State) (l : Fin 258) (dt : Nat) : Runs (.alignmentMarkerLatch l dt) s (fun t =>
    (getL t l).tam = ttNow s dt ∧ (∀ k, k ≠ l.val → getL t k = getL s k) ∧ t.ports = s.ports ∧ t.hbm = s.hbm) := by
  have h := notEvents_latchMarker s l dt
  have hl := getL_of_lanes (notEvents_lanes _ _ h)
  refine runs_still (exec_alignmentMarkerLatch l dt s) (still_of_notEvents h :)
    ⟨?_, fun k hk => ?_, (notEvents_ports _ _ h :), (notEvents_hbm _ _ h :)⟩
  · rw [hl, getL_modL]
  · rw [hl, getL_modL_ne _ _ _ _ hk]

theorem flexoMarkerLatch_latches (s : State) (l : Fin 256) (dt bits : Nat) :
    Runs (.flexoMarkerLatch l dt bits) s (fun t => (getL t l).tam = ttNow s dt ∧ (getL t l).ratBits = bits ∧
      (getL t l).ratTime = ttNow s dt - (getL s l).tam ∧ (∀ k, k ≠ l.val → getL t k = getL s k) ∧ t.regs = s.regs ∧
      t.ports = s.ports ∧ t.hbm = s.hbm) := by
  have hl : getL (latchFlexO s l dt bits) l = _ := getL_modL ..
  refine runs_still (exec_flexoMarkerLatch l dt bits s) rfl
    ⟨?_, ?_, ?_, fun k hk => getL_modL_ne _ _ _ _ hk, rfl, rfl, rfl⟩ <;> rw [hl]

/-- Settles O8: a marker writes its lane's latch and, shown as skews, registers. -/
theorem latchesTakeMarkerTimes : Obligations.LatchesTakeMarkerTimes := fun s dt bits =>
  ⟨fun l => alignmentMarkerLatch_latches s l dt, fun l => flexoMarkerLatch_latches s l dt bits⟩

/-! Link events (R79, R80, R82). -/

/-- From `s` to `t` port `p` came to be `P`; no other port and no byte of flow memory changed. -/
structure OnlyPort (s t : State) (p : Nat) (P : PortSt) : Prop where
  port : getP t p = P
  other : ∀ q, q ≠ p → getP t q = getP s q
  rest : still t = still s

theorem onlyPort_modP {s u : State} (h : notEvents u = notEvents s) (p : Nat) (g : PortSt → PortSt) :
    OnlyPort s (modP u p g) p (g (getP s p)) := by
  have hp := getP_of_ports (notEvents_ports _ _ h)
  refine ⟨?_, fun q hq => ?_, (still_of_notEvents h :)⟩
  · rw [getP_modP, hp]
  · rw [getP_modP_ne _ _ _ _ hq, hp]

theorem trainingDone_eq {s : State} {p : Nat} (hc : linkCode s p = 1) (hr : (getP s p).retryAt = none) :
    ∃ u, notEvents u = notEvents s ∧ trainingDone s p = modP u p (fun P => { P with next := some .aligning }) := by
  refine ⟨_, ?_, if_neg (by simp [hc, hr])⟩
  refine foldl_keeps notEvents (fun u l => ?_) _ s
  dsimp only
  split
  · rfl
  · split <;> rfl

theorem linkTrainingComplete_aligns {s : State} {p : Fin 257} (hc : linkCode s p = 1)
    (hr : (getP s p).retryAt = none) : Runs (.linkTrainingComplete p) s (fun t =>
      (getP t p).next = some .aligning ∧ (∀ q, q ≠ p.val → getP t q = getP s q) ∧ t.hbm = s.hbm) := by
  obtain ⟨u, hu, heq⟩ := trainingDone_eq hc hr
  have h := onlyPort_modP hu p (fun P => { P with next := some .aligning })
  rw [← heq] at h
  exact runs_still (exec_linkTrainingComplete p s) h.rest ⟨congrArg PortSt.next h.port, h.other, hbm_of_still h.rest⟩

theorem holdExpired_eq {s : State} {p n : Nat} (hs : (getP s p).holdSince = some n) (hn : n + upHold s p ≤ plyNat s)
    (hc : (linkCode s p = 2 ∧ upReady s p = true) ∨ linkCode s p = 4) :
    holdExpired s p = modP s p (fun P => { P with next := some .up }) := by
  unfold holdExpired
  rw [hs]
  dsimp only
  rw [if_neg (by omega), if_pos hc]

theorem upHoldExpiry_ups {s : State} {p : Fin 257} {n : Nat} (hs : (getP s p).holdSince = some n)
    (hn : n + upHold s p ≤ plyNat s) (hc : (linkCode s p = 2 ∧ upReady s p = true) ∨ linkCode s p = 4) :
    Runs (.upHoldExpiry p) s (fun t => (getP t p).next = some .up ∧ t.regs = s.regs ∧
      (∀ q, q ≠ p.val → getP t q = getP s q) ∧ t.hbm = s.hbm) := by
  have hx := exec_upHoldExpiry p s
  rw [holdExpired_eq hs hn hc] at hx
  have h := onlyPort_modP (s := s) rfl p (fun P => { P with next := some .up })
  exact runs_still hx h.rest ⟨congrArg PortSt.next h.port, rfl, h.other, hbm_of_still h.rest⟩

/-- REMOTE_FAULT is shown on a front-panel port; the host port has no such bit (R93, R495). -/
def remoteFaultShown (s : State) (p : Nat) : State :=
  if p < 256 then fs s (portB p) F.PORT_PORT_STATUS_REMOTE_FAULT 1 else s

theorem notEvents_remoteFaultShown (s : State) (p : Nat) : notEvents (remoteFaultShown s p) = notEvents s := by
  unfold remoteFaultShown
  split <;> rfl

/-- Showing the fault leaves LINK_STATE, another field of the same word. -/
theorem linkCode_remoteFaultShown (s : State) (p : Nat) : linkCode (remoteFaultShown s p) p = linkCode s p := by
  unfold remoteFaultShown
  split
  case isTrue hp =>
    simp only [linkCode, if_pos hp]
    exact fg_fs_field _ _ _ _ _ _ rfl (by decide) (by decide)
  case isFalse => rfl

theorem fg_remoteFaultShown (s : State) {p : Nat} (hp : p < 256) :
    fg (remoteFaultShown s p) (portB p) F.PORT_PORT_STATUS_REMOTE_FAULT = 1 := by
  rw [remoteFaultShown, if_pos hp, fg_fs_self _ _ _ _ (by decide)]
  rfl

theorem remoteFault_eq {s : State} {p : Nat} (hc : linkCode s p = 3) :
    remoteFault s p = modP (remoteFaultShown s p) p (fun P => { P with next := some .fault }) :=
  if_pos ((linkCode_remoteFaultShown s p).trans hc)

theorem remoteFaultReceived_faults {s : State} {p : Fin 257} (hc : linkCode s p = 3) :
    Runs (.remoteFaultReceived p) s (fun t => (getP t p).next = some .fault ∧
      (p.val < 256 → fg t (portB p) F.PORT_PORT_STATUS_REMOTE_FAULT = 1) ∧
      (∀ q, q ≠ p.val → getP t q = getP s q) ∧ t.hbm = s.hbm) := by
  have hx := exec_remoteFaultReceived p s
  rw [remoteFault_eq hc] at hx
  have h := onlyPort_modP (notEvents_remoteFaultShown s p) p (fun P => { P with next := some .fault })
  exact runs_still hx h.rest ⟨congrArg PortSt.next h.port,
    fun hp => (fg_of_word (rawRd_modP ..)).trans (fg_remoteFaultShown s hp), h.other, hbm_of_still h.rest⟩

/-- Between the failure of training on a lane and the port's retry stands the event of a front-panel lane (R80). -/
theorem trainFailed_eq {s : State} {l p : Nat} (hl : portOfLane s l = some p) (hc : linkCode s p = 1 ∨ linkCode s p = 2) :
    ∃ u, notEvents u = notEvents s ∧ trainFailed s l =
      modP u p (fun P => { P with next := some .training, retryAt := some (plyNat u + 25000) }) := by
  refine ⟨if l < 256 then raise s (0x040 + l) 4 else s, ?_, ?_⟩
  · split
    · exact notEvents_raise ..
    · rfl
  · unfold trainFailed
    rw [hl]
    exact if_pos hc

theorem trainFail_retrains {s : State} {p : Fin 257} {l : Fin 258} (hl : portOfLane s l = some p.val)
    (hc : linkCode s p = 1 ∨ linkCode s p = 2) : Runs (.trainFail l) s (fun t =>
      (getP t p).next = some .training ∧ (getP t p).retryAt = some (plyNat s + 25000) ∧
      (∀ q, q ≠ p.val → getP t q = getP s q) ∧ t.hbm = s.hbm) := by
  obtain ⟨u, hu, heq⟩ := trainFailed_eq hl hc
  rw [plyNat_of_tm (notEvents_tm _ _ hu)] at heq
  have h := onlyPort_modP hu p (fun P => { P with next := some .training, retryAt := some (plyNat s + 25000) })
  rw [← heq] at h
  exact runs_still (exec_trainFail l s) h.rest
    ⟨congrArg PortSt.next h.port, congrArg PortSt.retryAt h.port, h.other, hbm_of_still h.rest⟩

theorem trainAgain_eq {s : State} {p n : Nat} (hr : (getP s p).retryAt = some n) (hn : n ≤ plyNat s) :
    trainAgain s p = modP s p (fun P => { P with retryAt := none }) := by
  unfold trainAgain
  rw [hr]
  exact if_pos hn

theorem trainRetry_resumes {s : State} {p : Fin 257} {n : Nat} (hr : (getP s p).retryAt = some n) (hn : n ≤ plyNat s) :
    Runs (.trainRetry p) s (fun t => (getP t p).retryAt = none ∧ t.regs = s.regs ∧
      (∀ q, q ≠ p.val → getP t q = getP s q) ∧ t.hbm = s.hbm) := by
  have hx := exec_trainRetry p s
  rw [trainAgain_eq hr hn] at hx
  have h := onlyPort_modP (s := s) rfl p (fun P => { P with retryAt := none })
  exact runs_still hx h.rest ⟨congrArg PortSt.retryAt h.port, rfl, h.other, hbm_of_still h.rest⟩

/-- Settles O9: each link event comes down to one change of its port. -/
theorem trainingMovesThePort : Obligations.TrainingMovesThePort := fun _ _ =>
  ⟨linkTrainingComplete_aligns, fun _ => upHoldExpiry_ups, remoteFaultReceived_faults, fun _ => trainFail_retrains,
   fun _ => trainRetry_resumes⟩

end Sys2Proof.Machine
end

section
/-! What the receive path of a lane shows (R77, R78, R91, R149): the measured delays at marker lock, and HIGH_SER at the
end of an FEC window. -/

namespace Sys2Proof.Machine

open Sys2Proof

/-! Words of a lane page. -/

/-- A word of a lane page above the common layout (R91). -/
structure LaneWord (a : Nat) : Prop where
  lo : 0x040 ≤ a / 0x1000
  hi : a / 0x1000 < 0x140
  own : 0x40 ≤ a % 0x1000

theorem laneWord_of {l o : Nat} (hl : l < 256) (hlo : 0x40 ≤ o) (ho : o < 0x1000) : LaneWord (laneB l + o) := by
  constructor <;> simp only [laneB, pb_add_div _ ho, pb_add_mod _ ho] <;> omega

theorem LaneWord.plain {a : Nat} (ha : LaneWord a) : plainWord a := ⟨by have := ha.lo; omega, ha.own⟩

theorem LaneWord.ne_port {a : Nat} (ha : LaneWord a) {p : Nat} (hp : p < 256) {o : Nat} (ho : o < 0x100) :
    a ≠ portB p + o := by
  have := ha.lo
  simp only [portB, pb]
  omega

theorem LaneWord.ne_framer {a : Nat} (ha : LaneWord a) (f o : Nat) : a ≠ frmB f + o := by
  have := ha.hi
  simp only [frmB, pb]
  omega

/-- The counters of ports are no words of a lane. -/
theorem LaneWord.bumpPort {a : Nat} (ha : LaneWord a) (s : State) {p o : Nat} (n : Nat) (hp : p < 256) (ho : o + 4 < 0x100) :
    rawRd (bumpPort s p o n) a = rawRd s a :=
  rawRd_bumpPort ha.plain (ha.ne_port hp (by omega)) (by rw [Nat.add_assoc]; exact ha.ne_port hp ho)
    (ha.ne_port hp (by decide))

/-- The counters of framers are no words of a lane. -/
theorem LaneWord.bumpFramer {a : Nat} (ha : LaneWord a) (s : State) (f o n : Nat) :
    rawRd (bumpN s (frmB f + o) n) a = rawRd s a :=
  rawRd_bumpN _ _ _ _ ha.plain (ha.ne_framer f o) (by rw [Nat.add_assoc]; exact ha.ne_framer f (o + 4))

/-! The port of a lane (R66, R490). -/

/-- A port starts at or below its lanes. -/
theorem portOfLane_le {s : State} {l p : Nat} (hl : l < 256) (h : portOfLane s l = some p) : p ≤ l := by
  unfold portOfLane at h
  rw [if_neg (by omega)] at h
  dsimp only at h
  split at h
  · obtain rfl := Option.some.inj h
    omega
  · have := List.find?_some h
    simp only [Bool.and_eq_true, decide_eq_true_eq] at this
    exact this.1

theorem portOfLane_host (s : State) (l : Fin 258) (hl : 256 ≤ l.val) : portOfLane s l = some 256 :=
  if_pos (by omega)

/-! What the parts of lock and of a window leave alone. -/

theorem still_raise (s : State) (p b : Nat) : still (raise s p b) = still s :=
  still_of_notEvents (notEvents_raise ..)

theorem still_evalHold (s : State) (p : Nat) : still (evalHold s p) = still s := rfl

theorem evalHold_regs (s : State) (p : Nat) : (evalHold s p).regs = s.regs := rfl

theorem still_deliverDelay (s : State) (l rx tx : Nat) : still (deliverDelay s l rx tx) = still s := by
  unfold deliverDelay
  extract_lets L far old shift u
  split
  · exact still_raise ..
  · rfl

theorem rawRd_deliverDelay (s : State) (l rx tx : Nat) {a : Nat} (ha : plainWord a) :
    rawRd (deliverDelay s l rx tx) a = rawRd s a := by
  unfold deliverDelay
  extract_lets L far old shift u
  split
  · exact rawRd_raise _ _ _ _ ha
  · rfl

/-! Marker lock (R77, R78, R149). -/

/-- Front-panel lane `l` shows its lock and its delays. -/
def lockShown (s : State) (l rx tx : Nat) : State :=
  fs (fs (fs (fs s (laneB l) F.LANE_LANE_STATUS_AM_LOCK 1) (laneB l) F.LANE_RX_DELAY_RX_PMA_DELAY rx)
    (laneB l) F.LANE_TX_DELAY_TX_PMA_DELAY tx) (laneB l) F.LANE_RX_DELAY_DELAY_VALID 1

/-- The host port shows the delays of a lane. -/
def hostDelaysShown (s : State) (rx tx : Nat) : State :=
  fs (fs s pgHP F.HP_HP_RX_DELAY_RX_PMA_DELAY rx) pgHP F.HP_HP_TX_DELAY_TX_PMA_DELAY tx

/-- A measurement moves a shown delay of lane `l` by more than 64 (R78). -/
def delaysShift (s : State) (l rx tx : Nat) : Bool :=
  let far := fun (a b : Nat) => decide (64 < max a b - min a b)
  (getL s l).measured && (far (fg s (laneB l) F.LANE_RX_DELAY_RX_PMA_DELAY) rx ||
    far (fg s (laneB l) F.LANE_TX_DELAY_TX_PMA_DELAY) tx)

/-- Front-panel lane `l` shows its lock, and a shift of its delays is an event. -/
def lockReported (s : State) (l rx tx : Nat) : State :=
  if delaysShift s l rx tx then raise (lockShown s l rx tx) (0x040 + l) 3 else lockShown s l rx tx

/-- The delays of lane `l`, shown, are delivered. -/
def deliverShown (s : State) (l rx tx : Nat) : State :=
  deliverDelay (modL s l (fun L => { L with shiftHold := false })) l rx tx

/-- The delays measured on lane `l` are shown and delivered. -/
def delaysDelivered (s : State) (l rx tx : Nat) : State :=
  if 256 ≤ l then deliverShown (hostDelaysShown s rx tx) l rx tx else deliverShown (lockReported s l rx tx) l rx tx

/-- Port `p`, where there is one, shows whether the delays of its lanes are valid, and its hold is judged. -/
def delaysJudged (s : State) : Option Nat → State
  | none => s
  | some p => evalHold (if p = 256 then
        fs s pgHP F.HP_HP_STATUS_DELAYS_VALID (if (getL s 256).measured && (getL s 257).measured then 1 else 0)
      else fs s (portB p) F.PORT_PORT_STATUS_DELAYS_VALID (if (portLanes s p).all (fun k => delayValid s k) then 1 else 0)) p

theorem amLock_eq (s : State) (l rx tx : Nat) :
    amLock s l rx tx = delaysJudged (delaysDelivered s l rx tx) (portOfLane (delaysDelivered s l rx tx) l) := by
  unfold amLock delaysJudged
  rfl

theorem notEvents_lockShown (s : State) (l rx tx : Nat) : notEvents (lockShown s l rx tx) = notEvents s := by
  rw [lockShown, notEvents_fs, notEvents_fs, notEvents_fs, notEvents_fs]

theorem notEvents_hostDelaysShown (s : State) (rx tx : Nat) : notEvents (hostDelaysShown s rx tx) = notEvents s := by
  rw [hostDelaysShown, notEvents_fs, notEvents_fs]

theorem notEvents_lockReported (s : State) (l rx tx : Nat) : notEvents (lockReported s l rx tx) = notEvents s := by
  unfold lockReported
  split
  · rw [notEvents_raise, notEvents_lockShown]
  · exact notEvents_lockShown ..

theorem still_deliverShown (s : State) (l rx tx : Nat) : still (deliverShown s l rx tx) = still s :=
  still_deliverDelay ..

theorem still_delaysDelivered (s : State) (l rx tx : Nat) : still (delaysDelivered s l rx tx) = still s := by
  unfold delaysDelivered
  split
  · rw [still_deliverShown, still_of_notEvents (notEvents_hostDelaysShown ..)]
  · rw [still_deliverShown, still_of_notEvents (notEvents_lockReported ..)]

theorem still_delaysJudged (s : State) (o : Option Nat) : still (delaysJudged s o) = still s := by
  cases o with
  | none => rfl
  | some p =>
    unfold delaysJudged
    rw [still_evalHold]
    split <;> rfl

theorem still_amLock (s : State) (l rx tx : Nat) : still (amLock s l rx tx) = still s := by
  rw [amLock_eq, still_delaysJudged, still_delaysDelivered]

theorem rawRd_deliverShown (s : State) (l rx tx : Nat) {a : Nat} (ha : plainWord a) :
    rawRd (deliverShown s l rx tx) a = rawRd s a :=
  rawRd_deliverDelay _ _ _ _ ha

/-- The judgement writes a word of the port's, none of a lane's. -/
theorem rawRd_delaysJudged (s : State) {o : Option Nat} (ho : ∀ p, o = some p → p < 256) {a : Nat} (ha : LaneWord a) :
    rawRd (delaysJudged s o) a = rawRd s a := by
  cases o with
  | none => rfl
  | some p =>
    have hp := ho p rfl
    unfold delaysJudged
    rw [rawRd_congr _ _ _ (evalHold_regs ..), if_neg (by omega)]
    exact rawRd_fs_ne _ _ _ _ _ (ha.ne_port hp (by decide))

theorem rawRd_lockReported (s : State) (l rx tx : Nat) {a : Nat} (ha : plainWord a) :
    rawRd (lockReported s l rx tx) a = rawRd (lockShown s l rx tx) a := by
  unfold lockReported
  split
  · exact rawRd_raise _ _ _ _ ha
  · rfl

/-- On a lane's page, lock comes down to what it shows. -/
theorem rawRd_amLock (s : State) {l : Nat} (rx tx : Nat) (hl : l < 256) {a : Nat} (ha : LaneWord a) :
    rawRd (amLock s l rx tx) a = rawRd (lockShown s l rx tx) a := by
  rw [amLock_eq, rawRd_delaysJudged _ (fun p hp => (portOfLane_le hl hp).trans_lt hl) ha,
    delaysDelivered, if_neg (by omega), rawRd_deliverShown _ _ _ _ ha.plain, rawRd_lockReported _ _ _ _ ha.plain]

theorem fg_amLock (s : State) {l : Nat} (rx tx : Nat) (hl : l < 256) (f : FRef) (hlo : 0x40 ≤ f.off) (ho : f.off < 0x1000) :
    fg (amLock s l rx tx) (laneB l) f = fg (lockShown s l rx tx) (laneB l) f :=
  fg_of_word (rawRd_amLock s rx tx hl (laneWord_of hl hlo ho))

/-- What each of the four fields of `lockShown` reads. -/
theorem lockShown_fields (s : State) (l : Nat) (rx tx : BitVec 24) : let t := lockShown s l rx.toNat tx.toNat
    fg t (laneB l) F.LANE_LANE_STATUS_AM_LOCK = 1 ∧ fg t (laneB l) F.LANE_RX_DELAY_RX_PMA_DELAY = rx.toNat ∧
    fg t (laneB l) F.LANE_TX_DELAY_TX_PMA_DELAY = tx.toNat ∧ fg t (laneB l) F.LANE_RX_DELAY_DELAY_VALID = 1 := by
  unfold lockShown
  refine ⟨?_, ?_, ?_, ?_⟩
  · rw [fg_fs_addr _ _ _ _ _ _ (by simp), fg_fs_addr _ _ _ _ _ _ (by simp), fg_fs_addr _ _ _ _ _ _ (by simp),
      fg_fs_self _ _ _ _ (by decide)]
    rfl
  · rw [fg_fs_field _ _ F.LANE_RX_DELAY_DELAY_VALID _ _ F.LANE_RX_DELAY_RX_PMA_DELAY rfl (by decide) (by decide),
      fg_fs_addr _ _ _ _ _ _ (by simp), fg_fs_self _ _ _ _ (by decide)]
    exact Nat.mod_eq_of_lt rx.isLt
  · rw [fg_fs_addr _ _ _ _ _ _ (by simp), fg_fs_self _ _ _ _ (by decide)]
    exact Nat.mod_eq_of_lt tx.isLt
  · rw [fg_fs_self _ _ _ _ (by decide)]
    rfl

theorem amLockAcquired_front (s : State) {l : Fin 258} (rx tx : BitVec 24) (hl : l.val < 256) :
    Runs (.amLockAcquired l rx tx) s (fun t => fg t (laneB l) F.LANE_LANE_STATUS_AM_LOCK = 1 ∧
      fg t (laneB l) F.LANE_RX_DELAY_RX_PMA_DELAY = rx.toNat ∧ fg t (laneB l) F.LANE_TX_DELAY_TX_PMA_DELAY = tx.toNat ∧
      fg t (laneB l) F.LANE_RX_DELAY_DELAY_VALID = 1 ∧ t.hbm = s.hbm) := by
  have hs := still_amLock s l rx.toNat tx.toNat
  obtain ⟨hlock, hrx, htx, hvalid⟩ := lockShown_fields s l rx tx
  have hfg := fg_amLock s rx.toNat tx.toNat hl
  refine runs_still (exec_amLockAcquired l rx tx s) hs ⟨?_, ?_, ?_, ?_, hbm_of_still hs⟩
  · rw [hfg _ (by decide) (by decide), hlock]
  · rw [hfg _ (by decide) (by decide), hrx]
  · rw [hfg _ (by decide) (by decide), htx]
  · rw [hfg _ (by decide) (by decide), hvalid]

/-- On the host port, lock shows the delays and then writes no word of the page but HP_STATUS. -/
theorem rawRd_amLock_host (s : State) {l : Fin 258} (rx tx : Nat) (hl : 256 ≤ l.val) {o : Nat} (hlo : 0x48 ≤ o)
    (ho : o < 0x1000) : rawRd (amLock s l rx tx) (pgHP + o) = rawRd (hostDelaysShown s rx tx) (pgHP + o) := by
  have hplain : plainWord (pgHP + o) := by
    simp only [plainWord, pgHP, pb_add_div _ ho, pb_add_mod _ ho]
    omega
  rw [amLock_eq, portOfLane_host _ l hl]
  unfold delaysJudged
  rw [rawRd_congr _ _ _ (evalHold_regs ..), if_pos rfl, rawRd_fs_ne _ _ _ _ _ (by simp only; omega),
    delaysDelivered, if_pos hl, rawRd_deliverShown _ _ _ _ hplain]

theorem amLockAcquired_host (s : State) {l : Fin 258} (rx tx : BitVec 24) (hl : 256 ≤ l.val) :
    Runs (.amLockAcquired l rx tx) s (fun t => fg t pgHP F.HP_HP_RX_DELAY_RX_PMA_DELAY = rx.toNat ∧
      fg t pgHP F.HP_HP_TX_DELAY_TX_PMA_DELAY = tx.toNat ∧ t.hbm = s.hbm) := by
  have hs := still_amLock s l rx.toNat tx.toNat
  refine runs_still (exec_amLockAcquired l rx tx s) hs ⟨?_, ?_, hbm_of_still hs⟩
  · rw [fg_of_word (rawRd_amLock_host s _ _ hl (by decide) (by decide)), hostDelaysShown,
      fg_fs_addr _ _ _ _ _ _ (by simp), fg_fs_self _ _ _ _ (by decide)]
    exact Nat.mod_eq_of_lt rx.isLt
  · rw [fg_of_word (rawRd_amLock_host s _ _ hl (by decide) (by decide)), hostDelaysShown,
      fg_fs_self _ _ _ _ (by decide)]
    exact Nat.mod_eq_of_lt tx.isLt

/-! An FEC window (R91, R93, R115). -/

/-- HIGH_SER of lane `l` is judged against SER_THRESH, and the symbol errors are counted. -/
def serShown (s : State) (l errors : Nat) : State :=
  (addRaw (fs s (laneB l) F.LANE_LANE_STATUS_HIGH_SER (if fg s (laneB l) F.LANE_SER_CTRL_SER_THRESH < errors then 1 else 0))
    (laneB l + R.LANE_FEC_SYMBOLS) errors).2

/-- The window of a front-panel lane is shown; the rise of HIGH_SER is an event. -/
def serJudged (s : State) (l errors : Nat) : State :=
  if decide (fg s (laneB l) F.LANE_SER_CTRL_SER_THRESH < errors) && !fgb s (laneB l) F.LANE_LANE_STATUS_HIGH_SER then
    raise (serShown s l errors) (0x040 + l) 1
  else serShown s l errors

/-- The words of the window are counted at its port, where there is one, and the port's hold is judged. -/
def fecCounted (s : State) (corrected uncorrected : Nat) : Option Nat → State
  | none => s
  | some p => evalHold (bumpPort (bumpPort (if isClient s p then
      bumpN (bumpN s (frmB (p / 16) + R.FRM_FEC_CORRECTED) corrected) (frmB (p / 16) + R.FRM_FEC_UNCORRECTED) uncorrected
    else s) p R.PORT_FEC_CORRECTED corrected) p R.PORT_FEC_UNCORRECTED uncorrected) p

theorem serWindow_eq (s : State) {l : Nat} (errors corrected uncorrected : Nat) (hl : l < 256) :
    serWindow s l errors corrected uncorrected =
      fecCounted (serJudged s l errors) corrected uncorrected (portOfLane (serJudged s l errors) l) := by
  unfold serWindow
  rw [if_neg (by omega)]
  rfl

theorem notEvents_serShown (s : State) (l errors : Nat) : notEvents (serShown s l errors) = notEvents s := by
  rw [serShown, notEvents_addRaw, notEvents_fs]

theorem notEvents_serJudged (s : State) (l errors : Nat) : notEvents (serJudged s l errors) = notEvents s := by
  unfold serJudged
  split
  · rw [notEvents_raise, notEvents_serShown]
  · exact notEvents_serShown ..

theorem still_fecCounted (s : State) (corrected uncorrected : Nat) (o : Option Nat) :
    still (fecCounted s corrected uncorrected o) = still s := by
  cases o with
  | none => rfl
  | some p =>
    unfold fecCounted
    rw [still_evalHold, still_of_notEvents (notEvents_bumpPort ..), still_of_notEvents (notEvents_bumpPort ..)]
    split
    · rw [still_of_notEvents (notEvents_bumpN ..), still_of_notEvents (notEvents_bumpN ..)]
    · rfl

theorem still_serWindow (s : State) {l : Nat} (errors corrected uncorrected : Nat) (hl : l < 256) :
    still (serWindow s l errors corrected uncorrected) = still s := by
  rw [serWindow_eq _ _ _ _ hl, still_fecCounted, still_of_notEvents (notEvents_serJudged ..)]

theorem rawRd_fecCounted (s : State) (corrected uncorrected : Nat) {o : Option Nat} (ho : ∀ p, o = some p → p < 256)
    {a : Nat} (ha : LaneWord a) : rawRd (fecCounted s corrected uncorrected o) a = rawRd s a := by
  cases o with
  | none => rfl
  | some p =>
    have hp := ho p rfl
    unfold fecCounted
    rw [rawRd_congr _ _ _ (evalHold_regs ..), ha.bumpPort _ _ hp (by decide), ha.bumpPort _ _ hp (by decide)]
    split
    · rw [ha.bumpFramer, ha.bumpFramer]
    · rfl

theorem rawRd_serJudged (s : State) (l errors : Nat) {a : Nat} (ha : plainWord a) :
    rawRd (serJudged s l errors) a = rawRd (serShown s l errors) a := by
  unfold serJudged
  split
  · exact rawRd_raise _ _ _ _ ha
  · rfl

theorem fg_serShown (s : State) (l errors : Nat) : fg (serShown s l errors) (laneB l) F.LANE_LANE_STATUS_HIGH_SER =
    if fg s (laneB l) F.LANE_SER_CTRL_SER_THRESH < errors then 1 else 0 := by
  unfold serShown
  rw [fg_of_word (rawRd_addRaw_ne _ _ _ _ (by simp) (by simp [Nat.add_assoc])), fg_fs_self _ _ _ _ (by decide)]
  split <;> rfl

theorem serWindowEnd_judges (s : State) {l : Fin 258} (errors corrected uncorrected : Nat) (hl : l.val < 256) :
    Runs (.serWindowEnd l errors corrected uncorrected) s (fun t =>
      fg t (laneB l) F.LANE_LANE_STATUS_HIGH_SER =
        (if fg s (laneB l) F.LANE_SER_CTRL_SER_THRESH < errors then 1 else 0) ∧ t.hbm = s.hbm) := by
  have hs := still_serWindow s errors corrected uncorrected hl
  have ha := laneWord_of (o := F.LANE_LANE_STATUS_HIGH_SER.off) hl (by decide) (by decide)
  have hword := (rawRd_fecCounted (serJudged s l errors) corrected uncorrected (o := portOfLane (serJudged s l errors) l)
    (fun p hp => (portOfLane_le hl hp).trans_lt hl) ha).trans (rawRd_serJudged s l errors ha.plain)
  refine runs_still (exec_serWindowEnd l errors corrected uncorrected s) hs ⟨?_, hbm_of_still hs⟩
  rw [serWindow_eq _ _ _ _ hl, fg_of_word hword, fg_serShown]

/-- Settles O11: after what lock and a window show of their lane, only events, counters and port words are written. -/
theorem laneMeasuresAreShown : Obligations.LaneMeasuresAreShown := fun s =>
  ⟨fun _ rx tx => amLockAcquired_front s rx tx, fun _ rx tx => amLockAcquired_host s rx tx,
   fun _ e c u => serWindowEnd_judges s e c u⟩

end Sys2Proof.Machine
end

section
/-! PFC frames and the watchdog (R89, R90): what goes out, and how a storm is marked. -/

namespace Sys2Proof.Machine

open Sys2Proof

/-! Sending. -/

theorem pfcSend_out (s : State) (p : Nat) (b : Bool) (q : Nat) :
    (pfcSend s p b q).out = s.out ++ [.pfc p (pfcPrio s p b) q] := by
  simp [pfcSend]

theorem still_pfcSend (s : State) (p : Nat) (b : Bool) (q : Nat) : still (pfcSend s p b q) = still s :=
  (still_of_notEvents (notEvents_bumpPort s p R.PORT_TX_PFC 1) :)

/-- A frame sent for a class is no longer waiting. -/
theorem pfcSend_not_waiting (s : State) (p : Nat) (b : Bool) (q : Nat) :
    (if b then (getP (pfcSend s p b q) p).pfcB else (getP (pfcSend s p b q) p).pfcA) = none := by
  cases b <;> simp [pfcSend]

theorem pfcSendDue_eq {s : State} {p q : Nat} {b : Bool}
    (hq : (if b then (getP s p).pfcB else (getP s p).pfcA) = some q) (hup : isUp s p = true) :
    pfcSendDue s p b = pfcSend s p b q := by
  unfold pfcSendDue
  dsimp only
  rw [hq]
  exact if_pos hup

theorem pfcFrameSend_sends {s : State} {p : Fin 256} {b : Bool} {q : Nat}
    (hq : (if b then (getP s p).pfcB else (getP s p).pfcA) = some q) (hup : isUp s p = true) :
    Runs (.pfcFrameSend p b) s (fun t => t.out = s.out ++ [.pfc p (pfcPrio s p b) q] ∧
      (if b then (getP t p).pfcB else (getP t p).pfcA) = none ∧ t.hbm = s.hbm) := by
  have hx := exec_pfcFrameSend p b s
  rw [pfcSendDue_eq hq hup] at hx
  have hs := still_pfcSend s p b q
  exact runs_still hx hs ⟨pfcSend_out .., pfcSend_not_waiting .., hbm_of_still hs⟩

theorem pfcRefreshOp_eq {s : State} {p : Nat} {b : Bool}
    (hx : fgb s (accB p) (if b then F.ACC_LL_STATUS_XOFF_B else F.ACC_LL_STATUS_XOFF_A) = true)
    (hen : fgb s (portB p) (if b then F.PORT_PFC_CTRL_PRIO_B_EN else F.PORT_PFC_CTRL_PRIO_A_EN) = true)
    (hup : isUp s p = true)
    (ht : (if b then (getP s p).pfcLastB else (getP s p).pfcLastA) + pfcInterval s p ≤ plyNat s) :
    pfcRefreshOp s p b = pfcSend s p b (fg s (portB p) F.PORT_PFC_TIMING_TX_QUANTA) :=
  if_pos (by rw [hx, hen, hup, decide_eq_true ht]; rfl)

theorem pfcRefresh_repeats {s : State} {p : Fin 256} {b : Bool}
    (hx : fgb s (accB p) (if b then F.ACC_LL_STATUS_XOFF_B else F.ACC_LL_STATUS_XOFF_A) = true)
    (hen : fgb s (portB p) (if b then F.PORT_PFC_CTRL_PRIO_B_EN else F.PORT_PFC_CTRL_PRIO_A_EN) = true)
    (hup : isUp s p = true)
    (ht : (if b then (getP s p).pfcLastB else (getP s p).pfcLastA) + pfcInterval s p ≤ plyNat s) :
    Runs (.pfcRefresh p b) s (fun t =>
      t.out = s.out ++ [.pfc p (pfcPrio s p b) (fg s (portB p) F.PORT_PFC_TIMING_TX_QUANTA)] ∧ t.hbm = s.hbm) := by
  have hrun := exec_pfcRefresh p b s
  rw [pfcRefreshOp_eq hx hen hup ht] at hrun
  have hs := still_pfcSend s p b (fg s (portB p) F.PORT_PFC_TIMING_TX_QUANTA)
  exact runs_still hrun hs ⟨pfcSend_out .., hbm_of_still hs⟩

/-! The watchdog (R90). -/

/-- PFC_STORM of port `p` is set and its event raised. -/
def stormMarked (s : State) (p : Nat) : State :=
  raise (fs s (portB p) F.PORT_PORT_STATUS_PFC_STORM 1) (0x020 + p / 8) (8 + p % 8)

theorem notEvents_stormMarked (s : State) (p : Nat) : notEvents (stormMarked s p) = notEvents s := by
  rw [stormMarked, notEvents_raise, notEvents_fs]

theorem fg_stormMarked (s : State) {p : Nat} (hp : p < 256) :
    fg (stormMarked s p) (portB p) F.PORT_PORT_STATUS_PFC_STORM = 1 := by
  rw [stormMarked, fg_raise _ _ _ _ _ (spared_of_port hp (by decide)).plain, fg_fs_self _ _ _ _ (by decide)]
  rfl

/-- WD_DROP stands in another word than the mark and is no event's. -/
theorem fgb_stormMarked (s : State) {p : Nat} (hp : p < 256) :
    fgb (stormMarked s p) (portB p) F.PORT_PFC_CTRL_WD_DROP = fgb s (portB p) F.PORT_PFC_CTRL_WD_DROP := by
  unfold fgb
  rw [stormMarked, fg_raise _ _ _ _ _ (spared_of_port hp (by decide)).plain, fg_fs_addr _ _ _ _ _ _ (by simp)]

theorem pfcWatchdog_eq {s : State} {p c : Nat} (hwd : fg s (portB p) F.PORT_LINK_TIMING_PFC_WD ≠ 0)
    (ht : tget (fun _ => 0) (getP s p).pausedAt c ≠ 0)
    (hn : tget (fun _ => 0) (getP s p).pausedAt c + 25 * fg s (portB p) F.PORT_LINK_TIMING_PFC_WD ≤ plyNat s) :
    pfcWatchdog s p c = if fgb (stormMarked s p) (portB p) F.PORT_PFC_CTRL_WD_DROP then
      modP (stormMarked s p) p (fun P => { P with wdDrop := P.wdDrop ||| 2 ^ c }) else stormMarked s p :=
  if_neg (by omega)

theorem pfcWatchdogExpiry_marks {s : State} {p : Fin 256} {c : Fin 8}
    (hwd : fg s (portB p) F.PORT_LINK_TIMING_PFC_WD ≠ 0) (ht : tget (fun _ => 0) (getP s p).pausedAt c ≠ 0)
    (hn : tget (fun _ => 0) (getP s p).pausedAt c + 25 * fg s (portB p) F.PORT_LINK_TIMING_PFC_WD ≤ plyNat s) :
    Runs (.pfcWatchdogExpiry p c) s (fun t => fg t (portB p) F.PORT_PORT_STATUS_PFC_STORM = 1 ∧
      (fgb s (portB p) F.PORT_PFC_CTRL_WD_DROP = true → (getP t p).wdDrop.testBit c = true) ∧ t.hbm = s.hbm) := by
  have hx := exec_pfcWatchdogExpiry p c s
  rw [pfcWatchdog_eq hwd ht hn, fgb_stormMarked s p.isLt] at hx
  have hu := notEvents_stormMarked s p
  have hstorm := fg_stormMarked s p.isLt
  split at hx
  case isTrue =>
    have h := onlyPort_modP hu p (fun P => { P with wdDrop := P.wdDrop ||| 2 ^ c.val })
    refine runs_still hx h.rest ⟨(fg_of_word (rawRd_modP ..)).trans hstorm, fun _ => ?_, hbm_of_still h.rest⟩
    rw [h.port]
    simp [Nat.testBit_two_pow_self]
  case isFalse hdrop =>
    have hs := still_of_notEvents hu
    exact runs_still hx hs ⟨hstorm, fun h => absurd h hdrop, hbm_of_still hs⟩

/-- Settles O15: a due frame goes out through `pfcSend`, and the watchdog marks the storm before it marks the class. -/
theorem pfcFramesAreSent : Obligations.PfcFramesAreSent := fun _ _ =>
  ⟨fun _ _ => pfcFrameSend_sends, fun _ => pfcRefresh_repeats, fun _ => pfcWatchdogExpiry_marks⟩

end Sys2Proof.Machine
end

section
/-! Frame alignment (R106, R107): what a search, a check and a loss of frame leave of the alignment state. -/

namespace Sys2Proof.Machine

open Sys2Proof

/-- With no candidate open, each of the first four matches opens one (R106 step 1). -/
theorem search_opens {s : State} {f i : Nat} (m : List (Nat × Byte)) (hpos : (getInst s f i).pos = 0)
    (hcands : (getInst s f i).cands = []) :
    search s f i m = setInst s f i { getInst s f i with
      cands := (m.map (fun y => ({ pos := y.1, marks := [y.2] } : Candidate))).take 4 } := by
  simp [search, hpos, hcands]

theorem flexoPatternSighting_opens {s : State} {f : Fin 16} {i : Fin 8} (m : List (Nat × Byte))
    (hpos : (getInst s f i).pos = 0) (hcands : (getInst s f i).cands = []) :
    Runs (.flexoPatternSighting f i m) s (fun t =>
      (getInst t f i).cands = (m.map (fun y => ({ pos := y.1, marks := [y.2] } : Candidate))).take 4 ∧
      (getInst t f i).pos = 0 ∧ t.hbm = s.hbm) := by
  have hx := exec_flexoPatternSighting f i m s
  rw [search_opens m hpos hcands] at hx
  refine runs_still hx rfl ⟨?_, ?_, rfl⟩ <;> rw [getInst_setInst]
  exact hpos

theorem frameCheck_eq {s : State} {f i : Nat} (e : Nat) (mf : Byte) (hpos : (getInst s f i).pos ≠ 0) :
    frameCheck s f i e mf = setInst s f i { getInst s f i with
      fails := if e ≤ fg s (frmB f) F.FRM_ALIGN_CTRL_AM_TOL then 0 else (getInst s f i).fails + 1
      mf := mf
      mfBad := if mf == (getInst s f i).mf + 1 then 0 else (getInst s f i).mfBad + 1 } :=
  if_neg hpos

theorem flexoFrameCheck_counts {s : State} {f : Fin 16} {i : Fin 8} (e : Nat) (mf : Byte)
    (hpos : (getInst s f i).pos ≠ 0) : Runs (.flexoFrameCheck f i e mf) s (fun t =>
      (getInst t f i).fails = (if e ≤ fg s (frmB f) F.FRM_ALIGN_CTRL_AM_TOL then 0 else (getInst s f i).fails + 1) ∧
      (getInst t f i).mf = mf ∧ (getInst t f i).pos = (getInst s f i).pos ∧ t.regs = s.regs ∧ t.hbm = s.hbm) := by
  have hx := exec_flexoFrameCheck f i e mf s
  rw [frameCheck_eq e mf hpos] at hx
  refine runs_still hx rfl ⟨?_, ?_, ?_, rfl, rfl⟩ <;> rw [getInst_setInst]

/-- IN_FRAME is a register field. -/
@[simp] theorem notEvents_showInFrame (s : State) (f : Nat) : notEvents (showInFrame s f) = notEvents s :=
  notEvents_fs ..

theorem getFr_of_notEvents {s t : State} (h : notEvents t = notEvents s) (f : Nat) : getFr t f = getFr s f := by
  rw [getFr, getFr, notEvents_framers _ _ h]

@[simp] theorem getInst_showInFrame (s : State) (f i : Nat) : getInst (showInFrame s f) f i = getInst s f i := by
  rw [getInst, getInst, getFr_of_notEvents (notEvents_showInFrame s f)]

theorem declareOof_eq {s : State} {f i : Nat} (hpos : (getInst s f i).pos ≠ 0) (hfails : 5 ≤ (getInst s f i).fails) :
    declareOof s f i =
      showInFrame (setInst s f i { getInst s f i with pos := 0, fails := 0, cands := [] }) f :=
  if_neg (by omega)

theorem oofDeclare_loses {s : State} {f : Fin 16} {i : Fin 8} (hpos : (getInst s f i).pos ≠ 0)
    (hfails : 5 ≤ (getInst s f i).fails) : Runs (.oofDeclare f i) s (fun t =>
      (getInst t f i).pos = 0 ∧ (getInst t f i).fails = 0 ∧ t.hbm = s.hbm) := by
  have hx := exec_oofDeclare f i s
  rw [declareOof_eq hpos hfails] at hx
  have hs := still_of_notEvents (notEvents_showInFrame
    (setInst s f i { getInst s f i with pos := 0, fails := 0, cands := [] }) f)
  refine runs_still hx hs ⟨?_, ?_, (hbm_of_still hs :)⟩ <;> rw [getInst_showInFrame, getInst_setInst]

/-- Settles O16: in each of the three cases the command comes down to one write of the alignment state. -/
theorem framersSearchAndCheck : Obligations.FramersSearchAndCheck := fun _ _ _ =>
  ⟨flexoPatternSighting_opens, flexoFrameCheck_counts, oofDeclare_loses⟩

end Sys2Proof.Machine
end

section
/-! Defects and trail traces (R108, R111): the raw bit of a detector, and what a DEG second and a TTI cycle leave of the
reception of their layer. -/

namespace Sys2Proof.Machine

open Sys2Proof

/-! Detectors (R108). -/

/-- Where the bit stands, taking away its power of two takes away the bits that the two have in common. -/
theorem sub_two_pow_of_testBit (r d : Nat) : (if r.testBit d then r - 2 ^ d else r) = r - (r &&& 2 ^ d) := by
  rw [Nat.and_two_pow]
  cases r.testBit d <;> simp

/-- A detector's output is its own bit of DEFECTS_RAW; every other bit stays. -/
theorem testBit_setRaw (s : State) (f : Nat) {d : Nat} (on : Bool) (hd : d < 15) (k : Nat) :
    (fg (setRaw s f d on) (frmB f) F.FRM_DEFECTS_RAW_RAW).testBit k =
      if k = d then on else (fg s (frmB f) F.FRM_DEFECTS_RAW_RAW).testBit k := by
  have hr : fg s (frmB f) F.FRM_DEFECTS_RAW_RAW < 2 ^ 15 := bitsOf_lt ..
  have hmod {x : Nat} (hx : x < 2 ^ 15) : x % 2 ^ F.FRM_DEFECTS_RAW_RAW.width = x := Nat.mod_eq_of_lt hx
  have hbit : 2 ^ d < 2 ^ 15 := Nat.pow_lt_pow_right (by decide) hd
  unfold setRaw
  dsimp only
  rw [fg_fs_self _ _ _ _ (by decide), sub_two_pow_of_testBit]
  generalize fg s (frmB f) F.FRM_DEFECTS_RAW_RAW = r at hr ⊢
  cases on with
  | true =>
    rw [if_pos rfl, hmod (Nat.or_lt_two_pow hr hbit), Nat.testBit_or, Nat.testBit_two_pow]
    by_cases hk : k = d <;> simp [hk, @eq_comm _ d k]
  | false =>
    rw [if_neg Bool.false_ne_true, hmod (by omega), testBit_sub_and, Nat.testBit_two_pow]
    by_cases hk : k = d <;> simp [hk, @eq_comm _ d k]

theorem defectDeclare_sets (s : State) (f d : Fin 16) (hd : d.val < 15) : Runs (.defectDeclare f d) s (fun t =>
    ∀ k, (fg t (frmB f) F.FRM_DEFECTS_RAW_RAW).testBit k =
      (decide (k = d.val) || (fg s (frmB f) F.FRM_DEFECTS_RAW_RAW).testBit k)) := by
  refine runs_still (exec_defectDeclare f d s) rfl fun k => ?_
  rw [testBit_setRaw s f true hd]
  by_cases hk : k = d.val <;> simp [hk]

theorem defectClear_clears (s : State) (f d : Fin 16) (hd : d.val < 15) : Runs (.defectClear f d) s (fun t =>
    ∀ k, (fg t (frmB f) F.FRM_DEFECTS_RAW_RAW).testBit k =
      (!decide (k = d.val) && (fg s (frmB f) F.FRM_DEFECTS_RAW_RAW).testBit k)) := by
  refine runs_still (exec_defectClear f d s) rfl fun k => ?_
  rw [testBit_setRaw s f false hd]
  by_cases hk : k = d.val <;> simp [hk]

/-! The reception of one layer, PM or SM. -/

/-- What framer `f` has received on one layer. -/
def getTti (s : State) (f : Nat) (pm : Bool) : TtiSt := if pm then (getFr s f).pm else (getFr s f).sm

/-- Framer `f` has received `x` on one layer. -/
def setTti (s : State) (f : Nat) (pm : Bool) (x : TtiSt) : State :=
  setFr s f (if pm then { getFr s f with pm := x } else { getFr s f with sm := x })

@[simp] theorem getTti_setTti (s : State) (f : Nat) (pm : Bool) (x : TtiSt) : getTti (setTti s f pm x) f pm = x := by
  rw [getTti, setTti, getFr_setFr]
  cases pm <;> rfl

theorem getTti_of_notEvents {s t : State} {f : Nat} {pm : Bool} {x : TtiSt}
    (h : notEvents t = notEvents (setTti s f pm x)) : getTti t f pm = x := by
  rw [← getTti_setTti s f pm x, getTti, getTti, getFr_of_notEvents h]

theorem still_of_setTti {s t : State} {f : Nat} {pm : Bool} {x : TtiSt}
    (h : notEvents t = notEvents (setTti s f pm x)) : still t = still s := (still_of_notEvents h :)

@[simp] theorem notEvents_setRaw (s : State) (f k : Nat) (on : Bool) : notEvents (setRaw s f k on) = notEvents s := rfl

@[simp] theorem notEvents_timRaw (s : State) (f : Nat) (pm : Bool) : notEvents (timRaw s f pm) = notEvents s := rfl

@[simp] theorem notEvents_wrWords (s : State) (a : Nat) (ws : List Word) : notEvents (wrWords s a ws) = notEvents s := by
  induction ws generalizing s a with
  | nil => rfl
  | cons w ws ih => exact ih ..

/-! Seconds and TTI cycles (R108, R111). -/

/-- Beyond the runs of its layer, a second counts block errors and may move the DEG detector. -/
theorem degSecond_eq (s : State) (f : Nat) (pm : Bool) (e : Nat) :
    ∃ x, notEvents (degSecond s f pm e) = notEvents (setTti s f pm x) ∧
      x.bad = (if fg s (frmB f) F.FRM_DEG_CTRL_DEG_THR < e then (getTti s f pm).bad + 1 else 0) ∧
      x.good = (if fg s (frmB f) F.FRM_DEG_CTRL_DEG_THR < e then 0 else (getTti s f pm).good + 1) := by
  unfold degSecond
  extract_lets fr old m bad new u counted k
  have hcounted : notEvents counted = notEvents (setTti s f pm new) := notEvents_bumpN ..
  refine ⟨new, ?_, rfl, rfl⟩
  split
  · exact hcounted
  · split <;> exact hcounted

theorem degSecondEnd_counts (s : State) (f : Fin 16) (pm : Bool) (e : Nat) :
    Runs (.degSecondEnd f pm e) s (fun t =>
      let x := if pm then (getFr s f).pm else (getFr s f).sm
      let y := if pm then (getFr t f).pm else (getFr t f).sm
      let bad := fg s (frmB f) F.FRM_DEG_CTRL_DEG_THR < e
      y.bad = (if bad then x.bad + 1 else 0) ∧ y.good = (if bad then 0 else x.good + 1) ∧ t.hbm = s.hbm) := by
  obtain ⟨x, h, hbad, hgood⟩ := degSecond_eq s f pm e
  have hx := getTti_of_notEvents h
  have hs := still_of_setTti h
  exact runs_still (exec_degSecondEnd f pm e s) hs
    ⟨(congrArg TtiSt.bad hx).trans hbad, (congrArg TtiSt.good hx).trans hgood, hbm_of_still hs⟩

/-- Beyond the reception of its layer, a cycle may show the accepted trace and move the TIM detector. -/
theorem ttiCycleOp_eq (s : State) (f : Nat) (pm : Bool) (rx : List Byte) :
    ∃ x, notEvents (ttiCycleOp s f pm rx) = notEvents (setTti s f pm x) ∧ x.last = rx ∧
      x.same = min 3 (if (getTti s f pm).last = rx then (getTti s f pm).same + 1 else 1) := by
  unfold ttiCycleOp
  extract_lets fr old same ok tx new u shown marked
  refine ⟨new, ?_, rfl, rfl⟩
  split
  case isTrue =>
    have hshown : notEvents shown = notEvents u := notEvents_wrWords u _ _
    have hmarked : notEvents marked = notEvents shown := by
      unfold marked
      rw [apply_ite notEvents, notEvents_fs, ite_self]
    rw [notEvents_timRaw, hmarked, hshown]
    rfl
  case isFalse => rfl

theorem ttiCycle_counts (s : State) (f : Fin 16) (pm : Bool) (rx : List Byte) :
    Runs (.ttiCycle f pm rx) s (fun t =>
      let x := if pm then (getFr s f).pm else (getFr s f).sm
      let y := if pm then (getFr t f).pm else (getFr t f).sm
      y.last = rx ∧ y.same = min 3 (if x.last = rx then x.same + 1 else 1) ∧ t.hbm = s.hbm) := by
  obtain ⟨x, h, hlast, hsame⟩ := ttiCycleOp_eq s f pm rx
  have hx := getTti_of_notEvents h
  have hs := still_of_setTti h
  exact runs_still (exec_ttiCycle f pm rx s) hs
    ⟨(congrArg TtiSt.last hx).trans hlast, (congrArg TtiSt.same hx).trans hsame, hbm_of_still hs⟩

/-- Settles O17: detectors write one bit each, and a second and a cycle write the reception of their layer. -/
theorem framerDefectsAndTraces : Obligations.FramerDefectsAndTraces := fun s f =>
  ⟨fun d hd => ⟨defectDeclare_sets s f d hd, defectClear_clears s f d hd⟩, degSecondEnd_counts s f, ttiCycle_counts s f⟩

end Sys2Proof.Machine
end

section
/-! The references of Tally Time (R130-R136): what a change of the references leaves alone, and the bits of REF_STATUS. -/

namespace Sys2Proof.Machine

open Sys2Proof

/-! Changes of the references. -/

/-- From `s` to `t` the references came to be `r`; beside them only registers, events and the mode changed. -/
def OnlyRef (s t : State) (r : RefSt) : Prop := notEvents t = notEvents (setRef s r)

section
variable {s t u : State} {r q : RefSt}

theorem OnlyRef.ref (h : OnlyRef s t r) : t.ref = r := (notEvents_ref _ _ h :)
theorem OnlyRef.tm (h : OnlyRef s t r) : t.tm = s.tm := (notEvents_tm _ _ h :)
theorem OnlyRef.ports (h : OnlyRef s t r) : t.ports = s.ports := (notEvents_ports _ _ h :)
theorem OnlyRef.hbm (h : OnlyRef s t r) : t.hbm = s.hbm := (notEvents_hbm _ _ h :)
theorem OnlyRef.still (h : OnlyRef s t r) : still t = still s := (still_of_notEvents h :)

/-- What touches registers, events and the mode alone leaves the references as they came to be. -/
theorem OnlyRef.events (h : OnlyRef s t r) (hu : notEvents u = notEvents t) : OnlyRef s u r := hu.trans h

theorem OnlyRef.trans (h : OnlyRef s t r) (hu : OnlyRef t u q) : OnlyRef s u q := by
  have hset : notEvents (setRef t q) = notEvents (setRef s q) := congrArg (setRef · q) h
  exact Eq.trans hu hset

end

theorem onlyRef_setRef (s : State) (r : RefSt) : OnlyRef s (setRef s r) r := rfl

@[simp] theorem notEvents_setRefOk (s : State) (f : FRef) (b : Bool) : notEvents (setRefOk s f b) = notEvents s := rfl

/-! Words and bits of page 0x011. -/

theorem refPage_present (s : State) : pagePresent s 0x011 = true := rfl

theorem plainWord_page {page o : Nat} (hp : page ≠ 6) (hlo : 0x40 ≤ o) (ho : o < 0x1000) : plainWord (pb page + o) := by
  rw [plainWord, pb_add_div _ ho, pb_add_mod _ ho]
  exact ⟨hp, hlo⟩

theorem evStatus_of_regs {s t : State} (h : t.regs = s.regs) (page b : Nat) : evStatus t page b = evStatus s page b :=
  evStatus_congr (rawRd_congr _ _ _ h) b

theorem refOk_of_word {s t : State} {f : FRef} (h : rawRd t (pgREF + f.off) = rawRd s (pgREF + f.off)) :
    refOk t f = refOk s f := by
  unfold refOk fgb
  rw [fg_of_word h]

/-- A bit of REF_STATUS reads what was written to it. -/
theorem refOk_setRefOk (s : State) {f : FRef} (b : Bool) (hf : f.lo + f.width ≤ 32) (hw : 0 < f.width) :
    refOk (setRefOk s f b) f = b := by
  unfold refOk fgb setRefOk
  rw [fg_fs_self _ _ _ _ hf]
  cases b with
  | false => simp
  | true => simp [Nat.mod_eq_of_lt (Nat.one_lt_two_pow hw.ne')]

theorem refOk_raise (s : State) (page b : Nat) {f : FRef} (hlo : 0x40 ≤ f.off) (ho : f.off < 0x1000) :
    refOk (raise s page b) f = refOk s f :=
  refOk_of_word (rawRd_raise _ _ _ _ (plainWord_page (by decide) hlo ho))

end Sys2Proof.Machine
end

section
/-! The 1PPS input (R131-R134): what an edge and the judgement of a pulse come to, case by case. -/

namespace Sys2Proof.Machine

open Sys2Proof

/-! Loss and acceptance. -/

/-- The 1PPS as a disqualification leaves it. -/
def ppsDown (p : PpsSt) : PpsSt := { p with lost := true, count := 0 }

theorem onlyRef_ppsLose (s : State) (ev : Nat) : OnlyRef s (ppsLose s ev) { s.ref with pps := ppsDown s.ref.pps } :=
  (onlyRef_setRef s _).events (notEvents_raise ..)

theorem evStatus_ppsLose (s : State) {ev : Nat} (hev : ev < 32) : evStatus (ppsLose s ev) 0x011 ev = true :=
  evStatus_raise _ _ _ (refPage_present _) hev (by decide)

theorem rawRd_ppsLose (s : State) (ev : Nat) {a : Nat} (ha : plainWord a) : rawRd (ppsLose s ev) a = rawRd s a :=
  rawRd_raise _ _ _ _ ha

/-- The edge is the last accepted one, and its TE and its second are shown (R133). -/
def edgeAccepted (s : State) (rise : Nat) : State :=
  let u := fs (setRef s { s.ref with pps := { s.ref.pps with accepted := some rise } }) pgREF F.REF_PPS_TE_TE
    (trunc 32 (ppsTE s rise))
  fs u pgREF F.REF_PPS_SEC_SEC_LO (ppsSecond u rise)

/-- Beyond what it shows, an acceptance may raise REF_DISAGREE. -/
theorem ppsAccept_cases (s : State) (rise : Nat) :
    ppsAccept s rise = raise (edgeAccepted s rise) 0x011 evREF_DISAGREE ∨ ppsAccept s rise = edgeAccepted s rise :=
  ite_eq_or_eq ..

theorem onlyRef_ppsAccept (s : State) (rise : Nat) :
    OnlyRef s (ppsAccept s rise) { s.ref with pps := { s.ref.pps with accepted := some rise } } := by
  have hshown : OnlyRef s (edgeAccepted s rise) { s.ref with pps := { s.ref.pps with accepted := some rise } } := rfl
  rcases ppsAccept_cases s rise with h | h <;> rw [h]
  · exact hshown.events (notEvents_raise ..)
  · exact hshown

/-- TE and second stand outside REF_STATUS. -/
theorem refOk_ppsAccept (s : State) (rise : Nat) {f : FRef} (hf : f.off = R.REF_REF_STATUS) :
    refOk (ppsAccept s rise) f = refOk s f := by
  have hshown : refOk (edgeAccepted s rise) f = refOk s f := by
    refine refOk_of_word ?_
    unfold edgeAccepted
    rw [hf, rawRd_fs_ne _ _ _ _ _ (by decide), rawRd_fs_ne _ _ _ _ _ (by decide)]
    rfl
  rcases ppsAccept_cases s rise with h | h <;> rw [h]
  · rw [refOk_raise _ _ _ (by rw [hf]; decide) (by rw [hf]; decide), hshown]
  · exact hshown

/-! The judgement of a pulse (R131-R133). -/

/-- The pulse has ended and is not yet judged. -/
def pulseEnded (s : State) : State := setRef s { s.ref with pps := { s.ref.pps with high := false } }

/-- The good pulses of an unqualified input come to `n`. -/
def pulseCounted (s : State) (n : Nat) : State :=
  setRef (pulseEnded s) { s.ref with pps := { s.ref.pps with high := false, count := n } }

/-- The pulse that completes QUAL_N has qualified the input. -/
def pulseQualifies (s : State) : State :=
  setRefOk (setRef s { s.ref with pps := { s.ref.pps with high := false, count := 0, lost := false } })
    F.REF_REF_STATUS_PPS_OK true

section
variable {s : State} {rise : Nat}

theorem ppsJudge_wide (hq : ppsQualified s = true) : ppsJudge s rise false = ppsLose (pulseEnded s) evPPS_WIDTH :=
  (if_pos hq).trans (if_pos Bool.false_ne_true)

theorem ppsJudge_accepts (hq : ppsQualified s = true) (hs : spacingOk s.ref.pps = true) :
    ppsJudge s rise true = ppsAccept (pulseEnded s) rise :=
  (if_pos hq).trans ((if_neg (by simp)).trans (if_pos hs))

theorem ppsJudge_ignores (hq : ppsQualified s = true) (hs : spacingOk s.ref.pps = false) :
    ppsJudge s rise true = pulseEnded s :=
  (if_pos hq).trans ((if_neg (by simp)).trans (if_neg (by simp [hs])))

theorem ppsJudge_restarts {wOk : Bool} (hq : ppsQualified s = false) (hg : (wOk && spacingOk s.ref.pps) = false) :
    ppsJudge s rise wOk = pulseCounted s 0 :=
  (if_neg (Bool.eq_false_iff.mp hq)).trans (if_neg (by simp [hg]))

theorem ppsJudge_counts {wOk : Bool} (hq : ppsQualified s = false) (hg : (wOk && spacingOk s.ref.pps) = true)
    (hn : s.ref.pps.count + 1 < max 1 (fg s pgREF F.REF_PPS_QUAL_QUAL_N)) :
    ppsJudge s rise wOk = pulseCounted s (s.ref.pps.count + 1) :=
  (if_neg (Bool.eq_false_iff.mp hq)).trans ((if_pos hg).trans (if_neg (Nat.not_le.mpr hn)))

theorem ppsJudge_qualifies {wOk : Bool} (hq : ppsQualified s = false) (hg : (wOk && spacingOk s.ref.pps) = true)
    (hn : max 1 (fg s pgREF F.REF_PPS_QUAL_QUAL_N) ≤ s.ref.pps.count + 1) :
    ppsJudge s rise wOk = ppsAccept (pulseQualifies s) rise :=
  (if_neg (Bool.eq_false_iff.mp hq)).trans ((if_pos hg).trans (if_pos hn))

end

/-- Whatever the judgement, the pulse is over and no input but the 1PPS changes. -/
theorem onlyRef_ppsJudge (s : State) (rise : Nat) (wOk : Bool) :
    ∃ p, OnlyRef s (ppsJudge s rise wOk) { s.ref with pps := p } ∧ p.high = false := by
  have hended : OnlyRef s (pulseEnded s) { s.ref with pps := { s.ref.pps with high := false } } := rfl
  cases hq : ppsQualified s with
  | true =>
    cases wOk with
    | false =>
      rw [ppsJudge_wide hq]
      exact ⟨_, hended.trans (onlyRef_ppsLose ..), rfl⟩
    | true =>
      cases hs : spacingOk s.ref.pps with
      | true =>
        rw [ppsJudge_accepts hq hs]
        exact ⟨_, hended.trans (onlyRef_ppsAccept ..), rfl⟩
      | false =>
        rw [ppsJudge_ignores hq hs]
        exact ⟨_, hended, rfl⟩
  | false =>
    cases hg : wOk && spacingOk s.ref.pps with
    | false =>
      rw [ppsJudge_restarts hq hg]
      exact ⟨_, rfl, rfl⟩
    | true =>
      rcases Nat.lt_or_ge (s.ref.pps.count + 1) (max 1 (fg s pgREF F.REF_PPS_QUAL_QUAL_N)) with hn | hn
      · rw [ppsJudge_counts hq hg hn]
        exact ⟨_, rfl, rfl⟩
      · rw [ppsJudge_qualifies hq hg hn]
        have hset : OnlyRef s (pulseQualifies s)
            { s.ref with pps := { s.ref.pps with high := false, count := 0, lost := false } } := rfl
        exact ⟨_, hset.trans (onlyRef_ppsAccept ..), rfl⟩

/-- A pulse of the wrong width loses a qualified input (R132). -/
theorem ppsJudge_loses {s : State} (rise : Nat) (hq : ppsQualified s = true) :
    let t := ppsJudge s rise false
    t.ref.pps.lost = true ∧ t.ref.pps.count = 0 ∧ evStatus t 0x011 evPPS_WIDTH = true := by
  rw [ppsJudge_wide hq]
  have href := (onlyRef_ppsLose (pulseEnded s) evPPS_WIDTH).ref
  exact ⟨by rw [href]; rfl, by rw [href]; rfl, evStatus_ppsLose _ (by decide)⟩

theorem ppsQualified_pulseQualifies (s : State) : ppsQualified (pulseQualifies s) = true := by
  have hok : refOk (pulseQualifies s) F.REF_REF_STATUS_PPS_OK = true := refOk_setRefOk _ _ (by decide) (by decide)
  rw [ppsQualified, hok]
  rfl

/-- An acceptance leaves the qualification as it is. -/
theorem ppsQualified_ppsAccept (s : State) (rise : Nat) : ppsQualified (ppsAccept s rise) = ppsQualified s := by
  unfold ppsQualified
  rw [refOk_ppsAccept _ _ rfl, (onlyRef_ppsAccept s rise).ref]

theorem accepted_ppsAccept (s : State) (rise : Nat) : (ppsAccept s rise).ref.pps.accepted = some rise := by
  rw [(onlyRef_ppsAccept s rise).ref]

theorem ppsFall_eq {s : State} {r : Nat} (t : Nat) (hr : s.ref.pps.rise = some r) (hh : s.ref.pps.high = true) :
    ppsFall s t = ppsJudge s r (widthOk s (t - r)) := by
  unfold ppsFall
  rw [hr]
  exact if_pos hh

theorem ppsTimeout_eq {s : State} {r : Nat} (hr : s.ref.pps.rise = some r) (hh : s.ref.pps.high = true) :
    ppsTimeout s = ppsJudge s r false := by
  unfold ppsTimeout
  rw [hr]
  exact if_pos hh

/-! Rising edges (R131, R132, R134). -/

/-- A qualified input rises at `t` less than 0.999 s after the accepted edge. -/
def tooFast (s : State) (t : Nat) : Bool :=
  ppsQualified s && (match s.ref.pps.accepted with
    | some a => decide (t - a < 999 * ms256)
    | none => false)

/-- The edge at `t` is stamped, and an edge that comes too early is an event. -/
def riseStamped (s : State) (t : Nat) : State :=
  let u := setRef s { s.ref with pps := { s.ref.pps with prev := s.ref.pps.rise, rise := some t, high := true } }
  if tooFast s t then ppsLose u evPPS_FAST else u

/-- The 1PPS after a stamped edge. -/
def ppsStamped (s : State) (t : Nat) : PpsSt :=
  let p := { s.ref.pps with prev := s.ref.pps.rise, rise := some t, high := true }
  if tooFast s t then ppsDown p else p

/-- No ToD window opened within 0.999 s before `t`. -/
def windowFree (w : TodSt) (t : Nat) : Bool :=
  match w.opened with
  | none => true
  | some o => decide (999 * ms256 ≤ t - o)

/-- The ToD window opens at `t`. -/
def windowOpened (s : State) (t : Nat) : State :=
  setRef s { s.ref with tod := { s.ref.tod with opened := some t, waiting := true } }

theorem ppsRise_eq (s : State) (t : Nat) : ppsRise s t =
    if windowFree (riseStamped s t).ref.tod t then windowOpened (riseStamped s t) t else riseStamped s t := by
  rfl

theorem onlyRef_riseStamped (s : State) (t : Nat) :
    OnlyRef s (riseStamped s t) { s.ref with pps := ppsStamped s t } := by
  unfold riseStamped ppsStamped
  dsimp only
  split
  · exact (onlyRef_setRef s _).trans (onlyRef_ppsLose ..)
  · exact onlyRef_setRef s _

/-- Where no window opened within 0.999 s, the edge opens one. -/
theorem ppsRise_opens {s : State} {t : Nat} (h : windowFree s.ref.tod t = true) :
    ppsRise s t = windowOpened (riseStamped s t) t := by
  rw [ppsRise_eq, (onlyRef_riseStamped s t).ref]
  exact if_pos h

theorem ppsRise_keeps {s : State} {t : Nat} (h : windowFree s.ref.tod t = false) : ppsRise s t = riseStamped s t := by
  rw [ppsRise_eq, (onlyRef_riseStamped s t).ref]
  exact if_neg (Bool.eq_false_iff.mp h)

/-- The ToD input after an edge at `t`. -/
def todStamped (w : TodSt) (t : Nat) : TodSt := if windowFree w t then { w with opened := some t, waiting := true } else w

theorem onlyRef_ppsRise (s : State) (t : Nat) :
    OnlyRef s (ppsRise s t) { s.ref with pps := ppsStamped s t, tod := todStamped s.ref.tod t } := by
  have hstamped := onlyRef_riseStamped s t
  unfold todStamped
  cases h : windowFree s.ref.tod t with
  | true =>
    have hopened : OnlyRef (riseStamped s t) (windowOpened (riseStamped s t) t) _ := onlyRef_setRef ..
    rw [hstamped.ref] at hopened
    rw [ppsRise_opens h]
    exact hstamped.trans hopened
  | false =>
    rw [ppsRise_keeps h]
    exact hstamped

theorem ppsRise_regs (s : State) (t : Nat) : (ppsRise s t).regs = (riseStamped s t).regs := by
  rw [ppsRise_eq]
  split <;> rfl

theorem evStatus_ppsRise {s : State} {t : Nat} (h : tooFast s t = true) :
    evStatus (ppsRise s t) 0x011 evPPS_FAST = true := by
  rw [evStatus_of_regs (ppsRise_regs s t), riseStamped, if_pos h]
  exact evStatus_ppsLose _ (by decide)

/-- Whether it comes too early or not, the edge is stamped and the edge before it kept. -/
theorem ppsStamped_fields (s : State) (t : Nat) :
    (ppsStamped s t).rise = some t ∧ (ppsStamped s t).prev = s.ref.pps.rise ∧ (ppsStamped s t).high = true ∧
    (ppsStamped s t).accepted = s.ref.pps.accepted := by
  unfold ppsStamped
  dsimp only
  split <;> exact ⟨rfl, rfl, rfl, rfl⟩

theorem ppsStamped_fast {s : State} {t : Nat} (h : tooFast s t = true) :
    (ppsStamped s t).lost = true ∧ (ppsStamped s t).count = 0 := by
  unfold ppsStamped
  dsimp only
  rw [if_pos h]
  exact ⟨rfl, rfl⟩

/-! The commands. -/

theorem ppsRisingEdge_stamps (s : State) (dt : Nat) : Runs (.ppsRisingEdge dt) s (fun t =>
    t.ref.pps.rise = some (ttNow s dt) ∧ t.ref.pps.prev = s.ref.pps.rise ∧ t.ref.pps.high = true ∧
    t.ref.pps.accepted = s.ref.pps.accepted ∧
    (∀ a, ppsQualified s = true → s.ref.pps.accepted = some a → ttNow s dt - a < 999 * ms256 →
      t.ref.pps.lost = true ∧ t.ref.pps.count = 0 ∧ evStatus t 0x011 evPPS_FAST = true) ∧
    ((∀ o, s.ref.tod.opened = some o → 999 * ms256 ≤ ttNow s dt - o) →
      t.ref.tod.opened = some (ttNow s dt) ∧ t.ref.tod.waiting = true) ∧
    (∀ o, s.ref.tod.opened = some o → ttNow s dt - o < 999 * ms256 → t.ref.tod = s.ref.tod) ∧
    t.ports = s.ports ∧ t.hbm = s.hbm) := by
  have hx := exec_ppsRisingEdge dt s
  generalize ttNow s dt = n at hx ⊢
  have hr := onlyRef_ppsRise s n
  obtain ⟨hrise, hprev, hhigh, hacc⟩ := ppsStamped_fields s n
  refine runs_still hx hr.still ?_
  rw [hr.ref]
  refine ⟨hrise, hprev, hhigh, hacc, fun a hq ha hlt => ?_, fun hfree => ?_, fun o ho hlt => ?_, hr.ports, hr.hbm⟩
  · have hfast : tooFast s n = true := by simp [tooFast, hq, ha, hlt]
    obtain ⟨hlost, hcount⟩ := ppsStamped_fast hfast
    exact ⟨hlost, hcount, evStatus_ppsRise hfast⟩
  · have hw : windowFree s.ref.tod n = true := by
      unfold windowFree
      split
      · rfl
      case h_2 o ho => exact decide_eq_true (hfree o ho)
    rw [todStamped, if_pos hw]
    exact ⟨rfl, rfl⟩
  · have hw : windowFree s.ref.tod n = false := by
      unfold windowFree
      rw [ho]
      exact decide_eq_false (Nat.not_le.mpr hlt)
    exact if_neg (Bool.eq_false_iff.mp hw)

theorem ppsFallingEdge_judges {s : State} {r : Nat} (dt : Nat) (hr : s.ref.pps.rise = some r)
    (hh : s.ref.pps.high = true) :
    let w := widthOk s (ttNow s dt - r)
    Runs (.ppsFallingEdge dt) s (fun t => t.ref.pps.high = false ∧ t.ref.tod = s.ref.tod ∧
      (ppsQualified s = true → w = false →
        t.ref.pps.lost = true ∧ t.ref.pps.count = 0 ∧ evStatus t 0x011 evPPS_WIDTH = true) ∧
      (ppsQualified s = true → w = true → spacingOk s.ref.pps = true → t.ref.pps.accepted = some r) ∧
      (ppsQualified s = false → (w && spacingOk s.ref.pps) = false → t.ref.pps.count = 0 ∧ t.regs = s.regs) ∧
      (ppsQualified s = false → (w && spacingOk s.ref.pps) = true →
        (s.ref.pps.count + 1 < max 1 (fg s pgREF F.REF_PPS_QUAL_QUAL_N) → t.ref.pps.count = s.ref.pps.count + 1) ∧
        (max 1 (fg s pgREF F.REF_PPS_QUAL_QUAL_N) ≤ s.ref.pps.count + 1 →
          ppsQualified t = true ∧ t.ref.pps.accepted = some r)) ∧
      t.ports = s.ports ∧ t.hbm = s.hbm) := by
  intro w
  have hx := exec_ppsFallingEdge dt s
  rw [ppsFall_eq _ hr hh] at hx
  change exec _ s = .next (kept s (ppsJudge s r w)) at hx
  clear_value w
  obtain ⟨p, hp, hhigh⟩ := onlyRef_ppsJudge s r w
  refine runs_still hx hp.still ⟨by rw [hp.ref, hhigh], by rw [hp.ref], ?_, ?_, ?_, ?_, hp.ports, hp.hbm⟩
  · rintro hq rfl
    exact ppsJudge_loses r hq
  · rintro hq rfl hs
    rw [ppsJudge_accepts hq hs, accepted_ppsAccept]
  · intro hq hg
    rw [ppsJudge_restarts hq hg]
    exact ⟨rfl, rfl⟩
  · refine fun hq hg => ⟨fun hn => ?_, fun hn => ?_⟩
    · rw [ppsJudge_counts hq hg hn]
      rfl
    · rw [ppsJudge_qualifies hq hg hn, ppsQualified_ppsAccept, ppsQualified_pulseQualifies]
      exact ⟨rfl, accepted_ppsAccept ..⟩

theorem ppsWidthTimeout_judges {s : State} {r : Nat} (hr : s.ref.pps.rise = some r) (hh : s.ref.pps.high = true) :
    Runs .ppsWidthTimeout s (fun t => t.ref.pps.high = false ∧ t.ref.pps.count = 0 ∧
      (ppsQualified s = true → t.ref.pps.lost = true ∧ evStatus t 0x011 evPPS_WIDTH = true) ∧ t.hbm = s.hbm) := by
  have hx := exec_ppsWidthTimeout s
  rw [ppsTimeout_eq hr hh] at hx
  obtain ⟨p, hp, hhigh⟩ := onlyRef_ppsJudge s r false
  refine runs_still hx hp.still ⟨by rw [hp.ref, hhigh], ?_, fun hq => ?_, hp.hbm⟩
  · cases hq : ppsQualified s with
    | true => exact (ppsJudge_loses r hq).2.1
    | false =>
      rw [ppsJudge_restarts hq rfl]
      rfl
  · obtain ⟨hlost, -, hev⟩ := ppsJudge_loses r hq
    exact ⟨hlost, hev⟩

theorem ppsMissing_loses {s : State} (hq : ppsQualified s = true) : Runs .ppsMissing s (fun t =>
    t.ref.pps.lost = true ∧ t.ref.pps.count = 0 ∧ evStatus t 0x011 evPPS_MISSING = true ∧
    (∀ x, plainWord x → rawRd t x = rawRd s x) ∧ t.hbm = s.hbm) := by
  have he : Sys2Proof.Machine.ppsMissing s = ppsLose s evPPS_MISSING := if_pos hq
  have hx := exec_ppsMissing s
  rw [he] at hx
  have hr := onlyRef_ppsLose s evPPS_MISSING
  refine runs_still hx hr.still ⟨?_, ?_, evStatus_ppsLose _ (by decide), fun _ ha => rawRd_ppsLose _ _ ha, hr.hbm⟩ <;>
    rw [hr.ref] <;> rfl

/-- Settles O27: an edge is stamped and opens its window, and the judgement of a pulse is one operation in each case. -/
theorem ppsPulsesAreJudged : Obligations.PpsPulsesAreJudged := fun s =>
  ⟨ppsRisingEdge_stamps s, fun dt _ => ppsFallingEdge_judges dt, fun _ => ppsWidthTimeout_judges, ppsMissing_loses⟩

end Sys2Proof.Machine
end

section
/-! The ToD and frequency inputs (R135, R136): what a message, a window's end, a gate and a loss of edges come to. -/

namespace Sys2Proof.Machine

open Sys2Proof

theorem trunc_lt (w : Nat) (v : Int) : trunc w v < 2 ^ w := by
  have hpos : (0 : Int) < (2 ^ w : Nat) := Int.natCast_pos.mpr (Nat.two_pow_pos w)
  exact (Int.toNat_lt (Int.emod_nonneg v hpos.ne')).mpr (Int.emod_lt_of_pos v hpos)

theorem beAt_one_lt (m : List Byte) (o : Nat) : beAt m o 1 < 256 := by
  unfold beAt slice
  cases m.drop o with
  | nil => decide
  | cons b bs => simpa [beNat] using b.isLt

/-! Time of day (R135). -/

/-- The ToD input as a bad or missing message leaves it. -/
def todDown (w : TodSt) : TodSt := { w with waiting := false, prev := none, good := 0 }

/-- TOD_OK is cleared, and the window closed. -/
def todCleared (s : State) : State :=
  setRefOk (setRef s { s.ref with tod := todDown s.ref.tod }) F.REF_REF_STATUS_TOD_OK false

theorem todFail_eq (s : State) : todFail s =
    if refOk s F.REF_REF_STATUS_TOD_OK then raise (todCleared s) 0x011 evTOD_BAD else todCleared s := rfl

theorem onlyRef_todFail (s : State) : OnlyRef s (todFail s) { s.ref with tod := todDown s.ref.tod } := by
  have hcleared : OnlyRef s (todCleared s) { s.ref with tod := todDown s.ref.tod } := rfl
  rw [todFail_eq]
  split
  · exact hcleared.events (notEvents_raise ..)
  · exact hcleared

theorem refOk_todFail (s : State) : refOk (todFail s) F.REF_REF_STATUS_TOD_OK = false := by
  have hcleared : refOk (todCleared s) F.REF_REF_STATUS_TOD_OK = false := refOk_setRefOk _ _ (by decide) (by decide)
  rw [todFail_eq]
  split
  · rw [refOk_raise _ _ _ (by decide) (by decide), hcleared]
  · exact hcleared

theorem evStatus_todFail {s : State} (h : refOk s F.REF_REF_STATUS_TOD_OK = true) :
    evStatus (todFail s) 0x011 evTOD_BAD = true := by
  rw [todFail_eq, if_pos h]
  exact evStatus_raise _ _ _ (refPage_present _) (by decide) (by decide)

/-- A message that is good in the window before which `prev` was the last second (R135). -/
def TodGood (prev : Option Nat) (b e : Nat) (m : List Byte) : Prop :=
  m.length = 12 ∧ beAt m 0 2 = 0xA55A ∧ crc16 (m.take 10) = beAt m 10 2 ∧ beAt m 9 1 / 4 % 2 = 1 ∧
    e ≤ 500 * ms256 ∧ b ≤ e ∧ ∀ p, prev = some p → beAt m 2 6 = p + 1

/-- The model's test of a message. -/
def todTest (prev : Option Nat) (b e : Nat) (m : List Byte) : Bool :=
  m.length = 12 && beAt m 0 2 == 0xA55A && crc16 (m.take 10) == beAt m 10 2 &&
    (beAt m 9 1 / 4) % 2 == 1 && decide (e ≤ 500 * ms256) && decide (b ≤ e) &&
    (match prev with
     | some p => beAt m 2 6 == p + 1
     | none => true)

theorem todTest_iff (prev : Option Nat) (b e : Nat) (m : List Byte) : todTest prev b e m = true ↔ TodGood prev b e m := by
  unfold todTest TodGood
  cases prev <;> simp [and_assoc]

/-- The second of a good message is kept with the edge `o` of its window. -/
def todKept (w : TodSt) (o : Nat) (m : List Byte) : TodSt :=
  { w with waiting := false, prev := some (beAt m 2 6), last := some (beAt m 2 6, o), good := w.good + 1 }

/-- A good message shows TAI-UTC, its leap flags and VALID. -/
def utcShown (s : State) (m : List Byte) : State :=
  fs (fs (fs (fs s pgTT F.TT_UTC_OFFSET_TAI_UTC (beAt m 8 1)) pgTT F.TT_UTC_OFFSET_LEAP61 (beAt m 9 1 % 2))
    pgTT F.TT_UTC_OFFSET_LEAP59 (beAt m 9 1 / 2 % 2)) pgTT F.TT_UTC_OFFSET_VALID 1

theorem fg_utcShown (s : State) (m : List Byte) : fg (utcShown s m) pgTT F.TT_UTC_OFFSET_TAI_UTC = beAt m 8 1 ∧
    fg (utcShown s m) pgTT F.TT_UTC_OFFSET_VALID = 1 := by
  unfold utcShown
  refine ⟨?_, fg_fs_self _ _ _ _ (by decide)⟩
  rw [fg_fs_field _ _ F.TT_UTC_OFFSET_VALID _ _ F.TT_UTC_OFFSET_TAI_UTC rfl (by decide) (by decide),
    fg_fs_field _ _ F.TT_UTC_OFFSET_LEAP59 _ _ F.TT_UTC_OFFSET_TAI_UTC rfl (by decide) (by decide),
    fg_fs_field _ _ F.TT_UTC_OFFSET_LEAP61 _ _ F.TT_UTC_OFFSET_TAI_UTC rfl (by decide) (by decide),
    fg_fs_self _ _ _ _ (by decide)]
  exact Nat.mod_eq_of_lt (beAt_one_lt m 8)

theorem notEvents_utcShown (s : State) (m : List Byte) : notEvents (utcShown s m) = notEvents s := by
  rw [utcShown, notEvents_fs, notEvents_fs, notEvents_fs, notEvents_fs]

/-- A good message is kept and shown. -/
def todShown (s : State) (o : Nat) (m : List Byte) : State :=
  utcShown (setRef s { s.ref with tod := todKept s.ref.tod o m }) m

/-- The state that a good message leaves: the third in a row sets TOD_OK. -/
def todTaken (s : State) (o : Nat) (m : List Byte) : State :=
  if 3 ≤ s.ref.tod.good + 1 then setRefOk (todShown s o m) F.REF_REF_STATUS_TOD_OK true else todShown s o m

section
variable {s : State} {b e o : Nat} {m : List Byte}

/-- A message that begins in its window is judged by the model's test. -/
theorem todMessageOp_eq (ho : s.ref.tod.opened = some o) (hw : s.ref.tod.waiting = true) (hlo : 10 * ms256 ≤ b)
    (hhi : b ≤ 500 * ms256) : todMessageOp s b e m =
      if ¬ todTest s.ref.tod.prev b e m = true then todFail s else todTaken s o m := by
  unfold todMessageOp
  dsimp only
  split
  case h_1 hnone => cases hnone.symm.trans ho
  case h_2 o' ho' =>
    obtain rfl := Option.some.inj (ho'.symm.trans ho)
    rw [if_neg (by simp only [hw, not_true_eq_false, false_or]; omega)]
    rfl

theorem todMessageOp_good (ho : s.ref.tod.opened = some o) (hw : s.ref.tod.waiting = true) (hlo : 10 * ms256 ≤ b)
    (hhi : b ≤ 500 * ms256) (h : TodGood s.ref.tod.prev b e m) : todMessageOp s b e m = todTaken s o m := by
  rw [todMessageOp_eq ho hw hlo hhi]
  exact if_neg (not_not_intro ((todTest_iff ..).mpr h))

theorem todMessageOp_bad (ho : s.ref.tod.opened = some o) (hw : s.ref.tod.waiting = true) (hlo : 10 * ms256 ≤ b)
    (hhi : b ≤ 500 * ms256) (h : ¬ TodGood s.ref.tod.prev b e m) : todMessageOp s b e m = todFail s := by
  rw [todMessageOp_eq ho hw hlo hhi]
  exact if_pos (mt (todTest_iff ..).mp h)

theorem onlyRef_todTaken : OnlyRef s (todTaken s o m) { s.ref with tod := todKept s.ref.tod o m } := by
  have hshown : OnlyRef s (todShown s o m) { s.ref with tod := todKept s.ref.tod o m } :=
    (onlyRef_setRef s _).events (notEvents_utcShown ..)
  unfold todTaken
  split
  · exact hshown.events (notEvents_setRefOk ..)
  · exact hshown

/-- TOD_OK stands on another page than UTC_OFFSET. -/
theorem fg_todTaken (f : FRef) (hf : f.off = R.TT_UTC_OFFSET) : fg (todTaken s o m) pgTT f = fg (todShown s o m) pgTT f := by
  unfold todTaken
  split
  · exact fg_fs_addr _ _ _ _ _ _ (by rw [hf]; decide)
  · rfl

theorem refOk_todTaken (h : 2 ≤ s.ref.tod.good) : refOk (todTaken s o m) F.REF_REF_STATUS_TOD_OK = true := by
  rw [todTaken, if_pos (Nat.succ_le_succ h)]
  exact refOk_setRefOk _ _ (by decide) (by decide)

theorem todMessage_judges (ho : s.ref.tod.opened = some o) (hw : s.ref.tod.waiting = true) (hlo : 10 * ms256 ≤ b)
    (hhi : b ≤ 500 * ms256) : Runs (.todMessage b e m) s (fun t =>
      t.ref.tod.waiting = false ∧ t.hbm = s.hbm ∧ t.tm = s.tm ∧
      (TodGood s.ref.tod.prev b e m → t.ref.tod.prev = some (beAt m 2 6) ∧ t.ref.tod.last = some (beAt m 2 6, o) ∧
        t.ref.tod.good = s.ref.tod.good + 1 ∧ fg t pgTT F.TT_UTC_OFFSET_TAI_UTC = beAt m 8 1 ∧
        fg t pgTT F.TT_UTC_OFFSET_VALID = 1 ∧ (2 ≤ s.ref.tod.good → refOk t F.REF_REF_STATUS_TOD_OK = true)) ∧
      (¬ TodGood s.ref.tod.prev b e m →
        t.ref.tod.prev = none ∧ t.ref.tod.good = 0 ∧ refOk t F.REF_REF_STATUS_TOD_OK = false)) := by
  have hx := exec_todMessage b e m s
  by_cases hgood : TodGood s.ref.tod.prev b e m
  case neg =>
    rw [todMessageOp_bad ho hw hlo hhi hgood] at hx
    have hr := onlyRef_todFail s
    refine runs_still hx hr.still ⟨?_, hr.hbm, hr.tm, fun h => absurd h hgood, fun _ => ?_⟩ <;> rw [hr.ref]
    · rfl
    · exact ⟨rfl, rfl, refOk_todFail s⟩
  case pos =>
    rw [todMessageOp_good ho hw hlo hhi hgood] at hx
    have hr : OnlyRef s (todTaken s o m) _ := onlyRef_todTaken
    obtain ⟨hutc, hvalid⟩ := fg_utcShown (setRef s { s.ref with tod := todKept s.ref.tod o m }) m
    refine runs_still hx hr.still ⟨?_, hr.hbm, hr.tm, fun _ => ?_, fun h => absurd hgood h⟩ <;> rw [hr.ref]
    · rfl
    · exact ⟨rfl, rfl, rfl, (fg_todTaken _ rfl).trans hutc, (fg_todTaken _ rfl).trans hvalid, refOk_todTaken⟩

end

theorem todWindowClose_fails {s : State} (hw : s.ref.tod.waiting = true) : Runs .todWindowClose s (fun t =>
    t.ref.tod.waiting = false ∧ t.ref.tod.good = 0 ∧ refOk t F.REF_REF_STATUS_TOD_OK = false ∧
    (refOk s F.REF_REF_STATUS_TOD_OK = true → evStatus t 0x011 evTOD_BAD = true) ∧ t.hbm = s.hbm) := by
  have he : todClose s = todFail s := if_pos hw
  have hx := exec_todWindowClose s
  rw [he] at hx
  have hr := onlyRef_todFail s
  exact runs_still hx hr.still ⟨by rw [hr.ref]; rfl, by rw [hr.ref]; rfl, refOk_todFail s, evStatus_todFail, hr.hbm⟩

/-! Frequency inputs (R136). -/

/-- From `s` to `t` a frequency input came to be `f`; beside it only registers, events and the mode changed. -/
def OnlyFreq (s t : State) (synce : Bool) (f : FreqSt) : Prop := notEvents t = notEvents (setFreq s synce f)

section
variable {s t u : State} {synce : Bool} {f g : FreqSt}

theorem OnlyFreq.input (h : OnlyFreq s t synce f) : getFreq t synce = f := by
  unfold getFreq
  rw [notEvents_ref _ _ h]
  cases synce <;> rfl

theorem OnlyFreq.other (h : OnlyFreq s t synce f) : getFreq t (!synce) = getFreq s (!synce) := by
  unfold getFreq
  rw [notEvents_ref _ _ h]
  cases synce <;> rfl

theorem OnlyFreq.still (h : OnlyFreq s t synce f) : still t = still s := (still_of_notEvents h :)

theorem OnlyFreq.events (h : OnlyFreq s t synce f) (hu : notEvents u = notEvents t) : OnlyFreq s u synce f := hu.trans h

theorem setFreq_setFreq (s : State) (synce : Bool) (f g : FreqSt) :
    setFreq (setFreq s synce f) synce g = setFreq s synce g := by
  cases synce <;> rfl

theorem OnlyFreq.trans (h : OnlyFreq s t synce f) (hu : OnlyFreq t u synce g) : OnlyFreq s u synce g := by
  have hset : notEvents (setFreq t synce g) = notEvents (setFreq (setFreq s synce f) synce g) :=
    congrArg (setFreq · synce g) h
  rw [setFreq_setFreq] at hset
  exact Eq.trans hu hset

end

theorem freqOkBit_off (synce : Bool) : (freqOkBit synce).off = R.REF_REF_STATUS := by cases synce <;> rfl

theorem refOk_setFreqOk (s : State) (synce b : Bool) : refOk (setRefOk s (freqOkBit synce) b) (freqOkBit synce) = b :=
  refOk_setRefOk _ _ (by cases synce <;> decide) (by cases synce <;> decide)

/-- The event of a frequency input's loss. -/
def freqEvent (synce : Bool) : Nat := if synce then evSYNCE_REJECT else evF10M_REJECT

/-- The input is disqualified, its event not yet raised. -/
def freqDown (s : State) (synce : Bool) : State := setRefOk (setFreq s synce {}) (freqOkBit synce) false

theorem freqLose_eq (s : State) (synce : Bool) : freqLose s synce =
    if refOk s (freqOkBit synce) then raise (freqDown s synce) 0x011 (freqEvent synce) else freqDown s synce := rfl

theorem onlyFreq_freqLose (s : State) (synce : Bool) : OnlyFreq s (freqLose s synce) synce {} := by
  have hdown : OnlyFreq s (freqDown s synce) synce {} := rfl
  rw [freqLose_eq]
  split
  · exact hdown.events (notEvents_raise ..)
  · exact hdown

theorem refOk_freqLose (s : State) (synce : Bool) : refOk (freqLose s synce) (freqOkBit synce) = false := by
  have hdown : refOk (freqDown s synce) (freqOkBit synce) = false := refOk_setFreqOk ..
  have hoff := freqOkBit_off synce
  rw [freqLose_eq]
  split
  · rw [refOk_raise _ _ _ (by rw [hoff]; decide) (by rw [hoff]; decide), hdown]
  · exact hdown

theorem evStatus_freqLose {s : State} {synce : Bool} (h : refOk s (freqOkBit synce) = true) :
    evStatus (freqLose s synce) 0x011 (freqEvent synce) = true := by
  rw [freqLose_eq, if_pos h]
  exact evStatus_raise _ _ _ (refPage_present _) (by cases synce <;> decide) (by decide)

/-- A loss writes REF_STATUS and the words of events. -/
theorem rawRd_freqLose (s : State) (synce : Bool) {a : Nat} (ha : plainWord a) (hne : a ≠ pgREF + R.REF_REF_STATUS) :
    rawRd (freqLose s synce) a = rawRd s a := by
  have hdown : rawRd (freqDown s synce) a = rawRd s a := by
    rw [freqDown, setRefOk, rawRd_fs_ne _ _ _ _ _ (by rw [freqOkBit_off]; exact hne)]
    rfl
  rw [freqLose_eq]
  split
  · rw [rawRd_raise _ _ _ _ ha, hdown]
  · exact hdown

/-- The field that shows the offset of an input. -/
def devField (synce : Bool) : FRef := if synce then F.REF_SYNCE_DEV_DEV else F.REF_F10M_DEV_DEV

/-- A gate's offset is shown. -/
def devShown (s : State) (synce : Bool) (dev : Int) : State := fs s pgREF (devField synce) (trunc 32 dev)

theorem fg_devShown (s : State) (synce : Bool) (dev : Int) :
    fg (devShown s synce dev) pgREF (devField synce) = trunc 32 dev := by
  cases synce <;> exact (fg_fs_self _ _ _ _ (by decide)).trans (Nat.mod_eq_of_lt (trunc_lt 32 dev))

/-- After a gate of one input its runs are `f`. -/
def gated (s : State) (synce : Bool) (dev : Int) (f : FreqSt) : State := setFreq (devShown s synce dev) synce f

theorem onlyFreq_gated (s : State) (synce : Bool) (dev : Int) (f : FreqSt) : OnlyFreq s (gated s synce dev f) synce f := by
  cases synce <;> rfl

/-- The offset beyond the limit that a gate allows (R136). -/
def GateBad (s : State) (dev : Int) : Prop := fg s pgREF F.REF_F10M_LIMIT_LIMIT * 1024 < dev.natAbs

section
variable {s : State} {dev : Int}

/-- Showing the offset leaves the limit as it is. -/
theorem gateBad_devShown (synce : Bool) : GateBad (devShown s synce dev) dev ↔ GateBad s dev := by
  unfold GateBad
  rw [devShown, fg_fs_addr _ _ _ _ _ _ (by cases synce <;> decide)]

theorem freqGate_bad (synce : Bool) (h : GateBad s dev) : freqGate s synce dev =
    if 2 ≤ (getFreq s synce).bad + 1 then freqLose (gated s synce dev { bad := (getFreq s synce).bad + 1, good := 0 }) synce
    else gated s synce dev { bad := (getFreq s synce).bad + 1, good := 0 } :=
  if_pos ((gateBad_devShown synce).mpr h)

theorem freqGate_good (synce : Bool) (h : ¬ GateBad s dev) : freqGate s synce dev =
    if 100 ≤ (getFreq s synce).good + 1 then
      setRefOk (gated s synce dev { bad := 0, good := (getFreq s synce).good + 1 }) (freqOkBit synce) true
    else gated s synce dev { bad := 0, good := (getFreq s synce).good + 1 } :=
  if_neg (fun hb => h ((gateBad_devShown synce).mp hb))

/-- Whatever the gate, one input changes, and the offset stays shown. -/
theorem freqGate_shows (s : State) (synce : Bool) (dev : Int) :
    (∃ f, OnlyFreq s (freqGate s synce dev) synce f) ∧
      fg (freqGate s synce dev) pgREF (devField synce) = trunc 32 dev := by
  have hne : pgREF + (devField synce).off ≠ pgREF + R.REF_REF_STATUS := by cases synce <;> decide
  have hplain : plainWord (pgREF + (devField synce).off) := by cases synce <;> decide
  have hdev (f : FreqSt) : fg (gated s synce dev f) pgREF (devField synce) = trunc 32 dev := fg_devShown s synce dev
  by_cases h : GateBad s dev
  · rw [freqGate_bad synce h]
    split
    · exact ⟨⟨_, (onlyFreq_gated ..).trans (onlyFreq_freqLose ..)⟩, (fg_of_word (rawRd_freqLose _ _ hplain hne)).trans (hdev _)⟩
    · exact ⟨⟨_, onlyFreq_gated ..⟩, hdev _⟩
  · rw [freqGate_good synce h]
    split
    · refine ⟨⟨_, (onlyFreq_gated s synce dev _).events (notEvents_setRefOk ..)⟩, ?_⟩
      rw [setRefOk, fg_fs_addr _ _ _ _ _ _ (by rw [freqOkBit_off]; exact hne), hdev]
    · exact ⟨⟨_, onlyFreq_gated ..⟩, hdev _⟩

end

theorem freqGateEnd_judges (s : State) (synce : Bool) (dev : Int) : Runs (.freqGateEnd synce dev) s (fun t =>
    fg t pgREF (devField synce) = trunc 32 dev ∧ getFreq t (!synce) = getFreq s (!synce) ∧ t.hbm = s.hbm ∧
    (GateBad s dev → (getFreq s synce).bad = 0 → getFreq t synce = { bad := 1, good := 0 }) ∧
    (GateBad s dev → 1 ≤ (getFreq s synce).bad → getFreq t synce = {} ∧ refOk t (freqOkBit synce) = false) ∧
    (¬ GateBad s dev → getFreq t synce = { bad := 0, good := (getFreq s synce).good + 1 } ∧
      (99 ≤ (getFreq s synce).good → refOk t (freqOkBit synce) = true))) := by
  obtain ⟨⟨f, hf⟩, hdev⟩ := freqGate_shows s synce dev
  refine runs_still (exec_freqGateEnd synce dev s) hf.still
    ⟨hdev, hf.other, hbm_of_still hf.still, fun hb h0 => ?_, fun hb h1 => ?_, fun hg => ⟨?_, fun h99 => ?_⟩⟩
  · rw [freqGate_bad synce hb, h0, if_neg (by decide)]
    exact (onlyFreq_gated ..).input
  · rw [freqGate_bad synce hb, if_pos (Nat.succ_le_succ h1)]
    exact ⟨(onlyFreq_freqLose ..).input, refOk_freqLose ..⟩
  · have hgated := onlyFreq_gated s synce dev { bad := 0, good := (getFreq s synce).good + 1 }
    rw [freqGate_good synce hg]
    split
    · exact (hgated.events (notEvents_setRefOk ..)).input
    · exact hgated.input
  · rw [freqGate_good synce hg, if_pos (Nat.succ_le_succ h99)]
    exact refOk_setFreqOk ..

theorem freqEdgeLoss_loses (s : State) (synce : Bool) : Runs (.freqEdgeLoss synce) s (fun t =>
    refOk t (freqOkBit synce) = false ∧ getFreq t synce = {} ∧ getFreq t (!synce) = getFreq s (!synce) ∧
    (refOk s (freqOkBit synce) = true → evStatus t 0x011 (freqEvent synce) = true) ∧ t.hbm = s.hbm) := by
  have hf := onlyFreq_freqLose s synce
  exact runs_still (exec_freqEdgeLoss synce s) hf.still
    ⟨refOk_freqLose s synce, hf.input, hf.other, evStatus_freqLose, hbm_of_still hf.still⟩

/-- Settles O28: a message is taken or fails the input, a gate is good or bad, and a loss is one operation of each kind
of input. -/
theorem todAndFrequencyInputs : Obligations.TodAndFrequencyInputs := fun s =>
  ⟨fun _ _ _ _ => todMessage_judges, todWindowClose_fails, freqGateEnd_judges s, freqEdgeLoss_loses s⟩

end Sys2Proof.Machine
end

section
/-! PTP and the time error (R137-R141, R125): what a message, its sending, a receipt timer and a measurement leave. -/

namespace Sys2Proof.Machine

open Sys2Proof

/-! The words of the PTP page. -/

theorem ptpB_add (b : Bool) (o : Nat) : ptpB b + o = pb 0x012 + ((if b then 0x80 else 0x40) + o) := Nat.add_assoc ..

theorem ptpB_page (b : Bool) {o : Nat} (ho : o < 0x40) : (ptpB b + o) / 0x1000 = 0x012 := by
  rw [ptpB_add, pb_add_div _ (by split <;> omega)]

theorem plainWord_ptp (b : Bool) {o : Nat} (ho : o < 0x40) : plainWord (ptpB b + o) := by
  rw [ptpB_add]
  exact plainWord_page (by decide) (by split <;> omega) (by split <;> omega)

/-- The block of a PTP port lies on one page, and a word of another page is none of its words. -/
theorem ptpB_ne (b : Bool) {page o k : Nat} (hpage : page ≠ 0x012) (ho : o < 0x40) (hk : k < 0x1000) :
    ptpB b + o ≠ pb page + k := fun h => hpage (by rw [← pb_add_div page hk, ← h, ptpB_page b ho])

/-- A PTP port's counter of messages counts while its page is not frozen. -/
theorem rd64_bump_ptp {s : State} {b : Bool} {o : Nat} (ho : o + 4 < 0x40) (hf : frozen s 0x012 = false) :
    rd64 (bump s (ptpB b + o)) (ptpB b + o) = (rd64 s (ptpB b + o) + 1) % 2 ^ 64 :=
  rd64_bump _ _ (by rw [ptpB_page b (by omega)]; exact hf) (plainWord_ptp b (by omega))
    (by rw [Nat.add_assoc]; exact plainWord_ptp b ho)

/-! The state of a PTP port. -/

theorem getPtp_setPtp (s : State) (b : Bool) (p : PtpSt) : getPtp (setPtp s b p) b = p := by cases b <;> rfl

theorem getPtp_setPtp_other (s : State) (b : Bool) (p : PtpSt) : getPtp (setPtp s b p) (!b) = getPtp s (!b) := by
  cases b <;> rfl

theorem setPtp_getPtp (s : State) (b : Bool) : setPtp s b (getPtp s b) = s := by cases b <;> rfl

theorem setPtp_setPtp (s : State) (b : Bool) (p q : PtpSt) : setPtp (setPtp s b p) b q = setPtp s b q := by
  cases b <;> rfl

theorem getPtp_of_notEvents {s t : State} (h : notEvents t = notEvents s) (b : Bool) : getPtp t b = getPtp s b := by
  unfold getPtp
  rw [notEvents_ref _ _ h]

/-- From `s` to `t` PTP port `b` came to be `p`; beside it only registers, events and the mode changed, and of its own
registers not the counters. -/
structure OnlyPtp (s t : State) (b : Bool) (p : PtpSt) : Prop where
  rest : notEvents t = notEvents (setPtp s b p)
  counters : ∀ o, 0x20 ≤ o → o < 0x40 → rawRd t (ptpB b + o) = rawRd s (ptpB b + o)

theorem onlyPtp_setPtp (s : State) (b : Bool) (p : PtpSt) : OnlyPtp s (setPtp s b p) b p := ⟨rfl, fun _ _ _ => rfl⟩

theorem onlyPtp_refl (s : State) (b : Bool) : OnlyPtp s s b (getPtp s b) := ⟨by rw [setPtp_getPtp], fun _ _ _ => rfl⟩

section
variable {s t u : State} {b : Bool} {p q : PtpSt}

theorem OnlyPtp.port (h : OnlyPtp s t b p) : getPtp t b = p := (getPtp_of_notEvents h.rest b).trans (getPtp_setPtp s b p)

theorem OnlyPtp.other (h : OnlyPtp s t b p) : getPtp t (!b) = getPtp s (!b) :=
  (getPtp_of_notEvents h.rest _).trans (getPtp_setPtp_other s b p)

theorem OnlyPtp.still (h : OnlyPtp s t b p) : still t = still s := (still_of_notEvents h.rest :)
theorem OnlyPtp.out (h : OnlyPtp s t b p) : t.out = s.out := (notEvents_out _ _ h.rest :)
theorem OnlyPtp.frames (h : OnlyPtp s t b p) : t.frames = s.frames := (notEvents_frames _ _ h.rest :)

theorem OnlyPtp.trans (h : OnlyPtp s t b p) (hu : OnlyPtp t u b q) : OnlyPtp s u b q := by
  have hset : notEvents (setPtp t b q) = notEvents (setPtp (setPtp s b p) b q) := by
    have hboth := congrArg (setPtp · b q) h.rest
    cases b <;> exact hboth
  rw [setPtp_setPtp] at hset
  exact ⟨hu.rest.trans hset, fun o hlo ho => (hu.counters o hlo ho).trans (h.counters o hlo ho)⟩

/-- The port's counters keep their values. -/
theorem OnlyPtp.rd64 (h : OnlyPtp s t b p) {o : Nat} (hlo : 0x20 ≤ o) (ho : o + 4 < 0x40) :
    rd64 t (ptpB b + o) = rd64 s (ptpB b + o) :=
  rd64_of_words (h.counters o hlo (by omega)) (by rw [Nat.add_assoc]; exact h.counters _ (by omega) ho)

/-- A field below the counters of the port's block. -/
theorem OnlyPtp.show (h : OnlyPtp s t b p) (f : FRef) (x : Nat) (hf : f.off < 0x20) : OnlyPtp s (fs t (ptpB b) f x) b p :=
  ⟨h.rest, fun o hlo ho => (rawRd_fs_ne _ _ _ _ _ (by omega)).trans (h.counters o hlo ho)⟩

/-- A field of another page. -/
theorem OnlyPtp.page (h : OnlyPtp s t b p) (page : Nat) (f : FRef) (x : Nat) (hpage : page ≠ 0x012)
    (hf : f.off < 0x1000) : OnlyPtp s (fs t (pb page) f x) b p :=
  ⟨h.rest, fun o hlo ho => (rawRd_fs_ne _ _ _ _ _ (ptpB_ne b hpage ho hf)).trans (h.counters o hlo ho)⟩

theorem OnlyPtp.ite (h : OnlyPtp s t b p) (hu : OnlyPtp s u b p) (c : Prop) [Decidable c] :
    OnlyPtp s (if c then t else u) b p := by
  split
  · exact h
  · exact hu

end

/-! Qualification (R140). -/

theorem ptpOkBit_off (b : Bool) : (ptpOkBit b).off = R.REF_REF_STATUS := by cases b <;> rfl

/-- PTP_x_OK shows the qualification. -/
def ptpShown (s : State) (b : Bool) : State := setRefOk s (ptpOkBit b) (ptpQualified s b)

theorem ptpEval_cases (s : State) (b : Bool) :
    ptpEval s b = raise (ptpShown s b) 0x011 (if b then 7 else 6) ∨ ptpEval s b = ptpShown s b := ite_eq_or_eq ..

theorem notEvents_ptpEval (s : State) (b : Bool) : notEvents (ptpEval s b) = notEvents s := by
  have hshown : notEvents (ptpShown s b) = notEvents s := notEvents_setRefOk ..
  rcases ptpEval_cases s b with h | h <;> rw [h]
  · rw [notEvents_raise, hshown]
  · exact hshown

/-- Showing a qualification writes REF_STATUS and the words of events. -/
theorem rawRd_ptpEval (s : State) (b : Bool) {a : Nat} (ha : plainWord a) (hne : a ≠ pgREF + R.REF_REF_STATUS) :
    rawRd (ptpEval s b) a = rawRd s a := by
  have hshown : rawRd (ptpShown s b) a = rawRd s a := rawRd_fs_ne _ _ _ _ _ (by rw [ptpOkBit_off]; exact hne)
  rcases ptpEval_cases s b with h | h <;> rw [h]
  · rw [rawRd_raise _ _ _ _ ha, hshown]
  · exact hshown

theorem refOk_ptpEval (s : State) (b : Bool) : refOk (ptpEval s b) (ptpOkBit b) = ptpQualified s b := by
  have hshown : refOk (ptpShown s b) (ptpOkBit b) = ptpQualified s b :=
    refOk_setRefOk _ _ (by cases b <;> decide) (by cases b <;> decide)
  have hoff := ptpOkBit_off b
  rcases ptpEval_cases s b with h | h <;> rw [h]
  · rw [refOk_raise _ _ _ (by rw [hoff]; decide) (by rw [hoff]; decide), hshown]
  · exact hshown

theorem OnlyPtp.eval {s t : State} {b : Bool} {p : PtpSt} (h : OnlyPtp s t b p) : OnlyPtp s (ptpEval t b) b p :=
  ⟨(notEvents_ptpEval ..).trans h.rest,
    fun o hlo ho => (rawRd_ptpEval _ _ (plainWord_ptp b ho) (ptpB_ne b (by decide) ho (by decide))).trans
      (h.counters o hlo ho)⟩

/-! Messages (R137-R140). -/

/-- The offset is the only thing of the port that its computation sets. -/
theorem onlyPtp_ptpOffset (s : State) (b : Bool) (p : PtpSt) :
    ∃ x, OnlyPtp s (ptpOffset s b p) b { p with offset := x } := by
  unfold ptpOffset
  split
  case h_1 =>
    dsimp only
    split
    · exact ⟨_, ((onlyPtp_setPtp ..).show _ _ (by decide)).show _ _ (by decide)⟩
    · exact ⟨_, (onlyPtp_setPtp ..).show _ _ (by decide)⟩
  case h_2 => exact ⟨p.offset, onlyPtp_setPtp ..⟩

/-- The port when a Sync of its time-transmitter has come at `t2` (R138). -/
def syncTaken (p : PtpSt) (m : List Byte) (t2 : Nat) : PtpSt :=
  { p with
    syncSeq := beAt m 30 2, t2 := t2, corr := ptpCorr m, syncOk := true,
    t1 := if beAt m 6 1 / 2 % 2 = 1 then none else some (ptpTime m 34) }

theorem ptpSync_eq {s : State} {b : Bool} {m : List Byte} (t2 : Nat) (hm : fromMaster (getPtp s b) m = true) :
    ptpSync s b m t2 = ptpEval (ptpOffset s b (syncTaken (getPtp s b) m t2)) b := if_neg (by simp [hm])

theorem onlyPtp_ptpSync_taken {s : State} {b : Bool} {m : List Byte} (t2 : Nat)
    (hm : fromMaster (getPtp s b) m = true) :
    ∃ x, OnlyPtp s (ptpSync s b m t2) b { syncTaken (getPtp s b) m t2 with offset := x } := by
  obtain ⟨x, hx⟩ := onlyPtp_ptpOffset s b (syncTaken (getPtp s b) m t2)
  rw [ptpSync_eq t2 hm]
  exact ⟨x, hx.eval⟩

theorem onlyPtp_ptpSync (s : State) (b : Bool) (m : List Byte) (t2 : Nat) : ∃ p, OnlyPtp s (ptpSync s b m t2) b p := by
  by_cases hm : fromMaster (getPtp s b) m = true
  · obtain ⟨x, hx⟩ := onlyPtp_ptpSync_taken t2 hm
    exact ⟨_, hx⟩
  · rw [ptpSync, if_pos (by simpa using hm)]
    exact ⟨_, onlyPtp_refl ..⟩

theorem onlyPtp_ptpFollowUp (s : State) (b : Bool) (m : List Byte) : ∃ p, OnlyPtp s (ptpFollowUp s b m) b p := by
  unfold ptpFollowUp
  dsimp only
  split
  · exact ⟨_, onlyPtp_refl ..⟩
  · obtain ⟨x, hx⟩ := onlyPtp_ptpOffset s b _
    exact ⟨_, hx.eval⟩

theorem onlyPtp_ptpDelayResp (s : State) (b : Bool) (m : List Byte) : ∃ p, OnlyPtp s (ptpDelayResp s b m) b p := by
  unfold ptpDelayResp
  dsimp only
  split
  · exact ⟨_, onlyPtp_refl ..⟩
  · split
    · exact ⟨_, onlyPtp_setPtp ..⟩
    · obtain ⟨x, hx⟩ := onlyPtp_ptpOffset _ b _
      exact ⟨_, (((onlyPtp_refl s b).show _ _ (by decide)).trans hx).eval⟩

theorem onlyPtp_ptpSignaling (s : State) (b : Bool) (m : List Byte) : ∃ p, OnlyPtp s (ptpSignaling s b m) b p := by
  unfold ptpSignaling
  dsimp only
  split
  · exact ⟨_, onlyPtp_refl ..⟩
  · exact ⟨_, ((onlyPtp_refl s b).show _ _ (by decide)).eval⟩

/-- GM_ID, shown, stands below the port's counters. -/
theorem OnlyPtp.gmId {s t : State} {b : Bool} {p : PtpSt} (h : OnlyPtp s t b p) (v : Nat) :
    OnlyPtp s (wr64 t (ptpB b + R.PTP_PTP_GM_ID) v) b p :=
  ⟨h.rest, fun o hlo ho => (rawRd_wr64_ne _ _ _ _ (by simp only [R.PTP_PTP_GM_ID]; omega)
    (by simp only [R.PTP_PTP_GM_ID]; omega)).trans (h.counters o hlo ho)⟩

theorem onlyPtp_ptpAnnounce (s : State) (b : Bool) (m : List Byte) : ∃ p, OnlyPtp s (ptpAnnounce s b m) b p := by
  unfold ptpAnnounce
  extract_lets p f keep fresh q u v st w tai leap61 leap59 x
  refine ⟨q, OnlyPtp.eval ?_⟩
  have hv : OnlyPtp s v b q := (onlyPtp_setPtp s b q).gmId _
  clear_value v
  have hw : OnlyPtp s w b q := (hv.show _ _ (by decide)).ite ((hv.show _ _ (by decide)).ite hv _) _
  clear_value w
  have htai : OnlyPtp s tai b q := hw.page 0x010 _ _ (by decide) (by decide)
  have hleap61 : OnlyPtp s leap61 b q := htai.page 0x010 _ _ (by decide) (by decide)
  have hleap59 : OnlyPtp s leap59 b q := hleap61.page 0x010 _ _ (by decide) (by decide)
  have hvalid : OnlyPtp s (fs leap59 pgTT F.TT_UTC_OFFSET_VALID 1) b q := hleap59.page 0x010 _ _ (by decide) (by decide)
  exact hvalid.ite hw _

/-- A message of any type is counted, and then changes its port alone. -/
theorem onlyPtp_ptpReceive (s : State) (b : Bool) (m : List Byte) (t2 : Nat) :
    ∃ p, OnlyPtp (bump s (ptpB b + R.PTP_PTP_RX)) (ptpReceive s b m t2) b p := by
  unfold ptpReceive
  dsimp only
  split
  · exact onlyPtp_ptpSync ..
  · exact onlyPtp_ptpFollowUp ..
  · exact onlyPtp_ptpDelayResp ..
  · exact onlyPtp_ptpAnnounce ..
  · exact onlyPtp_ptpSignaling ..
  · exact ⟨_, onlyPtp_refl ..⟩

theorem ptpDivertOp_eq {s : State} {p l : Nat} {b : Bool} (bits : Nat) (m : List Byte) (hon : ptpOn s p = some b)
    (hup : isUp s p = true) (hl : l ∈ portLanes s p) :
    ptpDivertOp s p l bits m = ptpReceive { s with freeIx := s.freeIx + 1 } b m (captureNow s p l bits).t := by
  unfold ptpDivertOp
  rw [hon]
  exact if_neg (by simp [hup, hl])

/-- A diverted message has been stamped and counted. -/
def ptpCounted (s : State) (b : Bool) : State := bump { s with freeIx := s.freeIx + 1 } (ptpB b + R.PTP_PTP_RX)

theorem notEvents_ptpCounted (s : State) (b : Bool) :
    notEvents (ptpCounted s b) = notEvents { s with freeIx := s.freeIx + 1 } := notEvents_bump ..

theorem rd64_ptpCounted {s : State} {b : Bool} (hf : frozen s 0x012 = false) :
    rd64 (ptpCounted s b) (ptpB b + R.PTP_PTP_RX) = (rd64 s (ptpB b + R.PTP_PTP_RX) + 1) % 2 ^ 64 :=
  rd64_bump_ptp (s := { s with freeIx := s.freeIx + 1 }) (by decide) hf

theorem getPtp_ptpCounted (s : State) (b c : Bool) : getPtp (ptpCounted s b) c = getPtp s c :=
  (getPtp_of_notEvents (notEvents_ptpCounted s b) c :)

theorem ptpReceive_sync (s : State) (b : Bool) {m : List Byte} (t2 : Nat) (h : beAt m 0 1 % 16 = 0) :
    ptpReceive { s with freeIx := s.freeIx + 1 } b m t2 = ptpSync (ptpCounted s b) b m t2 := by
  simp only [ptpReceive, h, ptpCounted]

theorem ptpFrameDivert_receives {s : State} {p l : Fin 256} (bits : Nat) (m : List Byte) {b : Bool}
    (hon : ptpOn s p = some b) (hup : isUp s p = true) (hl : l.val ∈ portLanes s p) :
    Runs (.ptpFrameDivert p l bits m) s (fun t =>
      (frozen s 0x012 = false → rd64 t (ptpB b + R.PTP_PTP_RX) = (rd64 s (ptpB b + R.PTP_PTP_RX) + 1) % 2 ^ 64) ∧
      (beAt m 0 1 % 16 = 0 → fromMaster (getPtp s b) m = true →
        (getPtp t b).syncSeq = beAt m 30 2 ∧ (getPtp t b).t2 = (captureNow s p l bits).t ∧ (getPtp t b).syncOk = true) ∧
      getPtp t (!b) = getPtp s (!b) ∧ t.frames = s.frames ∧ t.hbm = s.hbm) := by
  have hx := exec_ptpFrameDivert p l bits m s
  rw [ptpDivertOp_eq bits m hon hup hl] at hx
  generalize (captureNow s p l bits).t = t2 at hx ⊢
  have hrest := notEvents_ptpCounted s b
  obtain ⟨q, hq⟩ : ∃ q, OnlyPtp (ptpCounted s b) (ptpReceive { s with freeIx := s.freeIx + 1 } b m t2) b q :=
    onlyPtp_ptpReceive ..
  have hs := hq.still.trans (still_of_notEvents hrest :)
  refine runs_still hx hs ⟨fun hf => ?_, fun hty hm => ?_, hq.other.trans (getPtp_ptpCounted ..),
    hq.frames.trans (notEvents_frames _ _ hrest :), hbm_of_still hs⟩
  · rw [hq.rd64 (by decide) (by decide), rd64_ptpCounted hf]
  · rw [← getPtp_ptpCounted s b b] at hm
    obtain ⟨x, hsync⟩ := onlyPtp_ptpSync_taken t2 hm
    rw [ptpReceive_sync _ _ _ hty, hsync.port]
    exact ⟨rfl, rfl, rfl⟩

/-! Sending (R137, R139). -/

/-- The message is sent and counted. -/
def ptpSent (s : State) (b : Bool) (m : List Byte) : State :=
  bump (emit (refLane s (ptpPort s b)).2 (.ptp (ptpPort s b) m)) (ptpB b + R.PTP_PTP_TX)

/-- The departure time of a message sent `dt` after the last edge or tick. -/
def ptpDeparture (s : State) (b : Bool) (dt : Nat) (m : List Byte) : Int :=
  (ttNow (ptpSent s b m) dt + txDelay (ptpSent s b m) (refLane s (ptpPort s b)).1 +
    cg (ptpSent s b m) pgCAL (F.CAL_DEMARC_TX_DELAY.fwd (4 * ptpPort s b)) : Nat)

/-- A Delay_Req leaves its sequence number and its departure time. -/
def reqNoted (s : State) (b : Bool) (dt : Nat) (m : List Byte) : State :=
  setPtp (ptpSent s b m) b
    { getPtp (ptpSent s b m) b with reqSeq := some (beAt m 30 2), t3 := ptpDeparture s b dt m }

theorem ptpSendOp_eq {s : State} {b : Bool} (dt : Nat) (m : List Byte) (hon : ptpOn s (ptpPort s b) = some b)
    (hup : isUp s (ptpPort s b) = true) :
    ptpSendOp s b dt m = if beAt m 0 1 % 16 = 1 then reqNoted s b dt m else ptpSent s b m :=
  if_neg (by simp [hon, hup])

/-- Beside what a sent message leaves, only its port may change. -/
theorem onlyPtp_sent {s : State} (b : Bool) (dt : Nat) (m : List Byte) :
    ∃ p, OnlyPtp (ptpSent s b m) (if beAt m 0 1 % 16 = 1 then reqNoted s b dt m else ptpSent s b m) b p := by
  split
  · exact ⟨_, onlyPtp_setPtp ..⟩
  · exact ⟨_, onlyPtp_refl ..⟩

theorem ptpMessageSend_sends {s : State} {b : Bool} (dt : Nat) (m : List Byte)
    (hon : ptpOn s (ptpPort s b) = some b) (hup : isUp s (ptpPort s b) = true) :
    Runs (.ptpMessageSend b dt m) s (fun t => t.out = s.out ++ [.ptp (ptpPort s b) m] ∧
      (frozen s 0x012 = false → rd64 t (ptpB b + R.PTP_PTP_TX) = (rd64 s (ptpB b + R.PTP_PTP_TX) + 1) % 2 ^ 64) ∧
      (beAt m 0 1 % 16 = 1 → (getPtp t b).reqSeq = some (beAt m 30 2)) ∧ t.frames = s.frames ∧ t.hbm = s.hbm) := by
  have hx := exec_ptpMessageSend b dt m s
  rw [ptpSendOp_eq dt m hon hup] at hx
  have hrest : notEvents (ptpSent s b m) = _ := notEvents_bump ..
  have hcount : frozen s 0x012 = false →
      rd64 (ptpSent s b m) (ptpB b + R.PTP_PTP_TX) = (rd64 s (ptpB b + R.PTP_PTP_TX) + 1) % 2 ^ 64 :=
    rd64_bump_ptp (s := emit (refLane s (ptpPort s b)).2 (.ptp (ptpPort s b) m)) (by decide)
  obtain ⟨q, hq⟩ := onlyPtp_sent (s := s) b dt m
  have hs := hq.still.trans (still_of_notEvents hrest)
  refine runs_still hx hs ⟨hq.out.trans (notEvents_out _ _ hrest :), fun hf => ?_, fun hty => ?_,
    hq.frames.trans (notEvents_frames _ _ hrest :), hbm_of_still hs⟩
  · rw [hq.rd64 (by decide) (by decide)]
    exact hcount hf
  · rw [if_pos hty, reqNoted, getPtp_setPtp]

/-! Receipt timers (R140). -/

/-- What a receipt timer takes from its port. -/
def ptpExpired (p : PtpSt) : PtpTimer → PtpSt
  | .announce => { p with master := none, mpd := none, t1 := none, syncOk := false, respOk := false }
  | .sync => { p with syncOk := false }
  | .delayResp => { p with respOk := false }
  | .interval => { p with syncOk := false, respOk := false }

/-- The port when its timer has run out; without a time-transmitter its state is 4. -/
def timerExpired (s : State) (b : Bool) (w : PtpTimer) : State :=
  match w with
  | .announce => fs (setPtp s b (ptpExpired (getPtp s b) w)) (ptpB b) F.PTP_PTP_STATUS_PORT_STATE 4
  | _ => setPtp s b (ptpExpired (getPtp s b) w)

theorem ptpTimeout_eq (s : State) (b : Bool) (w : PtpTimer) : ptpTimeout s b w = ptpEval (timerExpired s b w) b := by
  cases w <;> rfl

theorem onlyPtp_timerExpired (s : State) (b : Bool) (w : PtpTimer) :
    OnlyPtp s (timerExpired s b w) b (ptpExpired (getPtp s b) w) := by
  have hset := onlyPtp_setPtp s b (ptpExpired (getPtp s b) w)
  cases w with
  | announce => exact hset.show _ _ (by decide)
  | sync | delayResp | interval => exact hset

/-- Each timer takes Sync or Delay_Resp, so that the port is not qualified. -/
theorem ptpQualified_timerExpired (s : State) (b : Bool) (w : PtpTimer) : ptpQualified (timerExpired s b w) b = false := by
  have hlost : ((ptpExpired (getPtp s b) w).syncOk && (ptpExpired (getPtp s b) w).respOk) = false := by
    cases w <;> simp [ptpExpired]
  unfold ptpQualified
  dsimp only
  rw [(onlyPtp_timerExpired s b w).port, Bool.and_assoc (_ == _), hlost]
  simp

theorem ptpReceiptTimeout_clears (s : State) (b : Bool) (w : PtpTimer) : Runs (.ptpReceiptTimeout b w) s (fun t =>
    refOk t (ptpOkBit b) = false ∧ getPtp t (!b) = getPtp s (!b) ∧
    (w = .announce → (getPtp t b).master = none ∧ fg t (ptpB b) F.PTP_PTP_STATUS_PORT_STATE = 4) ∧ t.hbm = s.hbm) := by
  have hx := exec_ptpReceiptTimeout b w s
  rw [ptpTimeout_eq] at hx
  have hp := (onlyPtp_timerExpired s b w).eval
  refine runs_still hx hp.still ⟨?_, hp.other, ?_, hbm_of_still hp.still⟩
  · rw [refOk_ptpEval, ptpQualified_timerExpired]
  · rintro rfl
    rw [hp.port]
    refine ⟨rfl, ?_⟩
    rw [fg_of_word (rawRd_ptpEval _ _ (plainWord_ptp b (by decide)) (ptpB_ne b (by decide) (by decide) (by decide)))]
    exact fg_fs_self _ _ _ _ (by decide)

/-! The time error (R141, R125). -/

/-- A number of 32 bits reads back from its register as it is. -/
theorem sext_trunc {v : Int} (hlo : -2 ^ 31 ≤ v) (hhi : v < 2 ^ 31) : sext 32 (trunc 32 v) = v := by
  unfold sext trunc
  split <;> omega

/-- The measured time error: PPS_TE where the 1PPS is the reference, else the servo's. -/
def teValue (s : State) (te : Int) : Int :=
  if fg s pgTT F.TT_TIME_STATE_TIME_SRC = 1 then sext 32 (fg s pgREF F.REF_PPS_TE_TE) else te

/-- The time error is shown. -/
def teShown (s : State) (x : Int) : State := fs s pgTT F.TT_TE_LAST_TE (trunc 32 x)

/-- The time error `x` counts as good or bad (R141). -/
def teCounted (s : State) (x : Int) : RefSt :=
  let bad := fg s pgCAL F.CAL_TE_LIMIT_LIMIT < x.natAbs
  { s.ref with
    teGood := if bad then 0 else s.ref.teGood + 1, teBad := if bad then s.ref.teBad + 1 else 0,
    firstBad := s.ref.firstBad || (s.ref.newRef && bad), newRef := false }

/-- The time error is shown and counted. -/
def teTaken (s : State) (x : Int) : State := setRef (teShown s x) (teCounted (teShown s x) x)

/-- The servo's new correction, a free value within SLEW_MAX (R125). -/
def newAdj (s : State) : Int :=
  let m := 1024 * fg s pgCAL F.CAL_SLEW_MAX_SLEW
  (((free s).1 % (2 * m + 1) : Nat) : Int) - m

theorem measureTE_eq {s : State} (te : Int) (h : fg s pgTT F.TT_TIME_STATE_TIME_SRC ≠ 0) :
    measureTE s te = fs (free (teTaken s (teValue s te))).2 pgTT F.TT_FREQ_ADJ_ADJ
      (trunc 32 (newAdj (teTaken s (teValue s te)))) := by
  unfold measureTE newAdj teTaken teCounted teShown teValue
  rw [if_neg h]

/-- TE_LAST stands on another page than the limits. -/
theorem fg_teTaken (s : State) (x : Int) (f : FRef) (hf : f.off < 0x1000) : fg (teTaken s x) pgCAL f = fg s pgCAL f := by
  have hshown : fg (teTaken s x) pgCAL f = fg (teShown s x) pgCAL f := fg_congr _ _ _ _ rfl
  rw [hshown, teShown, fg_fs_addr _ _ _ _ _ _ (by simp only [pgCAL, pgTT, pb]; omega)]

theorem fg_teTaken_te (s : State) (x : Int) : fg (teTaken s x) pgTT F.TT_TE_LAST_TE = trunc 32 x := by
  have hshown : fg (teTaken s x) pgTT F.TT_TE_LAST_TE = fg (teShown s x) pgTT F.TT_TE_LAST_TE := fg_congr _ _ _ _ rfl
  rw [hshown, teShown, fg_fs_self _ _ _ _ (by decide)]
  exact Nat.mod_eq_of_lt (trunc_lt 32 x)

theorem natAbs_newAdj_le (s : State) :
    (sext 32 (trunc 32 (newAdj s))).natAbs ≤ 1024 * fg s pgCAL F.CAL_SLEW_MAX_SLEW := by
  have hslew : fg s pgCAL F.CAL_SLEW_MAX_SLEW < 2 ^ 16 := bitsOf_lt ..
  unfold newAdj
  dsimp only
  generalize fg s pgCAL F.CAL_SLEW_MAX_SLEW = k at hslew ⊢
  have hmod : (free s).1 % (2 * (1024 * k) + 1) < 2 * (1024 * k) + 1 := Nat.mod_lt _ (Nat.succ_pos _)
  rw [sext_trunc (by omega) (by omega)]
  omega

theorem teMeasurement_measures {s : State} (te : Int) (h : fg s pgTT F.TT_TIME_STATE_TIME_SRC ≠ 0) :
    let bad := fg s pgCAL F.CAL_TE_LIMIT_LIMIT < (teValue s te).natAbs
    Runs (.teMeasurement te) s (fun t =>
      fg t pgTT F.TT_TE_LAST_TE = trunc 32 (teValue s te) ∧ t.ref.teGood = (if bad then 0 else s.ref.teGood + 1) ∧
      t.ref.teBad = (if bad then s.ref.teBad + 1 else 0) ∧
      (sext 32 (fg t pgTT F.TT_FREQ_ADJ_ADJ)).natAbs ≤ 1024 * fg s pgCAL F.CAL_SLEW_MAX_SLEW ∧
      t.tm = s.tm ∧ t.hbm = s.hbm) := by
  have hx := exec_teMeasurement te s
  rw [measureTE_eq te h] at hx
  generalize teValue s te = x at hx ⊢
  have hlimit := fg_teTaken s x F.CAL_TE_LIMIT_LIMIT (by decide)
  have hslew := fg_teTaken s x F.CAL_SLEW_MAX_SLEW (by decide)
  refine runs_still hx rfl ⟨?_, ?_, ?_, ?_, rfl, rfl⟩
  · rw [fg_fs_addr _ _ _ _ _ _ (by decide)]
    exact fg_teTaken_te s x
  · rw [← hlimit]
    rfl
  · rw [← hlimit]
    rfl
  · rw [fg_fs_self _ _ _ _ (by decide), ← hslew, Nat.mod_eq_of_lt (trunc_lt 32 _)]
    exact natAbs_newAdj_le _

/-- Settles O29: a message and a timer change their port alone, and a measurement the counts and the correction. -/
theorem ptpAndTimeError : Obligations.PtpAndTimeError := fun s =>
  ⟨fun _ _ bits m _ => ptpFrameDivert_receives bits m, fun _ dt m => ptpMessageSend_sends dt m,
   ptpReceiptTimeout_clears s, fun te => teMeasurement_measures te⟩

end Sys2Proof.Machine
end

section
/-! The contexts of the flow stage: what a write of one leaves of the others, and what sampling and counting leave alone. -/

namespace Sys2Proof.Machine

open Sys2Proof

theorem getC_setC_ne (s : State) {k j : Nat} (c : Ctx) (h : j ≠ k) : getC (setC s k c) j = getC s j :=
  tget_tset_ne _ _ _ _ _ h

theorem getC_modC_ne (s : State) {k j : Nat} (g : Ctx → Ctx) (h : j ≠ k) : getC (modC s k g) j = getC s j :=
  getC_setC_ne s _ h

theorem getC_of_fl {s t : State} (h : t.fl = s.fl) (k : Nat) : getC t k = getC s k := by
  unfold getC
  rw [h]

/-! Counting and sampling (R526, R530). -/

/-- Everything but the registers, the events, the mode, and the counts of the counter central reader. -/
def notCounts (s : State) : State := { notEvents s with cnt := {} }

theorem notCounts_of_notEvents {s t : State} (h : notEvents t = notEvents s) : notCounts t = notCounts s := by
  unfold notCounts
  rw [h]

theorem notCounts_pcAdd (s : State) (k n : Nat) : notCounts (pcAdd s k n) = notCounts s := by
  unfold pcAdd
  split
  · rfl
  · dsimp only
    split
    · exact (notCounts_of_notEvents ((notEvents_raise ..).trans (notEvents_setBit ..))).trans rfl
    · rfl

theorem notCounts_perf (s : State) (page ev n : Nat) : notCounts (perf s page ev n) = notCounts s := by
  refine foldl_keeps notCounts (fun t k => ?_) _ s
  split
  · exact notCounts_pcAdd t k n
  · rfl

theorem notCounts_drawInterval (s : State) (i jitter : FRef) : notCounts (drawInterval s i jitter).2 = notCounts s := rfl

/-- The count of unit `u`, drawn afresh where it has run out, and the state after the draw. -/
def sampleCount (s : State) (u : Nat) (i jitter : FRef) : Nat × State :=
  if tget (fun _ => 0) s.cnt.counts u = 0 then drawInterval s i jitter else (tget (fun _ => 0) s.cnt.counts u, s)

theorem notCounts_sampleCount (s : State) (u : Nat) (i jitter : FRef) :
    notCounts (sampleCount s u i jitter).2 = notCounts s := by
  unfold sampleCount
  split
  · exact notCounts_drawInterval s i jitter
  · rfl

/-- The count `d` decreases; the one that brings it to 0 is sampled. -/
def sampleTaken (d : Nat × State) (u ctx : Nat) (i jitter : FRef) (record : BitVec 256) : State :=
  if d.1 ≤ 1 then
    let n := drawInterval d.2 i jitter
    let s := setCount n.2 u n.1
    { s with cnt := { s.cnt with due := s.cnt.due ++ [{ unit := u, ctx := ctx, record := record }] } }
  else setCount d.2 u (d.1 - 1)

theorem countSample_eq (s : State) (u ctx : Nat) (i jitter : FRef) (record : BitVec 256) :
    countSample s u ctx i jitter record = sampleTaken (sampleCount s u i jitter) u ctx i jitter record := rfl

theorem notCounts_sampleTaken (d : Nat × State) (u ctx : Nat) (i jitter : FRef) (record : BitVec 256) :
    notCounts (sampleTaken d u ctx i jitter record) = notCounts d.2 := by
  unfold sampleTaken
  split <;> rfl

theorem notCounts_sampleMicro (s : State) (p ctx : Nat) (record : BitVec 256) :
    notCounts (sampleMicro s p ctx record) = notCounts s := by
  unfold sampleMicro
  split
  · rw [countSample_eq]
    exact (notCounts_sampleTaken ..).trans (notCounts_sampleCount ..)
  · rfl

theorem fl_of_notCounts {s t : State} (h : notCounts t = notCounts s) : t.fl = s.fl := (congrArg State.fl h :)
theorem tm_of_notCounts {s t : State} (h : notCounts t = notCounts s) : t.tm = s.tm := (congrArg State.tm h :)
theorem frames_of_notCounts {s t : State} (h : notCounts t = notCounts s) : t.frames = s.frames := (congrArg State.frames h :)
theorem hbm_of_notCounts {s t : State} (h : notCounts t = notCounts s) : t.hbm = s.hbm := (congrArg State.hbm h :)

/-! Issuing a microword (R163, R169-R175). -/

/-- Context `k` is the one that issued last. -/
def stamped (s : State) (k : Nat) : State :=
  modC (setFl s { s.fl with stamp := s.fl.stamp + 1 }) k (fun c => { c with last := s.fl.stamp + 1 })

/-- The issue is sampled and counted. -/
def issueNoted (s : State) (k : Nat) (w : Word) : State :=
  perf (sampleMicro (stamped s k) (ctxPipe k) (k % 512) (microRecord (stamped s k) k w)) (fsPage (ctxPipe k)) 0x10 1

/-- The context as the slots leave it, with its call stack, in the state that notes its issue. -/
def slotsDone (s : State) (k : Nat) (w : Word) (d : Ctx) (st : List Nat) : State :=
  setC (issueNoted s k w) k { d with stack := st }

theorem issueNoted_counts (s : State) (k : Nat) (w : Word) : notCounts (issueNoted s k w) = notCounts (stamped s k) :=
  (notCounts_perf ..).trans (notCounts_sampleMicro ..)

/-- What the issue of a microword leaves, its slots done: the context as they leave it, and all else that contexts see. -/
structure Ran (s t : State) (k : Nat) (c : Ctx) : Prop where
  ctx : getC t k = c
  others : ∀ j, j ≠ k → getC t j = getC s j
  frames : t.frames = s.frames
  hbm : t.hbm = s.hbm
  tm : t.tm = s.tm

theorem ran_slotsDone (s : State) (k : Nat) (w : Word) (d : Ctx) (st : List Nat) :
    Ran s (slotsDone s k w d st) k { d with stack := st } := by
  have hn := issueNoted_counts s k w
  refine ⟨getC_setC .., fun j hj => ?_, (frames_of_notCounts hn :), (hbm_of_notCounts hn :), (tm_of_notCounts hn :)⟩
  rw [slotsDone, getC_setC_ne _ _ hj, getC_of_fl (fl_of_notCounts hn), stamped, getC_modC_ne _ _ hj]
  rfl

theorem cycleNow_of_tm {s t : State} (h : t.tm = s.tm) : cycleNow t = cycleNow s := by
  unfold cycleNow
  rw [plyNat_of_tm h, h]

/-- Context `k`, its microword `w` done, ends or goes on at `a` as the sequence field says. -/
def microGoes (s : State) (k : Nat) (w : Word) (a : Nat) : State :=
  if uSeq w = sEND then endRoutine s k (bitsOf w 0 2)
  else if uSeq w = sNEXT ∨ uSeq w = sWAIT ∨ uSeq w = sRET then arriveAt s k a else continueAt s k a

/-- The end of a microword of context `k`, its slots and its next address given: it aborts, or issues the request of
nanoword `n` and goes where its sequence field says. -/
def microEnds (s : State) (k : Nat) (w : Word) (n src : Nat) : Exec → Except Nat (Nat × List Nat) → State
  | .error e, _ => abortCtx s k e
  | .ok _, .error e => abortCtx s k e
  | .ok d, .ok (a, st) =>
    match issueReq (setC s k { d with stack := st }) k n src with
    | .error e => abortCtx s k e
    | .ok s => microGoes s k w a

/-- The microword `w` of context `k` after it has been noted: the faults of its store words, then its slots (R193). -/
def microRuns (s : State) (k : Nat) (c : Ctx) (f : Frame) (w : Word) (n : Nat) : State :=
  if s.fl.marks.contains (microKey (ctxPipe k) c.pc) then fetchUE s k c.pc false
  else if nanoFault c.pc (uNano w) then abortCtx s k abREGION_FAULT
  else if uNano w ≠ 0 ∧ s.fl.marks.contains (nanoMark (ctxPipe k) (uNano w)) then fetchUE s k (uNano w) true
  else if uSeq w = sWAIT ∧ bitsOf w 0 4 = 7 ∧ 512 ≤ bitsOf w 4 11 then abortCtx s k abADDR_FAULT
  else microEnds s k w n (getG c (nb n 103 4)) (slots c f n) (nextAddr c w)

theorem issueMicro_eq (s : State) (k : Nat) {c : Ctx} {w : Word} (hc : getC (stamped s k) k = c)
    (hw : microAt s (ctxPipe k) c.pc = w) :
    issueMicro s k = microRuns (issueNoted s k w) k c (getF s c.frame) w (nanoAt s (ctxPipe k) (uNano w)) := by
  subst hc hw
  rfl

theorem issueReq_none (s : State) (k : Nat) {n : Nat} (src : Nat) (h : nb n 107 5 = 0) : issueReq s k n src = .ok s :=
  if_pos h

theorem microEnds_ok (s : State) (k : Nat) (w : Word) {n : Nat} (src : Nat) (d : Ctx) (a : Nat) (st : List Nat)
    (hn : nb n 107 5 = 0) :
    microEnds s k w n src (.ok d) (.ok (a, st)) = microGoes (setC s k { d with stack := st }) k w a := by
  dsimp only [microEnds]
  rw [issueReq_none _ k src hn]

section
variable {s : State} {k : Nat} {w : Word} {d : Ctx}

theorem getC_stamped (s : State) (k : Nat) : getC (stamped s k) k = { getC s k with last := s.fl.stamp + 1 } := getC_modC ..

/-- With whole store words, slots without a fault, no request and a good next address, the microword goes on. -/
theorem microRuns_ok {c : Ctx} {f : Frame} {n a : Nat} {st : List Nat}
    (hmark : s.fl.marks.contains (microKey (ctxPipe k) c.pc) = false) (hfault : nanoFault c.pc (uNano w) = false)
    (hnano : uNano w = 0 ∨ s.fl.marks.contains (nanoMark (ctxPipe k) (uNano w)) = false)
    (hw : uSeq w = sWAIT → bitsOf w 0 4 = 7 → bitsOf w 4 11 < 512) (hslots : slots c f n = .ok d) (hreq : nb n 107 5 = 0)
    (hn : nextAddr c w = .ok (a, st)) : microRuns s k c f w n = microGoes (setC s k { d with stack := st }) k w a := by
  unfold microRuns
  rw [if_neg (ne_true_of_eq_false hmark), if_neg (ne_true_of_eq_false hfault),
    if_neg fun ⟨hne, hm⟩ => ne_true_of_eq_false (hnano.resolve_left hne) hm,
    if_neg fun ⟨hs, hc, ha⟩ => absurd (hw hs hc) (Nat.not_lt.mpr ha), hslots, hn]
  exact microEnds_ok s k w _ d a st hreq

/-- An issued microword whose next address is good goes on from its slots. -/
theorem issueMicro_issued {pipe engine : Nat} (h : Issues s pipe engine k w d)
    (hw : uSeq w = sWAIT → bitsOf w 0 4 = 7 → bitsOf w 4 11 < 512)
    {a : Nat} {st : List Nat} (hn : nextAddr (getC s k) w = .ok (a, st)) :
    issueMicro s k = microGoes (slotsDone s k w d st) k w a := by
  obtain ⟨-, rfl, hword, hmark, hfault, hnano, hslots, hreq⟩ := h
  have hmarks : (issueNoted s k w).fl.marks = s.fl.marks :=
    (congrArg FlowSt.marks (fl_of_notCounts (issueNoted_counts s k w)) :)
  rw [← hmarks] at hmark hnano
  rw [issueMicro_eq s k (getC_stamped s k) hword.symm]
  exact microRuns_ok hmark hfault hnano hw hslots hreq hn

/-- The command of a sequence field runs the microword that the engine issues. -/
theorem microOp_issues {pipe engine : Nat} (h : Issues s pipe engine k w d) {seq e : Nat} (hs : uSeq w = seq)
    (he : seq = sEND → bitsOf w 0 2 = e) : microOp s pipe engine seq e = issueMicro s k := by
  obtain ⟨hnext, rfl, hword, -⟩ := h
  unfold microOp
  rw [hnext]
  dsimp only
  have hword : microAt s (ctxPipe k) (getC s k).pc = w := hword.symm
  rw [hword, if_pos ⟨hs, Decidable.not_or_of_imp he⟩]

/-! The next address (R170-R172). -/

theorem nextAddr_fall {c : Ctx} (hs : uSeq w = sNEXT ∨ uSeq w = sWAIT) (hf : stepFault c.pc = false) :
    nextAddr c w = .ok (c.pc + 1, c.stack) := by
  unfold nextAddr
  rcases hs with hs | hs <;> simp [hs, hf]

theorem nextAddr_jump {c : Ctx} (hs : uSeq w = sJUMP) (hf : jumpFault c.pc (uTarget w) = false) :
    nextAddr c w = .ok (uTarget w, c.stack) := by
  unfold nextAddr
  simp [hs, hf]

theorem nextAddr_brt {c : Ctx} (hs : uSeq w = sBRT) (hj : uFlag c w = true → jumpFault c.pc (uTarget w) = false)
    (hf : uFlag c w = false → stepFault c.pc = false) :
    nextAddr c w = .ok (if uFlag c w then uTarget w else c.pc + 1, c.stack) := by
  unfold nextAddr
  cases hflag : uFlag c w
  · simp [hs, hf hflag]
  · simp [hs, hj hflag]

theorem nextAddr_brf {c : Ctx} (hs : uSeq w = sBRF) (hj : uFlag c w = false → jumpFault c.pc (uTarget w) = false)
    (hf : uFlag c w = true → stepFault c.pc = false) :
    nextAddr c w = .ok (if uFlag c w then c.pc + 1 else uTarget w, c.stack) := by
  unfold nextAddr
  cases hflag : uFlag c w
  · simp [hs, hj hflag]
  · simp [hs, hf hflag]

theorem nextAddr_call {c : Ctx} (hs : uSeq w = sCALL) (hf : stepFault c.pc = false)
    (hj : jumpFault c.pc (uTarget w) = false) (hl : c.stack.length < 8) :
    nextAddr c w = .ok (uTarget w, (c.pc + 1) :: c.stack) := by
  unfold nextAddr
  simp [hs, hf, hj, hl]

theorem nextAddr_ret {c : Ctx} (hs : uSeq w = sRET) {a : Nat} {rest : List Nat} (hst : c.stack = a :: rest) :
    nextAddr c w = .ok (a, rest) := by
  unfold nextAddr
  simp [hs, hst]

theorem nextAddr_end {c : Ctx} (hs : uSeq w = sEND) : nextAddr c w = .ok (c.pc, c.stack) := by
  unfold nextAddr
  simp [hs]

/-! Going on. -/

theorem getC_arriveAt (s : State) (k a : Nat) : ∃ o, getC (arriveAt s k a) k =
    { getC s k with pc := a, waitCycle := cycleNow s, waitPly := plyNat s, waitReply := false, waitOthers := o } :=
  ⟨_, getC_modC ..⟩

theorem goesOn_arriveAt {u : State} {st : List Nat} (h : Ran s u k { d with stack := st }) (a : Nat) :
    GoesOn s (arriveAt u k a) k a st d := by
  obtain ⟨o, ho⟩ := getC_arriveAt u k a
  rw [h.ctx, cycleNow_of_tm h.tm, plyNat_of_tm h.tm] at ho
  exact ⟨⟨o, ho⟩, fun j hj => (getC_modC_ne u _ hj).trans (h.others j hj), h.frames, h.hbm, h.tm⟩

/-- Away from the vendor gates a context only arrives at its next address. -/
theorem goesOn_microGoes {u : State} {st : List Nat} (h : Ran s u k { d with stack := st }) {a : Nat}
    (hend : uSeq w ≠ sEND) (ha : (uSeq w = sNEXT ∨ uSeq w = sWAIT ∨ uSeq w = sRET) ∨ (a ≠ 0x5E00 ∧ a ≠ 0x5E04)) :
    GoesOn s (microGoes u k w a) k a st d := by
  have harrive := goesOn_arriveAt h a
  unfold microGoes
  rw [if_neg hend]
  split
  · exact harrive
  next hseq =>
    unfold continueAt
    rw [if_pos (ha.resolve_left hseq)]
    exact harrive

/-- An issued microword that is no END goes on at its next address. -/
theorem microOp_goesOn {pipe engine : Nat} (h : Issues s pipe engine k w d) {seq a : Nat} {st : List Nat}
    (hs : uSeq w = seq) (hend : seq ≠ sEND) (hw : uSeq w = sWAIT → bitsOf w 0 4 = 7 → bitsOf w 4 11 < 512)
    (hn : nextAddr (getC s k) w = .ok (a, st))
    (ha : (uSeq w = sNEXT ∨ uSeq w = sWAIT ∨ uSeq w = sRET) ∨ (a ≠ 0x5E00 ∧ a ≠ 0x5E04)) :
    GoesOn s (microOp s pipe engine seq 0) k a st d := by
  rw [microOp_issues h hs fun he => absurd he hend, issueMicro_issued h hw hn]
  exact goesOn_microGoes (ran_slotsDone s k w d st) (hs ▸ hend) ha

end

/-- Settles O30: the slots leave the context, and each sequence field gives its next address. -/
theorem microwordsSequence : Obligations.MicrowordsSequence := by
  intro s pipe engine k w d h pc st dst ok
  have noWait : ∀ {seq : Nat}, uSeq w = seq → seq ≠ sWAIT → uSeq w = sWAIT → bitsOf w 0 4 = 7 → bitsOf w 4 11 < 512 :=
    fun hs hne hw => absurd (hs.symm.trans hw) hne
  refine ⟨fun hs hf => ?_, fun hs hf hb => ?_, fun hs hk => ?_, fun hs hk hf => ?_, fun hs hk hf => ?_, fun hs hk hf hl => ?_,
    fun a rest hs hst => ?_⟩
  · exact runs_kept (exec_uwNext pipe engine s)
      (microOp_goesOn h hs (by decide) (noWait hs (by decide)) (nextAddr_fall (.inl hs) hf) (.inl (.inl hs)))
  · exact runs_kept (exec_uwWait pipe engine s)
      (microOp_goesOn h hs (by decide) (fun _ => hb) (nextAddr_fall (.inr hs) hf) (.inl (.inr (.inl hs))))
  · exact runs_kept (exec_uwJump pipe engine s)
      (microOp_goesOn h hs (by decide) (noWait hs (by decide)) (nextAddr_jump hs hk.1) (.inr hk.2))
  · refine runs_kept (exec_uwBrt pipe engine s) (microOp_goesOn h hs (by decide) (noWait hs (by decide))
      (nextAddr_brt hs (fun ht => (hk ht).1) (fun ht => (hf ht).1)) (.inr ?_))
    split
    · exact (hk ‹_›).2
    · exact (hf (Bool.eq_false_of_not_eq_true ‹_›)).2
  · refine runs_kept (exec_uwBrf pipe engine s) (microOp_goesOn h hs (by decide) (noWait hs (by decide))
      (nextAddr_brf hs (fun ht => (hk ht).1) (fun ht => (hf ht).1)) (.inr ?_))
    split
    · exact (hf ‹_›).2
    · exact (hk (Bool.eq_false_of_not_eq_true ‹_›)).2
  · exact runs_kept (exec_uwCall pipe engine s)
      (microOp_goesOn h hs (by decide) (noWait hs (by decide)) (nextAddr_call hs hf hk.1 hl) (.inr hk.2))
  · exact runs_kept (exec_uwRet pipe engine s)
      (microOp_goesOn h hs (by decide) (noWait hs (by decide)) (nextAddr_ret hs hst) (.inl (.inr (.inr hs))))

end Sys2Proof.Machine
end

section
/-! O32: a reply of the flow stage writes its result bytes of META (R168, R175). -/

namespace Sys2Proof.Machine

open Sys2Proof

/-- Everything but the tables of classification, the registers, the events and the mode. -/
def notTables (s : State) : State := { notEvents s with cls := {} }

theorem notTables_of_notEvents {s t : State} (h : notEvents t = notEvents s) : notTables t = notTables s := by
  unfold notTables
  rw [h]

theorem notTables_clearUpset (pipe : Nat) (s : State) (k : Nat) : notTables (clearUpset pipe s k) = notTables s := by
  unfold clearUpset
  split <;> rfl

theorem notTables_raise (s : State) (page b : Nat) : notTables (raise s page b) = notTables s :=
  notTables_of_notEvents (notEvents_raise s page b)

/-- The upsets that a lookup meets invalidate table entries and raise events, no more (R237). -/
theorem notTables_takeUpsets (s : State) (pipe : Nat) (upset : List Nat) (corrected : Bool) :
    notTables (takeUpsets s pipe upset corrected) = notTables s := by
  have entries := foldl_keeps notTables (f := fun t k =>
    if k < 131072 + 32768 then raise (clearUpset pipe t k) (0x202 + 16 * pipe) evTABLE_UE else t) (fun t k => by
      split
      · exact (notTables_raise ..).trans (notTables_clearUpset ..)
      · rfl) upset s
  unfold takeUpsets
  dsimp only
  split
  · exact (notTables_raise ..).trans entries
  · exact entries

theorem fl_takeUpsets (s : State) (pipe : Nat) (upset : List Nat) (corrected : Bool) :
    (takeUpsets s pipe upset corrected).fl = s.fl := (congrArg State.fl (notTables_takeUpsets s pipe upset corrected) :)
theorem frames_takeUpsets (s : State) (pipe : Nat) (upset : List Nat) (corrected : Bool) :
    (takeUpsets s pipe upset corrected).frames = s.frames :=
  (congrArg State.frames (notTables_takeUpsets s pipe upset corrected) :)
theorem hbm_takeUpsets (s : State) (pipe : Nat) (upset : List Nat) (corrected : Bool) :
    (takeUpsets s pipe upset corrected).hbm = s.hbm := (congrArg State.hbm (notTables_takeUpsets s pipe upset corrected) :)

/-- What a reply of kind `kind` that puts `n` bytes of `v` at `o` makes of the context. -/
def replied (c : Ctx) (kind o n v : Nat) : Ctx :=
  { setReq c kind none with metaB := splice c.metaB o (beBytes n v), waitReply := true }

theorem getC_reply (s : State) (k kind o n v : Nat) : getC (reply s k kind o n v) k = replied (getC s k) kind o n v :=
  getC_modC ..

theorem getC_reply_ne (s : State) {k j : Nat} (kind o n v : Nat) (h : j ≠ k) :
    getC (reply s k kind o n v) j = getC s j := getC_modC_ne s _ h

/-- A reply writes its result, and leaves the other contexts, the frames and flow memory. -/
theorem reply_puts {s u : State} (hfl : u.fl = s.fl) (hframes : u.frames = s.frames) (hhbm : u.hbm = s.hbm)
    (k kind o n v : Nat) :
    getC (reply u k kind o n v) k = replied (getC s k) kind o n v ∧
      (∀ j, j ≠ k → getC (reply u k kind o n v) j = getC s j) ∧
      (reply u k kind o n v).frames = s.frames ∧ (reply u k kind o n v).hbm = s.hbm := by
  refine ⟨?_, fun j hj => ?_, hframes, hhbm⟩
  · rw [getC_reply, getC_of_fl hfl]
  · rw [getC_reply_ne _ _ _ _ _ hj, getC_of_fl hfl]

/-! Each reply, its request outstanding. -/

section
variable {s : State} {k : Nat} {r : Req}

theorem tblReplyOp_eq (h : reqOf (getC s k) 1 = some r) (upset : List Nat) (corrected : Bool) :
    tblReplyOp s k upset corrected =
      let u := takeUpsets s (ctxPipe k) upset corrected
      let g := (getF s (getC s k).frame).gen % 2
      reply u k 1 0x18 8 (tblResultOf
        (if r.op = 3 then
          (if r.table < 8 then emLookup u (ctxPipe k) r.table r.key g else none)
         else if 0x10 ≤ r.table ∧ r.table < 0x18 then ternLookup u (ctxPipe k) (r.table - 0x10) r.key g else none)) := by
  unfold tblReplyOp
  dsimp only
  rw [h, ← getF_of_frames (frames_takeUpsets s (ctxPipe k) upset corrected)]

theorem hashDoneOp_eq (h : reqOf (getC s k) 2 = some r) : hashDoneOp s k = reply s k 2 0x20 8
    (if r.op = 5 then crc32c (r.key.take (if r.arg = 0 then 64 else r.arg))
      else hashSym (getF s (getC s k).frame)).toNat := by
  unfold hashDoneOp
  dsimp only
  rw [h]

theorem timeReadyOp_eq (h : reqOf (getC s k) 3 = some r) (dt : Nat) :
    timeReadyOp s k dt = reply s k 3 0x30 16 (timeBytes (ttNow s dt)) := by
  unfold timeReadyOp
  rw [h]

theorem paramReadyOp_eq (h : reqOf (getC s k) 4 = some r) :
    paramReadyOp s k = reply s k 4 0x28 8 (paramRead s (ctxPipe k) r.table r.src.toNat).toNat := by
  unfold paramReadyOp
  rw [h]

theorem assistDoneOp_eq (h : reqOf (getC s k) 6 = some r) : assistDoneOp s k = reply s k 6 0x40 8 r.src.toNat := by
  unfold assistDoneOp
  rw [h]

theorem ctrReadyOp_eq (h : reqOf (getC s k) 11 = some r) :
    ctrReadyOp s k = reply s k 11 0x50 8 (ctrReadId s (ctxPipe k) r.table r.arg).toNat := by
  unfold ctrReadyOp
  rw [h]

theorem stateReadyOp_eq (h : reqOf (getC s k) 12 = some r) : stateReadyOp s k = reply s k 12 0x48 8
    (if r.op = 13 then queueDepth s r.src.toNat else memberBits s (ctxPipe k) r.table) := by
  unfold stateReadyOp
  rw [h]

end

/-- Settles O32: every reply is one write of META and of its request, at the bytes of its kind. -/
theorem repliesWriteTheirResults : Obligations.RepliesWriteTheirResults := by
  intro s k r c pipe put
  refine ⟨fun h upset corrected => ?_, fun h => ?_, fun h dt => ?_, fun h => ?_, fun h => ?_, fun h => ?_, fun h => ?_⟩
  · refine runs_kept (exec_tblReply k upset corrected s) ?_
    rw [tblReplyOp_eq h]
    exact reply_puts (fl_takeUpsets ..) (frames_takeUpsets ..) (hbm_takeUpsets ..) k 1 0x18 8 _
  · refine runs_kept (exec_hashDone k s) ?_
    rw [hashDoneOp_eq h]
    exact reply_puts rfl rfl rfl k 2 0x20 8 _
  · refine runs_kept (exec_timeReady k dt s) ?_
    rw [timeReadyOp_eq h]
    exact reply_puts rfl rfl rfl k 3 0x30 16 _
  · refine runs_kept (exec_paramReady k s) ?_
    rw [paramReadyOp_eq h]
    exact reply_puts rfl rfl rfl k 4 0x28 8 _
  · refine runs_kept (exec_assistDone k s) ?_
    rw [assistDoneOp_eq h]
    exact reply_puts rfl rfl rfl k 6 0x40 8 _
  · refine runs_kept (exec_ctrReady k s) ?_
    rw [ctrReadyOp_eq h]
    exact reply_puts rfl rfl rfl k 11 0x50 8 _
  · refine runs_kept (exec_stateReady k s) ?_
    rw [stateReadyOp_eq h]
    exact reply_puts rfl rfl rfl k 12 0x48 8 _

end Sys2Proof.Machine
end

section
/-! O34: the control store, its two commands, its scrub and its repair (R191, R193, R194). -/

namespace Sys2Proof.Machine

open Sys2Proof

/-! Folds. -/

/-- What one step of a fold establishes, and no step takes away, holds in the end; `I` holds all the way. -/
theorem foldl_establishes {α β : Type} {I P : β → Prop} {f : β → α → β} {l : List α} {a : α} (ha : a ∈ l)
    (hI : ∀ b x, x ∈ l → I b → I (f b x)) (hmake : ∀ b, I b → P (f b a))
    (hkeep : ∀ b x, x ∈ l → I b → P b → P (f b x)) {b : β} (hb : I b) : P (l.foldl f b) := by
  have kept : ∀ (m : List α) (b : β), (∀ x ∈ m, x ∈ l) → I b → P b → P (m.foldl f b) := by
    intro m
    induction m with
    | nil => exact fun b _ _ hp => hp
    | cons x m ih =>
      exact fun b hm hi hp => ih _ (fun y hy => hm y (.tail _ hy)) (hI b x (hm x (.head _)) hi) (hkeep b x (hm x (.head _)) hi hp)
  have made : ∀ (m : List α) (b : β), (∀ x ∈ m, x ∈ l) → a ∈ m → I b → P (m.foldl f b) := by
    intro m
    induction m with
    | nil => exact fun b _ h _ => absurd h List.not_mem_nil
    | cons x m ih =>
      intro b hm h hi
      have hm' : ∀ y ∈ m, y ∈ l := fun y hy => hm y (.tail _ hy)
      have hi' := hI b x (hm x (.head _)) hi
      rcases List.mem_cons.mp h with rfl | h
      · exact kept m _ hm' hi' (hmake b hi)
      · exact ih _ hm' h hi'
  exact made l b (fun _ h => h) ha hb

/-! Events, where a field is written after them. -/

/-- A field beyond the common registers is no event status. -/
theorem evStatus_fs (s : State) (q : Nat) {f : FRef} (hlo : 0x40 ≤ f.off) (hhi : f.off < 0x1000) (x page b : Nat) :
    evStatus (fs s (pb q) f x) page b = evStatus s page b := by
  refine evStatus_congr (rawRd_fs_ne _ _ _ _ _ ?_) b
  simp only [pb, oEVT_STATUS]
  omega

theorem evStatus_raiseD {s : State} {page b : Nat} (hp : pagePresent s page = true) (hb : b < 32) (d : Detail) :
    evStatus (raiseD s page b d) page b = true := evStatus_occurrence hp hb false d

theorem pagePresent_fsPage (s : State) (pipe : Fin 8) : pagePresent s (fsPage pipe) = true := by
  have hp : pageInfo (fsPage pipe) = some ⟨0x34, pipe, .never⟩ := by
    revert pipe
    decide
  unfold pagePresent
  rw [hp]
  rfl

/-! What an operation leaves is what its command leaves. -/

theorem evStatus_kept (s t : State) (page b : Nat) : evStatus (kept s t) page b = evStatus t page b := rfl
theorem getC_kept (s t : State) (k : Nat) : getC (kept s t) k = getC t k := rfl
theorem getF_kept (s t : State) (id : Nat) : getF (kept s t) id = getF t id := rfl
theorem boundTo_kept (s t : State) (idx : Nat) : boundTo (kept s t) idx = boundTo t idx := rfl
theorem fl_kept (s t : State) : (kept s t).fl = t.fl := rfl
theorem hbm_kept (s t : State) : (kept s t).hbm = t.hbm := rfl
theorem frames_kept (s t : State) : (kept s t).frames = t.frames := rfl

/-! Words of the register file. -/

theorem rawRd_wrWords_below (ws : List Word) (s : State) {a b : Nat} (h : b < a) :
    rawRd (wrWords s a ws) b = rawRd s b := by
  induction ws generalizing s a with
  | nil => rfl
  | cons w ws ih => rw [wrWords, ih _ (by omega), rawRd_rawWr_ne _ _ _ _ (by omega)]

/-- Words read back as they were written. -/
theorem rdWords_wrWords (ws : List Word) (s : State) (a : Nat) : rdWords (wrWords s a ws) a ws.length = ws := by
  induction ws generalizing s a with
  | nil => rfl
  | cons w ws ih =>
    rw [List.length_cons, rdWords, wrWords, ih, rawRd_wrWords_below _ _ (by omega), rawRd_rawWr_self]

theorem rdWords_congr {s t : State} {n a : Nat} (h : ∀ b, a ≤ b → rawRd t b = rawRd s b) : rdWords t a n = rdWords s a n := by
  induction n generalizing a with
  | zero => rfl
  | succ n ih => rw [rdWords, rdWords, h a (by omega), ih (fun b hb => h b (by omega))]

/-! Writing and reading a word (R191, R194). -/

/-- One word of the store of pipeline `p` written. -/
def storeOne (nano : Bool) (a v : Nat) (s : State) (p : Nat) : State :=
  if nano then setFl s { s.fl with
    nano := tset (fun _ => 0) s.fl.nano (nanoKey p a) (BitVec.ofNat 256 v),
    marks := s.fl.marks.filter (· ≠ nanoMark p a) }
  else setFl s { s.fl with
    micro := tset (fun _ => 0) s.fl.micro (microKey p a) (BitVec.ofNat 32 v),
    marks := s.fl.marks.filter (· ≠ microKey p a) }

theorem storePut_eq (s : State) (nano : Bool) (a v : Nat) : storePut s nano a v = (List.range 8).foldl (storeOne nano a v) s := rfl

theorem hbm_storePut (s : State) (nano : Bool) (a v : Nat) : (storePut s nano a v).hbm = s.hbm := by
  rw [storePut_eq]
  refine foldl_keeps State.hbm (fun t p => ?_) _ s
  cases nano <;> rfl

theorem microAt_storeOne (s : State) (a v p q b : Nat) : microAt (storeOne false a v s p) q b =
    if microKey q b = microKey p a then BitVec.ofNat 32 v else microAt s q b := tget_tset ..

theorem nano_storeOne (s : State) (a v p k : Nat) : tget (fun _ => 0) (storeOne true a v s p).fl.nano k =
    if k = nanoKey p a then BitVec.ofNat 256 v else tget (fun _ => 0) s.fl.nano k := tget_tset ..

/-- The word stands in the store of every pipeline. -/
theorem microAt_storePut (s : State) (a v : Nat) {p : Nat} (hp : p < 8) :
    microAt (storePut s false a v) p a = BitVec.ofNat 32 v := by
  refine foldl_establishes (I := fun _ => True) (P := fun t => microAt t p a = BitVec.ofNat 32 v) (List.mem_range.mpr hp)
    (fun _ _ _ _ => trivial) (fun t _ => ?_) (fun t q _ _ h => ?_) trivial
  · exact (microAt_storeOne ..).trans (if_pos rfl)
  · refine (microAt_storeOne ..).trans ?_
    split
    · rfl
    · exact h

theorem nano_storePut (s : State) (a v : Nat) {p : Nat} (hp : p < 8) :
    tget (fun _ => 0) (storePut s true a v).fl.nano (nanoKey p a) = BitVec.ofNat 256 v := by
  refine foldl_establishes (I := fun _ => True)
    (P := fun t : State => tget (fun _ => 0) t.fl.nano (nanoKey p a) = BitVec.ofNat 256 v) (List.mem_range.mpr hp)
    (fun _ _ _ _ => trivial) (fun t _ => ?_) (fun t q _ _ h => ?_) trivial
  · exact (nano_storeOne ..).trans (if_pos rfl)
  · refine (nano_storeOne ..).trans ?_
    split
    · rfl
    · exact h

theorem notEvents_storeAdvance (s : State) (pipe : Nat) : notEvents (storeAdvance s pipe) = notEvents s := by
  unfold storeAdvance
  split <;> rfl

theorem fl_storeAdvance (s : State) (pipe : Nat) : (storeAdvance s pipe).fl = s.fl :=
  notEvents_fl _ _ (notEvents_storeAdvance s pipe)
theorem hbm_storeAdvance (s : State) (pipe : Nat) : (storeAdvance s pipe).hbm = s.hbm :=
  notEvents_hbm _ _ (notEvents_storeAdvance s pipe)

/-- The advance of the address writes STORE_ADDR alone. -/
theorem rawRd_storeAdvance (s : State) (pipe : Nat) {a : Nat} (h : a ≠ flowB pipe + R.FS_STORE_ADDR) :
    rawRd (storeAdvance s pipe) a = rawRd s a := by
  unfold storeAdvance
  split
  · exact rawRd_fs_ne _ _ _ _ _ h
  · rfl

/-- STORE_DATA shows the word after the address has advanced. -/
theorem rdWords_storeShown (s : State) (pipe v : Nat) :
    rdWords (storeAdvance (wrWords s (flowB pipe + R.FS_STORE_DATA) (numWords v 8)) pipe) (flowB pipe + R.FS_STORE_DATA) 8 =
      numWords v 8 := by
  have hlen : (numWords v 8).length = 8 := by simp [numWords]
  have hread := rdWords_wrWords (numWords v 8) s (flowB pipe + R.FS_STORE_DATA)
  rw [hlen] at hread
  rw [rdWords_congr fun b hb => rawRd_storeAdvance _ pipe (by simp only [R.FS_STORE_DATA, R.FS_STORE_ADDR] at hb ⊢; omega)]
  exact hread

/-! STORE_CMD. -/

theorem pageInfo_storeCmd (pipe : Fin 8) : pageInfo ((flowB pipe + R.FS_STORE_CMD) / 0x1000) = some ⟨0x34, pipe, .never⟩ := by
  revert pipe
  decide

theorem writeOpen_storeCmd (s : State) (a : Agent) (pipe : Fin 8) (v : Word) :
    writeOpen s a ⟨0x34, pipe, .never⟩ ((flowB pipe + R.FS_STORE_CMD) / 0x1000) ((flowB pipe + R.FS_STORE_CMD) % 0x1000) v =
      writeStoreCmd s a pipe v := by
  have hoff : (flowB pipe + R.FS_STORE_CMD) % 0x1000 = R.FS_STORE_CMD := by revert pipe; decide
  have hpipe : ((flowB pipe + R.FS_STORE_CMD) / 0x1000 - 0x200) / 16 = pipe := by revert pipe; decide
  unfold writeOpen
  dsimp only
  rw [hoff, hpipe, if_neg (by decide), if_pos rfl]
  rfl

theorem writeStoreCmd_write (s : State) (a : Agent) (pipe : Nat) (cmd : Word) :
    writeStoreCmd s a pipe (setBits cmd 0 2 1) = storeWriteOp s a pipe := by
  have h0 : (setBits cmd 0 2 1).getLsbD 0 = true := by
    rw [getLsbD_setBits _ _ _ _ _ (by decide)]
    exact if_pos (by decide)
  have h1 : (setBits cmd 0 2 1).getLsbD 1 = false := by
    rw [getLsbD_setBits _ _ _ _ _ (by decide)]
    exact if_pos (by decide)
  unfold writeStoreCmd
  simp only [h0, h1, if_true, Bool.false_eq_true, and_false, if_false]

theorem writeStoreCmd_read (s : State) (a : Agent) (pipe : Nat) (cmd : Word) :
    writeStoreCmd s a pipe (setBits cmd 0 2 2) = storeReadOp s a pipe := by
  have h0 : (setBits cmd 0 2 2).getLsbD 0 = false := by
    rw [getLsbD_setBits _ _ _ _ _ (by decide)]
    exact if_pos (by decide)
  have h1 : (setBits cmd 0 2 2).getLsbD 1 = true := by
    rw [getLsbD_setBits _ _ _ _ _ (by decide)]
    exact if_pos (by decide)
  unfold writeStoreCmd
  simp only [h0, h1, Bool.false_eq_true, if_false, and_self, if_true]

/-- An allowed STORE_CMD whose operation does not refuse a core is its operation. -/
theorem regWrite_storeCmd {s : State} {a : Agent} {pipe : Fin 8} {v : Word}
    (h : Allowed s a (flowB pipe + R.FS_STORE_CMD) v) {r : Res × State} (hr : writeStoreCmd s a pipe v = r)
    (hd : isCore a = true → r.1 ≠ .denied) : regWrite s a (flowB pipe + R.FS_STORE_CMD) v = { r.2 with reply := ⟨r.1, 0⟩ } := by
  have hopen := (writeOpen_storeCmd s a pipe v).trans hr
  rw [regWrite_open s a _ v _ h (pageInfo_storeCmd pipe) (by rw [hopen]; exact hd), hopen]

theorem storeWriteOp_boot {s : State} (hm : s.md.mode = .boot) (n : Fin 16) (pipe : Nat) :
    storeWriteOp s (.core n) pipe = (.ok, storeAdvance (storePut s (storeIsNano s pipe)
      (if storeIsNano s pipe then storeAddr s pipe % 4096 else storeAddr s pipe) (storeData s pipe)) pipe) :=
  if_neg (not_not_intro hm)

/-- The level that a READ of the store needs (R194). -/
theorem writeLevel_storeRead (pipe : Fin 8) (cmd : Word) :
    writeLevel (flowB pipe + R.FS_STORE_CMD) (setBits cmd 0 2 2) = 2 := by
  have hbits : bitsOf (setBits cmd 0 2 2) 0 2 = 2 := bitsOf_setBits_self cmd 0 2 2 (by decide)
  have hoff : (flowB pipe + R.FS_STORE_CMD) % 0x1000 = R.FS_STORE_CMD := by revert pipe; decide
  have htype : pageType ((flowB pipe + R.FS_STORE_CMD) / 0x1000) = 0x34 := by
    rw [pageType_of_pageInfo (pageInfo_storeCmd pipe)]
  have h2 : (flowB pipe + R.FS_STORE_CMD) / 0x1000 ≠ 0x002 := by revert pipe; decide
  have h1 : (flowB pipe + R.FS_STORE_CMD) / 0x1000 ≠ 0x001 := by revert pipe; decide
  unfold writeLevel
  dsimp only
  rw [if_neg fun h => h2 h.1, if_neg fun h => h1 h.1, if_pos ⟨htype, hoff, hbits⟩]

/-- An allowed READ is granted, and hides the vendor region from Skyline. -/
theorem storeReadOp_allowed {s : State} {a : Agent} {pipe : Fin 8} {cmd : Word}
    (h : Allowed s a (flowB pipe + R.FS_STORE_CMD) (setBits cmd 0 2 2)) :
    storeReadOp s a pipe = (.ok, storeAdvance (wrWords s (flowB pipe + R.FS_STORE_DATA)
      (numWords (storeGet s pipe (storeIsNano s pipe) (!isCore a) (storeAddr s pipe)) 8)) pipe) := by
  cases a with
  | core n => rfl
  | sky l =>
    obtain ⟨-, -, -, hlevel⟩ := h
    have hl := hlevel rfl
    rw [writeLevel_storeRead] at hl
    exact if_neg (by simp [agentLevel] at hl ⊢; omega)

/-! Scrub and repair (R193). -/

theorem fl_storePending (s : State) (pipe : Nat) : (storePending s pipe).fl = s.fl := rfl
theorem hbm_storePending (s : State) (pipe : Nat) : (storePending s pipe).hbm = s.hbm := rfl
theorem evStatus_storePending (s : State) (pipe page b : Nat) : evStatus (storePending s pipe) page b = evStatus s page b :=
  evStatus_fs s _ (by decide) (by decide) _ page b

/-- The state with the marks of an uncorrectable line. -/
def lineMarked (s : State) (pipe line : Nat) (nano : Bool) : State :=
  setFl s { s.fl with
    marks := s.fl.marks ++ (lineMarks pipe line nano).filter (fun m => !s.fl.marks.contains m) }

theorem mem_lineMarked (s : State) {pipe line m : Nat} {nano : Bool} (h : m ∈ lineMarks pipe line nano) :
    m ∈ (lineMarked s pipe line nano).fl.marks := by
  by_cases hm : m ∈ s.fl.marks
  · exact List.mem_append_left _ hm
  · exact List.mem_append_right _ (List.mem_filter.mpr ⟨h, by simp [hm]⟩)

/-- The detail of a scrub event: the word's address, its space, the pipeline. -/
def scrubDetail (pipe line : Nat) (nano : Bool) : Detail :=
  BitVec.ofNat 128 ((if nano then line / 2 else 4 * line) * 2 ^ 112 + (if nano then 2 ^ 104 else 0) + pipe * 2 ^ 96)

theorem storeScrubOp_ue (s : State) (pipe : Nat) {line : Nat} (hl : line < 8192) (nano ce : Bool) :
    storeScrubOp s pipe line nano true ce =
      storePending (raiseD (lineMarked s pipe line nano) (fsPage pipe) evSTORE_UE (scrubDetail pipe line nano)) pipe :=
  if_neg (Nat.not_le.mpr hl)

theorem storeScrubOp_ce (s : State) (pipe : Nat) {line : Nat} (hl : line < 8192) (nano : Bool) :
    storeScrubOp s pipe line nano false true = raiseD s (fsPage pipe) evSTORE_CE (scrubDetail pipe line nano) :=
  if_neg (Nat.not_le.mpr hl)

/-- The marks of a line that stand. -/
def standing (s : State) (pipe line : Nat) (nano : Bool) : List Nat :=
  (lineMarks pipe line nano).filter (fun m => s.fl.marks.contains m)

theorem mem_standing {s : State} {pipe line m : Nat} {nano : Bool} :
    m ∈ standing s pipe line nano ↔ m ∈ lineMarks pipe line nano ∧ m ∈ s.fl.marks := by
  unfold standing
  simp

/-- One word of a line copied from pipeline `q`. -/
def copyOne (pipe q line : Nat) (nano : Bool) (s : State) (i : Nat) : State :=
  if nano then
    setFl s { s.fl with nano := tset (fun _ => 0) s.fl.nano (nanoKey pipe (line / 2))
                          (tget (fun _ => 0) s.fl.nano (nanoKey q (line / 2))) }
  else setFl s { s.fl with micro := tset (fun _ => 0) s.fl.micro (microKey pipe (4 * line + i)) (microAt s q (4 * line + i)) }

/-- A line copied from the next pipeline. -/
def lineCopied (s : State) (pipe line : Nat) (nano : Bool) : State :=
  (List.range (if nano then 1 else 4)).foldl (copyOne pipe ((pipe + 1) % 8) line nano) s

/-- The given marks cleared. -/
def unmarked (s : State) (ms : List Nat) : State :=
  setFl s { s.fl with marks := s.fl.marks.filter (fun m => !ms.contains m) }

/-- The line copied, its marks cleared, and what is left to repair shown. -/
def lineRepaired (s : State) (pipe line : Nat) (nano : Bool) : State :=
  storePending (unmarked (lineCopied s pipe line nano) (standing s pipe line nano)) pipe

theorem micro_lineRepaired (s : State) (pipe line : Nat) (nano : Bool) :
    (lineRepaired s pipe line nano).fl.micro = (lineCopied s pipe line nano).fl.micro := rfl
theorem nano_lineRepaired (s : State) (pipe line : Nat) (nano : Bool) :
    (lineRepaired s pipe line nano).fl.nano = (lineCopied s pipe line nano).fl.nano := rfl
theorem marks_lineRepaired (s : State) (pipe line : Nat) (nano : Bool) : (lineRepaired s pipe line nano).fl.marks =
    (lineCopied s pipe line nano).fl.marks.filter (fun m => !(standing s pipe line nano).contains m) := rfl
theorem hbm_lineRepaired (s : State) (pipe line : Nat) (nano : Bool) :
    (lineRepaired s pipe line nano).hbm = (lineCopied s pipe line nano).hbm := rfl

theorem microAt_of_micro {s t : State} (h : t.fl.micro = s.fl.micro) (p a : Nat) : microAt t p a = microAt s p a := by
  unfold microAt
  rw [h]

theorem microAt_kept (s t : State) (p a : Nat) : microAt (kept s t) p a = microAt t p a := rfl

theorem storeRepairOp_eq (s : State) (pipe line : Nat) (nano ok : Bool) : storeRepairOp s pipe line nano ok =
    if (standing s pipe line nano).isEmpty then s
    else if ¬ ok ∨ (lineMarks ((pipe + 1) % 8) line nano).any (fun m => s.fl.marks.contains m) then
      raise s (fsPage pipe) evSTORE_DOUBLE_UE
    else lineRepaired s pipe line nano := rfl

theorem lineCopied_keeps {γ : Type} (π : State → γ) (h : ∀ t f, π (setFl t f) = π t) (s : State) (pipe line : Nat) (nano : Bool) :
    π (lineCopied s pipe line nano) = π s := by
  refine foldl_keeps π (fun t i => ?_) _ s
  unfold copyOne
  split <;> exact h ..

theorem marks_lineCopied (s : State) (pipe line : Nat) (nano : Bool) :
    (lineCopied s pipe line nano).fl.marks = s.fl.marks := by
  refine foldl_keeps (fun t : State => t.fl.marks) (fun t i => ?_) _ s
  unfold copyOne
  split <;> rfl

/-- The words of two pipelines' lines are apart. -/
theorem microKey_apart {p q i j : Nat} (hne : p ≠ q) (line : Nat) (hi : i < 4) (hj : j < 4) :
    microKey p (4 * line + i) ≠ microKey q (4 * line + j) := by
  unfold microKey
  omega

theorem microAt_copyOne (s : State) (pipe q line i p a : Nat) : microAt (copyOne pipe q line false s i) p a =
    if microKey p a = microKey pipe (4 * line + i) then microAt s q (4 * line + i) else microAt s p a := tget_tset ..

/-- The four microwords of a copied line are those of the next pipeline. -/
theorem microAt_lineCopied (s : State) (pipe line : Nat) {i : Nat} (hi : i < 4) :
    microAt (lineCopied s pipe line false) pipe (4 * line + i) = microAt s ((pipe + 1) % 8) (4 * line + i) := by
  have hne : (pipe + 1) % 8 ≠ pipe := by omega
  refine foldl_establishes
    (I := fun t => ∀ j, j < 4 → microAt t ((pipe + 1) % 8) (4 * line + j) = microAt s ((pipe + 1) % 8) (4 * line + j))
    (P := fun t => microAt t pipe (4 * line + i) = microAt s ((pipe + 1) % 8) (4 * line + i))
    (List.mem_range.mpr hi) (fun t x hx ht j hj => ?_) (fun t ht => ?_) (fun t x hx ht h => ?_) (fun _ _ => rfl)
  · rw [microAt_copyOne, if_neg (microKey_apart hne line hj (List.mem_range.mp hx))]
    exact ht j hj
  · rw [microAt_copyOne, if_pos rfl]
    exact ht i hi
  · rw [microAt_copyOne]
    split
    next heq =>
      have hx : x = i := by unfold microKey at heq; omega
      rw [hx]
      exact ht i hi
    · exact h

/-- The nanoword of a copied line is that of the next pipeline. -/
theorem nano_lineCopied (s : State) (pipe line : Nat) :
    tget (fun _ => 0) (lineCopied s pipe line true).fl.nano (nanoKey pipe (line / 2)) =
      tget (fun _ => 0) s.fl.nano (nanoKey ((pipe + 1) % 8) (line / 2)) := tget_tset_self ..

theorem not_mem_lineRepaired (s : State) {pipe line m : Nat} {nano : Bool} (h : m ∈ lineMarks pipe line nano) :
    m ∉ (lineRepaired s pipe line nano).fl.marks := by
  intro hm
  rw [marks_lineRepaired, marks_lineCopied] at hm
  obtain ⟨hmarks, hnot⟩ := List.mem_filter.mp hm
  simp [mem_standing.mpr ⟨h, hmarks⟩] at hnot

/-- A line with standing marks whose source is good is copied and its marks cleared. -/
theorem storeRepairOp_good {s : State} {pipe line : Nat} {nano ok : Bool} (hm : ∃ m ∈ lineMarks pipe line nano, m ∈ s.fl.marks)
    (hok : ¬(ok = false ∨ ∃ m ∈ lineMarks ((pipe + 1) % 8) line nano, m ∈ s.fl.marks)) : storeRepairOp s pipe line nano ok =
      lineRepaired s pipe line nano := by
  obtain ⟨m, hline, hmarks⟩ := hm
  rw [storeRepairOp_eq, if_neg, if_neg]
  · simpa using hok
  · rw [List.isEmpty_iff]
    exact List.ne_nil_of_mem (mem_standing.mpr ⟨hline, hmarks⟩)

theorem storeRepairOp_bad {s : State} {pipe line : Nat} {nano ok : Bool} (hm : ∃ m ∈ lineMarks pipe line nano, m ∈ s.fl.marks)
    (hbad : ok = false ∨ ∃ m ∈ lineMarks ((pipe + 1) % 8) line nano, m ∈ s.fl.marks) :
    storeRepairOp s pipe line nano ok = raise s (fsPage pipe) evSTORE_DOUBLE_UE := by
  obtain ⟨m, hline, hmarks⟩ := hm
  rw [storeRepairOp_eq, if_neg, if_pos]
  · simpa using hbad
  · rw [List.isEmpty_iff]
    exact List.ne_nil_of_mem (mem_standing.mpr ⟨hline, hmarks⟩)

/-- Settles O34: STORE_CMD writes every pipeline or shows this one, a scrub marks, and a repair copies the next pipeline. -/
theorem controlStoreCommands : Obligations.ControlStoreCommands := by
  intro s pipe cmd
  refine ⟨fun n h hm => ?_, fun l h => ?_, fun a h => ?_, fun nano line hl => ⟨fun ce => ?_, ?_⟩,
    fun nano line ok hl hmark => ⟨fun hgood => ?_, fun hbad => ?_⟩⟩
  · refine runs_kept (exec_storeWrite (.core n) pipe cmd s) ?_
    rw [regWrite_storeCmd h ((writeStoreCmd_write ..).trans (storeWriteOp_boot hm n pipe)) (fun _ => by simp)]
    refine ⟨rfl, (hbm_storeAdvance ..).trans (hbm_storePut ..), fun p hp => ?_⟩
    split
    next hn =>
      refine (congrArg (fun f : FlowSt => tget (fun _ => 0) f.nano _) (fl_storeAdvance _ pipe)).trans ?_
      rw [hn]
      exact nano_storePut s _ _ hp
    next hn =>
      refine (congrArg (fun f : FlowSt => tget (fun _ => 0) f.micro _) (fl_storeAdvance _ pipe)).trans ?_
      rw [Bool.eq_false_of_not_eq_true hn]
      exact microAt_storePut s _ _ hp
  · refine runs_kept (exec_storeWrite (.sky l) pipe cmd s) ?_
    rw [regWrite_storeCmd h (writeStoreCmd_write ..) (fun hc => absurd hc Bool.false_ne_true)]
    rfl
  · refine runs_kept (exec_storeRead a pipe cmd s) ?_
    rw [regWrite_storeCmd h ((writeStoreCmd_read ..).trans (storeReadOp_allowed h)) (fun _ => by simp)]
    exact ⟨rfl, fl_storeAdvance .., hbm_storeAdvance .., rdWords_storeShown ..⟩
  · refine runs_kept (exec_storeScrub pipe nano line true ce s) ?_
    have hrest := notEvents_raiseD (lineMarked s pipe line nano) (fsPage pipe) evSTORE_UE (scrubDetail pipe line nano)
    rw [storeScrubOp_ue s pipe hl, fl_kept, evStatus_kept, hbm_kept, fl_storePending, hbm_storePending, evStatus_storePending,
      notEvents_fl _ _ hrest, notEvents_hbm _ _ hrest]
    exact ⟨fun m hm => mem_lineMarked s hm, rfl, rfl, evStatus_raiseD (pagePresent_fsPage _ pipe) (by decide) _, rfl⟩
  · refine runs_kept (exec_storeScrub pipe nano line false true s) ?_
    rw [storeScrubOp_ce s pipe hl]
    have hrest := notEvents_raiseD s (fsPage pipe) evSTORE_CE (scrubDetail pipe line nano)
    rw [fl_kept, evStatus_kept, hbm_kept]
    exact ⟨notEvents_fl _ _ hrest, evStatus_raiseD (pagePresent_fsPage s pipe) (by decide) _, notEvents_hbm _ _ hrest⟩
  · refine runs_kept (exec_storeRepair pipe nano line ok s) ?_
    rw [storeRepairOp_good hmark hgood]
    rw [fl_kept, hbm_kept, hbm_lineRepaired, lineCopied_keeps State.hbm (fun _ _ => rfl)]
    refine ⟨fun m hm => not_mem_lineRepaired s hm, fun hn i hi => ?_, fun hn => ?_, rfl⟩
    · subst hn
      rw [microAt_kept, microAt_of_micro (micro_lineRepaired ..), microAt_lineCopied s pipe line hi]
    · subst hn
      rw [nano_lineRepaired, nano_lineCopied]
  · refine runs_kept (exec_storeRepair pipe nano line ok s) ?_
    rw [storeRepairOp_bad hmark hbad]
    have hrest := notEvents_raise s (fsPage pipe) evSTORE_DOUBLE_UE
    rw [fl_kept, evStatus_kept, hbm_kept]
    exact ⟨notEvents_fl _ _ hrest, evStatus_raise _ _ _ (pagePresent_fsPage s pipe) (by decide) (by simp only [fsPage]; omega),
      notEvents_hbm _ _ hrest⟩

end Sys2Proof.Machine
end

section
/-! The flow tables as a store (R243-R258): what each of its operations leaves alone. -/

namespace Sys2Proof.Machine

open Sys2Proof

/-! What the store is. -/

/-- The flow stage without its record store: Decks, writeback buffers and queue, directory, BAD marks, pending table,
free list, insertion times, the host's waiting command, and the recency stamp. -/
def offStore (f : FlowSt) : FlowSt :=
  { f with deck := [], wbuf := [], wbq := [], dir := [], bad := [], stamp := 0, pend := [], freeHead := [], fresh := 0,
           freeTail := [], learnPly := 0, insTT := [], ft := none }

/-- The state without the record store, flow memory, the registers, the events and the mode. -/
def notStore (s : State) : State := { notEvents s with fl := offStore s.fl, hbm := {} }

/-- From `s` to `t` only the record store, flow memory and registers changed, and no event's status was cleared. -/
structure OnlyStore (s t : State) : Prop where
  rest : notStore t = notStore s
  status : StatusGrows s t

/-- The same, flow memory unchanged. -/
structure OnlyDeck (s t : State) : Prop extends OnlyStore s t where
  hbm : t.hbm = s.hbm

namespace OnlyStore

variable {s t u : State}

theorem refl (s : State) : OnlyStore s s := ⟨rfl, fun _ _ h => h⟩
theorem trans (h : OnlyStore s t) (h' : OnlyStore t u) : OnlyStore s u := ⟨h'.rest.trans h.rest, h.status.trans h'.status⟩

theorem ctxs (h : OnlyStore s t) : t.fl.ctxs = s.fl.ctxs := (congrArg (fun u : State => u.fl.ctxs) h.rest :)
theorem outs (h : OnlyStore s t) : t.fl.outs = s.fl.outs := (congrArg (fun u : State => u.fl.outs) h.rest :)
theorem frames (h : OnlyStore s t) : t.frames = s.frames := (congrArg State.frames h.rest :)
theorem tm (h : OnlyStore s t) : t.tm = s.tm := (congrArg State.tm h.rest :)
theorem fuse (h : OnlyStore s t) : t.fuse = s.fuse := (congrArg State.fuse h.rest :)

theorem getC (h : OnlyStore s t) (k : Nat) : getC t k = getC s k := by
  unfold Machine.getC
  rw [h.ctxs]

/-- The registers, flow memory and the store aside. -/
theorem of_regs (h : notStore t = notStore s) (hr : t.regs = s.regs) : OnlyStore s t :=
  ⟨h, statusGrows_of_words fun _ => rawRd_congr _ _ _ hr⟩

end OnlyStore

namespace OnlyDeck

variable {s t u : State}

theorem refl (s : State) : OnlyDeck s s := ⟨.refl s, rfl⟩
theorem trans (h : OnlyDeck s t) (h' : OnlyDeck t u) : OnlyDeck s u :=
  ⟨h.toOnlyStore.trans h'.toOnlyStore, h'.hbm.trans h.hbm⟩

theorem of_regs (h : notStore t = notStore s) (hr : t.regs = s.regs) (hh : t.hbm = s.hbm) : OnlyDeck s t :=
  ⟨.of_regs h hr, hh⟩

theorem of_events (h : notEvents t = notEvents s) (hg : StatusGrows s t) : OnlyDeck s t := by
  refine ⟨⟨?_, hg⟩, notEvents_hbm _ _ h⟩
  unfold notStore
  rw [h, notEvents_fl _ _ h]

end OnlyDeck

/-! Registers and events. -/

theorem wrapEvent_lt {page ty p b : Nat} (h : wrapEvent page ty = some (p, b)) : b < 32 := by
  unfold wrapEvent at h
  split at h <;> simp_all <;> omega

/-- A counter beyond the common registers clears no event. -/
theorem statusGrows_bump (s : State) (page : Nat) {o : Nat} (hlo : 0x40 ≤ o) (hhi : o < 0xFF8) :
    StatusGrows s (bump s (pb page + o)) := by
  have hadd : StatusGrows s (addRaw s (pb page + o) 1).2 := statusGrows_of_words fun q =>
    rawRd_addRaw_ne _ _ _ _ (by simp only [pb, oEVT_STATUS]; omega) (by simp only [pb, oEVT_STATUS]; omega)
  unfold bump bumpN
  dsimp only
  split
  · exact fun _ _ h => h
  · split
    · split
      next hw => exact hadd.trans (statusGrows_occurrence _ _ (wrapEvent_lt hw) false 0)
      · exact hadd
    · exact hadd

theorem onlyDeck_bump (s : State) (page : Nat) {o : Nat} (hlo : 0x40 ≤ o) (hhi : o < 0xFF8) :
    OnlyDeck s (bump s (pb page + o)) := .of_events (notEvents_bump ..) (statusGrows_bump s page hlo hhi)

theorem onlyDeck_fs (s : State) (page : Nat) {f : FRef} (hlo : 0x40 ≤ f.off) (hhi : f.off < 0x1000) (x : Nat) :
    OnlyDeck s (fs s (pb page) f x) :=
  .of_events (notEvents_fs ..) fun q b h => (evStatus_fs s page hlo hhi x q b).trans h

theorem onlyDeck_peak (s : State) (page : Nat) {f : FRef} (hlo : 0x40 ≤ f.off) (hhi : f.off < 0x1000) (x : Nat) :
    OnlyDeck s (peak s (pb page) f x) := by
  unfold peak
  split
  · exact onlyDeck_fs s page hlo hhi x
  · exact .refl s

theorem onlyDeck_raiseD (s : State) (page : Nat) {b : Nat} (hb : b < 32) (d : Detail) : OnlyDeck s (raiseD s page b d) :=
  .of_events (notEvents_raiseD ..) (statusGrows_occurrence s page hb false d)

/-- Words of a page beyond its common registers. -/
theorem onlyDeck_wrWords (ws : List Word) (s : State) (page : Nat) {o : Nat} (hlo : 0x40 ≤ o)
    (hhi : o + 4 * ws.length ≤ 0x1000) : OnlyDeck s (wrWords s (pb page + o) ws) := by
  refine .of_events (notEvents_wrWords ..) ?_
  induction ws generalizing s o with
  | nil => exact fun _ _ h => h
  | cons w ws ih =>
    rw [List.length_cons] at hhi
    have hw : StatusGrows s (rawWr s (pb page + o) w) :=
      statusGrows_of_words fun q => rawRd_rawWr_ne _ _ _ _ (by simp only [pb, oEVT_STATUS]; omega)
    have hrest := ih (rawWr s (pb page + o) w) (o := o + 4) (by omega) (by omega)
    rw [← Nat.add_assoc] at hrest
    exact hw.trans hrest

/-! Decks, buffers and the directory. -/

theorem onlyDeck_setWay (s : State) (k : Nat) (w : Way) : OnlyDeck s (setWay s k w) := .of_regs rfl rfl rfl
theorem onlyDeck_touchWay (s : State) (k : Nat) : OnlyDeck s (touchWay s k) := .of_regs rfl rfl rfl

theorem onlyDeck_setDir (s : State) (idx : Nat) (p : Option Nat) : OnlyDeck s (setDir s idx p) := by
  unfold setDir
  split
  · exact .of_regs rfl rfl rfl
  · exact .refl s

theorem onlyDeck_setWb (s : State) (pipe : Nat) (l : List (Nat × List Byte)) : OnlyDeck s (setWb s pipe l) :=
  have buffered : OnlyDeck s (setFl s { s.fl with wbuf := tset (fun _ => []) s.fl.wbuf pipe l }) := .of_regs rfl rfl rfl
  (buffered.trans (onlyDeck_fs _ (0x209 + 16 * pipe) (by decide) (by decide) _)).trans
    (onlyDeck_peak _ (0x209 + 16 * pipe) (by decide) (by decide) _)

theorem onlyDeck_wbq (s : State) (q : List WbItem) : OnlyDeck s (setFl s { s.fl with wbq := q }) := .of_regs rfl rfl rfl
theorem onlyDeck_bad (s : State) (l : List Nat) : OnlyDeck s (setFl s { s.fl with bad := l }) := .of_regs rfl rfl rfl

theorem onlyDeck_takeWay {s t : State} {pipe set k : Nat} (h : takeWay s pipe set = some (k, t)) : OnlyDeck s t := by
  have evicted := onlyDeck_bump s (0x209 + 16 * pipe) (o := R.DECK_EVICTIONS) (by decide) (by decide)
  unfold takeWay at h
  dsimp only at h
  split at h
  · cases h
    exact .refl s
  · split at h
    · cases h
    · split at h
      · cases h
        exact (evicted.trans (onlyDeck_setDir ..)).trans (onlyDeck_setWay ..)
      · split at h
        · cases h
        · split at h
          · cases h
          · cases h
            exact ((evicted.trans (onlyDeck_setWb ..)).trans (onlyDeck_wbq ..)).trans (onlyDeck_setWay ..)

theorem onlyDeck_install {s t : State} {pipe idx k : Nat} {r : List Byte} {dirty bad : Bool}
    (h : install s pipe idx r dirty bad = some (k, t)) : OnlyDeck s t := by
  unfold install at h
  split at h
  · cases h
  next hway =>
    cases h
    exact (((onlyDeck_takeWay hway).trans (onlyDeck_setWay ..)).trans (onlyDeck_setDir ..)).trans (onlyDeck_touchWay ..)

/-- A way emptied, and its record `idx` in no Deck. -/
def wayDropped (s : State) (k idx : Nat) : State := setDir (setWay s k {}) idx none

theorem onlyDeck_wayDropped (s : State) (k idx : Nat) : OnlyDeck s (wayDropped s k idx) :=
  (onlyDeck_setWay ..).trans (onlyDeck_setDir ..)

/-- An uncorrectable record of the array marked BAD (R278). -/
def badMarked (s : State) (idx : Nat) : State :=
  raiseD (setFl s { s.fl with bad := s.fl.bad ++ [idx] }) 0x340 evRECORD_UE (BitVec.ofNat 128 (idx * 2 ^ 96))

theorem onlyDeck_badMarked (s : State) (idx : Nat) : OnlyDeck s (badMarked s idx) :=
  (onlyDeck_bad s _).trans (onlyDeck_raiseD _ 0x340 (by decide) _)

theorem arrayUsable_eq (s : State) (idx : Nat) : arrayUsable s idx =
    if s.fl.bad.contains idx then (false, s)
    else if poisoned s (arrayAt idx) 128 then (false, badMarked s idx) else (true, s) := rfl

theorem onlyDeck_arrayUsable (s : State) (idx : Nat) : OnlyDeck s (arrayUsable s idx).2 := by
  rw [arrayUsable_eq]
  split
  · exact .refl s
  · split
    · exact onlyDeck_badMarked s idx
    · exact .refl s

theorem onlyDeck_fetchInto {s s0 s1 : State} (h0 : OnlyDeck s s0) (h1 : OnlyDeck s s1) (pipe idx : Nat) (r : List Byte)
    (dirty moved : Bool) (status : Nat) : OnlyDeck s (fetchInto s0 s1 pipe idx r dirty moved status).st := by
  unfold fetchInto
  split
  · exact h0
  next hin =>
    have installed := h1.trans (onlyDeck_install hin)
    dsimp only
    split
    · exact installed.trans (onlyDeck_bump _ (0x209 + 16 * pipe) (o := R.DECK_MIGRATIONS_IN) (by decide) (by decide))
    · exact installed

/-- Finding a record changes Decks, buffers and the directory (R249). -/
theorem onlyDeck_findTry (s : State) (pipe t : Nat) (key : List Byte) : OnlyDeck s (findTry s pipe t key).st := by
  have same := OnlyDeck.refl s
  unfold findTry
  split
  · exact same
  · split
    case h_1 =>
      dsimp only
      split
      · exact same
      · split
        · exact same
        · exact onlyDeck_touchWay ..
    case h_2 =>
      split
      · exact same
      · exact onlyDeck_fetchInto same (onlyDeck_setWb ..) ..
    case h_3 => exact same
    case h_4 =>
      dsimp only
      split
      · exact same
      · split
        · exact same
        · split
          · exact onlyDeck_touchWay ..
          · exact onlyDeck_fetchInto same (onlyDeck_wayDropped ..) ..
    case h_5 =>
      split
      · exact same
      · exact onlyDeck_fetchInto same (onlyDeck_setWb ..) ..
    case h_6 =>
      dsimp only
      have usable := onlyDeck_arrayUsable s
      split
      · exact onlyDeck_fetchInto (usable _) (usable _) ..
      · exact usable _
    case h_7 => exact same

/-! Flow memory, the free list, the index and the pending table. -/

theorem onlyStore_mwr (s : State) (a : Nat) (bs : List Byte) : OnlyStore s (mwr s a bs) := .of_regs rfl rfl
theorem onlyStore_writeEntry (s : State) (a e : Nat) : OnlyStore s (writeEntry s a e) := onlyStore_mwr ..

theorem onlyStore_allocIdx {s t : State} {i : Nat} (h : allocIdx s = some (i, t)) : OnlyStore s t := by
  unfold allocIdx at h
  split at h
  · cases h
    exact .of_regs rfl rfl
  · split at h
    · cases h
      exact .of_regs rfl rfl
    · split at h
      · cases h
        exact .of_regs rfl rfl
      · cases h

theorem onlyStore_moveChain (s : State) (l : List Nat) : OnlyStore s (moveChain s l) := by
  fun_induction moveChain with
  | case1 s x y rest ih => exact ((onlyStore_writeEntry ..).trans (onlyStore_writeEntry ..)).trans ih
  | case2 => exact .refl _

theorem onlyStore_reserveSlot {s u : State} {t a : Nat} {key : List Byte} (h : reserveSlot s t key = some (a, u)) :
    OnlyStore s u := by
  unfold reserveSlot at h
  dsimp only at h
  split at h
  · cases h
    exact .refl s
  · split at h
    · cases h
      exact onlyStore_moveChain ..
    · cases h

theorem onlyDeck_showPend (s : State) : OnlyDeck s (showPend s) :=
  (onlyDeck_fs s 0x340 (by decide) (by decide) _).trans (onlyDeck_peak _ 0x340 (by decide) (by decide) _)

/-- A flow index back at the head of the free list, its learn off the pending table. -/
def unpended (s : State) (idx : Nat) : State :=
  setFl s { s.fl with freeHead := idx :: s.fl.freeHead, pend := s.fl.pend.filter (fun p => decide (p.idx ≠ idx)) }

theorem onlyStore_unpended (s : State) (idx : Nat) : OnlyStore s (showPend (unpended s idx)) :=
  have freed : OnlyStore s (unpended s idx) := .of_regs rfl rfl
  freed.trans (onlyDeck_showPend _).toOnlyStore

theorem onlyStore_unlearn (s : State) (idx : Nat) : OnlyStore s (unlearn s idx) := by
  unfold unlearn
  split
  · exact .refl s
  · split
    · exact (onlyDeck_wayDropped s _ idx).toOnlyStore.trans (onlyStore_unpended _ idx)
    · exact (onlyDeck_setWay ..).toOnlyStore

/-! The host's waiting command (R277). -/

/-- The index entry of the record cleared. -/
def entryCleared (s : State) (idx : Nat) : State :=
  match entryOf s idx with
  | some a => if s.fuse.hbm then writeEntry s a 0 else s
  | none => s

theorem onlyStore_entryCleared (s : State) (idx : Nat) : OnlyStore s (entryCleared s idx) := by
  unfold entryCleared
  split
  · split
    · exact onlyStore_writeEntry ..
    · exact .refl s
  · exact .refl s

/-- The Deck way of the record emptied; in D variants it keeps `gone` for the next generation. -/
def wayCleared (s : State) (idx : Nat) (gone : List Byte) : State :=
  match deckByIdx s idx with
  | some k => setWay s k (if s.fuse.hbm then {} else { record := gone })
  | none => s

theorem onlyDeck_wayCleared (s : State) (idx : Nat) (gone : List Byte) : OnlyDeck s (wayCleared s idx gone) := by
  unfold wayCleared
  split
  · exact onlyDeck_setWay ..
  · exact .refl s

/-- The record out of its writeback buffer. -/
def bufferCleared (s : State) (idx : Nat) : State :=
  match wbByIdx s idx with
  | some w => setWb s w.1 ((wbOf s w.1).filter (fun e => decide (e.1 ≠ idx)))
  | none => s

theorem onlyDeck_bufferCleared (s : State) (idx : Nat) : OnlyDeck s (bufferCleared s idx) := by
  unfold bufferCleared
  split
  · exact onlyDeck_setWb ..
  · exact .refl s

/-- The record in no queue for flow memory, marked BAD nowhere, resident nowhere. -/
def queueCleared (s : State) (idx : Nat) : State :=
  setDir (setFl s { s.fl with wbq := s.fl.wbq.filter (fun i => decide (i.idx ≠ idx)), bad := s.fl.bad.filter (· ≠ idx) })
    idx none

theorem onlyDeck_queueCleared (s : State) (idx : Nat) : OnlyDeck s (queueCleared s idx) :=
  have cleared : OnlyDeck s (setFl s { s.fl with
      wbq := s.fl.wbq.filter (fun i => decide (i.idx ≠ idx)), bad := s.fl.bad.filter (· ≠ idx) }) := .of_regs rfl rfl rfl
  cleared.trans (onlyDeck_setDir ..)

/-- In H variants flow memory keeps `gone`, and the index goes to the tail of the free list. -/
def indexFreed (s : State) (idx : Nat) (gone : List Byte) : State :=
  if s.fuse.hbm then
    setFl (mwr s (arrayAt idx) gone) { (mwr s (arrayAt idx) gone).fl with freeTail := s.fl.freeTail ++ [idx] }
  else s

theorem onlyStore_indexFreed (s : State) (idx : Nat) (gone : List Byte) : OnlyStore s (indexFreed s idx gone) := by
  unfold indexFreed
  split
  · exact .of_regs rfl rfl
  · exact .refl s

theorem onlyStore_removeRec (s : State) (idx : Nat) : OnlyStore s (removeRec s idx) := by
  unfold removeRec
  extract_lets r gone s1 s2 s3 f s4 s5
  have entry : OnlyStore s s1 := onlyStore_entryCleared s idx
  have way : OnlyStore s1 s2 := (onlyDeck_wayCleared s1 idx gone).toOnlyStore
  have buffer : OnlyStore s2 s3 := (onlyDeck_bufferCleared s2 idx).toOnlyStore
  have queue : OnlyStore s3 s5 := (onlyDeck_queueCleared s3 idx).toOnlyStore
  exact (((entry.trans way).trans buffer).trans queue).trans (onlyStore_indexFreed s5 idx gone)

theorem onlyStore_putRec (s : State) (idx : Nat) (r : List Byte) : OnlyStore s (putRec s idx r) := by
  unfold putRec
  split
  · exact (onlyDeck_setWay ..).toOnlyStore
  · split
    · exact ((onlyDeck_setWb ..).trans (onlyDeck_wbq ..)).toOnlyStore
    · exact onlyStore_mwr ..

/-- The index of a new record shown, its time of insertion kept. -/
def inserted (s : State) (idx : Nat) : State :=
  fs (setFl s { s.fl with insTT := tset (fun _ => 0) s.fl.insTT idx (ttNow s 0) }) pgFT F.FT_FT_ADDR_INDEX idx

theorem onlyStore_inserted (s : State) (idx : Nat) : OnlyStore s (inserted s idx) :=
  have timed : OnlyStore s (setFl s { s.fl with insTT := tset (fun _ => 0) s.fl.insTT idx (ttNow s 0) }) := .of_regs rfl rfl
  timed.trans (onlyDeck_fs _ 0x340 (by decide) (by decide) idx).toOnlyStore

/-- The host's new record `r` of key `key` in flow memory, or in a free way. -/
def insertInto (s : State) (pipe : Nat) (r : List Byte) (t : Nat) (key : List Byte) : Nat × State :=
  if s.fuse.hbm then
    match allocIdx s with
    | none => (ftFULL, s)
    | some (idx, s1) =>
      match reserveSlot s1 t key with
      | none => (ftFULL, s)
      | some (a, s2) => (ftOK, inserted (writeEntry (mwr s2 (arrayAt idx) (rset r oGEN 1 (nextGen s2 idx))) a
          (mkEntry t idx (sigOf t key))) idx)
  else
    match freeWayIn s (waysOf pipe (setOf t key)) with
    | none => (ftFULL, s)
    | some k => (ftOK, inserted (touchWay (setWay s k {
        valid := true, idx := k, record := rset r oGEN 1 ((wayGen s k + 1) % 256), ply := plyNat s }) k) k)

theorem insertRec_eq (s : State) (pipe : Nat) (r : List Byte) (t : Nat) (key : List Byte) : insertRec s pipe r t key =
    insertInto s pipe (setFlag (setFlag (splice r 0 (slice key 0 40)) flVALID true) flHOST true) t key := rfl

theorem onlyStore_insertRec (s : State) (pipe : Nat) (r : List Byte) (t : Nat) (key : List Byte) :
    OnlyStore s (insertRec s pipe r t key).2 := by
  have same := OnlyStore.refl s
  rw [insertRec_eq]
  unfold insertInto
  split
  · split
    · exact same
    next halloc =>
      split
      · exact same
      next hslot =>
        have reserved := (onlyStore_allocIdx halloc).trans (onlyStore_reserveSlot hslot)
        exact ((reserved.trans (onlyStore_mwr ..)).trans (onlyStore_writeEntry ..)).trans (onlyStore_inserted ..)
  · split
    · exact same
    · exact ((onlyDeck_setWay ..).trans (onlyDeck_touchWay ..)).toOnlyStore.trans (onlyStore_inserted ..)

theorem onlyDeck_setPin (s : State) (k : Nat) (v : Bool) : OnlyDeck s (setPin s k v) := onlyDeck_setWay ..

/-- A record that a search has brought to a Deck, pinned there. -/
theorem onlyDeck_pinned {s u : State} {idx c : Nat} {v : State}
    (hu : OnlyDeck s u) (h : (deckByIdx u idx).map (fun k => (ftOK, setPin u k true)) = some (c, v)) : OnlyDeck s v := by
  cases hk : deckByIdx u idx with
  | none => simp [hk] at h
  | some k =>
    rw [hk] at h
    cases h
    exact hu.trans (onlyDeck_setPin ..)

theorem onlyDeck_pinRec {s u : State} {pipe idx c : Nat} {r : List Byte} (h : pinRec s pipe idx r = some (c, u)) :
    OnlyDeck s u := by
  have same := OnlyDeck.refl s
  unfold pinRec at h
  dsimp only at h
  split at h
  · split at h
    · split at h
      · cases h
        exact same
      · cases h
        exact same
    · split at h
      · split at h
        · cases h
          exact same
        · cases h
          exact onlyDeck_setPin ..
      · split at h
        · cases h
          exact same
        · split at h
          · exact onlyDeck_pinned (onlyDeck_findTry ..) h
          · cases h
  · split at h
    · cases h
      exact same
    · split at h
      · exact onlyDeck_pinned (onlyDeck_findTry ..) h
      · split at h
        · cases h
          exact onlyDeck_findTry ..
        · cases h

/-- The record that a command by address needs read, where no Deck or buffer holds it. -/
theorem onlyDeck_needed (s : State) (b : Bool) (idx : Nat) :
    OnlyDeck s (if b then arrayUsable s idx else (true, s)).2 := by
  split
  · exact onlyDeck_arrayUsable s idx
  · exact .refl s

theorem onlyDeck_ftWindow (s : State) (r : List Byte) : OnlyDeck s (ftWindow s r) :=
  onlyDeck_wrWords _ s 0x340 (o := R.FT_FT_DATA) (by decide) (by simp [packWords, R.FT_FT_DATA])

/-- A host command changes the store, flow memory and the registers of its page (R277). -/
theorem onlyStore_ftAttempt {s u : State} {c : FtCmd} {code : Nat} (h : ftAttempt s c = some (code, u)) : OnlyStore s u := by
  unfold ftAttempt at h
  extract_lets t key byAddr idx mine v s1 r at h
  have needed : OnlyStore s s1 := (onlyDeck_needed s _ idx).toOnlyStore
  have same : ∀ {c c' : Nat} {u : State}, some (c, s1) = some (c', u) → OnlyStore s u := by
    intro c c' u h
    cases h
    exact needed
  have reached : ∀ {c c' : Nat} {u v : State}, OnlyStore s1 v → some (c, v) = some (c', u) → OnlyStore s u := by
    intro c c' u v hv h
    cases h
    exact needed.trans hv
  split at h
  · cases h
    exact .refl s
  · split at h
    · cases h
    · split at h
      · split at h
        · exact reached (onlyStore_removeRec ..) h
        · exact same h
      · split at h
        · exact same h
        · split at h
          · exact same h
          · split at h
            case h_1 => exact reached (onlyDeck_ftWindow ..).toOnlyStore h
            case h_2 =>
              split at h
              · exact same h
              · exact reached (onlyStore_putRec ..) h
            case h_3 =>
              split at h
              · exact same h
              · exact reached (onlyStore_insertRec ..) h
            case h_4 =>
              split at h
              · exact same h
              · exact reached (onlyDeck_fs s1 0x340 (by decide) (by decide) _).toOnlyStore h
            case h_5 => exact reached (onlyStore_removeRec ..) h
            case h_6 => exact needed.trans (onlyDeck_pinRec h).toOnlyStore
            case h_7 =>
              split at h
              · exact reached (onlyDeck_setPin ..).toOnlyStore h
              · exact reached (onlyStore_putRec ..) h
            case h_8 => exact same h

/-- FT_STATUS shows the result, BUSY cleared. -/
def ftShown (s : State) (r : Nat) : State := fs (fs s pgFT F.FT_FT_STATUS_RESULT r) pgFT F.FT_FT_STATUS_BUSY 0

theorem onlyDeck_ftShown (s : State) (r : Nat) : OnlyDeck s (ftShown s r) :=
  (onlyDeck_fs s 0x340 (by decide) (by decide) r).trans (onlyDeck_fs _ 0x340 (by decide) (by decide) 0)

theorem ftDone_eq (s : State) (r : Nat) : ftDone s r = setFl (ftShown s r) { (ftShown s r).fl with ft := none } := rfl

theorem onlyDeck_ftDone (s : State) (r : Nat) : OnlyDeck s (ftDone s r) := by
  rw [ftDone_eq]
  exact (onlyDeck_ftShown s r).trans (.of_regs rfl rfl rfl)

/-- Resuming the host's command leaves the contexts and the packets that leave. -/
theorem onlyStore_ftResume (s : State) : OnlyStore s (ftResume s) := by
  unfold ftResume
  split
  · exact .refl s
  · split
    · exact .refl s
    next h => exact (onlyStore_ftAttempt h).trans (onlyDeck_ftDone ..).toOnlyStore

end Sys2Proof.Machine
end

section
/-! O31: a packet on its context and off it (R180-R188). -/

namespace Sys2Proof.Machine

open Sys2Proof

/-! Letting go of a context. -/

/-- Context `k` is empty, and frame `id` leaves the flow stage by `o`. -/
structure LeftFlow (t : State) (k id : Nat) (o : FlowOut) : Prop where
  freed : getC t k = {}
  out : tget (fun _ => none) t.fl.outs id = some o

theorem outs_setOut (s : State) (id : Nat) (o : FlowOut) : tget (fun _ => none) (setOut s id o).fl.outs id = some o :=
  tget_tset_self (fun _ => none) s.fl.outs id (some o)

theorem left_setOut {s : State} {k : Nat} (h : getC s k = {}) (id : Nat) (o : FlowOut) : LeftFlow (setOut s id o) k id o :=
  ⟨h, outs_setOut s id o⟩

/-- The packet has left where the operation wrapped in a command has made it leave. -/
theorem LeftFlow.wrapped {t : State} {k id : Nat} {o : FlowOut} (h : LeftFlow t k id o) (s : State) :
    getC (kept s t) k = {} ∧ tget (fun _ => none) (kept s t).fl.outs id = some o := ⟨h.freed, h.out⟩

theorem LeftFlow.of_onlyStore {s t : State} {k id : Nat} {o : FlowOut} (h : LeftFlow s k id o) (hst : OnlyStore s t) :
    LeftFlow t k id o :=
  ⟨(hst.getC k).trans h.freed, by rw [hst.outs]; exact h.out⟩

theorem LeftFlow.resumed {t : State} {k id : Nat} {o : FlowOut} (h : LeftFlow t k id o) : LeftFlow (ftResume t) k id o :=
  h.of_onlyStore (onlyStore_ftResume t)

theorem onlyDeck_showFlow (s : State) (pipe : Nat) : OnlyDeck s (showFlow s pipe) :=
  (((onlyDeck_fs s (0x208 + 16 * pipe) (by decide) (by decide) _).trans
    (onlyDeck_peak _ (0x208 + 16 * pipe) (by decide) (by decide) _)).trans
    (onlyDeck_fs _ (0x208 + 16 * pipe) (by decide) (by decide) _)).trans
    (onlyDeck_peak _ (0x208 + 16 * pipe) (by decide) (by decide) _)

theorem getC_freeCtx (s : State) (k : Nat) : getC (freeCtx s k) k = {} := getC_setC ..

theorem freeCtx_keeps {γ : Type} (π : State → γ) (h : ∀ t f, π (setFl t f) = π t) (s : State) (k : Nat) :
    π (freeCtx s k) = π s := by
  unfold freeCtx
  dsimp only
  split
  · exact (h ..).trans (h ..)
  · exact h ..

theorem outs_freeCtx (s : State) (k : Nat) : (freeCtx s k).fl.outs = s.fl.outs := by
  unfold freeCtx
  dsimp only
  split <;> rfl

/-- The learn of context `k` undone where it did not commit (R253). -/
def learnUndone (s : State) (k : Nat) : State :=
  match (getC s k).bound.or ((flowReq (getC s k)).bind (fun r => r.got)) with
  | some i => if (getC s k).learned then modF (unlearn s i) (getC s k).frame (fun f => { f with flowIdx := noFlow }) else s
  | none => s

theorem letGo_eq (s : State) (k : Nat) : letGo s k = showFlow (freeCtx (learnUndone s k) k) (ctxPipe k) := rfl

theorem tm_learnUndone (s : State) (k : Nat) : (learnUndone s k).tm = s.tm := by
  unfold learnUndone
  split
  · split
    · exact (onlyStore_unlearn s _).tm
    · rfl
  · rfl

theorem statusGrows_learnUndone (s : State) (k : Nat) : StatusGrows s (learnUndone s k) := by
  unfold learnUndone
  split
  · split
    · exact (onlyStore_unlearn s _).status
    · exact fun _ _ h => h
  · exact fun _ _ h => h

theorem getC_letGo (s : State) (k : Nat) : getC (letGo s k) k = {} := by
  rw [letGo_eq, (onlyDeck_showFlow ..).getC]
  exact getC_freeCtx ..

theorem tm_letGo (s : State) (k : Nat) : (letGo s k).tm = s.tm := by
  rw [letGo_eq, (onlyDeck_showFlow ..).tm, freeCtx_keeps State.tm (fun _ _ => rfl), tm_learnUndone]

theorem statusGrows_letGo (s : State) (k : Nat) : StatusGrows s (letGo s k) := by
  rw [letGo_eq]
  refine ((statusGrows_learnUndone s k).trans ?_).trans (onlyDeck_showFlow _ (ctxPipe k)).status
  exact statusGrows_of_words fun _ => rawRd_congr _ _ _ (freeCtx_keeps State.regs (fun _ _ => rfl) ..)

/-! Reasons (R189). -/

/-- A reason that is new for the frame: noted in it and counted. -/
def reasonNoted (s : State) (id r : Nat) : State :=
  setF s id { getF s id with reasons := (getF s id).reasons ++ [r] }

theorem raiseReason_eq (s : State) (id r : Nat) : raiseReason s id r =
    if (getF s id).reasons.contains r then s
    else bump (reasonNoted s id r) (frgB (getF s id).pipe + R.FRG_EXC_RAISED + 16 * (r % 64)) := rfl

theorem fl_raiseReason (s : State) (id r : Nat) : (raiseReason s id r).fl = s.fl := by
  rw [raiseReason_eq]
  split
  · rfl
  · exact (notEvents_fl _ _ (notEvents_bump ..)).trans rfl

theorem tm_raiseReason (s : State) (id r : Nat) : (raiseReason s id r).tm = s.tm := by
  rw [raiseReason_eq]
  split
  · rfl
  · exact (notEvents_tm _ _ (notEvents_bump ..)).trans rfl

theorem statusGrows_raiseReason (s : State) (id r : Nat) : StatusGrows s (raiseReason s id r) := by
  rw [raiseReason_eq]
  split
  · exact fun _ _ h => h
  · rw [Nat.add_assoc]
    have counted := statusGrows_bump (reasonNoted s id r) (0x203 + 16 * (getF s id).pipe)
      (o := R.FRG_EXC_RAISED + 16 * (r % 64)) (by simp only [R.FRG_EXC_RAISED]; omega) (by simp only [R.FRG_EXC_RAISED]; omega)
    exact counted

theorem fl_flowReason (s : State) (id r pc code : Nat) : (flowReason s id r pc code).fl = s.fl := fl_raiseReason ..
theorem tm_flowReason (s : State) (id r pc code : Nat) : (flowReason s id r pc code).tm = s.tm := tm_raiseReason ..
theorem statusGrows_flowReason (s : State) (id r pc code : Nat) : StatusGrows s (flowReason s id r pc code) :=
  have noted : StatusGrows s (modF s id (fun f => { f with excPC := pc, excCode := code })) := fun _ _ h => h
  noted.trans (statusGrows_raiseReason _ id r)

/-! Aborts (R189). -/

/-- LAST_ABORT shows the routine of context `k`, aborted for reason `r`. -/
def abortShown (s : State) (k r : Nat) : State :=
  let b := flowB (ctxPipe k)
  let s1 := fs (fs s b F.FS_LAST_ABORT_REASON r) b F.FS_LAST_ABORT_ADDR (getC s k).pc
  let s2 := fs (fs s1 b F.FS_LAST_ABORT_ENGINE (k / 8 % 64)) b F.FS_LAST_ABORT_CONTEXT (k % 8)
  wr64 s2 (b + R.FS_LAST_ABORT_PLY) (plyNat s2)

theorem notEvents_abortShown (s : State) (k r : Nat) : notEvents (abortShown s k r) = notEvents s := by
  unfold abortShown
  simp only [notEvents_fs, notEvents_wr64]

/-- The abort shown, counted and raised. -/
def abortNoted (s : State) (k r : Nat) : State :=
  raise (countReason (abortShown s k r) (ctxPipe k) r) (fsPage (ctxPipe k)) evABORT

theorem notEvents_abortNoted (s : State) (k r : Nat) : notEvents (abortNoted s k r) = notEvents s :=
  ((notEvents_raise ..).trans (notEvents_bump ..)).trans (notEvents_abortShown s k r)

theorem abortCtx_eq {s : State} {k r : Nat} (h : r ≠ abMODE_ABORT) : abortCtx s k r =
    ftResume (outDefault (flowReason (letGo (abortNoted s k r) k) (getC s k).frame r (getC s k).pc
      (beAt (getC s k).metaB 0x85 1)) (getC s k).frame (getC s k).entry) :=
  congrArg ftResume (if_neg h)

/-- The edge at which a packet whose routine is over leaves: two plies after its entry, or the next (R184). -/
def leaveEdge (s : State) (entry : Nat) : Nat := max (entry + 2) (plyNat s + 1)

/-- An aborted routine frees its context, and the packet leaves by its default action. -/
theorem left_abortCtx {s : State} {k r : Nat} (h : r ≠ abMODE_ABORT) : LeftFlow (abortCtx s k r) k (getC s k).frame
    { kind := 1, edge := leaveEdge s (getC s k).entry } := by
  rw [abortCtx_eq h]
  have hply : plyNat (flowReason (letGo (abortNoted s k r) k) (getC s k).frame r (getC s k).pc
      (beAt (getC s k).metaB 0x85 1)) = plyNat s :=
    plyNat_of_tm ((tm_flowReason ..).trans ((tm_letGo ..).trans (notEvents_tm _ _ (notEvents_abortNoted s k r))))
  have hfree := (getC_of_fl (fl_flowReason (letGo (abortNoted s k r) k) (getC s k).frame r (getC s k).pc
      (beAt (getC s k).metaB 0x85 1)) k).trans (getC_letGo ..)
  unfold outDefault leaveEdge
  rw [hply]
  exact (left_setOut hfree ..).resumed

/-! END (R186). -/

/-- The edits and the record of the frame as the routine leaves them. -/
def frameEdited (s : State) (k : Nat) : State :=
  modF s (getC s k).frame (fun f => { f with edit := slice (getC s k).metaB 0x88 56, record := viewRec (getC s k) })

/-- The frame edited, and the end counted in the counter at offset `o`. -/
def endCounted (s : State) (k o : Nat) : State := bump (frameEdited s k) (flowB (ctxPipe k) + o)

theorem fl_endCounted (s : State) (k o : Nat) : (endCounted s k o).fl = s.fl :=
  (notEvents_fl _ _ (notEvents_bump (frameEdited s k) (flowB (ctxPipe k) + o))).trans rfl
theorem hbm_endCounted (s : State) (k o : Nat) : (endCounted s k o).hbm = s.hbm :=
  (notEvents_hbm _ _ (notEvents_bump (frameEdited s k) (flowB (ctxPipe k) + o))).trans rfl
theorem tm_endCounted (s : State) (k o : Nat) : (endCounted s k o).tm = s.tm :=
  (notEvents_tm _ _ (notEvents_bump (frameEdited s k) (flowB (ctxPipe k) + o))).trans rfl

/-- A context with its frame `f` waits for its commit, END of kind `e`. -/
def awaitsCommit (c : Ctx) (f : Frame) (e : Nat) : Ctx := { c with ended := e + 1, endLen := endLen f }

theorem endRoutine_commit (s : State) (k : Nat) :
    endRoutine s k 0 = setC (endCounted s k R.FS_COMMITS) k (awaitsCommit (getC s k) (getF s (getC s k).frame) 0) := by
  unfold endRoutine
  extract_lets c pipe f s1 s2 s3
  have h2 : s2 = endCounted s k R.FS_COMMITS := by
    dsimp only [s2, s1]
    rw [if_neg (by decide), if_pos (by decide)]
    rfl
  have h3 : s3 = s2 := if_neg (by decide)
  show setC s3 k (awaitsCommit c f 0) = _
  rw [h3, h2]

theorem endRoutine_discard (s : State) (k : Nat) : endRoutine s k 1 =
    ftResume (setOut (letGo (endCounted s k R.FS_DISCARDS) k) (getC s k).frame
      (verdictOut (getC s k) (leaveEdge (endCounted s k R.FS_DISCARDS) (getC s k).entry))) := by
  unfold endRoutine
  extract_lets c pipe f s1 s2 s3
  have h2 : s2 = endCounted s k R.FS_DISCARDS := by
    dsimp only [s2, s1]
    rw [if_neg (by decide), if_neg (by decide)]
    rfl
  have h3 : s3 = s2 := if_neg (by decide)
  show ftResume (setOut (letGo s3 k) c.frame (verdictOut c (leaveEdge s3 c.entry))) = _
  rw [h3, h2]

theorem endRoutine_except (s : State) (k : Nat) :
    endRoutine s k 2 = abortCtx (bump s (flowB (ctxPipe k) + R.FS_DISCARDS)) k abROUTINE_EXCEPT := by
  unfold endRoutine
  extract_lets c pipe f s1 s2 s3
  have h2 : s2 = bump s (flowB (ctxPipe k) + R.FS_DISCARDS) := by
    dsimp only [s2, s1]
    rw [if_pos rfl, if_neg (by decide)]
  have h3 : s3 = s2 := if_neg (by decide)
  show abortCtx s3 k abROUTINE_EXCEPT = _
  rw [h3, h2]

theorem getC_endRoutine_commit (s : State) (k : Nat) :
    getC (endRoutine s k 0) k = awaitsCommit (getC s k) (getF s (getC s k).frame) 0 := by
  rw [endRoutine_commit, getC_setC]

theorem getC_endRoutine_commit_ne (s : State) {k j : Nat} (h : j ≠ k) : getC (endRoutine s k 0) j = getC s j := by
  rw [endRoutine_commit, getC_setC_ne _ _ h, getC_of_fl (fl_endCounted ..)]

theorem hbm_endRoutine_commit (s : State) (k : Nat) : (endRoutine s k 0).hbm = s.hbm := by
  rw [endRoutine_commit]
  exact hbm_endCounted ..

theorem getC_endRoutine_commitExcept (s : State) (k : Nat) :
    getC (endRoutine s k 3) k = awaitsCommit (getC s k) (getF s (getC s k).frame) 3 := by
  unfold endRoutine
  extract_lets c pipe f s1 s2 s3
  exact getC_setC s3 k (awaitsCommit c f 3)

theorem leaveEdge_of_tm {s t : State} (h : t.tm = s.tm) (entry : Nat) : leaveEdge t entry = leaveEdge s entry := by
  unfold leaveEdge
  rw [plyNat_of_tm h]

theorem left_discard (s : State) (k : Nat) : LeftFlow (endRoutine s k 1) k (getC s k).frame
    (verdictOut (getC s k) (leaveEdge s (getC s k).entry)) := by
  rw [endRoutine_discard, leaveEdge_of_tm (tm_endCounted s k _)]
  exact (left_setOut (getC_letGo ..) ..).resumed

theorem left_except (s : State) (k : Nat) : LeftFlow (endRoutine s k 2) k (getC s k).frame
    { kind := 1, edge := leaveEdge s (getC s k).entry } := by
  have hrest := notEvents_bump s (flowB (ctxPipe k) + R.FS_DISCARDS)
  have hleft := left_abortCtx (s := bump s (flowB (ctxPipe k) + R.FS_DISCARDS)) (k := k) (r := abROUTINE_EXCEPT) (by decide)
  rw [getC_of_fl (notEvents_fl _ _ hrest), leaveEdge_of_tm (notEvents_tm _ _ hrest)] at hleft
  rw [endRoutine_except]
  exact hleft

/-! The commit (R188). -/

theorem tm_ctrAdd (s : State) (pipe t i n : Nat) : (ctrAdd s pipe t i n).tm = s.tm := by
  unfold ctrAdd
  split
  · dsimp only
    split
    · exact (notEvents_tm _ _ (notEvents_raise ..)).trans rfl
    · rfl
  · rfl

theorem tm_addAll (pipe : Nat) (s : State) (j : JEnt) : (addAll pipe s j).tm = s.tm := by
  cases j with
  | add t i n => exact tm_ctrAdd s pipe t i n
  | store o b => rfl
  | update o b => rfl
  | learn => rfl

theorem tm_bump (s : State) (a : Nat) : (bump s a).tm = s.tm := notEvents_tm _ _ (notEvents_bump s a)
theorem tm_raise (s : State) (page b : Nat) : (raise s page b).tm = s.tm := notEvents_tm _ _ (notEvents_raise s page b)

theorem tm_counted (s : State) (a page b : Nat) : (raise (bump s a) page b).tm = s.tm := (tm_raise ..).trans (tm_bump ..)

theorem tm_setCls (s : State) (c : ClsSt) : (setCls s c).tm = s.tm := rfl
theorem tm_setExcLevel (s : State) (pipe r v : Nat) : (setExcLevel s pipe r v).tm = s.tm := rfl

theorem tm_deliver (s : State) (d : Delivery) : (deliver s d).tm = s.tm := by
  unfold deliver
  extract_lets r lim l s1 d1 q
  have hlim : ∀ t, (lim t).tm = t.tm := fun t => tm_counted t _ _ _
  have h1 : s1.tm = s.tm := tm_setExcLevel ..
  split
  · exact hlim s
  · split
    · split
      · exact (tm_counted ..).trans h1
      · exact (tm_setCls ..).trans h1
    · exact (tm_setCls ..).trans h1
    · exact (hlim s1).trans h1

theorem tm_notify (s : State) (code pipe idx : Nat) (r : List Byte) : (notify s code pipe idx r).tm = s.tm := by
  unfold notify
  dsimp only
  rw [tm_deliver, tm_bump]
  rfl

/-- The index entry of a learned record written, its learn committed. -/
def entryInserted (s : State) (idx : Nat) : State :=
  match s.fl.pend.find? (fun p => p.idx == idx) with
  | some p =>
    let s := writeEntry s p.slot (mkEntry p.table idx (sigOf p.table p.key))
    setFl s { s.fl with pend := s.fl.pend.map (fun q => if q.idx = idx then { q with ctx := none } else q) }
  | none => s

theorem tm_entryInserted (s : State) (idx : Nat) : (entryInserted s idx).tm = s.tm := by
  unfold entryInserted
  split <;> rfl

theorem tm_insertLearned (s : State) (pipe idx : Nat) (r : List Byte) : (insertLearned s pipe idx r).tm = s.tm := by
  unfold insertLearned
  extract_lets s1 f s2 s3
  have h1 : s1.tm = s.tm := tm_entryInserted s idx
  have h3 : s3.tm = s.tm := (tm_bump ..).trans h1
  split
  · exact (tm_notify ..).trans h3
  · exact h3

theorem tm_modF (s : State) (id : Nat) (g : Frame → Frame) : (modF s id g).tm = s.tm := rfl

theorem tm_commitJournal (s : State) (k : Nat) : (commitJournal s k).tm = s.tm := by
  unfold commitJournal
  extract_lets c pipe s1
  have h1 : s1.tm = s.tm := foldl_keeps State.tm (tm_addAll pipe) c.journal s
  split
  · exact h1
  · extract_lets way r auto a dirty s2 s3 s4
    have h2 : s2.tm = s1.tm := ((onlyDeck_setWay ..).trans (onlyDeck_touchWay ..)).tm
    have h3 : s3.tm = s2.tm := by
      dsimp only [s3]
      split
      · exact tm_counted ..
      · rfl
    have h4 : s4.tm = s.tm := (tm_modF ..).trans (h3.trans (h2.trans h1))
    split
    · exact (tm_insertLearned ..).trans h4
    · exact h4

/-- A context that waits for its commit, with its journal in force. -/
theorem commitCtx_eq {s : State} {k : Nat} (hb : (getC s k).busy = true) (he : (getC s k).ended = 1 ∨ (getC s k).ended = 4) :
    commitCtx s k = ftResume (showFlow (freeCtx (setOut (commitJournal s k) (getC s k).frame
      (verdictOut (getC s k) (leaveEdge (commitJournal s k) (getC s k).entry))) k) (ctxPipe k)) := by
  unfold commitCtx
  dsimp only
  rw [if_neg fun h => h.elim (fun hn => hn hb) fun ⟨h1, h4⟩ => he.elim h1 h4]
  rfl

theorem left_commitCtx {s : State} {k : Nat} (hb : (getC s k).busy = true)
    (he : (getC s k).ended = 1 ∨ (getC s k).ended = 4) : LeftFlow (commitCtx s k) k (getC s k).frame
      (verdictOut (getC s k) (leaveEdge s (getC s k).entry)) := by
  rw [commitCtx_eq hb he, leaveEdge_of_tm (tm_commitJournal s k)]
  refine LeftFlow.resumed (LeftFlow.of_onlyStore ⟨getC_freeCtx .., ?_⟩ (onlyDeck_showFlow ..).toOnlyStore)
  rw [outs_freeCtx]
  exact outs_setOut ..

/-! The deadline (R183). -/

theorem left_deadlineOp {s : State} {id k : Nat}
    (h : s.fl.ctxs.find? (fun e => e.2.busy && e.2.frame == id) = some (k, getC s k)) (he : (getC s k).ended = 0)
    (hd : deadline (getC s k).entry (getC s k).missDl ≤ plyNat s) : LeftFlow (deadlineOp s id) k id
      { kind := 1, edge := leaveEdge s (getC s k).entry } := by
  have hid : (getC s k).frame = id := by
    have := List.find?_some h
    simp only [Bool.and_eq_true, beq_iff_eq] at this
    exact this.2
  unfold deadlineOp
  rw [h]
  dsimp only
  rw [if_pos ⟨he, hd⟩, ← hid]
  exact left_abortCtx (by split <;> decide)

/-! Dispatch (R180, R181). -/

/-- An entering packet, its entry enabled and decoded, is placed on the free context. -/
theorem dispatchOp_places {s : State} {pipe id k : Nat} (h0 : idled s (fsPage pipe) = false)
    (h1 : idled s (fsPage pipe + 1) = false) (hq : tget (fun _ => []) s.fl.queue pipe = []) (hid : entering s pipe = some id)
    (hk : freeContext s pipe = some k) (hen : fgb s (flowB pipe) F.FS_FS_CTRL_DISPATCH_EN = true)
    (he : (entryWord s pipe (getF s id).verdict.entry).getLsbD 15 = true)
    (hu : s.fl.undecoded ≠ some (bitsOf (entryWord s pipe (getF s id).verdict.entry) 0 15)) :
    dispatchOp s pipe = placeOn (modF s id (fun f => { f with stage := .flow })) k id := by
  have hen' : fgb (modF s id (fun f => { f with stage := .flow })) (flowB pipe) F.FS_FS_CTRL_DISPATCH_EN = true := hen
  have hu' : (modF s id (fun f => { f with stage := .flow })).fl.undecoded ≠
    some (bitsOf (entryWord s pipe (getF s id).verdict.entry) 0 15) := hu
  unfold dispatchOp
  dsimp only
  rw [h0, h1, hq, hk, hid]
  simp only [Bool.or_false, Bool.false_eq_true, if_false]
  rw [if_neg (by rw [hen', he]; decide), if_neg hu']

/-- The context of a packet placed. -/
def placedCtx (s : State) (k id : Nat) : Ctx :=
  let f := getF s id
  { busy := true, frame := id, entry := f.since + 1, order := s.fl.order + 1,
    pc := bitsOf (entryWord s (ctxPipe k) f.verdict.entry) 0 15, key := List.replicate 64 0, scratch := List.replicate 64 0,
    metaB := metaBytes f f.verdict.entry (f.cap.tq + (if f.metered then 4 else 0)), waitCycle := cycleNow s,
    waitPly := plyNat s }

/-- The packet on its context, in the flow stage. -/
def placed (s : State) (k id : Nat) : State :=
  modF (setC (setFl s { s.fl with order := s.fl.order + 1 }) k (placedCtx s k id)) id (fun f => { f with stage := .flow })

theorem placeOn_eq (s : State) (k id : Nat) : placeOn s k id =
    showFlow (bump (placed s k id) (flowB (ctxPipe k) + R.FS_ROUTINES)) (ctxPipe k) := rfl

theorem notEvents_showFlow (s : State) (pipe : Nat) : notEvents (showFlow s pipe) = notEvents s := by
  unfold showFlow
  simp only [notEvents_peak, notEvents_fs]

theorem notEvents_placeOn (s : State) (k id : Nat) : notEvents (placeOn s k id) = notEvents (placed s k id) := by
  rw [placeOn_eq, notEvents_showFlow, notEvents_bump]

theorem getC_placeOn (s : State) (k id : Nat) : getC (placeOn s k id) k = placedCtx s k id := by
  rw [getC_of_fl (notEvents_fl _ _ (notEvents_placeOn s k id))]
  exact getC_setC ..

theorem getC_placeOn_ne (s : State) {k j : Nat} (id : Nat) (h : j ≠ k) : getC (placeOn s k id) j = getC s j := by
  rw [getC_of_fl (notEvents_fl _ _ (notEvents_placeOn s k id))]
  exact getC_setC_ne _ _ h

theorem stage_placeOn (s : State) (k id : Nat) : (getF (placeOn s k id) id).stage = .flow := by
  rw [getF_of_frames (notEvents_frames _ _ (notEvents_placeOn s k id)), placed, getF_modF]

theorem hbm_placeOn (s : State) (k id : Nat) : (placeOn s k id).hbm = s.hbm :=
  (notEvents_hbm _ _ (notEvents_placeOn s k id)).trans rfl

/-! An issued END. -/

theorem microOp_ends {s : State} {pipe engine k : Nat} {w : Word} {d : Ctx} (h : Issues s pipe engine k w d)
    (hs : uSeq w = sEND) {e : Nat} (he : bitsOf w 0 2 = e) :
    microOp s pipe engine sEND e = endRoutine (slotsDone s k w d (getC s k).stack) k e := by
  rw [microOp_issues h hs (fun _ => he), issueMicro_issued h (fun hw => absurd (hs.symm.trans hw) (by decide)) (nextAddr_end hs)]
  unfold microGoes
  rw [if_pos hs, he]

/-- Settles O31: each way on and off a context, with the packet's verdict or its default action. -/
theorem routinesStartAndEnd : Obligations.RoutinesStartAndEnd := by
  intro s
  refine ⟨fun pipe id k h0 h1 hq hid hk hp hen he hu => ?_, fun pipe engine k w d h hs => ?_, fun k hb he => ?_,
    fun id k h he hd => ?_⟩
  · refine runs_kept (exec_routineDispatch pipe s) ?_
    rw [dispatchOp_places h0 h1 hq hid hk hen he hu]
    have hctx := getC_placeOn (modF s id (fun f => { f with stage := .flow })) k id
    have hframe := getF_modF s id (fun f => { f with stage := .flow })
    unfold placedCtx at hctx
    rw [hframe, hp] at hctx
    simp only [getC_kept, getF_kept, hbm_kept]
    exact ⟨congrArg Ctx.busy hctx, congrArg Ctx.frame hctx, congrArg Ctx.pc hctx, congrArg Ctx.entry hctx, stage_placeOn ..,
      fun j hj => getC_placeOn_ne _ id hj, hbm_placeOn ..⟩
  · obtain ⟨hctx, hothers, hframes, hhbm, htm⟩ := ran_slotsDone s k w d (getC s k).stack
    have hends := fun e he => microOp_ends h hs (e := e) he
    refine ⟨fun he => ?_, fun he => ?_, fun he => ?_, fun he => ?_⟩
    · refine runs_kept (exec_uwCommit pipe engine s) ?_
      rw [hends 0 he]
      have hc := getC_endRoutine_commit (slotsDone s k w d (getC s k).stack) k
      rw [hctx, getF_of_frames hframes] at hc
      simp only [getC_kept, hbm_kept]
      refine ⟨(congrArg Ctx.ended hc).trans rfl, (congrArg Ctx.endLen hc).trans rfl, (congrArg Ctx.journal hc).trans rfl,
        fun j hj => ?_, (hbm_endRoutine_commit ..).trans hhbm⟩
      exact (getC_endRoutine_commit_ne _ hj).trans (hothers j hj)
    · refine runs_kept (exec_uwDiscard pipe engine s) ?_
      rw [hends 1 he]
      have hleft := left_discard (slotsDone s k w d (getC s k).stack) k
      rw [hctx, leaveEdge_of_tm htm] at hleft
      exact hleft.wrapped s
    · refine runs_kept (exec_uwExcept pipe engine s) ?_
      rw [hends 2 he]
      have hleft := left_except (slotsDone s k w d (getC s k).stack) k
      rw [hctx, leaveEdge_of_tm htm] at hleft
      exact hleft.wrapped s
    · refine runs_kept (exec_uwCommitExcept pipe engine s) ?_
      rw [hends 3 he]
      have hc := getC_endRoutine_commitExcept (slotsDone s k w d (getC s k).stack) k
      rw [hctx] at hc
      simp only [getC_kept]
      exact ⟨(congrArg Ctx.ended hc).trans rfl, (congrArg Ctx.journal hc).trans rfl⟩
  · exact runs_kept (exec_journalCommit k s) ((left_commitCtx hb he).wrapped s)
  · exact runs_kept (exec_deadlineExpiry id s) ((left_deadlineOp h he hd).wrapped s)

end Sys2Proof.Machine
end

section
/-! O33: the replies of FLOW_FIND and FLOW_LEARN (R249-R254). -/

namespace Sys2Proof.Machine

open Sys2Proof

/-! The answer to a request. -/

theorem flowUpset_none (s : State) (k : Nat) (r : Req) : flowUpset s k r 0 = (s, false) := rfl

theorem flowTry_held (s : State) (k : Nat) {r : Req} {i : Nat} (h : r.got = some i) :
    flowTry s k r = ⟨s, if r.missed then 3 else 2, i⟩ := by
  unfold flowTry
  rw [h]

theorem flowTry_first (s : State) (k : Nat) {r : Req} (h : r.got = none) (hw : r.waiting = false) : flowTry s k r =
    if r.op = 2 then learnTry s k (ctxPipe k) r.table r.key else findTry s (ctxPipe k) r.table r.key := by
  unfold flowTry turnOf
  rw [h, hw]
  rfl

theorem findTry_off {s : State} {t : Nat} (h : tableOn s t = false) (pipe : Nat) (key : List Byte) :
    findTry s pipe t key = ⟨s, 4, noFlow⟩ := by
  unfold findTry
  rw [h]
  rfl

theorem learnTry_off {s : State} {t : Nat} (h : tableOn s t = false) (k pipe : Nat) (key : List Byte) :
    learnTry s k pipe t key = ⟨s, 6, noFlow⟩ := by
  unfold learnTry
  rw [findTry_off h, h]
  rfl

/-- What the reply makes of its answer `a`, by its status. -/
def answerDone (s : State) (k kind : Nat) (r : Req) (a : Ans) : State :=
  match a.status with
  | 0 =>
    let held : Bool := match locate s (ctxPipe k) r.table r.key with
      | .deck w | .other w => isBound s (getWay s w).idx
      | .pending => true
      | _ => false
    modC s k (fun c => setFlowReq c { r with waiting := r.waiting || (r.got.isNone && held) })
  | 6 => learnFail a.st k
  | 5 =>
    match journal (getC (flowAnswer a.st k kind a) k) .learn with
    | .error e => abortCtx (flowAnswer a.st k kind a) k e
    | .ok c => setC (flowAnswer a.st k kind a) k c
  | _ => flowAnswer a.st k kind a

/-- A reply that no upset meets. -/
theorem flowReplyOp_eq {s : State} {k kind : Nat} {r : Req} (h : reqOf (getC s k) kind = some r) :
    flowReplyOp s k kind 0 = answerDone s k kind r (flowTry s k r) := by
  unfold flowReplyOp
  rw [h]
  dsimp only
  rw [flowUpset_none]
  dsimp only
  rw [if_neg Bool.false_ne_true, h]
  rfl

theorem answerDone_fails (s : State) (k kind : Nat) (r : Req) (u : State) (idx : Nat) :
    answerDone s k kind r ⟨u, 6, idx⟩ = learnFail u k := rfl

theorem answerDone_learns (s : State) (k kind : Nat) (r : Req) {a : Ans} (ha : a.status = 5) {c : Ctx}
    (hc : journal (getC (flowAnswer a.st k kind a) k) .learn = .ok c) :
    answerDone s k kind r a = setC (flowAnswer a.st k kind a) k c := by
  unfold answerDone
  rw [ha]
  dsimp only
  rw [hc]
  rfl

theorem answerDone_answers (s : State) (k kind : Nat) (r : Req) {a : Ans} (ha : a.status = 2 ∨ a.status = 3 ∨ a.status = 4) :
    answerDone s k kind r a = flowAnswer a.st k kind a := by
  unfold answerDone
  rcases ha with ha | ha | ha <;> rw [ha] <;> rfl

theorem reqOf_setReq (c : Ctx) (kind : Nat) (r : Option Req) : reqOf (setReq c kind r) kind = r := tget_tset_self ..

/-- A reply takes its request away. -/
theorem reqOf_replied (c : Ctx) (kind o n v : Nat) : reqOf (replied c kind o n v) kind = none := reqOf_setReq c kind none

/-! Binding. -/

/-- A HIT is counted. -/
def hitCounted (s : State) (k status : Nat) : State :=
  if status = 2 then perf (bump s (deckB (ctxPipe k) + R.DECK_HITS)) (0x209 + 16 * ctxPipe k) 0x30 1 else s

theorem notCounts_hitCounted (s : State) (k status : Nat) : notCounts (hitCounted s k status) = notCounts s := by
  unfold hitCounted
  split
  · exact (notCounts_perf ..).trans (notCounts_of_notEvents (notEvents_bump ..))
  · rfl

/-- FLOW_STATUS and the flow index in META. -/
def indexReplied (s : State) (k kind status idx : Nat) : State :=
  reply (reply (hitCounted s k status) k kind 0x14 1 status) k kind 0x10 4 idx

theorem getC_indexReplied (s : State) (k kind status idx : Nat) : getC (indexReplied s k kind status idx) k =
    replied (replied (getC s k) kind 0x14 1 status) kind 0x10 4 idx := by
  unfold indexReplied
  rw [getC_reply, getC_reply, getC_of_fl (fl_of_notCounts (notCounts_hitCounted s k status))]

theorem hbm_indexReplied (s : State) (k kind status idx : Nat) : (indexReplied s k kind status idx).hbm = s.hbm :=
  (hbm_of_notCounts (notCounts_hitCounted s k status) :)

/-- The flow index in the frame of context `k` as well. -/
def indexTold (s : State) (k kind status idx : Nat) : State :=
  modF (indexReplied s k kind status idx) (getC (indexReplied s k kind status idx) k).frame (fun f => { f with flowIdx := idx })

theorem flowAnswer_eq (s : State) (k kind : Nat) {a : Ans} (h : a.status ≠ 4) :
    flowAnswer s k kind a = bindRec (indexTold s k kind a.status a.idx) k a.idx (a.status = 5) := if_neg h

theorem flowAnswer_absent (s : State) (k kind : Nat) {a : Ans} (h : a.status = 4) :
    flowAnswer s k kind a = reply s k kind 0x14 1 4 := by
  have hit : hitCounted s k a.status = s := if_neg (by omega)
  exact (if_pos h).trans (congrArg (fun u => reply u k kind 0x14 1 4) hit)

/-- A context to which the record `r` at `idx` is bound. -/
def boundCtx (c : Ctx) (idx : Nat) (r : List Byte) (learned : Bool) : Ctx :=
  { c with bound := some idx, record := r, learned := learned }

theorem journal_boundCtx (c : Ctx) (idx : Nat) (r : List Byte) (learned : Bool) :
    (boundCtx c idx r learned).journal = c.journal := rfl
theorem journal_replied (c : Ctx) (kind o n v : Nat) : (replied c kind o n v).journal = c.journal := rfl

theorem getC_bindRec (s : State) (k idx : Nat) (learned : Bool) : getC (bindRec s k idx learned) k =
    boundCtx (getC s k) idx (curRec (setBound s idx (some k)) idx) learned := getC_modC ..

theorem boundTo_setBound (s : State) (idx k : Nat) : boundTo (setBound s idx (some k)) idx = some k := by
  have hself : tget (fun _ => 0) (setBound s idx (some k)).fl.bound idx = k + 1 :=
    tget_tset_self (fun _ => 0) s.fl.bound idx (k + 1)
  unfold boundTo
  rw [hself]
  rfl

theorem boundTo_modC (s : State) (k idx : Nat) (g : Ctx → Ctx) : boundTo (modC s k g) idx = boundTo s idx := rfl

theorem boundTo_bindRec (s : State) (k idx : Nat) (learned : Bool) : boundTo (bindRec s k idx learned) idx = some k :=
  (boundTo_modC ..).trans (boundTo_setBound s idx k)

theorem frames_bindRec (s : State) (k idx : Nat) (learned : Bool) : (bindRec s k idx learned).frames = s.frames := rfl
theorem hbm_bindRec (s : State) (k idx : Nat) (learned : Bool) : (bindRec s k idx learned).hbm = s.hbm := rfl

theorem getC_indexTold (s : State) (k kind status idx : Nat) :
    getC (indexTold s k kind status idx) k = getC (indexReplied s k kind status idx) k := rfl
theorem hbm_indexTold (s : State) (k kind status idx : Nat) :
    (indexTold s k kind status idx).hbm = (indexReplied s k kind status idx).hbm := rfl

/-- From `u` to `t` the record at `idx` was bound to context `k`, for its request of kind `kind`. -/
structure Binds (u t : State) (k kind status idx : Nat) : Prop where
  ctx : ∃ r, getC t k =
    boundCtx (replied (replied (getC u k) kind 0x14 1 status) kind 0x10 4 idx) idx r (decide (status = 5))
  bound : boundTo t idx = some k
  flowIdx : (getF t (getC u k).frame).flowIdx = idx
  hbm : t.hbm = u.hbm

theorem binds_flowAnswer (s : State) (k kind : Nat) {a : Ans} (h : a.status ≠ 4) :
    Binds s (flowAnswer s k kind a) k kind a.status a.idx := by
  rw [flowAnswer_eq s k kind h]
  have hc := getC_indexReplied s k kind a.status a.idx
  have hframe : (getC (indexReplied s k kind a.status a.idx) k).frame = (getC s k).frame := by rw [hc]; rfl
  refine ⟨⟨curRec (setBound (indexTold s k kind a.status a.idx) a.idx (some k)) a.idx, ?_⟩, boundTo_bindRec .., ?_, ?_⟩
  · rw [getC_bindRec, getC_indexTold, hc]
  · rw [getF_of_frames (frames_bindRec ..), indexTold, hframe, getF_modF]
  · rw [hbm_bindRec, hbm_indexTold, hbm_indexReplied]

/-- No journal entry merges with that of a learn. -/
theorem journal_learn {c : Ctx} (h : c.journal.length < 32) : journal c .learn = .ok { c with journal := c.journal ++ [.learn] } := by
  unfold journal
  dsimp only
  rw [if_neg (by simp), if_pos h]

/-! A learn that fails (R254). -/

/-- The failure counted and raised. -/
def failNoted (s : State) : State := raise (bump s (pgFT + R.FT_LEARN_FAILS)) 0x340 evFT_LEARN_FAIL

theorem evStatus_failNoted (s : State) : evStatus (failNoted s) 0x340 evFT_LEARN_FAIL = true :=
  evStatus_raise _ _ _ rfl (by decide) (by decide)

/-- The packet of a failed learn leaves by its table action `v`. -/
def failOut (v : Verdict) (edge : Nat) : FlowOut :=
  { kind := 0, verdict := 1, egress := v.egress, egKind := v.kind, cls := v.cls, edge := edge }

/-- A failed learn raises its event and perhaps its reason, and lets go. -/
theorem learnFail_eq (s : State) (k : Nat) : ∃ u, StatusGrows (failNoted s) u ∧ learnFail s k =
    ftResume (setOut (letGo u k) (getC s k).frame
      (failOut (getF s (getC s k).frame).verdict (leaveEdge (letGo u k) (getC s k).entry))) := by
  unfold learnFail
  extract_lets c v s1 t on s2 s3
  refine ⟨s2, ?_, rfl⟩
  dsimp only [s2]
  split
  · exact statusGrows_flowReason s1 _ _ _ _
  · exact fun _ _ h => h

/-- A failed learn frees the context and raises its event; the packet leaves by its table action. -/
theorem learnFail_leaves (s : State) (k : Nat) : evStatus (learnFail s k) 0x340 evFT_LEARN_FAIL = true ∧
    ∃ edge, LeftFlow (learnFail s k) k (getC s k).frame (failOut (getF s (getC s k).frame).verdict edge) := by
  obtain ⟨u, grows, heq⟩ := learnFail_eq s k
  rw [heq]
  have hfree := getC_letGo u k
  have freed := grows.trans (statusGrows_letGo u k)
  generalize letGo u k = t at hfree freed
  have out : StatusGrows t (setOut t (getC s k).frame
    (failOut (getF s (getC s k).frame).verdict (leaveEdge t (getC s k).entry))) := fun _ _ h => h
  exact ⟨((freed.trans out).trans (onlyStore_ftResume _).status) _ _ (evStatus_failNoted s), _,
    (left_setOut hfree ..).resumed⟩

/-! The replies of a request that holds nothing yet, and need not wait. -/

section
variable {s : State} {k : Nat} {r : Req}

theorem flowReplyOp_absent (hr : reqOf (getC s k) 0 = some r) (hg : r.got = none) (hw : r.waiting = false) (hop : r.op = 1)
    (hoff : tableOn s r.table = false) : flowReplyOp s k 0 0 = reply s k 0 0x14 1 4 := by
  have htry : flowTry s k r = ⟨s, 4, noFlow⟩ := by
    rw [flowTry_first s k hg hw, if_neg (by rw [hop]; decide), findTry_off hoff]
  rw [flowReplyOp_eq hr, htry, answerDone_answers _ _ _ _ (by simp), flowAnswer_absent _ _ _ rfl]

theorem flowReplyOp_fails (hr : reqOf (getC s k) 5 = some r) (hg : r.got = none) (hw : r.waiting = false) (hop : r.op = 2)
    (hoff : tableOn s r.table = false) : flowReplyOp s k 5 0 = learnFail s k := by
  rw [flowReplyOp_eq hr, flowTry_first s k hg hw, if_pos hop, learnTry_off hoff, answerDone_fails]

/-- A learn that is made binds its record and enters the journal. -/
theorem flowReplyOp_learns (hr : reqOf (getC s k) 5 = some r) (hg : r.got = none) (hw : r.waiting = false) (hop : r.op = 2)
    {a : Ans} (hlearn : learnTry s k (ctxPipe k) r.table r.key = a) (ha : a.status = 5)
    (hj : (getC a.st k).journal.length < 32) : ∃ b, getC (flowReplyOp s k 5 0) k =
      { boundCtx (replied (replied (getC a.st k) 5 0x14 1 a.status) 5 0x10 4 a.idx) a.idx b true with
        journal := (getC a.st k).journal ++ [.learn] } := by
  obtain ⟨⟨b, hctx⟩, -⟩ := binds_flowAnswer a.st k 5 (a := a) (by omega)
  have hjournal : (getC (flowAnswer a.st k 5 a) k).journal = (getC a.st k).journal := by
    rw [hctx, journal_boundCtx, journal_replied, journal_replied]
  have hadd := journal_learn (c := getC (flowAnswer a.st k 5 a) k) (by rw [hjournal]; exact hj)
  refine ⟨b, ?_⟩
  rw [flowReplyOp_eq hr, flowTry_first s k hg hw, if_pos hop, hlearn, answerDone_learns s k 5 r ha hadd, getC_setC, hjournal,
    hctx, decide_eq_true ha]

/-- A request that holds a record has it bound. -/
theorem binds_flowReplyOp {kind i : Nat} (hr : reqOf (getC s k) kind = some r) (hg : r.got = some i) :
    Binds s (flowReplyOp s k kind 0) k kind (if r.missed then 3 else 2) i := by
  rw [flowReplyOp_eq hr, flowTry_held s k hg, answerDone_answers _ _ _ _ (by dsimp only; split <;> simp)]
  exact binds_flowAnswer s k kind (a := ⟨s, if r.missed then 3 else 2, i⟩) (by dsimp only; split <;> decide)

end

/-- Settles O33: the record that is found, or learned, is bound; a table that is not enabled has none and learns none. -/
theorem flowRepliesBindRecords : Obligations.FlowRepliesBindRecords := by
  intro s k r i c pipe bound
  have hbound : ∀ {kind : Nat}, reqOf c kind = some r → r.got = some i → bound (kept s (flowReplyOp s k kind 0)) kind := by
    intro kind hr hg
    obtain ⟨⟨b, hctx⟩, hto, hidx, hhbm⟩ := binds_flowReplyOp hr hg
    simp only [bound, getC_kept, boundTo_kept, getF_kept, hbm_kept]
    rw [hctx]
    exact ⟨rfl, hto, reqOf_replied (replied c kind 0x14 1 _) kind 0x10 4 i, hidx, decide_eq_false (by split <;> decide), rfl,
      hhbm⟩
  refine ⟨fun hr hg => ?_, fun hr hg hw hop hoff => ?_, fun hr hg => ?_, fun hr hg hw hop => ?_,
    fun hr hg hw hop hoff => ?_⟩
  · exact runs_kept (exec_flowReady k 0 s) (hbound hr hg)
  · have heq := flowReplyOp_absent hr hg hw hop hoff
    refine runs_kept (heq ▸ exec_flowReady k 0 s) ?_
    rw [getC_kept, getC_reply]
    exact ⟨reqOf_replied .., rfl, rfl, rfl⟩
  · exact runs_kept (exec_learnDone k 0 s) (hbound hr hg)
  · intro a ha hj
    obtain ⟨b, hctx⟩ := flowReplyOp_learns hr hg hw hop rfl ha hj
    refine runs_kept (exec_learnDone k 0 s) ?_
    rw [getC_kept]
    refine ⟨(congrArg Ctx.bound hctx).trans rfl, (congrArg Ctx.learned hctx).trans rfl, ?_⟩
    have hjournal := congrArg Ctx.journal hctx
    exact hjournal ▸ List.mem_append_right _ (List.mem_singleton.mpr rfl)
  · have heq := flowReplyOp_fails hr hg hw hop hoff
    refine runs_kept (heq ▸ exec_learnDone k 0 s) ?_
    obtain ⟨hev, edge, hleft⟩ := learnFail_leaves s k
    obtain ⟨hfree, hout⟩ := hleft.wrapped s
    rw [evStatus_kept]
    exact ⟨hfree, hev, _, hout, rfl, rfl, rfl⟩

end Sys2Proof.Machine
end

section
/-! O42: installs, writebacks and acknowledgements (R253-R257, R277). -/

namespace Sys2Proof.Machine

open Sys2Proof

/-! The Deck's ways. -/

theorem getWay_of_deck {s t : State} (h : t.fl.deck = s.fl.deck) (k : Nat) : getWay t k = getWay s k := by
  unfold getWay
  rw [h]

theorem getWay_setWay_ne (s : State) {k j : Nat} (w : Way) (h : j ≠ k) : getWay (setWay s k w) j = getWay s j :=
  tget_tset_ne _ _ _ _ _ h

theorem getWay_kept (s t : State) (k : Nat) : getWay (kept s t) k = getWay t k := rfl

theorem notEvents_setWb (s : State) (pipe : Nat) (l : List (Nat × List Byte)) :
    notEvents (setWb s pipe l) = notEvents (setFl s { s.fl with wbuf := tset (fun _ => []) s.fl.wbuf pipe l }) := by
  unfold setWb
  simp only [notEvents_peak, notEvents_fs]

theorem deck_setDir (s : State) (idx : Nat) (p : Option Nat) : (setDir s idx p).fl.deck = s.fl.deck := by
  unfold setDir
  split <;> rfl

theorem wbq_setDir (s : State) (idx : Nat) (p : Option Nat) : (setDir s idx p).fl.wbq = s.fl.wbq := by
  unfold setDir
  split <;> rfl

theorem wbuf_setDir (s : State) (idx : Nat) (p : Option Nat) : (setDir s idx p).fl.wbuf = s.fl.wbuf := by
  unfold setDir
  split <;> rfl

theorem fl_setWb (s : State) (pipe : Nat) (l : List (Nat × List Byte)) :
    (setWb s pipe l).fl = { s.fl with wbuf := tset (fun _ => []) s.fl.wbuf pipe l } := notEvents_fl _ _ (notEvents_setWb s pipe l)

theorem wbOf_setWb (s : State) (pipe : Nat) (l : List (Nat × List Byte)) : wbOf (setWb s pipe l) pipe = l := by
  unfold wbOf
  rw [fl_setWb]
  exact tget_tset_self ..

/-- With flow memory, the directory forgets a record that no Deck or buffer holds. -/
theorem residentIn_setDir_none {s : State} (h : s.fuse.hbm = true) (idx : Nat) : residentIn (setDir s idx none) idx = none := by
  have hself : tget (fun _ => 0) (setDir s idx none).fl.dir idx = 0 := by
    unfold setDir
    rw [if_pos h]
    exact tget_tset_self (fun _ => 0) s.fl.dir idx 0
  unfold residentIn
  rw [hself]
  rfl

/-! DECK_WRITEBACK (R255, R256). -/

/-- The record of way `k` of a Deck, as it waits to be written back. -/
def wayItem (s : State) (k : Nat) : WbItem :=
  { pipe := k / 65536, idx := (getWay s k).idx, record := (getWay s k).record, victim := false }

theorem writeBack_rest (s : State) (k : Nat) : notEvents (writeBack s k) =
    notEvents (setWay (setFl s { s.fl with wbq := s.fl.wbq ++ [wayItem s k] }) k { getWay s k with dirty := false }) :=
  notEvents_bump ..

theorem getWay_writeBack (s : State) (k : Nat) : getWay (writeBack s k) k = { getWay s k with dirty := false } := by
  rw [getWay_of_deck (congrArg FlowSt.deck (notEvents_fl _ _ (writeBack_rest s k))), getWay_setWay]

theorem getWay_writeBack_ne (s : State) {k j : Nat} (h : j ≠ k) : getWay (writeBack s k) j = getWay s j := by
  rw [getWay_of_deck (congrArg FlowSt.deck (notEvents_fl _ _ (writeBack_rest s k))), getWay_setWay_ne _ _ h]
  rfl

theorem wbq_writeBack (s : State) (k : Nat) : (writeBack s k).fl.wbq = s.fl.wbq ++ [wayItem s k] :=
  (congrArg FlowSt.wbq (notEvents_fl _ _ (writeBack_rest s k))).trans rfl
theorem sel_writeBack (s : State) (k : Nat) : (writeBack s k).fl.sel = s.fl.sel :=
  (congrArg FlowSt.sel (notEvents_fl _ _ (writeBack_rest s k))).trans rfl
theorem hbm_writeBack (s : State) (k : Nat) : (writeBack s k).hbm = s.hbm :=
  (notEvents_hbm _ _ (writeBack_rest s k)).trans rfl

/-- Way `k` taken off the list of its bank, with `ks` left on it. -/
def selTaken (s : State) (b : Nat) (ks : List Nat) : State :=
  setFl s { s.fl with sel := tset (fun _ => []) s.fl.sel b ks }

theorem getWay_selTaken (s : State) (b : Nat) (ks : List Nat) (k : Nat) : getWay (selTaken s b ks) k = getWay s k := rfl
theorem wbq_selTaken (s : State) (b : Nat) (ks : List Nat) : (selTaken s b ks).fl.wbq = s.fl.wbq := rfl
theorem hbm_selTaken (s : State) (b : Nat) (ks : List Nat) : (selTaken s b ks).hbm = s.hbm := rfl
theorem sel_selTaken (s : State) (b : Nat) (ks : List Nat) : tget (fun _ => []) (selTaken s b ks).fl.sel b = ks :=
  tget_tset_self (fun _ => []) s.fl.sel b ks

theorem writebackSlot_eq {s : State} {pipe bank k : Nat} {ks : List Nat} (hb : bank < 8)
    (h : tget (fun _ => []) s.fl.sel (pipe * 8 + bank) = k :: ks) : writebackSlot s pipe bank =
      if (getWay s k).valid && (getWay s k).dirty then writeBack (selTaken s (pipe * 8 + bank) ks) k
      else selTaken s (pipe * 8 + bank) ks := by
  unfold writebackSlot
  rw [if_neg (by omega), h]
  rfl

/-- From `s` to `t` way `k` left the list `b`, its record queued and marked clean where it was valid and dirty. -/
structure WrittenBack (s t : State) (b k : Nat) (ks : List Nat) : Prop where
  sel : tget (fun _ => []) t.fl.sel b = ks
  way : getWay t k = { getWay s k with dirty := (getWay s k).dirty && !(getWay s k).valid }
  others : ∀ j, j ≠ k → getWay t j = getWay s j
  hbm : t.hbm = s.hbm
  queue : t.fl.wbq = s.fl.wbq ++ (if (getWay s k).valid && (getWay s k).dirty then [wayItem s k] else [])

theorem writtenBack_slot {s : State} {pipe bank k : Nat} {ks : List Nat} (hb : bank < 8)
    (h : tget (fun _ => []) s.fl.sel (pipe * 8 + bank) = k :: ks) :
    WrittenBack s (writebackSlot s pipe bank) (pipe * 8 + bank) k ks := by
  rw [writebackSlot_eq hb h]
  cases hv : (getWay s k).valid && (getWay s k).dirty
  · rw [if_neg Bool.false_ne_true]
    have hclean : ((getWay s k).dirty && !(getWay s k).valid) = (getWay s k).dirty := by
      revert hv
      cases (getWay s k).valid <;> cases (getWay s k).dirty <;> decide
    refine ⟨sel_selTaken .., ?_, fun j _ => getWay_selTaken .., hbm_selTaken .., ?_⟩
    · rw [getWay_selTaken, hclean]
    · rw [wbq_selTaken, hv, if_neg Bool.false_ne_true, List.append_nil]
  · rw [if_pos rfl]
    obtain ⟨hvalid, hdirty⟩ := Bool.and_eq_true_iff.mp hv
    refine ⟨?_, ?_, fun j hj => ?_, ?_, ?_⟩
    · rw [sel_writeBack, sel_selTaken]
    · rw [getWay_writeBack, getWay_selTaken, hvalid, hdirty]
      rfl
    · rw [getWay_writeBack_ne _ hj, getWay_selTaken]
    · rw [hbm_writeBack, hbm_selTaken]
    · rw [wbq_writeBack, wbq_selTaken, hv, if_pos rfl]
      rfl

/-! WRITEBACK_ACK (R257). -/

/-- Queued record `i` off the queue and in flow memory. -/
def itemWritten (s : State) (i : WbItem) : State :=
  mwr (setFl s { s.fl with wbq := s.fl.wbq.erase i }) (arrayAt i.idx) i.record

theorem fl_itemWritten (s : State) (i : WbItem) : (itemWritten s i).fl = { s.fl with wbq := s.fl.wbq.erase i } := rfl
/-- A victim out of the writeback buffer and the directory. -/
def victimGone (s : State) (pipe idx : Nat) : State :=
  setDir (setWb s pipe ((wbOf s pipe).filter (fun e => decide (e.1 ≠ idx)))) idx none

theorem hbm_victimGone (s : State) (pipe idx : Nat) : (victimGone s pipe idx).hbm = s.hbm :=
  ((onlyDeck_setWb ..).trans (onlyDeck_setDir ..)).hbm
theorem deck_victimGone (s : State) (pipe idx : Nat) : (victimGone s pipe idx).fl.deck = s.fl.deck := by
  rw [victimGone, deck_setDir, fl_setWb]
theorem wbq_victimGone (s : State) (pipe idx : Nat) : (victimGone s pipe idx).fl.wbq = s.fl.wbq := by
  rw [victimGone, wbq_setDir, fl_setWb]
theorem wbOf_victimGone (s : State) (pipe idx : Nat) :
    wbOf (victimGone s pipe idx) pipe = (wbOf s pipe).filter (fun e => decide (e.1 ≠ idx)) := by
  have h : wbOf (victimGone s pipe idx) pipe = wbOf (setWb s pipe ((wbOf s pipe).filter (fun e => decide (e.1 ≠ idx)))) pipe := by
    rw [victimGone]
    exact congrArg (tget (fun _ => []) · pipe) (wbuf_setDir ..)
  rw [h, wbOf_setWb]
theorem residentIn_victimGone {s : State} (h : s.fuse.hbm = true) (pipe idx : Nat) :
    residentIn (victimGone s pipe idx) idx = none :=
  residentIn_setDir_none (by rw [(onlyDeck_setWb ..).fuse]; exact h) idx

theorem writebackAckOp_eq {s : State} {pipe : Nat} {i : WbItem} (h : s.fl.wbq.find? (fun i => i.pipe == pipe) = some i) :
    writebackAckOp s pipe = if i.victim && (wbOf s pipe).any (fun e => e.1 == i.idx) then
      victimGone (itemWritten s i) pipe i.idx else itemWritten s i := by
  unfold writebackAckOp
  rw [h]
  rfl

theorem mget_of_hbm {s t : State} (h : t.hbm = s.hbm) (a : Nat) : mget t a = mget s a := by
  unfold mget
  rw [h]

/-- The acknowledgement leaves the queue, the Decks and flow memory as the write does; a victim goes. -/
theorem writebackAckOp_writes {s : State} {pipe : Nat} {i : WbItem} (h : s.fl.wbq.find? (fun i => i.pipe == pipe) = some i) :
    (writebackAckOp s pipe).fl.wbq = s.fl.wbq.erase i ∧ (writebackAckOp s pipe).fl.deck = s.fl.deck ∧
      (writebackAckOp s pipe).hbm = (itemWritten s i).hbm := by
  rw [writebackAckOp_eq h]
  split
  · exact ⟨by rw [wbq_victimGone, fl_itemWritten], by rw [deck_victimGone, fl_itemWritten], hbm_victimGone ..⟩
  · exact ⟨rfl, rfl, rfl⟩

theorem writebackAckOp_victim {s : State} {pipe : Nat} {i : WbItem} (h : s.fl.wbq.find? (fun i => i.pipe == pipe) = some i)
    (hv : i.victim = true) (hb : ∃ e ∈ wbOf s pipe, e.1 = i.idx) :
    writebackAckOp s pipe = victimGone (itemWritten s i) pipe i.idx := by
  rw [writebackAckOp_eq h, if_pos]
  rw [hv, Bool.true_and, List.any_eq_true]
  obtain ⟨e, he, heq⟩ := hb
  exact ⟨e, he, beq_iff_eq.mpr heq⟩

/-! INDEX_WRITE_ACK (R253) and FLUSH_COMPLETE (R277). -/

theorem fl_showPend (s : State) : (showPend s).fl = s.fl := by
  unfold showPend
  exact notEvents_fl _ _ ((notEvents_peak ..).trans (notEvents_fs ..))

theorem hbm_showPend (s : State) : (showPend s).hbm = s.hbm := (onlyDeck_showPend s).hbm

/-- COUNT shows the pending keys; its peak stands in other bits. -/
theorem fg_showPend (s : State) : fg (showPend s) pgFT F.FT_PENDING_COUNT = s.fl.pend.length % 2 ^ 13 := by
  unfold showPend peak
  dsimp only
  split
  · rw [fg_fs_field _ _ F.FT_PENDING_PEAK _ _ F.FT_PENDING_COUNT rfl (by decide) (by decide)]
    exact fg_fs_self _ _ _ _ (by decide)
  · exact fg_fs_self _ _ _ _ (by decide)

/-- The keys of a committed learn off the pending table. -/
def unpendedKey (s : State) (p : PendKey) : State :=
  setFl s { s.fl with pend := s.fl.pend.filter (fun q => decide (q.idx ≠ p.idx)) }

theorem indexAck_eq {s : State} {p : PendKey} (h : s.fl.pend.find? (fun p => p.ctx.isNone) = some p) :
    indexAck s = showPend (unpendedKey s p) := by
  unfold indexAck
  rw [h]
  rfl

theorem fg_ftShown (s : State) (r : Nat) : fg (ftShown s r) pgFT F.FT_FT_STATUS_RESULT = r % 2 ^ 3 ∧
    fgb (ftShown s r) pgFT F.FT_FT_STATUS_BUSY = false := by
  unfold ftShown
  refine ⟨?_, ?_⟩
  · rw [fg_fs_field _ _ F.FT_FT_STATUS_BUSY _ _ F.FT_FT_STATUS_RESULT rfl (by decide) (by decide)]
    exact fg_fs_self _ _ _ _ (by decide)
  · unfold fgb
    rw [fg_fs_self _ _ _ _ (by decide)]
    rfl

/-- The flush over. -/
def flushed (s : State) : State := setFl s { s.fl with flushing := false }

/-- A flush whose writes are all acknowledged is over, in a mode that does not go on to power down. -/
theorem flushCompleteOp_eq {s : State} (hf : s.fl.flushing = true) (hq : s.fl.wbq = []) (hm : s.md.mode ≠ .dormant) :
    flushCompleteOp s = if s.fl.ft.isNone && fgb s pgFT F.FT_FT_STATUS_BUSY then ftDone (flushed s) ftOK else flushed s := by
  have hdone : flushDone s =
      if s.fl.ft.isNone && fgb s pgFT F.FT_FT_STATUS_BUSY then ftDone (flushed s) ftOK else flushed s := by
    unfold flushDone
    rw [hf, hq]
    rfl
  have hmode : (flushDone s).md = s.md := by
    rw [hdone]
    split <;> rfl
  unfold flushCompleteOp dormantFlushed
  rw [hmode, if_neg fun h => hm h.1, hdone]

theorem fl_ftDone (s : State) (r : Nat) : (ftDone s r).fl = { s.fl with ft := none } := rfl
theorem hbm_flushed (s : State) : (flushed s).hbm = s.hbm := rfl

/-- A completed host command shows its result and BUSY cleared. -/
theorem fg_ftDone (s : State) (r : Nat) : fg (ftDone s r) pgFT F.FT_FT_STATUS_RESULT = r % 2 ^ 3 ∧
    fgb (ftDone s r) pgFT F.FT_FT_STATUS_BUSY = false := fg_ftShown s r

theorem fg_kept (s t : State) (b : Nat) (f : FRef) : fg (kept s t) b f = fg t b f := rfl
theorem fgb_kept (s t : State) (b : Nat) (f : FRef) : fgb (kept s t) b f = fgb t b f := rfl

/-! DECK_INSTALL (R257). -/

theorem mem_of_tget_ne {α : Type} (d : Nat → α) (t : Tab α) (k : Nat) (h : tget d t k ≠ d k) : (k, tget d t k) ∈ t := by
  induction t with
  | nil => exact absurd rfl h
  | cons e t ih =>
    rw [tget] at h ⊢
    split at h
    next hk =>
      rw [if_pos hk, hk]
      exact .head _
    next hk =>
      rw [if_neg hk]
      exact .tail _ (ih h)

theorem le_of_mem_twfFrom {α : Type} [DecidableEq α] {d : Nat → α} {t : Tab α} {lo : Nat} (h : twfFrom d lo t = true)
    {e : Nat × α} (he : e ∈ t) : lo ≤ e.1 := by
  induction t generalizing lo with
  | nil => exact absurd he List.not_mem_nil
  | cons x t ih =>
    simp only [twfFrom, Bool.and_eq_true, decide_eq_true_eq] at h
    obtain ⟨⟨hlo, -⟩, ht⟩ := h
    rcases List.mem_cons.mp he with rfl | he
    · exact hlo
    · exact Nat.le_of_succ_le (Nat.le_trans (Nat.succ_le_succ hlo) (ih ht he))

/-- A table in canonical form lists a key once. -/
theorem tget_of_mem_twfFrom {α : Type} [DecidableEq α] {d : Nat → α} {t : Tab α} {lo : Nat} (h : twfFrom d lo t = true)
    {e : Nat × α} (he : e ∈ t) : tget d t e.1 = e.2 := by
  induction t generalizing lo with
  | nil => exact absurd he List.not_mem_nil
  | cons x t ih =>
    simp only [twfFrom, Bool.and_eq_true] at h
    obtain ⟨-, ht⟩ := h
    rcases List.mem_cons.mp he with rfl | he
    · exact if_pos rfl
    · have hle := le_of_mem_twfFrom ht he
      rw [tget, if_neg (by omega)]
      exact ih ht he

/-- No two contexts come each before the other. -/
theorem earlier_asymm {s : State} {j k : Nat} (h : earlier s k j = true) : earlier s j k = false := by
  unfold earlier at h ⊢
  dsimp only at h ⊢
  split at h
  next he =>
    rw [if_pos (Ne.symm he), decide_eq_false]
    have := of_decide_eq_true h
    omega
  next he =>
    rw [if_neg (fun hn => he (Ne.symm hn))]
    split at h
    next hp =>
      rw [if_pos (Ne.symm hp), decide_eq_false]
      have := of_decide_eq_true h
      omega
    next hp =>
      rw [if_neg (fun hn => hp (Ne.symm hn)), decide_eq_false]
      have := of_decide_eq_true h
      omega

/-- The earlier of the context found so far and context `k`. -/
def pickEarlier (s : State) (b : Option Nat) (k : Nat) : Option Nat :=
  match b with
  | none => some k
  | some j => if earlier s k j then some k else b

theorem pickEarlier_eq (s : State) (b : Option Nat) (k : Nat) :
    pickEarlier s b k = some k ∨ (b.isSome = true ∧ pickEarlier s b k = b) := by
  cases b with
  | none => exact .inl rfl
  | some j =>
    unfold pickEarlier
    dsimp only
    split
    · exact .inl rfl
    · exact .inr ⟨rfl, rfl⟩

/-- The context that comes before all others of the list is picked. -/
theorem foldl_pickEarlier {s : State} {ks : List Nat} {k : Nat} (hk : k ∈ ks) (h : ∀ j ∈ ks, j ≠ k → earlier s k j = true) :
    ks.foldl (pickEarlier s) none = some k := by
  refine foldl_establishes (I := fun b : Option Nat => ∀ j, b = some j → j ∈ ks) (P := fun b => b = some k) hk
    (fun b x hx hb j hj => ?_) (fun b hb => ?_) (fun b x hx _ hb => ?_) (fun j hj => by cases hj)
  · rcases pickEarlier_eq s b x with he | ⟨-, he⟩
    · rw [he] at hj
      cases hj
      exact hx
    · exact hb j (he ▸ hj)
  · cases b with
    | none => rfl
    | some j =>
      by_cases hjk : j = k
      · subst hjk
        unfold pickEarlier
        dsimp only
        exact ite_self _
      · exact if_pos (h j (hb j rfl) hjk)
  · subst hb
    by_cases hxk : x = k
    · subst hxk
      unfold pickEarlier
      dsimp only
      exact ite_self _
    · exact if_neg (by rw [earlier_asymm (h x hx hxk)]; exact Bool.false_ne_true)

/-- A context of pipeline `pipe` may take the record that it fetched. -/
def installDue (s : State) (pipe : Nat) (e : Nat × Ctx) : Bool :=
  ctxPipe e.1 == pipe && e.2.busy && (match flowReq e.2 with
    | some r => r.missed && r.got.isNone && turnOf s e.1 r
    | none => false)

/-- The record that was found is bound for context `k`. -/
def installedFor (a : Ans) (k : Nat) (r : Req) : State :=
  setBound (modC a.st k (fun c => setFlowReq c { r with got := some a.idx })) a.idx (some k)

theorem deckInstallOp_eq {s : State} {pipe k : Nat} {r : Req}
    (hpick : ((s.fl.ctxs.filter (installDue s pipe)).map (fun e => e.1)).foldl (pickEarlier s) none = some k)
    (hr : flowReq (getC s k) = some r) (h3 : (findTry s pipe r.table r.key).status = 3) :
    deckInstallOp s pipe = installedFor (findTry s pipe r.table r.key) k r := by
  unfold deckInstallOp
  extract_lets ks
  split
  next h => cases hpick.symm.trans h
  next j h =>
    have hkj : k = j := Option.some.inj (hpick.symm.trans h)
    subst hkj
    rw [hr]
    exact if_pos h3

theorem getC_setBound (s : State) (idx : Nat) (c : Option Nat) (k : Nat) : getC (setBound s idx c) k = getC s k := rfl

theorem getC_installedFor (a : Ans) (k : Nat) (r : Req) :
    getC (installedFor a k r) k = setFlowReq (getC a.st k) { r with got := some a.idx } :=
  (getC_setBound ..).trans (getC_modC ..)
theorem getC_installedFor_ne (a : Ans) {k j : Nat} (r : Req) (h : j ≠ k) : getC (installedFor a k r) j = getC a.st j :=
  (getC_setBound ..).trans (getC_modC_ne a.st _ h)
theorem boundTo_installedFor (a : Ans) (k : Nat) (r : Req) : boundTo (installedFor a k r) a.idx = some k := boundTo_setBound ..
theorem frames_installedFor (a : Ans) (k : Nat) (r : Req) : (installedFor a k r).frames = a.st.frames := rfl
theorem hbm_installedFor (a : Ans) (k : Nat) (r : Req) : (installedFor a k r).hbm = a.st.hbm := rfl
theorem getWay_installedFor (a : Ans) (k : Nat) (r : Req) (w : Nat) : getWay (installedFor a k r) w = getWay a.st w := rfl

/-! The way of an install. -/

theorem lru_mem {s : State} {p : Way → Bool} {ks : List Nat} {k : Nat} (h : lru s p ks = some k) : k ∈ ks := by
  induction ks generalizing k with
  | nil => cases h
  | cons x ks ih =>
    unfold lru at h
    split at h
    · split at h
      next j hj =>
        split at h
        · cases h
          exact .tail _ (ih hj)
        · cases h
          exact .head _
      · cases h
        exact .head _
    · exact .tail _ (ih h)

theorem takeWay_mem {s t : State} {pipe set k : Nat} (h : takeWay s pipe set = some (k, t)) : k ∈ waysOf pipe set := by
  unfold takeWay at h
  dsimp only at h
  split at h
  next hfree =>
    cases h
    exact List.mem_of_find?_eq_some hfree
  · split at h
    · cases h
    · split at h
      next hclean =>
        cases h
        exact lru_mem hclean
      · split at h
        · cases h
        next hdirty =>
          split at h
          · cases h
          · cases h
            exact lru_mem hdirty

/-- The ways of a pipeline's Deck are numbered by it. -/
theorem wayPipe_of_mem {pipe set k : Nat} (hset : set < 4096) (h : k ∈ waysOf pipe set) : k / 65536 = pipe := by
  obtain ⟨w, hw, rfl⟩ := List.mem_map.mp h
  have := List.mem_range.mp hw
  unfold wayKey
  omega

/-- With flow memory an install leaves the record in a way of the pipeline's Deck. -/
theorem install_way {s t : State} {pipe idx k : Nat} {r : List Byte} {dirty bad : Bool} (hm : s.fuse.hbm = true)
    (h : install s pipe idx r dirty bad = some (k, t)) : k / 65536 = pipe ∧ (getWay t k).valid = true ∧
      (getWay t k).idx = idx ∧ (getWay t k).record = r ∧ (getWay t k).dirty = dirty := by
  unfold install at h
  split at h
  · cases h
  next k u hway =>
    cases h
    have hfuse : u.fuse.hbm = true := by rw [(onlyDeck_takeWay hway).fuse, hm]
    have hdeck : ∀ v : State, getWay (touchWay v k) k = { getWay v k with used := v.fl.stamp + 1 } :=
      fun v => getWay_setWay ..
    refine ⟨wayPipe_of_mem (Nat.mod_lt _ (by decide)) (takeWay_mem hway), ?_⟩
    rw [hdeck, getWay_of_deck (deck_setDir ..), getWay_setWay, if_pos hfuse]
    exact ⟨rfl, rfl, rfl, rfl⟩

theorem locate_array_hbm {s : State} {pipe t i : Nat} {key : List Byte} (h : locate s pipe t key = .array i) :
    s.fuse.hbm = true := by
  unfold locate at h
  split at h
  · cases h
  · split at h
    · cases h
    · split at h
      · cases h
      next hm => exact not_not.mp hm

/-- A record found in the array alone stands clean in a way of the pipeline's Deck. -/
theorem findTry_array {s : State} {pipe t i : Nat} {key : List Byte} (hl : locate s pipe t key = .array i)
    (h3 : (findTry s pipe t key).status = 3) : ∃ w, w / 65536 = pipe ∧ (getWay (findTry s pipe t key).st w).valid = true ∧
      (getWay (findTry s pipe t key).st w).idx = i ∧ (getWay (findTry s pipe t key).st w).record = arrayRec s i ∧
      (getWay (findTry s pipe t key).st w).dirty = false := by
  have hm := locate_array_hbm hl
  unfold findTry at h3 ⊢
  split at h3
  · cases h3
  next hon =>
    rw [if_neg hon]
    rw [hl] at h3 ⊢
    dsimp only at h3 ⊢
    rw [arrayUsable_eq] at h3 ⊢
    split at h3
    · cases h3
    next hbad =>
      rw [if_neg hbad]
      split at h3
      · cases h3
      next hpoison =>
        rw [if_neg hpoison]
        dsimp only at h3 ⊢
        rw [if_pos rfl] at h3 ⊢
        unfold fetchInto at h3 ⊢
        split at h3
        · cases h3
        next k u hin =>
          simp only [Bool.false_eq_true, if_false]
          exact ⟨k, install_way hm hin⟩

theorem reqOf_setFlowReq (c : Ctx) (r : Req) : reqOf (setFlowReq c r) (if r.op = 2 then 5 else 0) = some r := reqOf_setReq ..

/-- The oldest context whose fetch is due is the one that installs. -/
theorem pick_due {s : State} {pipe k : Nat} {r : Req} (hwf : twf (fun _ => {}) s.fl.ctxs = true)
    (hdue : (getC s k).busy = true ∧ ctxPipe k = pipe ∧ flowReq (getC s k) = some r ∧ r.missed = true ∧ r.got = none ∧
      turnOf s k r = true)
    (hfirst : ∀ j q, (getC s j).busy = true → ctxPipe j = pipe → flowReq (getC s j) = some q → q.missed = true →
      q.got = none → turnOf s j q = true → j ≠ k → earlier s k j = true) :
    ((s.fl.ctxs.filter (installDue s pipe)).map (fun e => e.1)).foldl (pickEarlier s) none = some k := by
  obtain ⟨hbusy, hpipe, hreq, hmissed, hgot, hturn⟩ := hdue
  refine foldl_pickEarlier (List.mem_map.mpr ⟨(k, getC s k), List.mem_filter.mpr ⟨?_, ?_⟩, rfl⟩) fun j hj hjk => ?_
  · refine mem_of_tget_ne (fun _ => {}) s.fl.ctxs k fun h => ?_
    have hfree : getC s k = {} := h
    rw [hfree] at hbusy
    cases hbusy
  · unfold installDue
    dsimp only
    rw [hreq]
    dsimp only
    rw [hbusy, hpipe, hmissed, hgot, hturn, beq_self_eq_true]
    rfl
  · obtain ⟨⟨j', c⟩, he, rfl⟩ := List.mem_map.mp hj
    obtain ⟨hmem, hd⟩ := List.mem_filter.mp he
    have hc : getC s j' = c := tget_of_mem_twfFrom (e := (j', c)) hwf hmem
    unfold installDue at hd
    dsimp only at hd hjk ⊢
    rw [← hc] at hd
    cases hq : flowReq (getC s j') with
    | none => simp [hq] at hd
    | some q =>
      simp only [hq, Bool.and_eq_true, beq_iff_eq, Option.isNone_iff_eq_none] at hd
      obtain ⟨⟨hp, hb⟩, ⟨hm, hg⟩, ht⟩ := hd
      exact hfirst j' q hb hp hq hm hg ht hjk

/-- Settles O42: installs through the search that they make, writebacks and acknowledgements by what each releases. -/
theorem decksAndFlowMemory : Obligations.DecksAndFlowMemory := by
  intro s
  refine ⟨fun pipe k r => ?_, fun pipe bank k ks hb hsel => ?_, fun pipe i hi hm => ?_, fun p hp => ?_, fun hf hq hm => ?_⟩
  · intro due a hwf hdue hfirst h3
    have hpick := pick_due hwf hdue fun j q hb hp hq hm hg ht hjk => hfirst j q ⟨hb, hp, hq, hm, hg, ht⟩ hjk
    obtain ⟨-, -, hreq, -⟩ := hdue
    have hdeck := onlyDeck_findTry s pipe r.table r.key
    have heq := deckInstallOp_eq hpick hreq h3
    refine runs_kept (heq ▸ exec_deckInstall pipe s) ?_
    simp only [boundTo_kept, getC_kept, frames_kept, hbm_kept, getWay_kept, getWay_installedFor]
    refine ⟨boundTo_installedFor .., ?_, fun j hj => ?_, ?_, ?_, fun i hl => findTry_array hl h3⟩
    · rw [getC_installedFor]
      exact reqOf_setFlowReq _ { r with got := some a.idx }
    · rw [getC_installedFor_ne _ r hj]
      exact hdeck.getC j
    · rw [frames_installedFor]
      exact hdeck.frames
    · rw [hbm_installedFor]
      exact hdeck.hbm
  · refine runs_kept (exec_deckWriteback pipe bank s) ?_
    obtain ⟨hsel', hway, hothers, hhbm, hqueue⟩ := writtenBack_slot hb hsel
    simp only [fl_kept, hbm_kept, getWay_kept]
    exact ⟨hsel', hway, hothers, hhbm, hqueue⟩
  · refine runs_kept (exec_writebackAck pipe s) ?_
    obtain ⟨hqueue, hdeck, hhbm⟩ := writebackAckOp_writes hi
    have hmem : ∀ x, mget (kept s (writebackAckOp s pipe)) x = mget (itemWritten s i) x := fun x => mget_of_hbm hhbm x
    rw [fl_kept]
    refine ⟨hqueue, hdeck, fun n hn => ?_, fun x hx => ?_, fun hv hbuf => ?_⟩
    · rw [hmem]
      exact mget_mwr_in _ _ _ n hn
    · rw [hmem]
      exact mget_mwr_out _ _ _ x hx
    · rw [writebackAckOp_victim hi hv hbuf]
      exact ⟨wbOf_victimGone (itemWritten s i) pipe i.idx, residentIn_victimGone (s := itemWritten s i) hm pipe i.idx⟩
  · refine runs_kept (indexAck_eq hp ▸ exec_indexWriteAck s) ?_
    rw [fl_kept, hbm_kept, fg_kept, fl_showPend, hbm_showPend]
    exact ⟨rfl, rfl, fg_showPend (unpendedKey s p)⟩
  · refine runs_kept (flushCompleteOp_eq hf hq hm ▸ exec_flushComplete s) ?_
    simp only [fl_kept, hbm_kept, fg_kept, fgb_kept]
    split
    · obtain ⟨hresult, hbusy⟩ := fg_ftDone (flushed s) ftOK
      rw [fl_ftDone, (onlyDeck_ftDone ..).hbm]
      exact ⟨rfl, hbm_flushed s, fun _ _ => ⟨hbusy, hresult⟩⟩
    next hc => exact ⟨rfl, hbm_flushed s, fun hft hb => absurd (by rw [hft, hb]; rfl) hc⟩

end Sys2Proof.Machine
end

section
/-! The classifier's registers whose write is an operation (R607, R219): table settings and FLIP. -/

namespace Sys2Proof.Machine

open Sys2Proof

/-! A command that comes to a reply. -/

/-- `x` is `t` with the reply `r`, in what the statements say of it. -/
structure Answered (t : State) (r : Reply) (x : State) : Prop where
  reply : x.reply = r
  regs : x.regs = t.regs
  cls : x.cls = t.cls
  hbm : x.hbm = t.hbm

theorem runs_answered {c : Instr} {s t u : State} {r : Reply} {P : State → Prop} (h : exec c s = .next (kept s u))
    (hu : u = { t with reply := r }) (hp : ∀ x, Answered t r x → P x) : Runs c s P :=
  runs_kept h (hp _ (by subst hu; exact ⟨rfl, rfl, rfl, rfl⟩))

theorem Answered.word {t x : State} {r : Reply} (h : Answered t r x) (a : Nat) : rawRd x a = rawRd t a :=
  rawRd_congr _ _ _ h.regs

theorem Answered.field {t x : State} {r : Reply} (h : Answered t r x) (b : Nat) (f : FRef) : fg x b f = fg t b f :=
  fg_congr _ _ _ _ h.regs

theorem Answered.status {t x : State} {r : Reply} (h : Answered t r x) (page b : Nat) :
    evStatus x page b = evStatus t page b := evStatus_congr (h.word _) b

/-! A write that reaches the page. -/

theorem pageInfo_classifier (pipe : Fin 8) : pageInfo (0x202 + 16 * pipe) = some ⟨0x32, pipe, .never⟩ := by
  revert pipe
  decide

theorem pagePresent_classifier (s : State) (pipe : Fin 8) : pagePresent s (0x202 + 16 * pipe) = true := by
  unfold pagePresent
  rw [pageInfo_classifier pipe]
  rfl

/-- An allowed write above the common layout of a classifier page is the page's own. -/
theorem regWrite_classifier {s : State} {a : Agent} {pipe : Fin 8} {o : Nat} {v : Word} {r : Res} {t : State}
    (h : Allowed s a (clsB pipe + o) v) (hlo : 0x40 ≤ o) (ho : o < 0x1000)
    (hr : writeClassifier s a (0x202 + 16 * pipe) o v = (r, t)) (hd : r ≠ .denied) :
    regWrite s a (clsB pipe + o) v = { t with reply := ⟨r, 0⟩ } := by
  have hpage : (clsB pipe + o) / 0x1000 = 0x202 + 16 * pipe := pb_add_div _ ho
  have hoff : (clsB pipe + o) % 0x1000 = o := pb_add_mod _ ho
  have hopen : writeOpen s a ⟨0x32, pipe, .never⟩ ((clsB pipe + o) / 0x1000) ((clsB pipe + o) % 0x1000) v = (r, t) := by
    rw [hpage, hoff, ← hr]
    exact (if_neg (by omega)).trans rfl
  rw [regWrite_open s a _ v _ h (by rw [hpage]; exact pageInfo_classifier pipe) (fun _ => by rw [hopen]; exact hd),
      hopen]

theorem classifier_pipe (pipe : Fin 8) : (0x202 + 16 * pipe.val - 0x200) / 16 = pipe := by omega

theorem writeClassifier_flip (s : State) (a : Agent) (pipe : Fin 8) (v : Word) :
    writeClassifier s a (0x202 + 16 * pipe) R.CLS_GEN_CTRL v = flipOp s pipe v := by
  unfold writeClassifier
  rw [classifier_pipe]
  exact if_pos rfl

theorem writeClassifier_config (s : State) (a : Agent) (pipe idx : Fin 8) (tern : Bool) (v : Word) :
    writeClassifier s a (0x202 + 16 * pipe) ((if tern then R.CLS_TERN_CFG else R.CLS_EM_CFG) + 4 * idx) v =
      tableConfigOp s pipe tern idx v := by
  have hidx := idx.isLt
  unfold writeClassifier
  rw [classifier_pipe]
  cases tern
  · simp only [Bool.false_eq_true, if_false, R.CLS_EM_CFG, R.CLS_GEN_CTRL, R.CLS_TBL_CMD]
    rw [if_neg (by omega), if_neg (by omega), if_pos (by omega)]
    congr 1
    omega
  · simp only [if_true, R.CLS_EM_CFG, R.CLS_TERN_CFG, R.CLS_GEN_CTRL, R.CLS_TBL_CMD]
    rw [if_neg (by omega), if_neg (by omega), if_neg (by omega), if_pos (by omega)]
    congr 1
    omega

/-! Table settings (R607). -/

/-- The setting of `n` entries at `lo` is absent, or lies in a pool or bank of `cap` without overlapping another. -/
theorem spanFits_iff (lo n cap : Nat) (idx : Fin 8) (base size : Nat → Nat) :
    spanFits lo n cap (((List.range 8).filter (· ≠ idx.val)).map (fun u => (base u, size u))) = true ↔
      n = 0 ∨ (lo + n ≤ cap ∧ ∀ u, u < 8 → u ≠ idx.val → size u = 0 ∨ lo + n ≤ base u ∨ base u + size u ≤ lo) := by
  simp only [spanFits, Bool.or_eq_true, Bool.and_eq_true, beq_iff_eq, decide_eq_true_eq, List.all_map, List.all_filter,
    List.all_eq_true, List.mem_range, Function.comp_apply, or_assoc]
  refine or_congr_right (and_congr_right fun _ => forall₂_congr fun u _ => ?_)
  by_cases hu : u = idx.val <;> simp [hu]

/-- What an accepted setting leaves in its register: BASE and SIZE, and for an exact-match table KEYW. -/
def configWord (tern : Bool) (v : Word) : Word := BitVec.ofNat 32 (bitsOf v 0 (if tern then 13 else 18))

/-- The setting `v` of table `idx` is one that R607 accepts. -/
def ConfigFits (s : State) (pipe idx : Fin 8) (tern : Bool) (v : Word) : Prop :=
  let lo := if tern then 256 * bitsOf v 0 6 else 1024 * bitsOf v 2 8
  let n := if tern then 256 * bitsOf v 6 7 else 1024 * bitsOf v 10 8
  (tern = false → bitsOf v 10 8 % 4 = 0) ∧ (n = 0 ∨ (lo + n ≤ (if tern then 16384 else 131072) ∧
    ∀ u, u < 8 → u ≠ idx.val →
      let b := if tern then ternBase s pipe u else emBase s pipe u
      let m := if tern then ternSize s pipe u else emSize s pipe u
      m = 0 ∨ lo + n ≤ b ∨ b + m ≤ lo))

theorem tableConfigOp_fits {s : State} {pipe idx : Fin 8} {tern : Bool} {v : Word} (h : ConfigFits s pipe idx tern v) :
    tableConfigOp s pipe tern idx v =
      (.ok, rawWr s (clsB pipe + (if tern then R.CLS_TERN_CFG else R.CLS_EM_CFG) + 4 * idx) (configWord tern v)) := by
  obtain ⟨hfour, hspan⟩ := h
  refine if_pos ?_
  cases tern
  · exact Bool.and_eq_true_iff.mpr ⟨beq_iff_eq.mpr (hfour rfl), (spanFits_iff ..).mpr hspan⟩
  · exact (spanFits_iff ..).mpr hspan

theorem tableConfigOp_refused {s : State} {pipe idx : Fin 8} {tern : Bool} {v : Word}
    (h : ¬ ConfigFits s pipe idx tern v) :
    tableConfigOp s pipe tern idx v = (.error, s) := by
  refine if_neg fun hok => h ?_
  cases tern
  · obtain ⟨hfour, hspan⟩ := Bool.and_eq_true_iff.mp hok
    exact ⟨fun _ => beq_iff_eq.mp hfour, (spanFits_iff ..).mp hspan⟩
  · exact ⟨nofun, (spanFits_iff ..).mp hok⟩

theorem regWrite_config {s : State} {a : Agent} {pipe idx : Fin 8} {tern : Bool} {v : Word} {r : Res} {t : State}
    (h : Allowed s a (clsB pipe + (if tern then R.CLS_TERN_CFG else R.CLS_EM_CFG) + 4 * idx) v)
    (hr : tableConfigOp s pipe tern idx v = (r, t)) (hd : r ≠ .denied) :
    regWrite s a (clsB pipe + (if tern then R.CLS_TERN_CFG else R.CLS_EM_CFG) + 4 * idx) v =
      { t with reply := ⟨r, 0⟩ } := by
  have hoff : 0x40 ≤ (if tern then R.CLS_TERN_CFG else R.CLS_EM_CFG) + 4 * idx.val ∧
      (if tern then R.CLS_TERN_CFG else R.CLS_EM_CFG) + 4 * idx.val < 0x1000 := by
    have := idx.isLt
    simp only [R.CLS_TERN_CFG, R.CLS_EM_CFG]
    split <;> omega
  rw [Nat.add_assoc] at h ⊢
  exact regWrite_classifier h hoff.1 hoff.2 ((writeClassifier_config s a pipe idx tern v).trans hr) hd

/-! FLIP (R219, R220). -/

/-- GEN_STATUS is a word that no occurrence writes. -/
theorem plainWord_classifier (pipe : Nat) {o : Nat} (hlo : 0x40 ≤ o) (ho : o < 0x1000) : plainWord (clsB pipe + o) :=
  plainWord_page (by omega) hlo ho

theorem regWrite_flip {s : State} {a : Agent} {pipe : Fin 8} {v : Word} {r : Res} {t : State}
    (h : Allowed s a (clsB pipe + R.CLS_GEN_CTRL) v) (hr : flipOp s pipe v = (r, t)) (hd : r ≠ .denied) :
    regWrite s a (clsB pipe + R.CLS_GEN_CTRL) v = { t with reply := ⟨r, 0⟩ } :=
  regWrite_classifier h (by decide) (by decide) ((writeClassifier_flip s a pipe v).trans hr) hd

theorem flipOp_idle {s : State} {v : Word} (pipe : Nat) (hv : v.getLsbD 0 = false) :
    flipOp s pipe v = (.ok, s) := if_pos hv

theorem flipOp_waits {s : State} {pipe : Nat} {v : Word} (hv : v.getLsbD 0 = true) (hr : retiring s pipe = false)
    (hw : pipe ∉ s.cls.flip) : flipOp s pipe v = (.ok, setCls s { s.cls with flip := s.cls.flip ++ [pipe] }) := by
  unfold flipOp
  rw [if_neg (by simp [hv]), if_neg (by simp [hr, hw])]

theorem flipOp_refused {s : State} {pipe : Nat} {v : Word} (hv : v.getLsbD 0 = true)
    (h : retiring s pipe = true ∨ pipe ∈ s.cls.flip) :
    flipOp s pipe v = (.error, raise s (0x202 + 16 * pipe) evFLIP_REJECT) := by
  unfold flipOp
  rw [if_neg (by simp [hv]), if_pos (by simpa using h)]

/-- Settles O41: each write reaches its operation, whose check is the statement's. -/
theorem tableConfigurationAndFlip : Obligations.TableConfigurationAndFlip := by
  intro s a pipe idx v
  refine ⟨fun tern => ?_, fun h => ⟨fun hv hr hw => ?_, fun hv hno => ?_, fun hv => ?_⟩⟩
  · intro addr lo n fits h
    have hx := exec_tableConfigWrite a pipe tern idx v s
    refine ⟨fun hfits => ?_, fun hfits => ?_⟩
    · exact runs_reply hx (regWrite_config h (tableConfigOp_fits hfits) nofun) rfl rfl
    · exact runs_reply hx (regWrite_config h (tableConfigOp_refused hfits) nofun) rfl rfl
  · exact runs_reply (exec_flip a pipe v s) (regWrite_flip h (flipOp_waits hv hr hw) nofun) rfl rfl
  · refine runs_answered (exec_flip a pipe v s) (regWrite_flip h (flipOp_refused hv hno) nofun) fun t ht => ?_
    have hev := notEvents_raise s (0x202 + 16 * pipe) evFLIP_REJECT
    have hgen : activeGen (raise s (0x202 + 16 * pipe) evFLIP_REJECT) pipe = activeGen s pipe :=
      fg_raise _ _ _ _ _ (plainWord_classifier pipe (by decide) (by decide))
    have hstatus := evStatus_raise s _ evFLIP_REJECT (pagePresent_classifier s pipe) (by decide) (by omega)
    exact ⟨ht.reply, ht.cls.trans (notEvents_cls _ _ hev), (ht.field ..).trans hgen, (ht.status ..).trans hstatus,
      ht.hbm.trans (notEvents_hbm _ _ hev)⟩
  · exact runs_reply (exec_flip a pipe v s) (regWrite_flip h (flipOp_idle pipe hv) nofun) rfl rfl

end Sys2Proof.Machine
end

section
/-! The parse graph's window (R202, R236): PG_CMD. -/

namespace Sys2Proof.Machine

open Sys2Proof

/-! A command that reaches the register. -/

theorem pageInfo_parser (pipe : Fin 8) : pageInfo (0x201 + 16 * pipe) = some ⟨0x31, pipe, .never⟩ := by
  revert pipe
  decide

theorem pagePresent_parser (s : State) (pipe : Fin 8) : pagePresent s (0x201 + 16 * pipe) = true := by
  unfold pagePresent
  rw [pageInfo_parser pipe]
  rfl

/-- An allowed PG_CMD is its operation. -/
theorem regWrite_pgCmd {s : State} {a : Agent} {pipe : Fin 8} {v : Word} {r : Res} {t : State}
    (h : Allowed s a (prsB pipe + R.PRS_PG_CMD) v) (hr : pgCmdOp s pipe (v.getLsbD 0) (v.getLsbD 1) = (r, t))
    (hd : r ≠ .denied) : regWrite s a (prsB pipe + R.PRS_PG_CMD) v = { t with reply := ⟨r, 0⟩ } := by
  have hpage : (prsB pipe + R.PRS_PG_CMD) / 0x1000 = 0x201 + 16 * pipe := pb_add_div _ (by decide)
  have hoff : (prsB pipe + R.PRS_PG_CMD) % 0x1000 = R.PRS_PG_CMD := pb_add_mod _ (by decide)
  have hpipe : (0x201 + 16 * pipe.val - 0x200) / 16 = pipe := by omega
  have hopen : writeOpen s a ⟨0x31, pipe, .never⟩ ((prsB pipe + R.PRS_PG_CMD) / 0x1000)
      ((prsB pipe + R.PRS_PG_CMD) % 0x1000) v = (r, t) := by
    rw [hpage, hoff, ← hr]
    conv_rhs => rw [← hpipe]
    rfl
  rw [regWrite_open s a _ v _ h (by rw [hpage]; exact pageInfo_parser pipe) (fun _ => by rw [hopen]; exact hd), hopen]

/-- A field of bits [1:0] that is written reads back bit by bit. -/
theorem getLsbD_command (cmd : Word) {wd : Nat} (hwd : wd ≤ 32) (op : Nat) {k : Nat} (hk : k < wd) :
    (setBits cmd 0 wd op).getLsbD k = op.testBit k := by
  rw [getLsbD_setBits _ _ _ _ _ (by omega), if_pos (by omega), Nat.sub_zero]

/-! The window. -/

/-- The number that the window holds. -/
def pgWindow (s : State) (pipe : Nat) : Nat := winNum (rdWords s (prsB pipe + R.PRS_PG_DATA) 4) 4

/-- What the window addresses. -/
def pgShown (s : State) (pipe : Nat) : Nat :=
  if pgKind s pipe then getTrans s pipe (pgIndex s pipe) else getNode s pipe (pgIndex s pipe)

/-- The window written as node `i`, or as transition `i`. -/
def nodeWritten (s : State) (pipe i v : Nat) : State :=
  setCls s { s.cls with nodes := tset (fun _ => 0) s.cls.nodes (pipe * 256 + i) (BitVec.ofNat 128 (v % 2 ^ 71)) }
def transWritten (s : State) (pipe i v : Nat) : State :=
  setCls s { s.cls with trans := tset (fun _ => 0) s.cls.trans (pipe * 1024 + i) (BitVec.ofNat 128 (v % 2 ^ 81)) }

theorem pgCmdOp_parsing {s : State} {pipe : Nat} (read : Bool) (h : fgb s (prsB pipe) F.PRS_PG_CTRL_PARSE_EN = true) :
    pgCmdOp s pipe true read = (.error, raise s (0x201 + 16 * pipe) 2) := by
  unfold pgCmdOp
  rw [if_pos (by simp [h])]
  rfl

theorem pgCmdOp_beyond {s : State} {pipe : Nat} {write read : Bool}
    (hp : write = true → fgb s (prsB pipe) F.PRS_PG_CTRL_PARSE_EN = false) (hk : pgKind s pipe = false)
    (hi : 256 ≤ pgIndex s pipe) : pgCmdOp s pipe write read = (.error, s) := by
  unfold pgCmdOp
  rw [if_neg (by cases write <;> simp [hp]), if_pos (by simp [hk]; omega)]

theorem pgCmdOp_node {s : State} {pipe : Nat} (hp : fgb s (prsB pipe) F.PRS_PG_CTRL_PARSE_EN = false)
    (hk : pgKind s pipe = false) (hi : pgIndex s pipe < 256) :
    pgCmdOp s pipe true false = (.ok, pgAdvance (nodeWritten s pipe (pgIndex s pipe) (pgWindow s pipe)) pipe) := by
  unfold pgCmdOp
  rw [if_neg (by simp [hp]), if_neg (by simp; omega)]
  simp only [hk]
  rfl

theorem pgCmdOp_trans {s : State} {pipe : Nat} (hp : fgb s (prsB pipe) F.PRS_PG_CTRL_PARSE_EN = false)
    (hk : pgKind s pipe = true) :
    pgCmdOp s pipe true false = (.ok, pgAdvance (transWritten s pipe (pgIndex s pipe) (pgWindow s pipe)) pipe) := by
  unfold pgCmdOp
  rw [if_neg (by simp [hp]), if_neg (by simp [hk])]
  simp only [hk]
  rfl

theorem pgCmdOp_read {s : State} {pipe : Nat} (h : pgKind s pipe = true ∨ pgIndex s pipe < 256) :
    pgCmdOp s pipe false true =
      (.ok, pgAdvance (wrWords s (prsB pipe + R.PRS_PG_DATA) (numWords (pgShown s pipe) 4)) pipe) := by
  unfold pgCmdOp
  rw [if_neg (by simp), if_neg (by simp; intro hk; simp [hk] at h; omega)]
  rfl

/-! The advance of INDEX. -/

theorem rawRd_pgAdvance (s : State) (pipe : Nat) {x : Nat} (h : x ≠ prsB pipe + R.PRS_PG_ADDR) :
    rawRd (pgAdvance s pipe) x = rawRd s x := by
  unfold pgAdvance
  split
  · exact rawRd_fs_ne _ _ _ _ _ h
  · rfl

theorem notEvents_pgAdvance (s : State) (pipe : Nat) : notEvents (pgAdvance s pipe) = notEvents s := by
  unfold pgAdvance
  split <;> rfl

/-- INDEX after the command, as the registers before it say. -/
def pgNext (s : State) (pipe : Nat) : Nat :=
  if fgb s (prsB pipe) F.PRS_PG_ADDR_AUTO_INC then (pgIndex s pipe + 1) % 1024 else pgIndex s pipe

theorem pgIndex_pgAdvance (s : State) (pipe : Nat) : pgIndex (pgAdvance s pipe) pipe = pgNext s pipe := by
  unfold pgAdvance pgNext
  split
  · exact fg_fs_self _ _ _ _ (by decide)
  · rfl

/-- A command that left PG_ADDR alone advances INDEX as the registers before it say. -/
theorem pgIndex_advanced {s t : State} {pipe : Nat}
    (h : rawRd t (prsB pipe + R.PRS_PG_ADDR) = rawRd s (prsB pipe + R.PRS_PG_ADDR)) :
    pgIndex (pgAdvance t pipe) pipe = pgNext s pipe := by
  rw [pgIndex_pgAdvance]
  unfold pgNext fgb pgIndex
  rw [fg_of_word (f := F.PRS_PG_ADDR_AUTO_INC) h, fg_of_word (f := F.PRS_PG_ADDR_INDEX) h]

/-! The tables. -/

theorem rawRd_setCls (s : State) (c : ClsSt) (x : Nat) : rawRd (setCls s c) x = rawRd s x := rfl
theorem hbm_setCls (s : State) (c : ClsSt) : (setCls s c).hbm = s.hbm := rfl

theorem getNode_of_cls {s t : State} (h : t.cls = s.cls) (p i : Nat) : getNode t p i = getNode s p i := by
  unfold getNode
  rw [h]

theorem getTrans_of_cls {s t : State} (h : t.cls = s.cls) (p i : Nat) : getTrans t p i = getTrans s p i := by
  unfold getTrans
  rw [h]

theorem getNode_nodeWritten (s : State) (pipe i v : Nat) : getNode (nodeWritten s pipe i v) pipe i = v % 2 ^ 71 := by
  unfold getNode nodeWritten
  rw [setCls_cls, tget_tset_self, BitVec.toNat_ofNat]
  omega

theorem getNode_nodeWritten_ne (s : State) {pipe i p j : Nat} (v : Nat) (hi : i < 256) (hj : j < 256)
    (h : p ≠ pipe ∨ j ≠ i) : getNode (nodeWritten s pipe i v) p j = getNode s p j := by
  unfold getNode nodeWritten
  rw [setCls_cls, tget_tset_ne _ _ _ _ _ (by omega)]

theorem getTrans_transWritten (s : State) (pipe i v : Nat) :
    getTrans (transWritten s pipe i v) pipe i = v % 2 ^ 81 := by
  unfold getTrans transWritten
  rw [setCls_cls, tget_tset_self, BitVec.toNat_ofNat]
  omega

theorem getTrans_transWritten_ne (s : State) {pipe i p j : Nat} (v : Nat) (hi : i < 1024) (hj : j < 1024)
    (h : p ≠ pipe ∨ j ≠ i) : getTrans (transWritten s pipe i v) p j = getTrans s p j := by
  unfold getTrans transWritten
  rw [setCls_cls, tget_tset_ne _ _ _ _ _ (by omega)]

theorem pgIndex_lt (s : State) (pipe : Nat) : pgIndex s pipe < 1024 := bitsOf_lt ..

/-! The commands. -/

theorem regWrite_pgWrite {s : State} {a : Agent} {pipe : Fin 8} {cmd : Word} {r : Res} {t : State}
    (h : Allowed s a (prsB pipe + R.PRS_PG_CMD) (setBits cmd 0 2 1)) (hr : pgCmdOp s pipe true false = (r, t))
    (hd : r ≠ .denied) :
    regWrite s a (prsB pipe + R.PRS_PG_CMD) (setBits cmd 0 2 1) = { t with reply := ⟨r, 0⟩ } :=
  regWrite_pgCmd h (by rwa [getLsbD_command _ (by decide) _ (by decide),
    getLsbD_command _ (by decide) _ (by decide)]) hd

theorem regWrite_pgRead {s : State} {a : Agent} {pipe : Fin 8} {cmd : Word} {r : Res} {t : State}
    (h : Allowed s a (prsB pipe + R.PRS_PG_CMD) (setBits cmd 0 2 2)) (hr : pgCmdOp s pipe false true = (r, t))
    (hd : r ≠ .denied) :
    regWrite s a (prsB pipe + R.PRS_PG_CMD) (setBits cmd 0 2 2) = { t with reply := ⟨r, 0⟩ } :=
  regWrite_pgCmd h (by rwa [getLsbD_command _ (by decide) _ (by decide),
    getLsbD_command _ (by decide) _ (by decide)]) hd

theorem pgWrite_parsing {s : State} {a : Agent} {pipe : Fin 8} {cmd : Word}
    (h : Allowed s a (prsB pipe + R.PRS_PG_CMD) (setBits cmd 0 2 1))
    (hp : fgb s (prsB pipe) F.PRS_PG_CTRL_PARSE_EN = true) : Runs (.pgWrite a pipe cmd) s (fun t =>
      t.reply = ⟨.error, 0⟩ ∧ t.cls = s.cls ∧ evStatus t (0x201 + 16 * pipe) 2 = true ∧ t.hbm = s.hbm ∧
      ∀ x, plainWord x → rawRd t x = rawRd s x) := by
  refine runs_answered (exec_pgWrite a pipe cmd s) (regWrite_pgWrite h (pgCmdOp_parsing false hp) nofun) fun t ht => ?_
  have hev := notEvents_raise s (0x201 + 16 * pipe) 2
  have hstatus := evStatus_raise s _ 2 (pagePresent_parser s pipe) (by decide) (by omega)
  exact ⟨ht.reply, ht.cls.trans (notEvents_cls _ _ hev), (ht.status ..).trans hstatus,
    ht.hbm.trans (notEvents_hbm _ _ hev), fun x hx => (ht.word x).trans (rawRd_raise s _ _ x hx)⟩

theorem pgWrite_node {s : State} {a : Agent} {pipe : Fin 8} {cmd : Word}
    (h : Allowed s a (prsB pipe + R.PRS_PG_CMD) (setBits cmd 0 2 1))
    (hp : fgb s (prsB pipe) F.PRS_PG_CTRL_PARSE_EN = false) (hk : pgKind s pipe = false) (hi : pgIndex s pipe < 256) :
    Runs (.pgWrite a pipe cmd) s (fun t => t.reply = ⟨.ok, 0⟩ ∧ pgIndex t pipe = pgNext s pipe ∧
      getNode t pipe (pgIndex s pipe) = pgWindow s pipe % 2 ^ 71 ∧
      (∀ p j, j < 256 → (p ≠ pipe.val ∨ j ≠ pgIndex s pipe) → getNode t p j = getNode s p j) ∧
      t.cls = { s.cls with nodes := t.cls.nodes } ∧ t.hbm = s.hbm ∧
      ∀ x, x ≠ prsB pipe + R.PRS_PG_ADDR → rawRd t x = rawRd s x) := by
  refine runs_answered (exec_pgWrite a pipe cmd s) (regWrite_pgWrite h (pgCmdOp_node hp hk hi) nofun) fun t ht => ?_
  have hev := notEvents_pgAdvance (nodeWritten s pipe (pgIndex s pipe) (pgWindow s pipe)) pipe
  have hcls := ht.cls.trans (notEvents_cls _ _ hev)
  refine ⟨ht.reply, (ht.field ..).trans (pgIndex_advanced (rawRd_setCls ..)), ?_, fun p j hj hne => ?_, ?_,
    ht.hbm.trans ((notEvents_hbm _ _ hev).trans (hbm_setCls ..)),
    fun x hx => (ht.word x).trans ((rawRd_pgAdvance _ _ hx).trans (rawRd_setCls ..))⟩
  · exact (getNode_of_cls hcls pipe _).trans (getNode_nodeWritten s pipe _ _)
  · exact (getNode_of_cls hcls p j).trans (getNode_nodeWritten_ne s _ hi hj hne)
  · rw [hcls]
    rfl

theorem pgWrite_trans {s : State} {a : Agent} {pipe : Fin 8} {cmd : Word}
    (h : Allowed s a (prsB pipe + R.PRS_PG_CMD) (setBits cmd 0 2 1))
    (hp : fgb s (prsB pipe) F.PRS_PG_CTRL_PARSE_EN = false) (hk : pgKind s pipe = true) :
    Runs (.pgWrite a pipe cmd) s (fun t => t.reply = ⟨.ok, 0⟩ ∧ pgIndex t pipe = pgNext s pipe ∧
      getTrans t pipe (pgIndex s pipe) = pgWindow s pipe % 2 ^ 81 ∧
      (∀ p j, j < 1024 → (p ≠ pipe.val ∨ j ≠ pgIndex s pipe) → getTrans t p j = getTrans s p j) ∧
      t.cls = { s.cls with trans := t.cls.trans } ∧ t.hbm = s.hbm ∧
      ∀ x, x ≠ prsB pipe + R.PRS_PG_ADDR → rawRd t x = rawRd s x) := by
  refine runs_answered (exec_pgWrite a pipe cmd s) (regWrite_pgWrite h (pgCmdOp_trans hp hk) nofun) fun t ht => ?_
  have hev := notEvents_pgAdvance (transWritten s pipe (pgIndex s pipe) (pgWindow s pipe)) pipe
  have hcls := ht.cls.trans (notEvents_cls _ _ hev)
  refine ⟨ht.reply, (ht.field ..).trans (pgIndex_advanced (rawRd_setCls ..)), ?_, fun p j hj hne => ?_, ?_,
    ht.hbm.trans ((notEvents_hbm _ _ hev).trans (hbm_setCls ..)),
    fun x hx => (ht.word x).trans ((rawRd_pgAdvance _ _ hx).trans (rawRd_setCls ..))⟩
  · exact (getTrans_of_cls hcls pipe _).trans (getTrans_transWritten s pipe _ _)
  · exact (getTrans_of_cls hcls p j).trans (getTrans_transWritten_ne s _ (pgIndex_lt s pipe) hj hne)
  · rw [hcls]
    rfl

/-- PG_DATA shows the addressed entry after INDEX has advanced. -/
theorem rdWords_pgShown (s : State) (pipe v : Nat) :
    rdWords (pgAdvance (wrWords s (prsB pipe + R.PRS_PG_DATA) (numWords v 4)) pipe) (prsB pipe + R.PRS_PG_DATA) 4 =
      numWords v 4 := by
  have hlen : (numWords v 4).length = 4 := by simp [numWords]
  have hread := rdWords_wrWords (numWords v 4) s (prsB pipe + R.PRS_PG_DATA)
  rw [hlen] at hread
  rw [rdWords_congr fun b hb => rawRd_pgAdvance _ pipe (by simp only [R.PRS_PG_DATA, R.PRS_PG_ADDR] at hb ⊢; omega)]
  exact hread

theorem pgRead_shows {s : State} {a : Agent} {pipe : Fin 8} {cmd : Word}
    (h : Allowed s a (prsB pipe + R.PRS_PG_CMD) (setBits cmd 0 2 2))
    (hi : pgKind s pipe = true ∨ pgIndex s pipe < 256) :
    Runs (.pgRead a pipe cmd) s (fun t => t.reply = ⟨.ok, 0⟩ ∧ pgIndex t pipe = pgNext s pipe ∧ t.cls = s.cls ∧
      rdWords t (prsB pipe + R.PRS_PG_DATA) 4 = numWords (pgShown s pipe) 4 ∧ t.hbm = s.hbm) := by
  refine runs_answered (exec_pgRead a pipe cmd s) (regWrite_pgRead h (pgCmdOp_read hi) nofun) fun t ht => ?_
  have hdata : prsB pipe + R.PRS_PG_ADDR < prsB pipe + R.PRS_PG_DATA := Nat.add_lt_add_left (by decide) _
  have hev := (notEvents_pgAdvance (wrWords s (prsB pipe + R.PRS_PG_DATA) (numWords (pgShown s pipe) 4)) pipe).trans
    (notEvents_wrWords ..)
  exact ⟨ht.reply, (ht.field ..).trans (pgIndex_advanced (rawRd_wrWords_below _ _ hdata)),
    ht.cls.trans (notEvents_cls _ _ hev), (rdWords_congr fun b _ => ht.word b).trans (rdWords_pgShown s pipe _),
    ht.hbm.trans (notEvents_hbm _ _ hev)⟩

/-- Settles O38, one lemma for each outcome of PG_CMD. -/
theorem parseGraphCommands : Obligations.ParseGraphCommands :=
  fun s a pipe cmd => ⟨fun h => ⟨pgWrite_parsing h, fun hp => ⟨pgWrite_node h hp, pgWrite_trans h hp, fun hk hi =>
      runs_reply (exec_pgWrite a pipe cmd s) (regWrite_pgWrite h (pgCmdOp_beyond (fun _ => hp) hk hi) nofun) rfl rfl⟩⟩,
    fun h => ⟨pgRead_shows h, fun hk hi =>
      runs_reply (exec_pgRead a pipe cmd s) (regWrite_pgRead h (pgCmdOp_beyond nofun hk hi) nofun) rfl rfl⟩⟩

end Sys2Proof.Machine
end

section
/-! Exact-match tables (R210, R212, R214): what INSERT, MODIFY and DELETE leave a lookup to find. -/

namespace Sys2Proof.Machine

open Sys2Proof

/-! Slots. -/

theorem word_setEm (s : State) (pipe slot : Nat) (e : Option EmEnt) (a : Nat) :
    rawRd (setEm s pipe slot e) a = rawRd s a := rawRd_setCls ..

theorem cls_setEm (s : State) (pipe slot : Nat) (e : Option EmEnt) :
    (setEm s pipe slot e).cls = { s.cls with em := (setEm s pipe slot e).cls.em } := rfl

theorem getEm_setEm (s : State) (pipe slot x : Nat) (e : Option EmEnt) :
    getEm (setEm s pipe slot e) pipe x = if x = slot then e else getEm s pipe x := by
  unfold getEm setEm
  rw [setCls_cls, tget_tset]
  simp only [Nat.add_left_cancel_iff]

/-! The candidates of a key, which the table's EM_CFG word alone decides. -/

section
variable {s t : State} {pipe n : Nat}
  (h : rawRd t (clsB pipe + (R.CLS_EM_CFG + 4 * n)) = rawRd s (clsB pipe + (R.CLS_EM_CFG + 4 * n)))
include h

theorem keyBytes16_of_word : keyBytes16 t pipe n = keyBytes16 s pipe n := by
  unfold keyBytes16
  rw [fg_of_word (f := F.CLS_EM_CFG_KEYW.fwd (4 * n)) h]

theorem emBase_of_word : emBase t pipe n = emBase s pipe n :=
  congrArg (1024 * ·) (fg_of_word (f := F.CLS_EM_CFG_BASE.fwd (4 * n)) h)

theorem emBuckets_of_word : emBuckets t pipe n = emBuckets s pipe n := by
  unfold emBuckets emSize
  rw [fg_of_word (f := F.CLS_EM_CFG_SIZE.fwd (4 * n)) h, keyBytes16_of_word h]

theorem emCandidates_of_word (key : List Byte) : emCandidates t pipe n key = emCandidates s pipe n key := by
  unfold emCandidates
  rw [emBuckets_of_word h, emBase_of_word h, keyBytes16_of_word h]

end

/-! Finding a key. -/

/-- A slot's content is a valid entry of `key`. -/
def holdsKey (key : List Byte) : Option EmEnt → Bool
  | some e => e.key == key && e.res.getLsbD 63
  | none => false

theorem holdsKey_iff {key : List Byte} {o : Option EmEnt} :
    holdsKey key o = true ↔ ∃ e, o = some e ∧ e.key = key ∧ e.res.getLsbD 63 = true := by
  cases o <;> simp [holdsKey]

theorem emFind_eq (s : State) (pipe n : Nat) (key : List Byte) :
    emFind s pipe n key = (emCandidates s pipe n key).find? (fun x => holdsKey key (getEm s pipe x)) := by
  unfold emFind
  refine congrArg (List.find? · _) (funext fun x => ?_)
  cases getEm s pipe x <;> rfl

/-- The slot that holds a key has a valid entry of it. -/
theorem holdsKey_of_emFind {s : State} {pipe n x : Nat} {key : List Byte} (h : emFind s pipe n key = some x) :
    holdsKey key (getEm s pipe x) = true := by
  rw [emFind_eq] at h
  exact List.find?_some (p := fun x => holdsKey key (getEm s pipe x)) h

/-- A free candidate is one of the key's candidates, and holds no key. -/
theorem emFree_free {s : State} {pipe n x : Nat} {key : List Byte} (h : emFree s pipe n key = some x) :
    x ∈ emCandidates s pipe n key ∧ ∀ k, holdsKey k (getEm s pipe x) = false := by
  refine ⟨List.mem_of_find?_eq_some h, fun k => ?_⟩
  have hfree := List.find?_some h
  cases hg : getEm s pipe x with
  | none => rfl
  | some e =>
    rw [hg] at hfree
    simp only [Bool.not_eq_true'] at hfree
    rw [holdsKey, hfree, Bool.and_false]

theorem emLookup_found {s : State} {pipe n slot : Nat} {key : List Byte} {e : EmEnt} (bank : Nat)
    (h : emFind s pipe n (slice key 0 (keyBytes16 s pipe n)) = some slot) (he : getEm s pipe slot = some e) :
    emLookup s pipe n key bank = if e.res.getLsbD (61 + bank) then some e.res else none := by
  unfold emLookup
  simp only [h, he]

theorem emLookup_missed {s : State} {pipe n : Nat} {key : List Byte} (bank : Nat)
    (h : emFind s pipe n (slice key 0 (keyBytes16 s pipe n)) = none) : emLookup s pipe n key bank = none := by
  unfold emLookup
  simp only [h]

/-- A write to one slot that holds the key neither before nor after is nothing to a lookup of the key. -/
theorem emLookup_setEm_other {s : State} {pipe n slot : Nat} {key : List Byte} {o : Option EmEnt} (bank : Nat)
    (hb : holdsKey (slice key 0 (keyBytes16 s pipe n)) (getEm s pipe slot) = false)
    (ha : holdsKey (slice key 0 (keyBytes16 s pipe n)) o = false) :
    emLookup (setEm s pipe slot o) pipe n key bank = emLookup s pipe n key bank := by
  have hholds : ∀ x, holdsKey (slice key 0 (keyBytes16 s pipe n)) (getEm (setEm s pipe slot o) pipe x) =
      holdsKey (slice key 0 (keyBytes16 s pipe n)) (getEm s pipe x) := by
    intro x
    rw [getEm_setEm]
    split
    next hx => rw [ha, hx, hb]
    · rfl
  have hfind : emFind (setEm s pipe slot o) pipe n (slice key 0 (keyBytes16 s pipe n)) =
      emFind s pipe n (slice key 0 (keyBytes16 s pipe n)) := by
    rw [emFind_eq, emFind_eq, emCandidates_of_word (word_setEm ..)]
    exact congrArg (List.find? · _) (funext hholds)
  unfold emLookup
  rw [keyBytes16_of_word (word_setEm ..)]
  simp only [hfind]
  cases hx : emFind s pipe n (slice key 0 (keyBytes16 s pipe n)) with
  | none => rfl
  | some x =>
    have hne : x ≠ slot := fun heq => by
      have hhold := holdsKey_of_emFind hx
      rw [heq, hb] at hhold
      cases hhold
    simp only [getEm_setEm, if_neg hne]

/-! The commands. -/

/-- The key of a command, cut to its table's width. -/
def tblKey (s : State) (pipe : Nat) (c : TblOp) : List Byte := slice (winBytes c.key) 0 (keyBytes16 s pipe c.table)

/-- What an exact-match command that ends OK has done. -/
inductive EmDone (s : State) (pipe : Nat) (c : TblOp) : State → Prop where
  | inserted (slot : Nat) (op : c.op = 1) (absent : emFind s pipe c.table (tblKey s pipe c) = none)
      (free : emFree s pipe c.table (tblKey s pipe c) = some slot) :
      EmDone s pipe c (setEm s pipe slot (some ⟨tblKey s pipe c, c.res⟩))
  | deleted (slot : Nat) (op : c.op = 2) (found : emFind s pipe c.table (tblKey s pipe c) = some slot) :
      EmDone s pipe c (setEm s pipe slot none)
  | modified (slot : Nat) (op : c.op = 3) (found : emFind s pipe c.table (tblKey s pipe c) = some slot) :
      EmDone s pipe c (setEm s pipe slot (some ⟨tblKey s pipe c, c.res⟩))
  | shown (op : c.op = 4) : EmDone s pipe c s

theorem tblOne_em {s : State} {c : TblOp} (pipe : Nat) (h : c.space = 0) : tblOne s pipe c = tblEm s pipe c := by
  unfold tblOne
  simp only [h]

theorem emDone_of_tblEm {s t : State} {pipe : Nat} {c : TblOp} (h : tblEm s pipe c = (tOK, t)) : EmDone s pipe c t := by
  unfold tblEm at h
  split at h
  · cases h
  · dsimp only at h
    split at h
    next => cases h
    next hop hfind =>
      split at h
      next slot hfree => cases h; exact .inserted slot hop hfind hfree
      next => cases h
    next slot hop hfind => cases h; exact .deleted slot hop hfind
    next slot hop hfind => cases h; exact .modified slot hop hfind
    next hop _ => cases h; exact .shown hop
    all_goals cases h

theorem regs_emDone {s t : State} {pipe : Nat} {c : TblOp} (h : EmDone s pipe c t) : t.regs = s.regs := by
  cases h <;> rfl

theorem cls_emDone {s t : State} {pipe : Nat} {c : TblOp} (h : EmDone s pipe c t) :
    t.cls = { s.cls with em := t.cls.em } := by
  cases h with
  | shown => rfl
  | inserted | deleted | modified => exact cls_setEm ..

/-! What a lookup finds after a command. -/

/-- A valid entry of the key in a slot that the search comes to is what every lookup of the key sees. -/
theorem emLookup_put {s : State} {pipe slot : Nat} {c : TblOp} (bank : Nat)
    (h : emFind (setEm s pipe slot (some ⟨tblKey s pipe c, c.res⟩)) pipe c.table (tblKey s pipe c) = some slot) :
    emLookup (setEm s pipe slot (some ⟨tblKey s pipe c, c.res⟩)) pipe c.table (winBytes c.key) bank =
      if c.res.getLsbD (61 + bank) then some c.res else none :=
  emLookup_found bank (by rw [keyBytes16_of_word (word_setEm ..)]; exact h)
    ((getEm_setEm ..).trans (if_pos rfl))

/-- Where a valid entry of the key stands in one slot, another slot holds the key only as it did. -/
theorem holdsKey_put {s : State} {pipe : Nat} {c : TblOp} (hv : c.res.getLsbD 63 = true) (slot x : Nat) :
    holdsKey (tblKey s pipe c) (getEm (setEm s pipe slot (some ⟨tblKey s pipe c, c.res⟩)) pipe x) =
      (x == slot || holdsKey (tblKey s pipe c) (getEm s pipe x)) := by
  rw [getEm_setEm]
  by_cases hx : x = slot
  · rw [if_pos hx, holdsKey, hv, beq_self_eq_true, beq_iff_eq.mpr hx]
    rfl
  · rw [if_neg hx, beq_eq_false_iff_ne.mpr hx, Bool.false_or]

theorem emFind_put {s : State} {pipe slot : Nat} {c : TblOp} (hv : c.res.getLsbD 63 = true) :
    emFind (setEm s pipe slot (some ⟨tblKey s pipe c, c.res⟩)) pipe c.table (tblKey s pipe c) =
      (emCandidates s pipe c.table (tblKey s pipe c)).find?
        (fun x => x == slot || holdsKey (tblKey s pipe c) (getEm s pipe x)) := by
  rw [emFind_eq, emCandidates_of_word (word_setEm ..)]
  exact congrArg (List.find? · _) (funext (holdsKey_put hv slot))

/-- The free candidate of an absent key is where its entry is found. -/
theorem emFind_inserted {s : State} {pipe slot : Nat} {c : TblOp} (hv : c.res.getLsbD 63 = true)
    (habsent : emFind s pipe c.table (tblKey s pipe c) = none)
    (hfree : emFree s pipe c.table (tblKey s pipe c) = some slot) :
    emFind (setEm s pipe slot (some ⟨tblKey s pipe c, c.res⟩)) pipe c.table (tblKey s pipe c) = some slot := by
  obtain ⟨hmem, -⟩ := emFree_free hfree
  rw [emFind_eq] at habsent
  have hnone := List.find?_eq_none.mp habsent
  rw [emFind_put hv]
  obtain ⟨x, hx⟩ := Option.isSome_iff_exists.mp
    (List.find?_isSome (p := fun x => x == slot || holdsKey (tblKey s pipe c) (getEm s pipe x)) |>.mpr
        ⟨slot, hmem, by simp⟩)
  have hp := List.find?_some hx
  have hn := hnone x (List.mem_of_find?_eq_some hx)
  simp only [Bool.not_eq_true] at hn
  simp only [hn, Bool.or_false, beq_iff_eq] at hp
  rw [hx, hp]

/-- The slot that holds the key is where its new entry is found. -/
theorem emFind_modified {s : State} {pipe slot : Nat} {c : TblOp} (hv : c.res.getLsbD 63 = true)
    (hfound : emFind s pipe c.table (tblKey s pipe c) = some slot) :
    emFind (setEm s pipe slot (some ⟨tblKey s pipe c, c.res⟩)) pipe c.table (tblKey s pipe c) = some slot := by
  have hholds := holdsKey_of_emFind hfound
  rw [emFind_put hv, ← hfound, emFind_eq]
  refine congrArg (List.find? · _) (funext fun x => ?_)
  by_cases hx : x = slot
  · rw [hx, hholds, Bool.or_true]
  · rw [beq_eq_false_iff_ne.mpr hx, Bool.false_or]

/-- A key that its slot alone held is found nowhere once the slot is empty. -/
theorem emFind_deleted {s : State} {pipe slot : Nat} {c : TblOp}
    (hfound : emFind s pipe c.table (tblKey s pipe c) = some slot)
    (hone : ∀ x ∈ emCandidates s pipe c.table (tblKey s pipe c), ∀ e, getEm s pipe x = some e →
        e.key = tblKey s pipe c →
      e.res.getLsbD 63 = true → emFind s pipe c.table (tblKey s pipe c) = some x) :
    emFind (setEm s pipe slot none) pipe c.table (tblKey s pipe c) = none := by
  rw [emFind_eq, emCandidates_of_word (word_setEm ..)]
  refine List.find?_eq_none.mpr fun x hx hheld => ?_
  rw [getEm_setEm] at hheld
  split at hheld
  · cases hheld
  next hne =>
    obtain ⟨e, he, hk, hv⟩ := holdsKey_iff.mp hheld
    exact hne (Option.some.inj ((hone x hx e he hk hv).symm.trans hfound))

/-- A key other than the command's finds what it found, where the slot written held no key. -/
theorem emLookup_inserted_other {s : State} {pipe slot : Nat} {c : TblOp} {key : List Byte} (bank : Nat)
    (hfree : emFree s pipe c.table (tblKey s pipe c) = some slot)
    (hne : slice key 0 (keyBytes16 s pipe c.table) ≠ tblKey s pipe c) :
    emLookup (setEm s pipe slot (some ⟨tblKey s pipe c, c.res⟩)) pipe c.table key bank =
      emLookup s pipe c.table key bank :=
  emLookup_setEm_other bank ((emFree_free hfree).2 _)
    (by rw [holdsKey, beq_eq_false_iff_ne.mpr hne.symm, Bool.false_and])

/-- Settles O40, by what each command has done to the slot of its key. -/
theorem insertedEntriesAreFound : Obligations.InsertedEntriesAreFound := by
  intro s t pipe c hspace hone n k
  have hdone : EmDone s pipe c t := emDone_of_tblEm ((tblOne_em pipe hspace).symm.trans hone)
  refine ⟨regs_emDone hdone, cls_emDone hdone, fun hop hv => ?_, fun hop hv bank _ => ?_, fun hop hunique bank => ?_⟩
  · cases hdone with
    | inserted slot _ habsent hfree =>
      exact ⟨fun bank _ => emLookup_put bank (emFind_inserted hv habsent hfree),
        fun key bank hne => emLookup_inserted_other bank hfree hne⟩
    | deleted slot h | modified slot h | shown h => cases hop.symm.trans h
  · cases hdone with
    | modified slot _ hfound => exact emLookup_put bank (emFind_modified hv hfound)
    | inserted slot h | deleted slot h | shown h => cases hop.symm.trans h
  · cases hdone with
    | deleted slot _ hfound =>
      exact emLookup_missed bank (by rw [keyBytes16_of_word (word_setEm ..)]; exact emFind_deleted hfound hunique)
    | inserted slot h | modified slot h | shown h => cases hop.symm.trans h

end Sys2Proof.Machine
end

section
/-! TBL_CMD (R214, R220, R237, R607): when it is refused, ends at once, or waits; and what READ shows. -/

namespace Sys2Proof.Machine

open Sys2Proof

/-! A command that reaches the register. -/

theorem writeClassifier_tblCmd (s : State) (a : Agent) (pipe : Fin 8) (v : Word) :
    writeClassifier s a (0x202 + 16 * pipe) R.CLS_TBL_CMD v = writeTblCmd s pipe v := by
  unfold writeClassifier
  rw [classifier_pipe]
  exact (if_neg (by decide)).trans (if_pos rfl)

theorem regWrite_tblCmd {s : State} {a : Agent} {pipe : Fin 8} {v : Word} {r : Res} {t : State}
    (h : Allowed s a (clsB pipe + R.CLS_TBL_CMD) v) (hr : writeTblCmd s pipe v = (r, t)) (hd : r ≠ .denied) :
    regWrite s a (clsB pipe + R.CLS_TBL_CMD) v = { t with reply := ⟨r, 0⟩ } :=
  regWrite_classifier h (by decide) (by decide) ((writeClassifier_tblCmd s a pipe v).trans hr) hd

theorem bitsOf_opcode (cmd : Word) {op : Nat} (h : op < 8) : bitsOf (setBits cmd 0 3 op) 0 3 = op := by
  rw [bitsOf_setBits_self _ _ _ _ (by decide)]
  exact Nat.mod_eq_of_lt h

theorem writeTblCmd_read (s : State) (pipe : Nat) (cmd : Word) :
    writeTblCmd s pipe (setBits cmd 0 3 4) = tblReadOp s pipe (setBits cmd 0 3 4) := by
  unfold writeTblCmd
  rw [bitsOf_opcode cmd (by decide)]
  rfl

theorem writeTblCmd_update (s : State) (pipe : Nat) (cmd : Word) {op : Nat} (h : op ∈ [1, 2, 3, 5, 6]) :
    writeTblCmd s pipe (setBits cmd 0 3 op) = tblUpdate s pipe (setBits cmd 0 3 op) op := by
  unfold writeTblCmd
  simp only [List.mem_cons, List.not_mem_nil, or_false] at h
  rcases h with rfl | rfl | rfl | rfl | rfl <;> rw [bitsOf_opcode cmd (by decide)] <;> rfl

/-! Results. -/

theorem tblEm_result (s : State) (pipe : Nat) (c : TblOp) : (tblEm s pipe c).1 < 8 := by
  unfold tblEm
  split
  · simp [tBAD_ARG]
  · dsimp only
    split
    case h_2 => split <;> simp [tOK, tFULL]
    all_goals simp [tOK, tNOT_FOUND, tEXISTS, tBAD_ARG]

theorem tblTern_result (s : State) (pipe : Nat) (c : TblOp) : (tblTern s pipe c).1 < 8 := by
  unfold tblTern
  split
  · simp [tBAD_ARG]
  · dsimp only
    split <;> simp [tOK, tBAD_ARG]

theorem tblSpread_result (s : State) (pipe : Nat) (c : TblOp) : (tblSpread s pipe c).1 < 8 := by
  unfold tblSpread
  split
  · simp [tBAD_ARG]
  · dsimp only
    split <;> simp [tOK, tBAD_ARG]

theorem tblWord_result (s : State) (pipe : Nat) (c : TblOp) : (tblWord s pipe c).1 < 8 := by
  have hput (bad : Prop) [Decidable bad] (t : State) :
      (if bad then (tBAD_ARG, s) else if c.op = 4 then (tOK, s) else (tOK, t)).1 < 8 := by
    split
    · simp [tBAD_ARG]
    · split <;> simp [tOK]
  unfold tblWord
  dsimp only
  split
  · simp [tBAD_ARG]
  · split <;> exact hput ..

theorem tblOne_result (s : State) (pipe : Nat) (c : TblOp) : (tblOne s pipe c).1 < 8 := by
  unfold tblOne
  split
  · exact tblEm_result s pipe c
  · exact tblTern_result s pipe c
  · exact tblWord_result s pipe c
  · exact tblWord_result s pipe c
  · exact tblWord_result s pipe c
  · exact tblSpread_result s pipe c
  · exact (by decide : tBAD_ARG < 8)

/-- Every result of a command over its targets has a code of RESULT. -/
theorem tblAll_results (c : TblOp) (judge : Bool) (ps : List Nat) (rs : List Nat) (s : State) (h : ∀ r ∈ rs, r < 8) :
    ∀ r ∈ (tblAll c judge ps (rs, s)).1, r < 8 := by
  induction ps generalizing rs s with
  | nil => exact h
  | cons p ps ih =>
    rw [tblAll]
    refine ih _ _ fun r hr => ?_
    rcases List.mem_append.mp hr with hr | hr
    · exact h r hr
    · rw [List.mem_singleton.mp hr]
      split
      · exact (by decide : tBANK_RETIRING < 8)
      · exact tblOne_result s p c

theorem tblResult_lt {rs : List Nat} (h : ∀ r ∈ rs, r < 8) : tblResult rs < 8 := by
  unfold tblResult
  cases hr : rs.find? (· ≠ tOK) with
  | none => exact (by decide : tOK < 8)
  | some r => exact h r (List.mem_of_find?_eq_some hr)

/-! TBL_STATUS. -/

/-- RESULT and BUSY written. -/
def statusShown (s : State) (pipe r : Nat) (busy : Bool) : State :=
  fs (fs s (clsB pipe) F.CLS_TBL_STATUS_RESULT r) (clsB pipe) F.CLS_TBL_STATUS_BUSY (if busy then 1 else 0)

theorem setTblResult_eq (s : State) (pipe r : Nat) (busy : Bool) : setTblResult s pipe r busy =
    if r = tFULL then raise (statusShown s pipe r busy) (0x202 + 16 * pipe) evTBL_FULL
    else statusShown s pipe r busy := rfl

theorem notEvents_setTblResult (s : State) (pipe r : Nat) (busy : Bool) :
    notEvents (setTblResult s pipe r busy) = notEvents s := by
  rw [setTblResult_eq]
  split
  · exact notEvents_raise ..
  · rfl

theorem rawRd_statusShown (s : State) (pipe r : Nat) (busy : Bool) {x : Nat} (hx : x ≠ clsB pipe + R.CLS_TBL_STATUS) :
    rawRd (statusShown s pipe r busy) x = rawRd s x :=
  (rawRd_fs_ne _ _ _ _ _ hx).trans (rawRd_fs_ne _ _ _ _ _ hx)

/-- Words that no occurrence writes read as RESULT and BUSY leave them. -/
theorem rawRd_setTblResult (s : State) (pipe r : Nat) (busy : Bool) {x : Nat} (hx : plainWord x ∨ r ≠ tFULL) :
    rawRd (setTblResult s pipe r busy) x = rawRd (statusShown s pipe r busy) x := by
  rw [setTblResult_eq]
  split
  next hr => exact rawRd_raise _ _ _ _ (hx.resolve_right (not_not_intro hr))
  · rfl

theorem fg_setTblResult (s : State) (pipe r : Nat) (busy : Bool) {f : FRef} (hf : f.off = R.CLS_TBL_STATUS) :
    fg (setTblResult s pipe r busy) (clsB pipe) f = fg (statusShown s pipe r busy) (clsB pipe) f :=
  fg_of_word (rawRd_setTblResult s pipe r busy (.inl (hf ▸ plainWord_classifier pipe (by decide) (by decide))))

theorem tblBusy_setTblResult (s : State) (pipe r : Nat) (busy : Bool) :
    tblBusy (setTblResult s pipe r busy) pipe = busy := by
  unfold tblBusy fgb
  rw [fg_setTblResult s pipe r busy rfl, statusShown, fg_fs_self _ _ _ _ (by decide)]
  cases busy <;> rfl

theorem result_setTblResult (s : State) (pipe : Nat) {r : Nat} (busy : Bool) (h : r < 8) :
    fg (setTblResult s pipe r busy) (clsB pipe) F.CLS_TBL_STATUS_RESULT = r := by
  have hother := fg_fs_field (fs s (clsB pipe) F.CLS_TBL_STATUS_RESULT r) (clsB pipe) F.CLS_TBL_STATUS_BUSY
    (if busy then 1 else 0) (clsB pipe) F.CLS_TBL_STATUS_RESULT rfl (by decide) (by decide)
  rw [fg_setTblResult s pipe r busy rfl, statusShown, hother, fg_fs_self _ _ _ _ (by decide)]
  exact Nat.mod_eq_of_lt h

/-! Updates (R214). -/

theorem tblUpdate_busy {s : State} {pipe : Nat} (v : Word) (op : Nat) (h : tblBusy s pipe = true) :
    tblUpdate s pipe v op = (.error, s) := if_pos h

theorem tblUpdate_ends {s : State} {pipe : Nat} {v : Word} {op : Nat} {rs : List Nat} (h : tblBusy s pipe = false)
    (hrs : (tblAll (tblSpell s pipe v op) false (tblTargets pipe (tblSpell s pipe v op)) ([], s)).1 = rs)
    (hno : tOK ∉ rs) :
    tblUpdate s pipe v op = (.ok, setTblResult s pipe (tblResult rs) false) := by
  subst hrs
  unfold tblUpdate
  rw [if_neg (by simp [h])]
  refine if_pos (List.all_eq_true.mpr fun r hr => ?_)
  simpa using fun h0 : r = tOK => hno (h0 ▸ hr)

/-- The command `c` waits in page `pipe` for an edge that the free value picks. -/
def cmdHeld (s : State) (pipe : Nat) (c : TblOp) : State :=
  setCls (free s).2 { s.cls with
    cmd := tset (fun _ => none) s.cls.cmd pipe (some { c with hold := plyNat s + 1 + (free s).1 % 4 }) }

theorem tblUpdate_waits {s : State} {pipe : Nat} {v : Word} {op : Nat} (h : tblBusy s pipe = false)
    (hok : tOK ∈ (tblAll (tblSpell s pipe v op) false (tblTargets pipe (tblSpell s pipe v op)) ([], s)).1) :
    tblUpdate s pipe v op = (.ok, setTblResult (cmdHeld s pipe (tblSpell s pipe v op)) pipe tOK true) := by
  unfold tblUpdate
  rw [if_neg (by simp [h])]
  exact if_neg fun hall => by simpa using List.all_eq_true.mp hall _ hok

/-- A result that ends a command at once, and shows in RESULT. -/
theorem update_ends {s : State} {a : Agent} {pipe : Fin 8} {v : Word} {i : Instr} {rs : List Nat}
    (hx : exec i s = .next (kept s (regWrite s a (clsB pipe + R.CLS_TBL_CMD) v)))
    (hr : regWrite s a (clsB pipe + R.CLS_TBL_CMD) v =
        { setTblResult s pipe (tblResult rs) false with reply := ⟨.ok, 0⟩ })
    (hlt : tblResult rs < 8) : Runs i s (fun t => t.reply = ⟨.ok, 0⟩ ∧ t.cls = s.cls ∧ tblBusy t pipe = false ∧
      fg t (clsB pipe) F.CLS_TBL_STATUS_RESULT = tblResult rs ∧ t.hbm = s.hbm ∧
      ∀ x, plainWord x → x ≠ clsB pipe + R.CLS_TBL_STATUS → rawRd t x = rawRd s x) := by
  refine runs_answered hx hr fun t ht => ?_
  have hev := notEvents_setTblResult s pipe (tblResult rs) false
  have hbusy := tblBusy_setTblResult s pipe (tblResult rs) false
  exact ⟨ht.reply, ht.cls.trans (notEvents_cls _ _ hev), (congrArg (· != 0) (ht.field ..)).trans hbusy,
    (ht.field ..).trans (result_setTblResult s pipe false hlt), ht.hbm.trans (notEvents_hbm _ _ hev),
    fun x hp hne => (ht.word x).trans ((rawRd_setTblResult _ _ _ _ (.inl hp)).trans (rawRd_statusShown _ _ _ _ hne))⟩

theorem update_waits {s : State} {a : Agent} {pipe : Fin 8} {v : Word} {i : Instr} {c : TblOp}
    (hx : exec i s = .next (kept s (regWrite s a (clsB pipe + R.CLS_TBL_CMD) v)))
    (hr : regWrite s a (clsB pipe + R.CLS_TBL_CMD) v =
        { setTblResult (cmdHeld s pipe c) pipe tOK true with reply := ⟨.ok, 0⟩ }) :
    Runs i s (fun t => t.reply = ⟨.ok, 0⟩ ∧ tblBusy t pipe = true ∧
      (∃ h, plyNat s < h ∧ h ≤ plyNat s + 4 ∧ tget (fun _ => none) t.cls.cmd pipe = some { c with hold := h }) ∧
      (∀ p, p ≠ pipe.val → tget (fun _ => none) t.cls.cmd p = tget (fun _ => none) s.cls.cmd p) ∧
      t.cls = { s.cls with cmd := t.cls.cmd } ∧ t.hbm = s.hbm ∧
      ∀ x, x ≠ clsB pipe + R.CLS_TBL_STATUS → rawRd t x = rawRd s x) := by
  refine runs_answered hx hr fun t ht => ?_
  have hev := notEvents_setTblResult (cmdHeld s pipe c) pipe tOK true
  have hcls := ht.cls.trans (notEvents_cls _ _ hev)
  have hbusy := tblBusy_setTblResult (cmdHeld s pipe c) pipe tOK true
  have hword (x : Nat) : rawRd (cmdHeld s pipe c) x = rawRd s x := rawRd_setCls ..
  refine ⟨ht.reply, (congrArg (· != 0) (ht.field ..)).trans hbusy,
    ⟨plyNat s + 1 + (free s).1 % 4, by omega, by omega, ?_⟩,
    fun p hp => ?_, ?_, ht.hbm.trans ((notEvents_hbm _ _ hev).trans (hbm_setCls ..)),
    fun x hne => (ht.word x).trans ((rawRd_setTblResult _ _ _ _ (.inr (by decide))).trans
      ((rawRd_statusShown _ _ _ _ hne).trans (hword x)))⟩
  · rw [hcls, cmdHeld, setCls_cls, tget_tset_self]
  · rw [hcls, cmdHeld, setCls_cls, tget_tset_ne _ _ _ _ _ hp]
  · rw [hcls]
    rfl

/-! What READ shows in the window (R237). -/

theorem rawRd_wrWords_above (ws : List Word) (s : State) {a b : Nat} (h : a + 4 * ws.length ≤ b) :
    rawRd (wrWords s a ws) b = rawRd s b := by
  induction ws generalizing s a with
  | nil => rfl
  | cons w ws ih =>
    rw [List.length_cons] at h
    rw [wrWords, ih _ (by omega), rawRd_rawWr_ne _ _ _ _ (by omega)]

theorem rdWords_wrWords_take (ws : List Word) (s : State) (a n : Nat) (h : n ≤ ws.length) :
    rdWords (wrWords s a ws) a n = ws.take n := by
  induction ws generalizing s a n with
  | nil => rw [Nat.le_zero.mp h, List.take_zero, rdWords]
  | cons w ws ih =>
    cases n with
    | zero => rfl
    | succ n =>
      rw [rdWords, wrWords, ih _ _ _ (Nat.le_of_succ_le_succ h), rawRd_wrWords_below _ _ (by omega), rawRd_rawWr_self,
        List.take_succ_cons]

theorem length_packWords (n : Nat) (bs : List Byte) : (packWords n bs).length = n := by
  induction n generalizing bs with
  | zero => rfl
  | succ n ih => rw [packWords, List.length_cons, ih]

/-- From `s` to `t` only words of page `pipe` from the KEY window on were written. -/
structure WindowOnly (s t : State) (pipe : Nat) : Prop where
  rest : notEvents t = notEvents s
  word : ∀ x, x < clsB pipe + R.CLS_TBL_KEY → rawRd t x = rawRd s x

theorem WindowOnly.refl (s : State) (pipe : Nat) : WindowOnly s s pipe := ⟨rfl, fun _ _ => rfl⟩

theorem WindowOnly.words {s t : State} {pipe o : Nat} (h : WindowOnly s t pipe) (ws : List Word)
    (ho : R.CLS_TBL_KEY ≤ o) :
    WindowOnly s (wrWords t (clsB pipe + o) ws) pipe :=
  ⟨(notEvents_wrWords ..).trans h.rest, fun x hx => (rawRd_wrWords_below ws t (by omega)).trans (h.word x hx)⟩

theorem WindowOnly.res {s t : State} {pipe : Nat} (h : WindowOnly s t pipe) (v : Nat) :
    WindowOnly s (wr64 t (clsB pipe + R.CLS_TBL_RES) v) pipe :=
  have hbelow : R.CLS_TBL_KEY < R.CLS_TBL_RES := by decide
  ⟨h.rest, fun x hx => (rawRd_wr64_ne _ _ _ _ (by omega) (by omega)).trans (h.word x hx)⟩

theorem windowOnly_tblReadWindow (s : State) (pipe : Nat) (c : TblOp) : WindowOnly s (tblReadWindow s pipe c) pipe := by
  have h := WindowOnly.refl s pipe
  unfold tblReadWindow
  split
  · split
    · split
      · exact h.res _
      · exact h
    · exact h
  · exact ((h.words _ (by decide)).res _).words _ (by decide)
  · exact h.words _ (by decide)
  · exact (h.words _ (by decide)).res _
  · exact (h.words _ (by decide)).res _
  · exact h.words _ (by decide)

theorem res_tblReadWindow_em {s : State} {pipe slot : Nat} {c : TblOp} {e : EmEnt} (hc : c.space = 0)
    (hf : emFind s pipe c.table (slice (winBytes c.key) 0 (keyBytes16 s pipe c.table)) = some slot)
    (he : getEm s pipe slot = some e) :
    rd64 (tblReadWindow s pipe c) (clsB pipe + R.CLS_TBL_RES) = e.res.toNat := by
  unfold tblReadWindow
  simp only [hc, hf, he]
  rw [rd64_wr64]
  exact Nat.mod_eq_of_lt e.res.isLt

theorem res_tblReadWindow_tern {s : State} {pipe : Nat} {c : TblOp} (hc : c.space = 1) :
    rd64 (tblReadWindow s pipe c) (clsB pipe + R.CLS_TBL_RES) =
      (tget (fun _ => {}) s.cls.tern (ternKey pipe c.bank (ternBase s pipe (c.table - 0x10) + c.index))).res.toNat := by
  unfold tblReadWindow
  simp only [hc]
  have hends : R.CLS_TBL_MASK + 4 * 10 = R.CLS_TBL_RES := by decide
  rw [rd64_of_words (rawRd_wrWords_above _ _ (by rw [length_packWords]; omega))
    (rawRd_wrWords_above _ _ (by rw [length_packWords]; omega)), rd64_wr64]
  exact Nat.mod_eq_of_lt (BitVec.isLt _)

theorem key_tblReadWindow_act {s : State} {pipe : Nat} {c : TblOp} (hc : c.space = 2) :
    rdWords (tblReadWindow s pipe c) (clsB pipe + R.CLS_TBL_KEY) 4 = numWords (getAct s pipe c.bank c.index) 4 := by
  unfold tblReadWindow
  simp only [hc]
  rw [rdWords_wrWords_take _ _ _ _ (by simp)]
  rfl

theorem res_tblReadWindow_tmpl {s : State} {pipe : Nat} {c : TblOp} (hc : c.space = 3) :
    rd64 (tblReadWindow s pipe c) (clsB pipe + R.CLS_TBL_RES) = (getTmpl s pipe c.bank c.index).header.toNat := by
  unfold tblReadWindow
  simp only [hc]
  rw [rd64_wr64]
  exact Nat.mod_eq_of_lt (Nat.lt_trans (BitVec.isLt _) (by decide))

theorem res_tblReadWindow_spread {s : State} {pipe : Nat} {c : TblOp} (hc : c.space = 4) :
    rd64 (tblReadWindow s pipe c) (clsB pipe + R.CLS_TBL_RES) = (getSpread s pipe (c.index / 2)).n % 2 ^ 64 := by
  unfold tblReadWindow
  simp only [hc]
  exact rd64_wr64 ..

theorem key_tblReadWindow_par {s : State} {pipe : Nat} {c : TblOp} (hc : c.space = 5) :
    rdWords (tblReadWindow s pipe c) (clsB pipe + R.CLS_TBL_KEY) 2 =
      numWords (getPar s pipe (c.table - 0x20) c.index).toNat 2 := by
  unfold tblReadWindow
  simp only [hc]
  rw [rdWords_wrWords_take _ _ _ _ (by simp)]
  rfl

/-! Reading (R214, R220). -/

theorem tblReadOp_busy {s : State} {pipe : Nat} (v : Word) (h : tblBusy s pipe = true) :
    tblReadOp s pipe v = (.error, s) := if_pos h

/-- The results of READ shown, and the entry of the first target where it found one. -/
def readShown (s : State) (pipe : Nat) (c : TblOp) (rs : List Nat) : State :=
  let t := setTblResult s pipe (tblResult rs) false
  if rs.headD tBAD_ARG = tOK then tblReadWindow t pipe c else t

theorem tblReadOp_shown {s : State} {pipe : Nat} (v : Word) (h : tblBusy s pipe = false) :
    tblReadOp s pipe v = (.ok, readShown s pipe (tblSpell s pipe v 4)
      (tblAll (tblSpell s pipe v 4) true (tblTargets pipe (tblSpell s pipe v 4)) ([], s)).1) := by
  unfold tblReadOp
  rw [if_neg (by simp [h])]
  rfl

theorem readShown_found {s : State} {pipe : Nat} {c : TblOp} {rs : List Nat} (h : rs.head? = some tOK) :
    readShown s pipe c rs = tblReadWindow (setTblResult s pipe (tblResult rs) false) pipe c := by
  refine if_pos ?_
  rw [List.headD_eq_head?_getD, h]
  rfl

theorem windowOnly_readShown (s : State) (pipe : Nat) (c : TblOp) (rs : List Nat) :
    WindowOnly (setTblResult s pipe (tblResult rs) false) (readShown s pipe c rs) pipe := by
  unfold readShown
  dsimp only
  split
  · exact windowOnly_tblReadWindow ..
  · exact .refl ..

/-- What the tables are made of stays where a result is shown. -/
theorem word_setTblResult (s : State) (pipe r : Nat) (busy : Bool) {o : Nat} (hlo : 0x40 ≤ o) (ho : o < 0x1000)
    (hne : o ≠ R.CLS_TBL_STATUS) : rawRd (setTblResult s pipe r busy) (clsB pipe + o) = rawRd s (clsB pipe + o) :=
  (rawRd_setTblResult _ _ _ _ (.inl (plainWord_classifier pipe hlo ho))).trans
    (rawRd_statusShown _ _ _ _ fun h => hne (Nat.add_left_cancel h))

theorem cls_setTblResult (s : State) (pipe r : Nat) (busy : Bool) : (setTblResult s pipe r busy).cls = s.cls :=
  notEvents_cls _ _ (notEvents_setTblResult ..)

theorem getEm_of_cls {s t : State} (h : t.cls = s.cls) (pipe : Nat) : getEm t pipe = getEm s pipe := by
  unfold getEm
  rw [h]

theorem emFind_of_word {s t : State} {pipe n : Nat} (hcls : t.cls = s.cls)
    (h : rawRd t (clsB pipe + (R.CLS_EM_CFG + 4 * n)) = rawRd s (clsB pipe + (R.CLS_EM_CFG + 4 * n)))
    (key : List Byte) :
    emFind t pipe n key = emFind s pipe n key := by
  rw [emFind_eq, emFind_eq, emCandidates_of_word h, getEm_of_cls hcls]

theorem ternBase_setTblResult (s : State) (pipe r : Nat) (busy : Bool) {n : Nat} (hn : n < 256) :
    ternBase (setTblResult s pipe r busy) pipe n = ternBase s pipe n :=
  congrArg (256 * ·) (fg_of_word (f := F.CLS_TERN_CFG_BASE.fwd (4 * n))
    (word_setTblResult s pipe r busy (by simp only [FRef.fwd]; omega) (by simp only [FRef.fwd]; omega)
      (by simp only [FRef.fwd, R.CLS_TBL_STATUS]; omega)))

theorem emFind_setTblResult (s : State) (pipe r : Nat) (busy : Bool) {n : Nat} (hn : n < 256) (key : List Byte) :
    emFind (setTblResult s pipe r busy) pipe n (slice key 0 (keyBytes16 (setTblResult s pipe r busy) pipe n)) =
      emFind s pipe n (slice key 0 (keyBytes16 s pipe n)) := by
  have hword := word_setTblResult s pipe r busy (o := R.CLS_EM_CFG + 4 * n) (by simp only [R.CLS_EM_CFG]; omega)
    (by simp only [R.CLS_EM_CFG]; omega) (by simp only [R.CLS_EM_CFG, R.CLS_TBL_STATUS]; omega)
  rw [keyBytes16_of_word hword, emFind_of_word (cls_setTblResult ..) hword]

/-- A refused command leaves the state with its reply. -/
theorem command_refused {s : State} {a : Agent} {pipe : Fin 8} {v : Word} {i : Instr}
    (hx : exec i s = .next (kept s (regWrite s a (clsB pipe + R.CLS_TBL_CMD) v)))
    (h : Allowed s a (clsB pipe + R.CLS_TBL_CMD) v) (hr : writeTblCmd s pipe v = (.error, s)) :
    Runs i s (fun t => t = { s with reply := ⟨.error, 0⟩ }) :=
  runs_reply hx (regWrite_tblCmd h hr (by decide)) rfl rfl

/-- An update that reaches its register: refused, ended at once, or waiting. -/
theorem runs_update {s : State} {a : Agent} {pipe : Fin 8} {cmd : Word} {op : Nat} {i : Instr}
    (hx : exec i s = .next (kept s (regWrite s a (clsB pipe + R.CLS_TBL_CMD) (setBits cmd 0 3 op))))
    (hop : op ∈ [1, 2, 3, 5, 6]) (h : Allowed s a (clsB pipe + R.CLS_TBL_CMD) (setBits cmd 0 3 op)) :
    let c := tblSpell s pipe (setBits cmd 0 3 op) op
    let rs := (tblAll c false (tblTargets pipe c) ([], s)).1
    (tblBusy s pipe = true → Runs i s (fun t => t = { s with reply := ⟨.error, 0⟩ })) ∧
    (tblBusy s pipe = false → tOK ∉ rs →
        Runs i s (fun t => t.reply = ⟨.ok, 0⟩ ∧ t.cls = s.cls ∧ tblBusy t pipe = false ∧
      fg t (clsB pipe) F.CLS_TBL_STATUS_RESULT = tblResult rs ∧ t.hbm = s.hbm ∧
      ∀ x, plainWord x → x ≠ clsB pipe + R.CLS_TBL_STATUS → rawRd t x = rawRd s x)) ∧
    (tblBusy s pipe = false → tOK ∈ rs → Runs i s (fun t => t.reply = ⟨.ok, 0⟩ ∧ tblBusy t pipe = true ∧
      (∃ h, plyNat s < h ∧ h ≤ plyNat s + 4 ∧ tget (fun _ => none) t.cls.cmd pipe = some { c with hold := h }) ∧
      (∀ p, p ≠ pipe.val → tget (fun _ => none) t.cls.cmd p = tget (fun _ => none) s.cls.cmd p) ∧
      t.cls = { s.cls with cmd := t.cls.cmd } ∧ t.hbm = s.hbm ∧
      ∀ x, x ≠ clsB pipe + R.CLS_TBL_STATUS → rawRd t x = rawRd s x)) := by
  intro c rs
  have hw := writeTblCmd_update s pipe cmd hop
  refine ⟨fun hb => ?_, fun hb hno => ?_, fun hb hok => ?_⟩
  · exact command_refused hx h (hw.trans (tblUpdate_busy _ _ hb))
  · exact update_ends hx (regWrite_tblCmd h (hw.trans (tblUpdate_ends hb rfl hno)) (by decide))
      (tblResult_lt (tblAll_results c false _ [] s fun r hr => absurd hr List.not_mem_nil))
  · exact update_waits hx (regWrite_tblCmd h (hw.trans (tblUpdate_waits hb hok)) (by decide))

/-- What the window shows of the entry that the first target found. -/
structure EntryShown (s : State) (pipe : Nat) (c : TblOp) (t : State) : Prop where
  em : ∀ slot e, c.space = 0 → emFind s pipe c.table (slice (winBytes c.key) 0 (keyBytes16 s pipe c.table)) =
    some slot →
    getEm s pipe slot = some e → rd64 t (clsB pipe + R.CLS_TBL_RES) = e.res.toNat
  tern : c.space = 1 → rd64 t (clsB pipe + R.CLS_TBL_RES) =
    (tget (fun _ => {}) s.cls.tern (ternKey pipe c.bank (ternBase s pipe (c.table - 0x10) + c.index))).res.toNat
  act : c.space = 2 → rdWords t (clsB pipe + R.CLS_TBL_KEY) 4 = numWords (getAct s pipe c.bank c.index) 4
  tmpl : c.space = 3 → rd64 t (clsB pipe + R.CLS_TBL_RES) = (getTmpl s pipe c.bank c.index).header.toNat
  spread : c.space = 4 → rd64 t (clsB pipe + R.CLS_TBL_RES) = (getSpread s pipe (c.index / 2)).n % 2 ^ 64
  par : c.space = 5 → rdWords t (clsB pipe + R.CLS_TBL_KEY) 2 =
    numWords (getPar s pipe (c.table - 0x20) c.index).toNat 2

theorem entryShown_readShown {s : State} {pipe : Nat} {c : TblOp} {rs : List Nat} (h : rs.head? = some tOK)
    (hc : c.table < 256) : EntryShown s pipe c (readShown s pipe c rs) := by
  rw [readShown_found h]
  have hcls := cls_setTblResult s pipe (tblResult rs) false
  generalize ht : setTblResult s pipe (tblResult rs) false = t at hcls
  refine ⟨fun slot e h0 hf he => ?_, fun h1 => ?_, fun h2 => ?_, fun h3 => ?_, fun h4 => ?_, fun h5 => ?_⟩
  · refine res_tblReadWindow_em h0 (hf ▸ ht ▸ emFind_setTblResult s pipe _ _ hc _) ?_
    rw [getEm_of_cls hcls, he]
  · rw [res_tblReadWindow_tern h1, hcls, ← ht, ternBase_setTblResult s pipe _ _ (by omega)]
  · rw [key_tblReadWindow_act h2, getAct, getAct, hcls]
  · rw [res_tblReadWindow_tmpl h3, getTmpl, getTmpl, hcls]
  · rw [res_tblReadWindow_spread h4, getSpread, getSpread, hcls]
  · rw [key_tblReadWindow_par h5, getPar, getPar, hcls]

theorem EntryShown.of_answered {s t x : State} {pipe : Nat} {c : TblOp} {r : Reply} (h : EntryShown s pipe c t)
    (hx : Answered t r x) : EntryShown s pipe c x := by
  have hwords (n a : Nat) : rdWords x a n = rdWords t a n := rdWords_congr fun b _ => hx.word b
  have hdword (a : Nat) : rd64 x a = rd64 t a := rd64_of_words (hx.word _) (hx.word _)
  exact ⟨fun slot e h0 hf he => (hdword _).trans (h.em slot e h0 hf he), fun h1 => (hdword _).trans (h.tern h1),
    fun h2 => (hwords ..).trans (h.act h2), fun h3 => (hdword _).trans (h.tmpl h3),
    fun h4 => (hdword _).trans (h.spread h4), fun h5 => (hwords ..).trans (h.par h5)⟩

theorem runs_read {s : State} {a : Agent} {pipe : Fin 8} {cmd : Word}
    (h : Allowed s a (clsB pipe + R.CLS_TBL_CMD) (setBits cmd 0 3 4)) (hb : tblBusy s pipe = false) :
    let c := tblSpell s pipe (setBits cmd 0 3 4) 4
    let rs := (tblAll c true (tblTargets pipe c) ([], s)).1
    Runs (.tblRead a pipe cmd) s (fun t => t.reply = ⟨.ok, 0⟩ ∧ t.cls = s.cls ∧ t.hbm = s.hbm ∧
      fg t (clsB pipe) F.CLS_TBL_STATUS_RESULT = tblResult rs ∧ tblBusy t pipe = false ∧
      (rs.head? = some tOK → EntryShown s pipe c t)) := by
  intro c rs
  have hr := regWrite_tblCmd h ((writeTblCmd_read s pipe cmd).trans (tblReadOp_shown _ hb)) (by decide)
  refine runs_answered (exec_tblRead ..) hr fun t ht => ?_
  have hwin := windowOnly_readShown s pipe c rs
  have hstatus (f : FRef) (hf : f.off = R.CLS_TBL_STATUS) :
      fg t (clsB pipe) f = fg (setTblResult s pipe (tblResult rs) false) (clsB pipe) f :=
    (ht.field ..).trans (fg_of_word (hwin.word _ (by rw [hf]; exact Nat.add_lt_add_left (by decide) _)))
  have hlt := tblResult_lt (tblAll_results c true (tblTargets pipe c) [] s fun r hr => absurd hr List.not_mem_nil)
  exact ⟨ht.reply, ht.cls.trans ((notEvents_cls _ _ hwin.rest).trans (cls_setTblResult ..)),
    ht.hbm.trans ((notEvents_hbm _ _ hwin.rest).trans (notEvents_hbm _ _ (notEvents_setTblResult ..))),
    (hstatus _ rfl).trans (result_setTblResult s pipe false hlt),
    (congrArg (· != 0) (hstatus F.CLS_TBL_STATUS_BUSY rfl)).trans (tblBusy_setTblResult s pipe _ false),
    fun hok => (entryShown_readShown hok (bitsOf_lt ..)).of_answered ht⟩

/-- Settles O39, by the answer of each of the five updates (`runs_update`) and of READ (`runs_read`). -/
theorem tableCommandsWaitForAnEdge : Obligations.TableCommandsWaitForAnEdge := by
  unfold Obligations.TableCommandsWaitForAnEdge
  intro s a pipe cmd addr rows
  refine ⟨fun r hr hal => ?_, fun hal => ⟨fun hb => ?_, fun hb => ?_⟩⟩
  · simp only [rows, List.mem_cons, List.not_mem_nil, or_false] at hr
    rcases hr with rfl | rfl | rfl | rfl | rfl
    · exact runs_update (op := 1) (exec_tblInsert ..) (by decide) hal
    · exact runs_update (op := 2) (exec_tblDelete ..) (by decide) hal
    · exact runs_update (op := 3) (exec_tblModify ..) (by decide) hal
    · exact runs_update (op := 5) (exec_tblWrite ..) (by decide) hal
    · exact runs_update (op := 6) (exec_tblClear ..) (by decide) hal
  · exact command_refused (exec_tblRead ..) hal ((writeTblCmd_read s pipe cmd).trans (tblReadOp_busy _ hb))
  · obtain ⟨t, hx, hpending, hreply, hcls, hhbm, hres, hbusy, hfound⟩ := runs_read hal hb
    refine ⟨t, hx, hpending, hreply, hcls, hhbm, hres, hbusy, fun hok => ?_⟩
    obtain ⟨hem, htern, hact, htmpl, hspread, hpar⟩ := hfound hok
    exact ⟨hem, htern, hact, htmpl, hspread, hpar⟩

end Sys2Proof.Machine
end

section
/-! PARSE (R197-R206): what the bytes that arrive change, the bound of the walk, and the frame's way to
classification. -/

namespace Sys2Proof.Machine

open Sys2Proof

/-! Bytes that arrive. -/

theorem noteDigest_regs (s : State) (id : Nat) (f : Frame) : (noteDigest s id f).regs = s.regs := by
  unfold noteDigest
  split
  · rfl
  · split
    · rfl
    · exact tryComplete_regs ..

/-- Nothing arrives, or bytes join the frame's and its digest may be taken. -/
theorem arrive_eq (s : State) (id : Nat) (more : List Byte) : arrive s id more = s ∨
    ∃ bs f, arrive s id more = noteDigest (setF s id { getF s id with bytes := bs }) id f := by
  unfold arrive
  dsimp only
  split
  · exact .inl rfl
  · exact .inr ⟨_, _, rfl⟩

theorem regs_arrive (s : State) (id : Nat) (more : List Byte) : (arrive s id more).regs = s.regs := by
  obtain h | ⟨bs, f, h⟩ := arrive_eq s id more <;> rw [h]
  exact noteDigest_regs ..

theorem aside_arrive (s : State) (id : Nat) (more : List Byte) : aside (arrive s id more) = aside s := by
  obtain h | ⟨bs, f, h⟩ := arrive_eq s id more <;> rw [h]
  exact (aside_of_notBooks (notBooks_noteDigest ..)).trans (aside_setF ..)

theorem getF_arrive_ne (s : State) {id j : Nat} (more : List Byte) (h : j ≠ id) :
    getF (arrive s id more) j = getF s j := by
  obtain ha | ⟨bs, f, ha⟩ := arrive_eq s id more <;> rw [ha]
  rw [getF_of_notBooks (notBooks_noteDigest ..), getF_setF_ne _ _ _ _ h]

theorem getF_arrive (s : State) (id : Nat) (more : List Byte) :
    ∃ bs, getF (arrive s id more) id = { getF s id with bytes := bs } := by
  obtain ha | ⟨bs, f, ha⟩ := arrive_eq s id more <;> rw [ha]
  · exact ⟨(getF s id).bytes, rfl⟩
  · exact ⟨bs, by rw [getF_of_notBooks (notBooks_noteDigest ..), getF_setF]⟩

theorem cls_of_aside {s t : State} (h : aside t = aside s) : t.cls = s.cls := (congrArg State.cls h :)
theorem hbm_of_aside {s t : State} (h : aside t = aside s) : t.hbm = s.hbm := (congrArg State.hbm h :)

/-! Counting an event of a block leaves the words of the other pages (R526, R527). -/

theorem rawRd_pcWrap (s : State) (k : Nat) {a : Nat} (h : plainWord a) (hp : a / 0x1000 ≠ 0x007) (hk : k < 64) :
    rawRd (pcWrap s k) a = rawRd s a := by
  have hne : a ≠ pgCR + R.CR_PC_OVF + 4 * (k / 32) := fun ha => hp (by
    rw [ha, Nat.add_assoc]
    exact pb_add_div _ (by simp only [R.CR_PC_OVF]; omega))
  unfold pcWrap
  rw [rawRd_raise _ _ _ _ h, rawRd_setBit_ne _ _ _ _ _ hne]

theorem rawRd_pcAdd (s : State) (k n : Nat) {a : Nat} (h : plainWord a) (hp : a / 0x1000 ≠ 0x007) (hk : k < 64) :
    rawRd (pcAdd s k n) a = rawRd s a := by
  unfold pcAdd
  split
  · rfl
  · dsimp only
    split
    · exact (rawRd_pcWrap _ k h hp hk).trans rfl
    · rfl

theorem rawRd_perf (s : State) (page ev n : Nat) {a : Nat} (h : plainWord a) (hp : a / 0x1000 ≠ 0x007) :
    rawRd (perf s page ev n) a = rawRd s a := by
  refine upTo_ind (P := fun _ t => rawRd t a = rawRd s a) rfl fun k t hk ht => ?_
  split
  · exact (rawRd_pcAdd t k n h hp hk).trans ht
  · exact ht

/-! The bound of the walk (R197). -/

theorem visits_foundFrag (w : Walk) (offset more : Nat) : (foundFrag w offset more).2.visits = w.visits := by
  unfold foundFrag
  dsimp only
  split
  · rfl
  · split <;> rfl

theorem visits_tcpCase (bs : List Byte) (o : Nat) (w : Walk) : (tcpCase bs o w).visits = w.visits := by
  unfold tcpCase
  dsimp only
  split <;> rfl

theorem visits_udpCase (bs : List Byte) (o : Nat) (w : Walk) : (udpCase bs o w).visits = w.visits := by
  unfold udpCase
  dsimp only
  repeat' split
  all_goals rfl

theorem visits_applyRole (bs : List Byte) (role o len : Nat) (w : Walk) :
    (applyRole bs role o len w).2.visits = w.visits := by
  unfold applyRole
  split
  case h_1 => dsimp only; split <;> rfl
  case h_2 => dsimp only; split <;> rfl
  case h_3 => dsimp only; split <;> rfl
  case h_4 => exact visits_foundFrag ..
  case h_7 => exact visits_foundFrag ..
  case h_8 => exact visits_tcpCase ..
  case h_9 => exact visits_udpCase ..
  all_goals rfl

/-- A node's answer leaves a walk of `v` visits. -/
def WalkRes.Leaves (v : Nat) : WalkRes → Prop
  | .goto _ w => w.visits = v
  | .done w => w.visits = v
  | .wait => True

theorem leaves_ite {c : Prop} [Decidable c] {a b : WalkRes} {v : Nat} (ha : a.Leaves v) (hb : b.Leaves v) :
    (if c then a else b).Leaves v := by
  split
  · exact ha
  · exact hb

theorem leaves_walkRole (bs : List Byte) (ended : Bool) (ts : List (Nat × Nat × Nat × Nat)) (node nd len : Nat)
    {w : Walk}
    {v : Nat} (hv : w.visits = v) : (walkRole bs ended ts node nd len w).Leaves v := by
  have hrole := (visits_applyRole bs (nbits nd 60 4) w.off len w).trans hv
  unfold walkRole
  dsimp only
  split
  · trivial
  · exact hv
  · refine leaves_ite hrole ?_
    split
    · trivial
    · exact hrole
    · split <;> exact hrole

/-- A node goes on or ends with one visit more, or ends the walk at once. -/
theorem leaves_walkNode (bs : List Byte) (ended : Bool) (ts : List (Nat × Nat × Nat × Nat)) (node nd : Nat) (w : Walk) :
    (∃ st, walkNode bs ended ts node nd w = endWalk w st) ∨
      w.visits < 64 ∧ (walkNode bs ended ts node nd w).Leaves (w.visits + 1) := by
  unfold walkNode
  split
  · exact .inl ⟨_, rfl⟩
  next hv =>
    split
    · exact .inl ⟨_, rfl⟩
    · refine .inr ⟨Nat.lt_of_not_le hv, ?_⟩
      dsimp only
      split
      · trivial
      · rfl
      · exact leaves_ite rfl (leaves_ite rfl (leaves_walkRole _ _ _ _ _ _ (by split <;> rfl)))

theorem walk_bounded (s : State) (pipe : Nat) (bs : List Byte) (ended : Bool) (ts : List (Nat × Nat × Nat × Nat))
    (n node : Nat) (w : Walk) (hw : w.visits ≤ 64) (hn : 65 ≤ n + w.visits) :
    walk s pipe bs ended ts n node w = walk s pipe bs ended ts (65 - w.visits) node w ∧
      ∀ x, walk s pipe bs ended ts n node w = some x → x.visits ≤ 64 := by
  induction n generalizing node w with
  | zero => omega
  | succ n ih =>
    obtain ⟨m, hm⟩ : ∃ m, 65 - w.visits = m + 1 := ⟨64 - w.visits, by omega⟩
    rw [hm, walk, walk]
    obtain ⟨st, hend⟩ | ⟨hlt, hleaves⟩ := leaves_walkNode bs ended ts node (getNode s pipe node) w
    · rw [hend]
      exact ⟨rfl, fun x hx => Option.some.inj hx ▸ hw⟩
    · cases hres : walkNode bs ended ts node (getNode s pipe node) w with
      | goto nx x =>
        rw [hres] at hleaves
        have hx : x.visits = w.visits + 1 := hleaves
        have hstep := ih nx x (by omega) (by omega)
        rwa [show 65 - x.visits = m by omega] at hstep
      | done x =>
        rw [hres] at hleaves
        have hx : x.visits = w.visits + 1 := hleaves
        exact ⟨rfl, fun y hy => Option.some.inj hy ▸ (by omega)⟩
      | wait => exact ⟨rfl, fun _ hx => nomatch hx⟩

/-! The command (R201, R203, R204). -/

section
variable {s : State} {id : Nat} {more : List Byte} (hlive : (getF s id).live = true)
  (hstage : (getF s id).stage = .parse)
  (h0 : idled (arrive s id more) (0x200 + 16 * (getF (arrive s id more) id).pipe) = false)
  (h1 : idled (arrive s id more) (0x201 + 16 * (getF (arrive s id more) id).pipe) = false)
  (hen : fgb (arrive s id more) (prsB (getF (arrive s id more) id).pipe) F.PRS_PG_CTRL_PARSE_EN = true)
include hlive hstage h0 h1 hen

/-- The walk that PARSE of frame `id` makes in `u`. -/
def frameWalk (u : State) (id : Nat) : Option Walk :=
  let f := getF u id
  walk u f.pipe f.bytes f.ended (transOf u f.pipe) 65 (fg u (prsB f.pipe) F.PRS_PG_CTRL_START_NODE) {}

theorem parseOp_waits (hw : frameWalk (arrive s id more) id = none) : parseOp s id more = arrive s id more := by
  unfold frameWalk at hw
  unfold parseOp
  dsimp only at hw ⊢
  rw [if_neg (by simp [hlive, hstage]), if_neg (by simp [h0, h1]), if_neg (by simp [hen]), hw]

/-- The length cases that frame `f` with the finished walk `w` shows. -/
def walkCases (f : Frame) (w : Walk) : List Nat :=
  w.cases ++ (if f.ended then frameEndCases { f with l3s := w.l3s } else [])

/-- Frame `f` with the header vector of the walk `w`, ready for classification. -/
def parsedFrame (u : State) (f : Frame) (w : Walk) : Frame :=
  { f with l3s := w.l3s, hv := w.hv (fgb u (prsB f.pipe) F.PRS_PG_CTRL_UDP_SHORT_ACCEPT) (worstCase (walkCases f w)),
           parseProf := w.prof, fragKey := w.fragKey, stage := .classify, since := plyNat u }

theorem parseOp_ends {w : Walk} (hw : frameWalk (arrive s id more) id = some w) (hwr : walkReason w.status = none)
    (hlr : lenReason (arrive s id more) (getF (arrive s id more) id).pipe
      (walkCases (getF (arrive s id more) id) w) = none) :
    parseOp s id more =
      let u := arrive s id more
      let f := getF u id
      perf (bump (setF u id (parsedFrame u f w)) (prsB f.pipe + R.PRS_PARSED)) (0x201 + 16 * f.pipe) 0x20 1 := by
  unfold frameWalk at hw
  unfold walkCases at hlr
  unfold parseOp
  dsimp only at hw hlr ⊢
  rw [if_neg (by simp [hlive, hstage]), if_neg (by simp [h0, h1]), if_neg (by simp [hen]), hw]
  simp only [hlr, Option.isSome_none, Bool.false_eq_true, if_false, hwr]
  rfl

end

theorem plyNat_arrive (s : State) (id : Nat) (more : List Byte) : plyNat (arrive s id more) = plyNat s :=
  plyNat_of_tm (tm_of_aside (aside_arrive ..))

/-- Counting a parsed frame leaves all but the counts. -/
theorem notCounts_parsed (s : State) (a page : Nat) : notCounts (perf (bump s a) page 0x20 1) = notCounts s :=
  (notCounts_perf ..).trans (notCounts_of_notEvents (notEvents_bump ..))

theorem still_of_notCounts {s t : State} (h : notCounts t = notCounts s) : still t = still s := (congrArg still h :)
theorem cls_of_notCounts {s t : State} (h : notCounts t = notCounts s) : t.cls = s.cls := (congrArg State.cls h :)

theorem parsed_counted {s : State} {pipe : Nat} (hf : frozen s (0x201 + 16 * pipe) = false) :
    rd64 (perf (bump s (prsB pipe + R.PRS_PARSED)) (0x201 + 16 * pipe) 0x20 1) (prsB pipe + R.PRS_PARSED) =
      (rd64 s (prsB pipe + R.PRS_PARSED) + 1) % 2 ^ 64 := by
  have hlo : plainWord (prsB pipe + R.PRS_PARSED) := plainWord_page (by omega) (by decide) (by decide)
  have hpage : (prsB pipe + R.PRS_PARSED) / 0x1000 = 0x201 + 16 * pipe := pb_add_div _ (by decide)
  have hhi : plainWord (prsB pipe + R.PRS_PARSED + 4) := by
    rw [Nat.add_assoc]
    exact plainWord_page (by omega) (by decide) (by decide)
  have hpage' : (prsB pipe + R.PRS_PARSED + 4) / 0x1000 = 0x201 + 16 * pipe := by
    rw [Nat.add_assoc]
    exact pb_add_div _ (by decide)
  rw [rd64_of_words (rawRd_perf _ _ _ _ hlo (by omega)) (rawRd_perf _ _ _ _ hhi (by omega)),
    rd64_bump _ _ (by rwa [hpage]) hlo hhi]

/-- Settles O35: PARSE's answers are `parseOp_waits` and `parseOp_ends`, and the walk's bound is `walk_bounded`. -/
theorem parseMakesTheHeaderVector : Obligations.ParseMakesTheHeaderVector := by
  unfold Obligations.ParseMakesTheHeaderVector
  refine ⟨fun s id more => ?_, fun s pipe bs ended ts n node hn => ?_⟩
  · intro u f res hlive hstage h0 h1 hen
    have hu : aside u = aside s := aside_arrive s id more
    refine ⟨fun hres => ?_, fun w hres hwr => ?_⟩
    · have hop := parseOp_waits hlive hstage h0 h1 hen hres
      exact runs_still (exec_parse ..) (by rw [hop]; exact still_of_aside hu)
        (by rw [hop]; exact ⟨rfl, regs_arrive .., cls_of_aside hu, hbm_of_aside hu⟩)
    · intro g cs hlr _
      have hop := parseOp_ends hlive hstage h0 h1 hen hres hwr hlr
      have hrest := notCounts_parsed (setF u id (parsedFrame u f w)) (prsB f.pipe + R.PRS_PARSED) (0x201 + 16 * f.pipe)
      have hframes := getF_of_frames (frames_of_notCounts hrest)
      refine runs_still (exec_parse ..) ?_ ?_ <;> rw [hop]
      · exact (still_of_notCounts hrest).trans (still_of_aside hu)
      · refine ⟨?_, fun j hj => ?_, (cls_of_notCounts hrest).trans (cls_of_aside hu),
          (hbm_of_notCounts hrest).trans (hbm_of_aside hu), fun hf => ?_⟩
        · rw [hframes, getF_setF, parsedFrame, plyNat_arrive]
          rfl
        · rw [hframes, getF_setF_ne _ _ _ _ hj, getF_arrive_ne s more hj]
        · have hfu : frozen (setF u id (parsedFrame u f w)) (0x201 + 16 * f.pipe) = false :=
            (frozen_of_eff (eff_of_aside hu) _).trans hf
          have hregs : (setF u id (parsedFrame u f w)).regs = s.regs := regs_arrive s id more
          rw [parsed_counted hfu, rd64_of_words (rawRd_congr _ _ _ hregs) (rawRd_congr _ _ _ hregs)]
  · have h := walk_bounded s pipe bs ended ts n node {} (by decide) hn
    exact ⟨h.1, (walk_bounded s pipe bs ended ts 65 node {} (by decide) (by decide)).2⟩

end Sys2Proof.Machine
end

section
/-! The end of a frame's pass (R231-R235, R404-R407): what metering, the reasons and the delivery leave alone. -/

namespace Sys2Proof.Machine

open Sys2Proof

/-! Words. -/

/-- A word that the end of no pass writes: below the switch core's pages, outside the event registers and the evidence
page, and below the exception registers of a pipeline's page. -/
structure PassWord (a : Nat) : Prop where
  plain : plainWord a
  evidence : a / 0x1000 ≠ 0x14
  low : a / 0x1000 < 0x380
  early : 0x200 ≤ a / 0x1000 → a % 0x1000 < 0x800

theorem passWord_page {page o : Nat} (hp : page ≠ 6) (he : page ≠ 0x14) (hlow : page < 0x380) (hlo : 0x40 ≤ o)
    (ho : o < 0x800) : PassWord (pb page + o) := by
  have hdiv : (pb page + o) / 0x1000 = page := pb_add_div _ (by omega)
  have hmod : (pb page + o) % 0x1000 = o := pb_add_mod _ (by omega)
  exact ⟨plainWord_page hp hlo (by omega), by omega, by omega, fun _ => by omega⟩

theorem PassWord.spared {a : Nat} (ha : PassWord a) : Spared a := by
  have hlow := ha.low
  exact ⟨ha.plain, ha.evidence, by omega, by omega, fun _ => by omega, fun _ => by omega⟩

/-- The exception registers of any pipeline's page are no words of this kind. -/
theorem PassWord.ne_exception {a : Nat} (ha : PassWord a) (pipe : Nat) {o : Nat} (hlo : 0x800 ≤ o) (ho : o < 0x1000) :
    a ≠ frgB pipe + o := by
  rintro rfl
  have hearly := ha.early
  rw [pb_add_div _ ho, pb_add_mod _ ho] at hearly
  omega

theorem PassWord.ne_above {a b : Nat} (ha : PassWord a) (hb : 0x380000 ≤ b) : a ≠ b := by
  have hlow := ha.low
  omega

/-! What a pass marks. -/

/-- A state without the frames, the ports, the books and what the classifier keeps of exceptions. -/
def offPass (s : State) : State :=
  { aside s with cls := { s.cls with exc := [], toCores := [], toHost := [] } }

theorem offPass_of_aside {s t : State} (h : aside t = aside s) : offPass t = offPass s := by
  unfold offPass
  rw [h, cls_of_aside h]

theorem still_of_offPass {s t : State} (h : offPass t = offPass s) : still t = still s := (congrArg still h :)
theorem eff_of_offPass {s t : State} (h : offPass t = offPass s) : t.eff = s.eff := (congrArg State.eff h :)
theorem hold_of_offPass {s t : State} (h : offPass t = offPass s) : t.cls.hold = s.cls.hold :=
  (congrArg (fun u => u.cls.hold) h :)
theorem fragDue_of_offPass {s t : State} (h : offPass t = offPass s) : t.cls.fragDue = s.cls.fragDue :=
  (congrArg (fun u => u.cls.fragDue) h :)
theorem spread_of_offPass {s t : State} (h : offPass t = offPass s) : t.cls.spread = s.cls.spread :=
  (congrArg (fun u => u.cls.spread) h :)

/-- A frame without the marks of its metering, its reasons, its delivery and its colour. -/
def markless (f : Frame) : Frame :=
  { f with
    metered := false, tracked := false, flowSeq := 0, reasons := [], passOver := false, delivered := false, colour := 0 }

/-- `t` is `s` but for frame `id`, the books and what the classifier keeps of exceptions. -/
structure Apart (s t : State) (id : Nat) : Prop where
  rest : offPass t = offPass s
  other : ∀ j, j ≠ id → getF t j = getF s j
  word : ∀ a, PassWord a → rawRd t a = rawRd s a

theorem Apart.refl (s : State) (id : Nat) : Apart s s id := ⟨rfl, fun _ _ => rfl, fun _ _ => rfl⟩

theorem Apart.trans {s t u : State} {id : Nat} (h : Apart s t id) (k : Apart t u id) : Apart s u id :=
  ⟨k.rest.trans h.rest, fun j hj => (k.other j hj).trans (h.other j hj), fun a ha => (k.word a ha).trans (h.word a ha)⟩

theorem apart_setF (s : State) (id : Nat) (f : Frame) : Apart s (setF s id f) id :=
  ⟨rfl, fun _ hj => getF_setF_ne _ _ _ _ hj, fun _ _ => rfl⟩

/-- `t` is apart from `s` in marks on frame `id` alone. -/
structure Marks (s t : State) (id : Nat) : Prop extends Apart s t id where
  frame : markless (getF t id) = markless (getF s id)

theorem Marks.refl (s : State) (id : Nat) : Marks s s id := ⟨.refl s id, rfl⟩

theorem Marks.trans {s t u : State} {id : Nat} (h : Marks s t id) (k : Marks t u id) : Marks s u id :=
  ⟨h.toApart.trans k.toApart, k.frame.trans h.frame⟩

theorem Marks.ended {s t : State} {id : Nat} (h : Marks s t id) : (getF t id).ended = (getF s id).ended :=
  (congrArg Frame.ended h.frame :)
theorem Marks.verdict {s t : State} {id : Nat} (h : Marks s t id) : (getF t id).verdict = (getF s id).verdict :=
  (congrArg Frame.verdict h.frame :)

theorem marks_of_books {s t : State} (id : Nat) (h : notBooks t = notBooks s)
    (hw : ∀ a, PassWord a → rawRd t a = rawRd s a) : Marks s t id :=
  ⟨⟨offPass_of_aside (aside_of_notBooks h), fun j _ => getF_of_notBooks h j, hw⟩,
    congrArg markless (getF_of_notBooks h id)⟩

theorem marks_setF {s : State} {id : Nat} {f : Frame} (h : markless f = markless (getF s id)) :
    Marks s (setF s id f) id :=
  ⟨apart_setF s id f, by rw [getF_setF, h]⟩

theorem marks_bump (s : State) (id c : Nat) (h : ∀ a, PassWord a → a ≠ c ∧ a ≠ c + 4) : Marks s (bump s c) id :=
  marks_of_books id (notBooks_bump ..) fun a ha => rawRd_bump _ _ _ ha.plain (h a ha).1 (h a ha).2

theorem marks_raise (s : State) (id page b : Nat) : Marks s (raise s page b) id :=
  marks_of_books id (notBooks_raise ..) fun _ ha => rawRd_raise _ _ _ _ ha.plain

/-! Reasons and their delivery (R231-R234). -/

theorem marks_bump_exception (s : State) (id pipe r : Nat) {o : Nat} (hlo : 0x800 ≤ o) (ho : o < 0x810) :
    Marks s (bump s (frgB pipe + o + 16 * (r % 64))) id := by
  refine marks_bump _ _ _ fun _ ha => ⟨?_, ?_⟩ <;> simp only [Nat.add_assoc] <;>
    exact ha.ne_exception pipe (by omega) (by omega)

theorem marks_raiseReason (s : State) (id r : Nat) : Marks s (raiseReason s id r) id := by
  rw [raiseReason_eq]
  split
  · exact .refl s id
  · have hnoted : Marks s (reasonNoted s id r) id := marks_setF rfl
    exact hnoted.trans (marks_bump_exception _ _ _ _ (by decide) (by decide))

/-- A delivery that its bucket or its destination stops, counted and raised. -/
theorem marks_limited (s : State) (id : Nat) (d : Delivery) :
    Marks s (raise (bump s (frgB d.pipe + R.FRG_EXC_LIMITED + 16 * (d.primary % 64))) (0x203 + 16 * d.pipe) 1) id :=
  (marks_bump_exception _ _ _ _ (by decide) (by decide)).trans (marks_raise ..)

theorem marks_toCores (s : State) (id : Nat) (l : Tab (List Delivery)) :
    Marks s (setCls s { s.cls with toCores := l }) id :=
  ⟨⟨rfl, fun _ _ => rfl, fun _ _ => rfl⟩, rfl⟩

theorem marks_toHost (s : State) (id : Nat) (l : Tab (List Delivery)) :
    Marks s (setCls s { s.cls with toHost := l }) id :=
  ⟨⟨rfl, fun _ _ => rfl, fun _ _ => rfl⟩, rfl⟩

theorem marks_setExcLevel (s : State) (id pipe r v : Nat) : Marks s (setExcLevel s pipe r v) id :=
  ⟨⟨rfl, fun _ _ => rfl, fun _ _ => rfl⟩, rfl⟩

theorem marks_deliver (s : State) (id : Nat) (d : Delivery) : Marks s (deliver s d) id := by
  unfold deliver
  extract_lets r lim l t e q
  split
  · exact marks_limited s id d
  · have ht : Marks s t id := marks_setExcLevel ..
    split
    · split
      · refine ht.trans ((marks_bump t id _ fun a ha => ⟨?_, ?_⟩).trans (marks_raise ..)) <;>
          exact ha.ne_above (by simp only [pb]; omega)
      · exact ht.trans (marks_toCores ..)
    · exact ht.trans (marks_toHost ..)
    · exact ht.trans (marks_limited t id d)

theorem marks_tryDeliver (s : State) (id : Nat) : Marks s (tryDeliver s id) id := by
  unfold tryDeliver
  extract_lets f p others
  split
  · exact .refl s id
  · have hdelivered : Marks s (setF s id { f with delivered := true }) id := marks_setF rfl
    exact hdelivered.trans (marks_deliver ..)

theorem marks_finishPass (s : State) (id : Nat) : Marks s (finishPass s id) id := by
  have hover : Marks s (modF s id (fun f => { f with passOver := true })) id := marks_setF rfl
  exact hover.trans (marks_tryDeliver ..)

/-! Metering (R404-R407). -/

theorem marks_noteDigest (s : State) (id k : Nat) (f : Frame) : Marks s (noteDigest s k f) id :=
  marks_of_books id (notBooks_noteDigest ..) fun _ _ => rawRd_congr _ _ _ (noteDigest_regs ..)

theorem marks_pset (s : State) (id k : Nat) (p : Option Pend) : Marks s (pset s k p) id :=
  marks_of_books id rfl fun _ _ => rfl

theorem marks_modPend (s : State) (id : Nat) (g : Pend → Pend) : Marks s (modPend s id g) id := by
  unfold modPend
  dsimp only
  split
  · exact .refl s id
  · split
    · exact marks_pset ..
    · exact .refl s id

theorem marks_meterFrame (s : State) (id c : Nat) (flow unparsed : Bool) :
    Marks s (meterFrame s id c flow unparsed) id := by
  unfold meterFrame
  extract_lets f q t p
  split
  · have htaken : Marks s q.2 id := marks_of_books id rfl fun _ _ => rfl
    have hgiven : Marks q.2 t id := marks_setF rfl
    exact ((htaken.trans hgiven).trans (marks_pset ..)).trans (marks_noteDigest ..)
  · exact .refl s id

theorem marks_meterAs (s : State) (id c : Nat) (flow : Bool) : Marks s (meterAs s id c flow) id := marks_meterFrame ..

/-! Leaving (R72, R341): words below the accounts. -/

theorem rawRd_setAccUse_low (s : State) (acct : Account) (n : Nat) {a : Nat} (ha : PassWord a) :
    rawRd (setAccUse s acct n) a = rawRd s a := by
  have hacc (p : Nat) (f : FRef) (x : Nat) : rawRd (fs s (accB p) f x) a = rawRd s a :=
    rawRd_fs_ne _ _ _ _ _ (ha.ne_above (by simp only [accB, pb]; omega))
  cases acct with
  | lossless p b => exact hacc ..
  | queue p c => exact hacc ..
  | none | mirror | host | recirc p => rfl

theorem rawRd_xoffEval_low (s : State) (p : Nat) (b : Bool) {a : Nat} (ha : PassWord a) :
    rawRd (xoffEval s p b) a = rawRd s a := by
  have hfs (u : State) (f : FRef) (x : Nat) : rawRd (fs u (accB p) f x) a = rawRd u a :=
    rawRd_fs_ne _ _ _ _ _ (ha.ne_above (by simp only [accB, pb]; omega))
  have hask (u : State) (n : Nat) : rawRd (askPfc u p b n) a = rawRd u a := rawRd_congr _ _ _ (askPfc_regs ..)
  unfold xoffEval
  extract_lets f use lim d
  split <;> split <;> simp only [hask, hfs]

theorem rawRd_moveUse_low (s : State) (acct : Account) (n : Int) {a : Nat} (ha : PassWord a) :
    rawRd (moveUse s acct n) a = rawRd s a := by
  unfold moveUse
  extract_lets u
  have hu : rawRd u a = rawRd s a := rawRd_setAccUse_low s _ _ ha
  rw [← hu]
  cases acct with
  | lossless p b => exact rawRd_xoffEval_low u p b ha
  | none | mirror | host | recirc p | queue p c => rfl

theorem rawRd_freeCells_low (s : State) (id : Nat) {a : Nat} (ha : PassWord a) :
    rawRd (freeCells s id) a = rawRd s a := by
  have hcells : rawRd (freeCells s id) a = rawRd (cellsFreed s id) a := rfl
  rw [hcells, cellsFreed, rawRd_moveUse_low _ _ _ ha]
  exact foldl_keeps (fun t => rawRd t a) (fun t b => rawRd_moveBank t b (-1) ha.spared) _ s

theorem regs_endFrame (s : State) (id : Nat) : (endFrame s id).regs = s.regs := by
  unfold endFrame
  dsimp only
  split <;> split <;> rfl

theorem rawRd_dropFrame_low (s : State) (id r : Nat) {a : Nat} (ha : PassWord a) :
    rawRd (dropFrame s id r) a = rawRd s a := by
  unfold dropFrame
  dsimp only
  rw [rawRd_congr _ _ _ (regs_endFrame ..), rawRd_unqueue _ _ ha.spared, rawRd_freeCells_low _ _ ha,
    rawRd_tellOutcome _ _ _ _ ha.spared]

/-! The ways out of the pass (R216, R217, R235). -/

/-- Frame `id` has gone, and nothing else but the books and what the classifier keeps of exceptions has changed. -/
structure Gone (s t : State) (id : Nat) : Prop extends Apart s t id where
  gone : getF t id = {}

theorem Gone.after {s t u : State} {id : Nat} (h : Gone t u id) (m : Apart s t id) : Gone s u id :=
  ⟨m.trans h.toApart, h.gone⟩

theorem gone_dropFrame {s : State} {id : Nat} (r : Nat) (h : (getF s id).ended = true) :
    Gone s (dropFrame s id r) id := by
  have hleft := left_dropFrame r h
  exact ⟨⟨offPass_of_aside hleft.rest, hleft.other, fun a ha => rawRd_dropFrame_low s id r ha⟩, hleft.gone⟩

/-- A frame that is not mirrored and has ended is gone when its pass ends with a drop. -/
theorem gone_dropOut {s : State} {id : Nat} (r : Nat) (h : (getF s id).ended = true)
    (hm : (getF s id).verdict.doMirror = false) : Gone s (dropOut s id r) id := by
  have hfinish := marks_finishPass s id
  unfold dropOut
  extract_lets f reason t
  rw [if_neg (by simp [f, hm])]
  exact (gone_dropFrame _ (hfinish.ended.trans h)).after hfinish.toApart

/-- Frame `f` forwarded to (kind, egress) in class `cls`. -/
def sentFrame (f : Frame) (kind egress cls : Nat) : Frame :=
  { f with verdict := { f.verdict with fwd := true, kind := kind, egress := egress, cls := cls }, stage := .flowDone }

theorem marks_sendOut (s : State) (id kind egress cls : Nat) :
    Marks (setF s id (sentFrame (getF s id) kind egress cls)) (sendOut s id kind egress cls) id :=
  (marks_modPend ..).trans (marks_finishPass ..)

theorem sendTo_direct {s : State} {id kind : Nat} (egress cls : Nat) (h : kind ≠ 3) :
    sendTo s id kind egress cls = sendOut s id kind egress cls := if_pos h

theorem sendTo_member {s : State} {id egress m : Nat} (cls : Nat) (he : egress < 256)
    (hm : spreadTo s (getF s id).pipe egress (getF s id) = some m) :
    sendTo s id 3 egress cls = sendOut s id (m / 32768) (m % 32768) cls := by
  unfold sendTo
  rw [if_neg (by decide), if_neg (by omega), hm]

end Sys2Proof.Machine
end

section
/-! Fragments (R226-R229): the entries that expire, and the held fragments that are released or time out. -/

namespace Sys2Proof.Machine

open Sys2Proof

/-! The entries and the hold of a pipeline. -/

theorem hbm_setFrags (s : State) (pipe : Nat) (l : List FragEnt) : (setFrags s pipe l).hbm = s.hbm := rfl
theorem frames_setFrags (s : State) (pipe : Nat) (l : List FragEnt) : (setFrags s pipe l).frames = s.frames := rfl

theorem frag_setFrags (s : State) (pipe : Nat) (l : List FragEnt) :
    tget (fun _ => []) (setFrags s pipe l).cls.frag pipe = l := tget_tset_self _ _ _ _

theorem frag_setFrags_ne (s : State) {pipe p : Nat} (l : List FragEnt) (h : p ≠ pipe) :
    tget (fun _ => []) (setFrags s pipe l).cls.frag p = tget (fun _ => []) s.cls.frag p := tget_tset_ne _ _ _ _ _ h

theorem used_setFrags (s : State) (pipe : Nat) (l : List FragEnt) :
    fg (setFrags s pipe l) (frgB pipe) F.FRG_FRAG_STATUS_USED = l.length % 2 ^ 13 := fg_fs_self _ _ _ _ (by decide)

theorem still_setCls (s : State) (c : ClsSt) : still (setCls s c) = still s := rfl
theorem eff_setCls (s : State) (c : ClsSt) : (setCls s c).eff = s.eff := rfl
theorem getF_setCls (s : State) (c : ClsSt) (j : Nat) : getF (setCls s c) j = getF s j := rfl

theorem still_setHeld (s : State) (pipe : Nat) (l : List Nat) : still (setHeld s pipe l) = still s :=
  (still_of_aside (aside_of_notBooks (notBooks_fs ..))).trans (still_setCls ..)

theorem eff_setHeld (s : State) (pipe : Nat) (l : List Nat) : (setHeld s pipe l).eff = s.eff :=
  (eff_of_aside (aside_of_notBooks (notBooks_fs ..))).trans (eff_setCls ..)

theorem getF_setHeld (s : State) (pipe : Nat) (l : List Nat) (j : Nat) : getF (setHeld s pipe l) j = getF s j :=
  (getF_of_notBooks (notBooks_fs ..) j).trans (getF_setCls ..)

theorem heldOf_setHeld (s : State) (pipe : Nat) (l : List Nat) : heldOf (setHeld s pipe l) pipe = l :=
  tget_tset_self _ _ _ _

theorem heldOf_setHeld_ne (s : State) {pipe p : Nat} (l : List Nat) (h : p ≠ pipe) :
    heldOf (setHeld s pipe l) p = heldOf s p := tget_tset_ne _ _ _ _ _ h

theorem rawRd_setHeld (s : State) (pipe : Nat) (l : List Nat) {a : Nat} (h : a ≠ frgB pipe + 0x44) :
    rawRd (setHeld s pipe l) a = rawRd s a := rawRd_fs_ne _ _ _ _ _ h

theorem heldOf_of_cls {s t : State} (h : t.cls.hold = s.cls.hold) (p : Nat) : heldOf t p = heldOf s p := by
  unfold heldOf
  rw [h]

/-! FRAG_COUNT. -/

/-- The words of FRAG_COUNT `k` of pipeline `pipe`. -/
theorem passWord_fragCount (pipe : Fin 8) {k : Nat} (hk : k < 8) :
    PassWord (frgB pipe + R.FRG_FRAG_COUNT + 8 * k) ∧ PassWord (frgB pipe + R.FRG_FRAG_COUNT + 8 * k + 4) := by
  simp only [Nat.add_assoc, R.FRG_FRAG_COUNT]
  exact ⟨passWord_page (by omega) (by omega) (by omega) (by omega) (by omega),
    passWord_page (by omega) (by omega) (by omega) (by omega) (by omega)⟩

theorem page_fragCount (pipe : Nat) {k : Nat} (hk : k < 8) :
    (frgB pipe + R.FRG_FRAG_COUNT + 8 * k) / 0x1000 = 0x203 + 16 * pipe := by
  rw [Nat.add_assoc]
  exact pb_add_div _ (by simp only [R.FRG_FRAG_COUNT]; omega)

theorem still_fragCount (s : State) (pipe k : Nat) : still (fragCount s pipe k) = still s :=
  still_of_aside (aside_of_notBooks (notBooks_bump ..))
theorem getF_fragCount (s : State) (pipe k j : Nat) : getF (fragCount s pipe k) j = getF s j :=
  getF_of_notBooks (notBooks_bump ..) j
theorem cls_fragCount (s : State) (pipe k : Nat) : (fragCount s pipe k).cls = s.cls :=
  notEvents_cls _ _ (notEvents_bump ..)

/-! A fragment taken from the hold. -/

/-- Fragment `id` is out of the hold of `pipe` and FRAG_COUNT `k` counts it. -/
def unheld (s : State) (pipe id k : Nat) : State :=
  fragCount (setHeld s pipe ((heldOf s pipe).filter (· ≠ id))) pipe k

theorem getF_unheld (s : State) (pipe id k j : Nat) : getF (unheld s pipe id k) j = getF s j :=
  (getF_fragCount ..).trans (getF_setHeld ..)

theorem still_unheld (s : State) (pipe id k : Nat) : still (unheld s pipe id k) = still s :=
  (still_fragCount ..).trans (still_setHeld ..)

theorem heldOf_unheld (s : State) (pipe id k : Nat) :
    heldOf (unheld s pipe id k) pipe = (heldOf s pipe).filter (· ≠ id) :=
  (heldOf_of_cls (congrArg ClsSt.hold (cls_fragCount ..)) pipe).trans (heldOf_setHeld ..)

theorem heldOf_unheld_ne (s : State) {pipe p : Nat} (id k : Nat) (h : p ≠ pipe) :
    heldOf (unheld s pipe id k) p = heldOf s p :=
  (heldOf_of_cls (congrArg ClsSt.hold (cls_fragCount ..)) p).trans (heldOf_setHeld_ne s _ h)

theorem counted_unheld (s : State) (pipe : Fin 8) (id : Nat) {k : Nat} (hk : k < 8)
    (hf : frozen s (0x203 + 16 * pipe) = false) :
    rd64 (unheld s pipe id k) (frgB pipe + R.FRG_FRAG_COUNT + 8 * k) =
      (rd64 s (frgB pipe + R.FRG_FRAG_COUNT + 8 * k) + 1) % 2 ^ 64 := by
  obtain ⟨hlo, hhi⟩ := passWord_fragCount pipe hk
  have hfu : frozen (setHeld s pipe ((heldOf s pipe).filter (· ≠ id))) (0x203 + 16 * pipe) = false :=
    (frozen_of_eff (eff_setHeld ..) _).trans hf
  have hcounted := rd64_bump (setHeld s pipe ((heldOf s pipe).filter (· ≠ id))) (frgB pipe + R.FRG_FRAG_COUNT + 8 * k)
    (by rwa [page_fragCount _ hk]) hlo.plain hhi.plain
  exact hcounted.trans (by
    rw [rd64_of_words (rawRd_setHeld _ _ _ (by simp only [R.FRG_FRAG_COUNT]; omega))
      (rawRd_setHeld _ _ _ (by simp only [R.FRG_FRAG_COUNT]; omega))])

/-- Fragment `id` has left the hold of `pipe`, counted by FRAG_COUNT `k`, and other frames and holds are as they were. -/
structure TakenOut (s t : State) (pipe : Fin 8) (id k : Nat) : Prop where
  held : heldOf t pipe = (heldOf s pipe).filter (· ≠ id)
  holds : ∀ p, p ≠ pipe.val → heldOf t p = heldOf s p
  frames : ∀ j, j ≠ id → getF t j = getF s j
  still : still t = still s
  count : frozen s (0x203 + 16 * pipe) = false →
    rd64 t (frgB pipe + R.FRG_FRAG_COUNT + 8 * k) = (rd64 s (frgB pipe + R.FRG_FRAG_COUNT + 8 * k) + 1) % 2 ^ 64

theorem takenOut_of_apart {s t : State} {pipe : Fin 8} {id k : Nat} (hk : k < 8) (h : Apart (unheld s pipe id k) t id) :
    TakenOut s t pipe id k := by
  obtain ⟨hlo, hhi⟩ := passWord_fragCount pipe hk
  have hhold := heldOf_of_cls (hold_of_offPass h.rest)
  exact ⟨(hhold _).trans (heldOf_unheld ..), fun p hp => (hhold _).trans (heldOf_unheld_ne s id k hp),
    fun j hj => (h.other j hj).trans (getF_unheld ..), (still_of_offPass h.rest).trans (still_unheld ..),
    fun hf => (rd64_of_words (h.word _ hlo) (h.word _ hhi)).trans (counted_unheld s pipe id hk hf)⟩

/-! The stored outcome, and the timeout (R227, R228). -/

/-- Fragment `f` with what entry `e` stores of its first. -/
def followed (f : Frame) (e : FragEnt) : Frame :=
  { f with flowIdx := e.flowIdx,
           verdict := { f.verdict with doMirror := e.doMirror, session := e.session, meterClass := e.meterClass } }

/-- Fragment `id` metered as entry `e` says. -/
def followedMetered (s : State) (id : Nat) (e : FragEnt) : State :=
  meterAs (setF s id (followed (getF s id) e)) id e.meterClass false

theorem marks_followedMetered (s : State) (id : Nat) (e : FragEnt) :
    Marks (setF s id (followed (getF s id) e)) (followedMetered s id e) id := marks_meterAs ..

theorem apart_followedMetered (s : State) (id : Nat) (e : FragEnt) : Apart s (followedMetered s id e) id :=
  (apart_setF ..).trans (marks_followedMetered s id e).toApart

theorem markless_followedMetered (s : State) (id : Nat) (e : FragEnt) :
    markless (getF (followedMetered s id e) id) = markless (followed (getF s id) e) := by
  rw [(marks_followedMetered s id e).frame, getF_setF]

theorem takeFrag_sends {s : State} {id : Nat} {e : FragEnt} (hf : e.fwd = true) (hk : e.kind ≠ 3) :
    takeFrag s id e = sendOut (followedMetered s id e) id e.kind e.egress e.cls :=
  (if_pos hf).trans (sendTo_direct _ _ hk)

theorem takeFrag_drops {s : State} {id : Nat} {e : FragEnt} (hf : e.fwd = false) :
    takeFrag s id e = dropOut (followedMetered s id e) id rsnACTION := if_neg (by simp [hf])

/-- What is forwarded is apart from the rest, and carries where it goes. -/
theorem apart_sendOut (s : State) (id kind egress cls : Nat) : Apart s (sendOut s id kind egress cls) id :=
  (apart_setF ..).trans (marks_sendOut ..).toApart

theorem markless_sendOut (s : State) (id kind egress cls : Nat) :
    markless (getF (sendOut s id kind egress cls) id) = markless (sentFrame (getF s id) kind egress cls) := by
  rw [(marks_sendOut s id kind egress cls).frame, getF_setF]

/-- What a frame that is `f` sent, but for marks, carries. -/
theorem fields_of_sent {f g : Frame} {kind egress cls : Nat} (h : markless g = markless (sentFrame f kind egress cls)) :
    g.stage = .flowDone ∧ g.flowIdx = f.flowIdx ∧
      g.verdict = { f.verdict with fwd := true, kind := kind, egress := egress, cls := cls } :=
  ⟨(congrArg Frame.stage h :), (congrArg Frame.flowIdx h :), (congrArg Frame.verdict h :)⟩

theorem flowIdx_of_markless {f g : Frame} (h : markless g = markless f) : g.flowIdx = f.flowIdx :=
  (congrArg Frame.flowIdx h :)

/-- A fragment that follows a forwarded first is sent as the entry says. -/
structure SentAs (s t : State) (id : Nat) (e : FragEnt) : Prop extends Apart s t id where
  stage : (getF t id).stage = .flowDone
  flowIdx : (getF t id).flowIdx = e.flowIdx
  fwd : (getF t id).verdict.fwd = true
  kind : (getF t id).verdict.kind = e.kind
  egress : (getF t id).verdict.egress = e.egress
  cls : (getF t id).verdict.cls = e.cls

theorem sent_takeFrag {s : State} {id : Nat} {e : FragEnt} (hf : e.fwd = true) (hk : e.kind ≠ 3) :
    SentAs s (takeFrag s id e) id e := by
  rw [takeFrag_sends hf hk]
  have hapart := apart_followedMetered s id e
  have hframe := markless_followedMetered s id e
  generalize followedMetered s id e = u at hapart hframe
  obtain ⟨hstage, hidx, hverdict⟩ := fields_of_sent (markless_sendOut u id e.kind e.egress e.cls)
  exact ⟨hapart.trans (apart_sendOut ..), hstage, hidx.trans (flowIdx_of_markless hframe), by rw [hverdict],
    by rw [hverdict], by rw [hverdict], by rw [hverdict]⟩

theorem gone_takeFrag {s : State} {id : Nat} {e : FragEnt} (hf : e.fwd = false) (hm : e.doMirror = false)
    (he : (getF s id).ended = true) : Gone s (takeFrag s id e) id := by
  rw [takeFrag_drops hf]
  have hframe := markless_followedMetered s id e
  have hended : (getF (followedMetered s id e) id).ended = (getF s id).ended := (congrArg Frame.ended hframe :)
  have hmirror : (getF (followedMetered s id e) id).verdict.doMirror = e.doMirror :=
    (congrArg (fun f => f.verdict.doMirror) hframe :)
  exact (gone_dropOut _ (hended.trans he) (hmirror.trans hm)).after (apart_followedMetered ..)

/-- Fragment `f` without its mirror. -/
def unmirrored (f : Frame) : Frame := { f with verdict := { f.verdict with doMirror := false } }

theorem dropFrag_eq (s : State) (id r : Nat) : dropFrag s id r =
    dropOut (raiseReason (modF (meterAs s id (getF s id).verdict.meterClass false) id unmirrored) id r) id
      rsnFRAG := rfl

theorem gone_dropFrag {s : State} {id : Nat} (r : Nat) (he : (getF s id).ended = true) :
    Gone s (dropFrag s id r) id := by
  rw [dropFrag_eq]
  have hmeter := marks_meterAs s id (getF s id).verdict.meterClass false
  generalize meterAs s id (getF s id).verdict.meterClass false = u at hmeter
  have hraise := marks_raiseReason (modF u id unmirrored) id r
  have hf := hraise.frame
  rw [getF_modF] at hf
  have hended : (getF (raiseReason (modF u id unmirrored) id r) id).ended = (getF u id).ended :=
    (congrArg Frame.ended hf :)
  have hmirror : (getF (raiseReason (modF u id unmirrored) id r) id).verdict.doMirror = false :=
    (congrArg (fun f => f.verdict.doMirror) hf :)
  exact (gone_dropOut _ (hended.trans (hmeter.ended.trans he)) hmirror).after
    ((hmeter.toApart.trans (apart_setF ..)).trans hraise.toApart)

theorem fragRelease_eq {s : State} {pipe id : Nat} {e : FragEnt}
    (h : (heldOf s pipe).find? (fun j => (fragFind s (getF s j)).isSome) = some id)
    (he : fragFind s (getF s id) = some e) : fragRelease s pipe = takeFrag (unheld s pipe id 2) id e := by
  unfold fragRelease
  simp only [h, he]
  rfl

theorem fragTimeoutOp_eq {s : State} {pipe id : Nat}
    (h : (heldOf s pipe).find?
      (fun j => (getF s j).since + fragHoldMax s pipe ≤ plyNat s && (fragFind s (getF s j)).isNone) = some id) :
    fragTimeoutOp s pipe = dropFrag (unheld s pipe id 3) id rFRAG_TIMEOUT := by
  unfold fragTimeoutOp
  simp only [h]
  rfl

/-- Settles O37: expiry keeps `fragEntries`; a fragment taken from the hold is sent or gone apart from the rest. -/
theorem fragmentsFollowTheFirst : Obligations.FragmentsFollowTheFirst := by
  unfold Obligations.FragmentsFollowTheFirst
  intro s pipe count others
  have hout {t : State} {id k : Nat} (h : TakenOut s t pipe id k) : others t id ∧ count t k :=
    ⟨⟨h.held, h.holds, h.frames, hbm_of_still h.still⟩, h.count⟩
  refine ⟨?_, fun id e hfind he => ⟨fun hfwd hkind => ?_, fun hfwd hmirror hended => ?_⟩, fun id hfind hended => ?_⟩
  · refine runs_still (exec_fragEntryExpiry ..) rfl ⟨fun e => ?_, ?_, fun p hp => ?_, ?_, ?_⟩
    · rw [fragExpire, frag_setFrags, fragEntries, List.mem_filter, decide_eq_true_iff]
    · rw [fragExpire, frag_setFrags, used_setFrags]
    · exact frag_setFrags_ne s _ hp
    · exact frames_setFrags ..
    · exact hbm_setFrags ..
  · have hsent := sent_takeFrag (s := unheld s pipe id 2) (id := id) hfwd hkind
    rw [← fragRelease_eq hfind he] at hsent
    have htaken := takenOut_of_apart (k := 2) (by decide) hsent.toApart
    exact runs_still (exec_fragHoldRelease ..) htaken.still ⟨(hout htaken).1, (hout htaken).2,
      hsent.stage, hsent.flowIdx, hsent.fwd, hsent.kind, hsent.egress, hsent.cls⟩
  · have hgone := gone_takeFrag hfwd hmirror (by rw [getF_unheld]; exact hended) (s := unheld s pipe id 2) (id := id)
    rw [← fragRelease_eq hfind he] at hgone
    have htaken := takenOut_of_apart (k := 2) (by decide) hgone.toApart
    exact runs_still (exec_fragHoldRelease ..) htaken.still ⟨(hout htaken).1, (hout htaken).2, hgone.gone⟩
  · have hgone := gone_dropFrag rFRAG_TIMEOUT (s := unheld s pipe id 3) (id := id) (by rw [getF_unheld]; exact hended)
    rw [← fragTimeoutOp_eq hfind] at hgone
    have htaken := takenOut_of_apart (k := 3) (by decide) hgone.toApart
    exact runs_still (exec_fragTimeout ..) htaken.still ⟨(hout htaken).1, (hout htaken).2, hgone.gone⟩

end Sys2Proof.Machine
end

section
/-! CLASSIFY up to the resolved action (R208-R218): the key's bytes, the lookups and what they count. -/

namespace Sys2Proof.Machine

open Sys2Proof

/-! All but the frames, the ports, the books, and the entries that an upset clears. -/

def offTables (s : State) : State := { aside s with cls := { s.cls with em := [], tern := [] } }

theorem offTables_of_aside {s t : State} (h : aside t = aside s) : offTables t = offTables s := by
  unfold offTables
  rw [h, cls_of_aside h]

theorem still_of_offTables {s t : State} (h : offTables t = offTables s) : still t = still s := (congrArg still h :)
theorem eff_of_offTables {s t : State} (h : offTables t = offTables s) : t.eff = s.eff := (congrArg State.eff h :)
theorem tm_of_offTables {s t : State} (h : offTables t = offTables s) : t.tm = s.tm := (congrArg State.tm h :)
theorem frag_of_offTables {s t : State} (h : offTables t = offTables s) : t.cls.frag = s.cls.frag :=
  (congrArg (fun u => u.cls.frag) h :)
theorem hold_of_offTables {s t : State} (h : offTables t = offTables s) : t.cls.hold = s.cls.hold :=
  (congrArg (fun u => u.cls.hold) h :)

/-! Upsets (R237). -/

/-- `t` is `s` but for the entries that upsets cleared and the events. -/
structure Upset (s t : State) : Prop where
  rest : offTables t = offTables s
  frames : t.frames = s.frames
  word : ∀ a, plainWord a → rawRd t a = rawRd s a

theorem Upset.trans {s t u : State} (h : Upset s t) (k : Upset t u) : Upset s u :=
  ⟨k.rest.trans h.rest, k.frames.trans h.frames, fun a ha => (k.word a ha).trans (h.word a ha)⟩

theorem upset_raise (s : State) (page b : Nat) : Upset s (raise s page b) :=
  ⟨offTables_of_aside (aside_of_notBooks (notBooks_raise ..)), notEvents_frames _ _ (notEvents_raise ..),
    fun _ ha => rawRd_raise _ _ _ _ ha⟩

theorem upset_setEm (s : State) (pipe slot : Nat) (e : Option EmEnt) : Upset s (setEm s pipe slot e) :=
  ⟨rfl, rfl, fun _ _ => rfl⟩

theorem upset_tern (s : State) (t : Tab TernEnt) : Upset s (setCls s { s.cls with tern := t }) :=
  ⟨rfl, rfl, fun _ _ => rfl⟩

theorem upset_clearUpset (pipe : Nat) (s : State) (k : Nat) : Upset s (clearUpset pipe s k) := by
  unfold clearUpset
  split
  · exact upset_setEm ..
  · exact upset_tern ..

theorem upset_fold (pipe : Nat) (ks : List Nat) (s : State) : Upset s (ks.foldl (fun s k =>
    if k < 131072 + 32768 then raise (clearUpset pipe s k) (0x202 + 16 * pipe) evTABLE_UE else s) s) := by
  induction ks generalizing s with
  | nil => exact ⟨rfl, rfl, fun _ _ => rfl⟩
  | cons k ks ih =>
    rw [List.foldl_cons]
    refine Upset.trans ?_ (ih _)
    split
    · exact (upset_clearUpset pipe s k).trans (upset_raise ..)
    · exact ⟨rfl, rfl, fun _ _ => rfl⟩

theorem upset_takeUpsets (s : State) (pipe : Nat) (upset : List Nat) (corrected : Bool) :
    Upset s (takeUpsets s pipe upset corrected) := by
  have hfold := upset_fold pipe upset s
  unfold takeUpsets
  dsimp only
  split
  · exact hfold.trans (upset_raise ..)
  · exact hfold

/-! The lookups' counters. -/

/-- LOOKUPS, and the counters of the tables that hit or of a miss, in the classifier page at `b`. -/
def lookCounted (s : State) (b : Nat) (l : LookRes) : State :=
  let s := bump s (b + R.CLS_LOOKUPS)
  let s := if l.em.isSome then bump s (b + R.CLS_EM_HITS) else s
  let s := if l.tern.isSome then bump s (b + R.CLS_TERN_HITS) else s
  if l.res.isNone then bump s (b + R.CLS_MISSES) else s

theorem ite_bump_keeps {γ : Type} (π : State → γ) {s : State} {c : Bool} {a : Nat} (h : π (bump s a) = π s) :
    π (if c then bump s a else s) = π s := by
  split
  · exact h
  · rfl

theorem notEvents_lookCounted (s : State) (b : Nat) (l : LookRes) : notEvents (lookCounted s b l) = notEvents s := by
  unfold lookCounted
  dsimp only
  rw [ite_bump_keeps _ (notEvents_bump ..), ite_bump_keeps _ (notEvents_bump ..), ite_bump_keeps _ (notEvents_bump ..),
    notEvents_bump]

/-- The words that the counters of lookups leave. -/
theorem rawRd_lookCounted (s : State) (b : Nat) (l : LookRes) {a : Nat} (ha : plainWord a)
    (hne : a < b + R.CLS_LOOKUPS ∨ b + R.CLS_MISSES + 8 ≤ a) : rawRd (lookCounted s b l) a = rawRd s a := by
  have hbump (t : State) {o : Nat} (hlo : R.CLS_LOOKUPS ≤ o) (ho : o ≤ R.CLS_MISSES) :
      rawRd (bump t (b + o)) a = rawRd t a :=
    rawRd_bump _ _ _ ha (by omega) (by omega)
  unfold lookCounted
  dsimp only
  rw [ite_bump_keeps (fun t => rawRd t a) (hbump _ (by decide) (by decide)),
    ite_bump_keeps (fun t => rawRd t a) (hbump _ (by decide) (by decide)),
    ite_bump_keeps (fun t => rawRd t a) (hbump _ (by decide) (by decide)), hbump _ (by decide) (by decide)]

/-- The words of LOOKUPS. -/
theorem passWord_lookups (pipe : Nat) (hp : pipe < 8) :
    PassWord (clsB pipe + R.CLS_LOOKUPS) ∧ PassWord (clsB pipe + R.CLS_LOOKUPS + 4) := by
  rw [Nat.add_assoc]
  exact ⟨passWord_page (by omega) (by omega) (by omega) (by decide) (by decide),
    passWord_page (by omega) (by omega) (by omega) (by decide) (by decide)⟩

theorem lookups_lookCounted (s : State) {pipe : Nat} (hp : pipe < 8) (l : LookRes)
    (hf : frozen s (0x202 + 16 * pipe) = false) :
    rd64 (lookCounted s (clsB pipe) l) (clsB pipe + R.CLS_LOOKUPS) =
      (rd64 s (clsB pipe + R.CLS_LOOKUPS) + 1) % 2 ^ 64 := by
  obtain ⟨hlo, hhi⟩ := passWord_lookups pipe hp
  have hpage : (clsB pipe + R.CLS_LOOKUPS) / 0x1000 = 0x202 + 16 * pipe := pb_add_div _ (by decide)
  have hother (t : State) {o : Nat} (ho : R.CLS_LOOKUPS + 8 ≤ o) :
      rd64 (bump t (clsB pipe + o)) (clsB pipe + R.CLS_LOOKUPS) = rd64 t (clsB pipe + R.CLS_LOOKUPS) :=
    rd64_of_words (rawRd_bump _ _ _ hlo.plain (by omega) (by omega)) (rawRd_bump _ _ _ hhi.plain (by omega) (by omega))
  unfold lookCounted
  dsimp only
  rw [ite_bump_keeps (fun t => rd64 t (clsB pipe + R.CLS_LOOKUPS)) (hother _ (by decide)),
    ite_bump_keeps (fun t => rd64 t (clsB pipe + R.CLS_LOOKUPS)) (hother _ (by decide)),
    ite_bump_keeps (fun t => rd64 t (clsB pipe + R.CLS_LOOKUPS)) (hother _ (by decide)),
    rd64_bump _ _ (by rwa [hpage]) hlo.plain hhi.plain]

/-! The result (R212, R213, R215). -/

/-- The lookups of frame `f` with template `tm`. -/
def lookOf (q : State) (f : Frame) (tm : Template) : LookRes :=
  lookupAll q f.pipe (f.gen % 2) tm.header (buildKey f tm)

/-- The action index that the governing result, or the template without one, selects. -/
def indexOf (l : LookRes) (tm : Template) : Nat :=
  match l.res with
  | some r => r.toNat % 4096
  | none => bitsOf tm.header 8 12

/-- DATA of the governing result. -/
def dataOf (l : LookRes) : Nat :=
  match l.res with
  | some r => (r.toNat / 4096) % 2 ^ 48
  | none => 0

/-- Frame `f` with its action, its result and its action index. -/
def lookedFrame (q : State) (f : Frame) (tm : Template) : Frame :=
  let l := lookOf q f tm
  { f with verdict := verdictOf (getAct q f.pipe (f.gen % 2) (indexOf l tm)) (dataOf l),
           tblResult := tblResultOf l.res, actionIdx := indexOf l tm }

/-- The frame looked up, and the lookups counted. -/
def lookedUp (q : State) (id : Nat) (f : Frame) (tm : Template) : State :=
  lookCounted (setF q id (lookedFrame q f tm)) (clsB f.pipe) (lookOf q f tm)

/-! The command (R208). -/

theorem lt_foldl_max {n : Nat} (l : List Nat) (a : Nat) : n < l.foldl max a ↔ n < a ∨ ∃ x ∈ l, n < x := by
  induction l generalizing a with
  | nil => simp
  | cons x xs ih => simp [ih, or_assoc]

/-- The frame's parse lacks a byte that the template's key needs. -/
def KeyWaits (f : Frame) (tm : Template) : Prop := f.ended = false ∧ ∃ w ∈ tm.ops, f.bytes.length < extractNeed f w

theorem keyWaits_iff (f : Frame) (tm : Template) :
    KeyWaits f tm ↔ ¬ f.ended ∧ f.bytes.length < (tm.ops.map (extractNeed f)).foldl max 0 := by
  rw [KeyWaits, lt_foldl_max]
  simp

/-- The template of frame `f`. -/
def templateOf (u : State) (f : Frame) : Template := getTmpl u f.pipe (f.gen % 2) f.parseProf

section
variable {s u : State} {id : Nat} {more : List Byte} (hu : captureGen (arrive s id more) id = u)
  (hlive : (getF s id).live = true) (hstage : (getF s id).stage = .classify)
  (h2 : idled u (0x202 + 16 * (getF u id).pipe) = false)
  (h3 : idled u (0x203 + 16 * (getF u id).pipe) = true → isFirstFrag u (getF u id) = false ∧
    isLaterFrag u (getF u id) = false)
include hu hlive hstage h2 h3

theorem classifyOp_open (upset : List Nat) (corrected : Bool) : classifyOp s id more upset corrected =
    let f := getF u id
    let tm := templateOf u f
    if ¬ f.ended ∧ f.bytes.length < (tm.ops.map (extractNeed f)).foldl max 0 then u
    else
      let q := takeUpsets u f.pipe upset corrected
      let w := lookedUp q id f tm
      if isLaterFrag w f then laterFrag w id else actOn w id ((lookOf q f tm).res.isNone && tm.header.getLsbD 20) := by
  have hopen : (idled u (0x202 + 16 * (getF u id).pipe) || (idled u (0x203 + 16 * (getF u id).pipe) &&
      (isFirstFrag u (getF u id) || isLaterFrag u (getF u id)))) = false := by
    rw [h2, Bool.false_or, Bool.and_eq_false_iff]
    by_cases hi : idled u (0x203 + 16 * (getF u id).pipe) = true
    · obtain ⟨hfirst, hlater⟩ := h3 hi
      exact .inr (by rw [hfirst, hlater]; rfl)
    · exact .inl (Bool.eq_false_iff.mpr hi)
  unfold classifyOp
  dsimp only
  rw [if_neg (by simp [hlive, hstage]), hu, hopen, if_neg (by decide)]
  rfl

/-- The frame of the command, looked up. -/
def classified (u : State) (id : Nat) (upset : List Nat) (corrected : Bool) : State :=
  let f := getF u id
  lookedUp (takeUpsets u f.pipe upset corrected) id f (templateOf u f)

theorem classifyOp_waits (upset : List Nat) (corrected : Bool) (hk : KeyWaits (getF u id) (templateOf u (getF u id))) :
    classifyOp s id more upset corrected = u :=
  (classifyOp_open hu hlive hstage h2 h3 upset corrected).trans (if_pos ((keyWaits_iff ..).mp hk))

theorem classifyOp_later {upset : List Nat} {corrected : Bool} (hk : ¬ KeyWaits (getF u id) (templateOf u (getF u id)))
    (hl : isLaterFrag (classified u id upset corrected) (getF u id) = true) :
    classifyOp s id more upset corrected = laterFrag (classified u id upset corrected) id :=
  ((classifyOp_open hu hlive hstage h2 h3 upset corrected).trans (if_neg (mt (keyWaits_iff ..).mpr hk))).trans
    (if_pos hl)

theorem classifyOp_acts {upset : List Nat} {corrected : Bool} (hk : ¬ KeyWaits (getF u id) (templateOf u (getF u id)))
    (hl : isLaterFrag (classified u id upset corrected) (getF u id) = false) :
    ∃ missExc, classifyOp s id more upset corrected = actOn (classified u id upset corrected) id missExc :=
  ⟨_, ((classifyOp_open hu hlive hstage h2 h3 upset corrected).trans (if_neg (mt (keyWaits_iff ..).mpr hk))).trans
    (if_neg (Bool.eq_false_iff.mp hl))⟩

end

end Sys2Proof.Machine
end

section
/-! CLASSIFY after the action is resolved (R216-R228): dispatched, sent, dropped or held. -/

namespace Sys2Proof.Machine

open Sys2Proof

/-! The generation (R218). -/

theorem getF_captureGen (s : State) (id : Nat) : getF (captureGen s id) id =
    if (getF s id).genTaken then getF s id
    else { getF s id with gen := activeGen s (getF s id).pipe, genTaken := true, genPipe := (getF s id).pipe } :=
      getF_modF ..

theorem gen_classified {s : State} {id : Nat} (more : List Byte) (h : (getF s id).genTaken = false) :
    (getF (captureGen (arrive s id more) id) id).gen =
      activeGen s (getF (captureGen (arrive s id more) id) id).pipe := by
  obtain ⟨bs, hf⟩ := getF_arrive s id more
  have hgen (p : Nat) : activeGen (arrive s id more) p = activeGen s p := fg_congr _ _ _ _ (regs_arrive ..)
  rw [getF_captureGen, hf, if_neg (by simp [h])]
  exact hgen _

theorem aside_classified (s : State) (id : Nat) (more : List Byte) :
    aside (captureGen (arrive s id more) id) = aside s :=
  (aside_modF ..).trans (aside_arrive ..)

theorem regs_classified (s : State) (id : Nat) (more : List Byte) : (captureGen (arrive s id more) id).regs = s.regs :=
  (regs_arrive s id more :)

theorem getF_classified_ne (s : State) {id j : Nat} (more : List Byte) (h : j ≠ id) :
    getF (captureGen (arrive s id more) id) j = getF s j :=
  (getF_modF_ne _ _ _ _ h).trans (getF_arrive_ne s more h)

/-! Spreading (R224, R225): what the member depends on. -/

/-- A word of a block below the pipelines that no pass writes. -/
def BlockWord (a : Nat) : Prop := PassWord a ∧ a / 0x1000 < 0x200

theorem blockWord_hostState : BlockWord (pgHP + F.HP_HP_STATUS_LINK_STATE.off) :=
  ⟨passWord_page (by decide) (by decide) (by decide) (by decide) (by decide), by decide⟩

theorem blockWord_linkState {p : Nat} (h : p < 256) : BlockWord (portB p + F.PORT_PORT_STATUS_LINK_STATE.off) := by
  have hlt : 0x100 + 0x100 * (p % 8) + F.PORT_PORT_STATUS_LINK_STATE.off < 0x1000 := by simp only; omega
  have hplain := (spared_of_port (o := F.PORT_PORT_STATUS_LINK_STATE.off) h (by decide)).plain
  rw [portB_add] at hplain ⊢
  have hpage := pb_add_div (0x020 + p / 8) hlt
  exact ⟨⟨hplain, by omega, by omega, fun _ => by omega⟩, by omega⟩

section
variable {s t : State} (heff : t.eff = s.eff) (hfuse : t.fuse = s.fuse)
  (hword : ∀ a, BlockWord a → rawRd t a = rawRd s a)
include heff hfuse hword

theorem isUp_of_words (p : Nat) : isUp t p = isUp s p := by
  have hlink : linkCode t p = linkCode s p := by
    unfold linkCode
    split
    next hp => exact fg_of_word (hword _ (blockWord_linkState hp))
    · split
      · exact fg_of_word (hword _ blockWord_hostState)
      · rfl
  unfold isUp
  rw [portMapped_of_eff heff hfuse, hlink]

theorem memberLive_of_words (m : Nat) : memberLive t m = memberLive s m := by
  unfold memberLive
  rw [isUp_of_words heff hfuse hword]
  unfold cgb cg effRd
  rw [heff]

theorem spreadTo_of_words (hspread : t.cls.spread = s.cls.spread) {f g : Frame} (hhv : g.hv = f.hv)
    (hb : g.bytes = f.bytes)
    (pipe n : Nat) : spreadTo t pipe n g = spreadTo s pipe n f := by
  have hgroup : getSpread t pipe = getSpread s pipe := by
    unfold getSpread
    rw [hspread]
  have hlive : liveMembers t pipe n = liveMembers s pipe n := by
    unfold liveMembers
    rw [hgroup, funext (memberLive_of_words heff hfuse hword)]
  have hhash : hashSym g = hashSym f := by
    unfold hashSym hvAt
    rw [hhv, hb]
  unfold spreadTo memberAt
  rw [hlive, hhash, hgroup]

end

/-! The outcome of a first fragment (R226). -/

/-- `t` is `s` but for the outcomes that wait for the next edge. -/
structure Noted (s t : State) : Prop where
  still : still t = still s
  eff : t.eff = s.eff
  spread : t.cls.spread = s.cls.spread
  frame : ∀ j, getF t j = getF s j
  word : ∀ a, rawRd t a = rawRd s a

theorem noted_noteFrag (s : State) (id : Nat) (fwd : Bool) (kind egress cls : Nat) :
    Noted s (noteFrag s id fwd kind egress cls) := by
  unfold noteFrag
  dsimp only
  split
  · exact ⟨still_setCls .., eff_setCls .., rfl, fun _ => getF_setCls .., fun _ => rawRd_setCls ..⟩
  · exact ⟨rfl, rfl, rfl, fun _ => rfl, fun _ => rfl⟩

/-- What frame `f` leaves its datagram's other fragments. -/
def fragOf (f : Frame) (fwd : Bool) (kind egress cls : Nat) : FragEnt :=
  { key := f.fragKey, fwd := fwd, kind := kind, egress := egress, cls := cls, doMirror := f.verdict.doMirror,
    session := f.verdict.session, flowIdx := f.flowIdx, meterClass := f.verdict.meterClass, ply := 0 }

theorem noteFrag_first {s : State} {id : Nat} (fwd : Bool) (kind egress cls : Nat)
    (h : isFirstFrag s (getF s id) = true) :
    ((getF s id).pipe, fragOf (getF s id) fwd kind egress cls) ∈ (noteFrag s id fwd kind egress cls).cls.fragDue := by
  unfold noteFrag
  dsimp only
  rw [if_pos h, setCls_cls]
  exact List.mem_append_right _ (List.mem_singleton.mpr rfl)

/-- What isFirstFrag and isLaterFrag ask: FRAG_CTRL.EN and the frame's header vector. -/
theorem fragOn_of_words {s t : State} {pipe : Nat} (h : rawRd t (frgB pipe + 0x40) = rawRd s (frgB pipe + 0x40)) :
    fragOn t pipe = fragOn s pipe := congrArg (· != 0) (fg_of_word (f := F.FRG_FRAG_CTRL_EN) h)

theorem isLaterFrag_of_words {s t : State} (f : Frame)
    (h : rawRd t (frgB f.pipe + 0x40) = rawRd s (frgB f.pipe + 0x40)) :
    isLaterFrag t f = isLaterFrag s f := by
  unfold isLaterFrag
  rw [fragOn_of_words h]

theorem isFirstFrag_of_words {s t : State} {f g : Frame} (hp : g.pipe = f.pipe) (hv : g.hv = f.hv)
    (h : rawRd t (frgB f.pipe + 0x40) = rawRd s (frgB f.pipe + 0x40)) : isFirstFrag t g = isFirstFrag s f := by
  unfold isFirstFrag hvAt
  rw [hp, hv, fragOn_of_words h]

theorem fragFind_of_words {s t : State} {f g : Frame} (hp : g.pipe = f.pipe) (hk : g.fragKey = f.fragKey)
    (hfrag : t.cls.frag = s.cls.frag) (htm : t.tm = s.tm)
    (h : rawRd t (frgB f.pipe + 0x40) = rawRd s (frgB f.pipe + 0x40)) : fragFind t g = fragFind s f := by
  unfold fragFind fragEntries fragLife
  rw [hp, hk, hfrag, plyNat_of_tm htm, fg_of_word (f := F.FRG_FRAG_CTRL_LIFE) h]

/-! Acting on the action (R216). -/

/-- The frame metered, and the reasons of its action raised. -/
def reasoned (s : State) (id : Nat) (missExc : Bool) : State :=
  let v := (getF s id).verdict
  let s := meterAs s id v.meterClass (v.op == 3)
  let s := if missExc then raiseReason s id rTABLE_MISS else s
  let s := if v.copy then raiseReason s id rCOPY else s
  if v.op = 2 then raiseReason s id rTRAP else s

theorem marks_ite_reason {s u : State} {id : Nat} (h : Marks s u id) (c : Prop) [Decidable c] (r : Nat) :
    Marks s (if c then raiseReason u id r else u) id := by
  split
  · exact h.trans (marks_raiseReason ..)
  · exact h

theorem marks_reasoned (s : State) (id : Nat) (missExc : Bool) : Marks s (reasoned s id missExc) id :=
  marks_ite_reason (marks_ite_reason (marks_ite_reason (marks_meterAs ..) _ _) _ _) _ _

/-- The frame metered, its reasons raised, and without a policer's colour. -/
def acted (s : State) (id : Nat) (missExc : Bool) : State :=
  modF (reasoned s id missExc) id (fun f => { f with colour := 0 })

theorem marks_acted (s : State) (id : Nat) (missExc : Bool) : Marks s (acted s id missExc) id :=
  (marks_reasoned s id missExc).trans (marks_setF rfl)

theorem policeFrame_none {s : State} {id : Nat} (h : (getF s id).verdict.policer = none) :
    policeFrame s id = (false, modF s id (fun f => { f with colour := 0 })) := by
  unfold policeFrame
  simp only [h]

section
variable {s : State} {id : Nat} {v : Verdict} (hv : (getF s id).verdict = v) (hp : v.policer = none) (missExc : Bool)
include hv hp

theorem actOn_open : actOn s id missExc =
    let u := acted s id missExc
    match v.op with
    | 1 => sendTo (noteFrag u id true v.kind v.egress v.cls) id v.kind v.egress v.cls
    | 3 => modF u id (fun f => { f with stage := .dispatch, since := plyNat u })
    | _ => dropOut (noteFrag u id false 0 0 0) id rsnACTION := by
  subst hv
  have hpolice : policeFrame (reasoned s id missExc) id = (false, acted s id missExc) :=
    policeFrame_none ((congrArg Verdict.policer (marks_reasoned s id missExc).verdict).trans hp)
  unfold actOn
  unfold reasoned at hpolice
  dsimp only at hpolice ⊢
  rw [hpolice, hp]
  rfl

end

end Sys2Proof.Machine
end

section
/-! CLASSIFY: what each action leaves (R208, R212-R218, R225-R228). -/

namespace Sys2Proof.Machine

open Sys2Proof

/-! From the lookup on. -/

/-- `t` follows `w`: flow memory, other frames and the words that no pass writes stay. -/
structure Onward (w t : State) (id : Nat) : Prop where
  still : still t = still w
  other : ∀ j, j ≠ id → getF t j = getF w j
  word : ∀ a, PassWord a → rawRd t a = rawRd w a

theorem Apart.onward {w t : State} {id : Nat} (h : Apart w t id) : Onward w t id :=
  ⟨still_of_offPass h.rest, h.other, h.word⟩

theorem Noted.onward {w t : State} (h : Noted w t) (id : Nat) : Onward w t id :=
  ⟨h.still, fun j _ => h.frame j, fun a _ => h.word a⟩

theorem Onward.trans {s t u : State} {id : Nat} (h : Onward s t id) (k : Onward t u id) : Onward s u id :=
  ⟨k.still.trans h.still, fun j hj => (k.other j hj).trans (h.other j hj),
    fun a ha => (k.word a ha).trans (h.word a ha)⟩

/-- The state that the action of the frame is taken in, its outcome noted for its other fragments. -/
def actedNoted (w : State) (id : Nat) (missExc fwd : Bool) (kind egress cls : Nat) : State :=
  noteFrag (acted w id missExc) id fwd kind egress cls

section
variable (w : State) (id : Nat) (missExc fwd : Bool) (kind egress cls : Nat)

theorem onward_actedNoted : Onward w (actedNoted w id missExc fwd kind egress cls) id :=
  (marks_acted w id missExc).toApart.onward.trans ((noted_noteFrag ..).onward id)

theorem frame_actedNoted (j : Nat) :
    getF (actedNoted w id missExc fwd kind egress cls) j = getF (acted w id missExc) j :=
  (noted_noteFrag (acted w id missExc) id fwd kind egress cls).frame j

theorem markless_actedNoted :
    markless (getF (actedNoted w id missExc fwd kind egress cls) id) = markless (getF w id) :=
  (congrArg markless (frame_actedNoted ..)).trans (marks_acted w id missExc).frame

theorem eff_actedNoted : (actedNoted w id missExc fwd kind egress cls).eff = w.eff :=
  (noted_noteFrag (acted w id missExc) id fwd kind egress cls).eff.trans
    (eff_of_offPass (marks_acted w id missExc).rest)

theorem spread_actedNoted : (actedNoted w id missExc fwd kind egress cls).cls.spread = w.cls.spread :=
  (noted_noteFrag (acted w id missExc) id fwd kind egress cls).spread.trans
    (spread_of_offPass (marks_acted w id missExc).rest)

end

theorem fuse_of_still {s t : State} (h : still t = still s) : t.fuse = s.fuse := congrArg (fun x => x.2.1) h

/-- Two frames that differ in marks alone. -/
theorem fields_of_markless {f g : Frame} (h : markless g = markless f) : g.pipe = f.pipe ∧ g.hv = f.hv ∧
    g.bytes = f.bytes ∧ g.fragKey = f.fragKey ∧ g.verdict = f.verdict ∧ g.ended = f.ended :=
  ⟨(congrArg Frame.pipe h :), (congrArg Frame.hv h :), (congrArg Frame.bytes h :), (congrArg Frame.fragKey h :),
    (congrArg Frame.verdict h :), (congrArg Frame.ended h :)⟩

/-- The member that a spreading group gives a frame, once its action is taken. -/
theorem spreadTo_actedNoted (w : State) (id : Nat) (missExc fwd : Bool) (kind egress cls pipe g : Nat) :
    spreadTo (actedNoted w id missExc fwd kind egress cls) pipe g
      (getF (actedNoted w id missExc fwd kind egress cls) id) = spreadTo w pipe g (getF w id) := by
  obtain ⟨-, hhv, hbytes, -⟩ := fields_of_markless (markless_actedNoted w id missExc fwd kind egress cls)
  have honward := onward_actedNoted w id missExc fwd kind egress cls
  exact spreadTo_of_words (eff_actedNoted ..) (fuse_of_still honward.still) (fun a ha => honward.word a ha.1)
    (spread_actedNoted ..) hhv hbytes pipe g

theorem fragDue_sendOut (s : State) (id kind egress cls : Nat) :
    (sendOut s id kind egress cls).cls.fragDue = s.cls.fragDue :=
  fragDue_of_offPass (apart_sendOut ..).rest

/-- A first fragment's outcome waits for the edge. -/
theorem fragDue_actedNoted {w : State} {id : Nat} (missExc fwd : Bool) (kind egress cls : Nat)
    (hpage : PassWord (frgB (getF w id).pipe + 0x40)) (h : isFirstFrag w (getF w id) = true) :
    ∃ e, ((getF w id).pipe, e) ∈ (actedNoted w id missExc fwd kind egress cls).cls.fragDue ∧
      e.key = (getF w id).fragKey ∧ e.fwd = fwd ∧ e.kind = kind ∧ e.egress = egress ∧ e.cls = cls := by
  have hacted := marks_acted w id missExc
  obtain ⟨hpipe, hhv, -, hkey, -⟩ := fields_of_markless hacted.frame
  have hfirst := (isFirstFrag_of_words hpipe hhv (hacted.word _ hpage)).trans h
  have hnoted := noteFrag_first fwd kind egress cls hfirst
  rw [hpipe] at hnoted
  exact ⟨_, hnoted, hkey, rfl, rfl, rfl, rfl⟩

/-- A frame that is sent carries where it goes. -/
structure SentTo (w t : State) (id : Nat) (v : Verdict) : Prop extends Onward w t id where
  stage : (getF t id).stage = .flowDone
  verdict : (getF t id).verdict = v

theorem sentTo_sendOut {w : State} {id : Nat} {v : Verdict} (hv : (getF w id).verdict = v) (missExc fwd : Bool)
    (kind egress cls kind' egress' cls' : Nat) :
    SentTo w (sendOut (actedNoted w id missExc fwd kind egress cls) id kind' egress' cls') id
      { v with fwd := true, kind := kind', egress := egress', cls := cls' } := by
  have honward := onward_actedNoted w id missExc fwd kind egress cls
  have hframe := markless_actedNoted w id missExc fwd kind egress cls
  generalize actedNoted w id missExc fwd kind egress cls = n at honward hframe
  obtain ⟨hstage, -, hverdict⟩ := fields_of_sent (markless_sendOut n id kind' egress' cls')
  obtain ⟨-, -, -, -, hnv, -⟩ := fields_of_markless hframe
  exact ⟨honward.trans (apart_sendOut ..).onward, hstage, by rw [hverdict, hnv, hv]⟩

section
variable {w : State} {id : Nat} {v : Verdict} (hv : (getF w id).verdict = v) (hp : v.policer = none) (missExc : Bool)
include hv hp

theorem actOn_dispatches (hop : v.op = 3) : actOn w id missExc =
    modF (acted w id missExc) id (fun f => { f with stage := .dispatch, since := plyNat (acted w id missExc) }) := by
  rw [actOn_open hv hp]
  simp only [hop]

theorem actOn_sends (hop : v.op = 1) : actOn w id missExc =
    sendTo (actedNoted w id missExc true v.kind v.egress v.cls) id v.kind v.egress v.cls := by
  rw [actOn_open hv hp]
  simp only [hop]
  rfl

theorem actOn_drops (hop : v.op = 0 ∨ v.op = 2) : actOn w id missExc =
    dropOut (actedNoted w id missExc false 0 0 0) id rsnACTION := by
  rw [actOn_open hv hp]
  rcases hop with hop | hop <;> simp only [hop] <;> rfl

/-- A dispatched frame is the frame at the dispatch stage, but for marks. -/
theorem dispatched_actOn (hop : v.op = 3) : Onward w (actOn w id missExc) id ∧
    ∃ since, markless (getF (actOn w id missExc) id) = markless
      { getF w id with stage := .dispatch, since := since } := by
  rw [actOn_dispatches hv hp missExc hop]
  have hacted := marks_acted w id missExc
  generalize acted w id missExc = u at hacted
  refine ⟨hacted.toApart.onward.trans (apart_setF ..).onward, plyNat u, ?_⟩
  rw [getF_modF]
  exact (congrArg (fun f => { f with stage := .dispatch, since := plyNat u }) hacted.frame :)

/-- A frame that is sent directly, and what its first fragment notes. -/
theorem sent_actOn (hop : v.op = 1) (hk : v.kind ≠ 3) : SentTo w (actOn w id missExc) id { v with fwd := true } ∧
    (PassWord (frgB (getF w id).pipe + 0x40) → isFirstFrag w (getF w id) = true →
      ∃ e, ((getF w id).pipe, e) ∈ (actOn w id missExc).cls.fragDue ∧ e.key = (getF w id).fragKey ∧ e.fwd = true ∧
        e.kind = v.kind ∧ e.egress = v.egress ∧ e.cls = v.cls) := by
  rw [actOn_sends hv hp missExc hop, sendTo_direct _ _ hk]
  refine ⟨sentTo_sendOut hv .., fun hpage hfirst => ?_⟩
  rw [fragDue_sendOut]
  exact fragDue_actedNoted _ _ _ _ _ hpage hfirst

/-- A frame that is sent to a spreading group goes to the member that it gives. -/
theorem sent_actOn_member {m : Nat} (hop : v.op = 1) (hk : v.kind = 3) (he : v.egress < 256)
    (hm : spreadTo w (getF w id).pipe v.egress (getF w id) = some m) :
    SentTo w (actOn w id missExc) id { v with fwd := true, kind := m / 32768, egress := m % 32768 } := by
  rw [actOn_sends hv hp missExc hop, hk, sendTo_member _ he ?_]
  · exact sentTo_sendOut hv ..
  · obtain ⟨hpipe, -⟩ := fields_of_markless (markless_actedNoted w id missExc true 3 v.egress v.cls)
    rw [hpipe, spreadTo_actedNoted, hm]

/-- A frame that its action neither sends, dispatches nor mirrors is gone when it has ended. -/
theorem gone_actOn (hop : v.op = 0 ∨ v.op = 2) (hm : v.doMirror = false) (he : (getF w id).ended = true) :
    Onward w (actOn w id missExc) id ∧ getF (actOn w id missExc) id = {} := by
  rw [actOn_drops hv hp missExc hop]
  have honward := onward_actedNoted w id missExc false 0 0 0
  obtain ⟨-, -, -, -, hnv, hended⟩ := fields_of_markless (markless_actedNoted w id missExc false 0 0 0)
  have hgone := gone_dropOut rsnACTION (hended.trans he) (by rw [hnv, hv]; exact hm)
  exact ⟨honward.trans hgone.toApart.onward, hgone.gone⟩

end

/-! The hold (R228). -/

theorem laterFrag_holds {w : State} {id : Nat} (hfind : fragFind w (getF w id) = none)
    (hlen : (heldOf w (getF w id).pipe).length < 64) : laterFrag w id =
      setHeld (setF w id { getF w id with stage := .fragHold, since := plyNat w }) (getF w id).pipe
        (heldOf w (getF w id).pipe ++ [id]) := by
  unfold laterFrag
  simp only [hfind]
  exact if_neg (Nat.not_le.mpr hlen)

/-! From the command to the lookup. -/

/-- `w` is `s` with frame `id` looked up as `g`, in the classifier of `pipe`. -/
structure Looked (s w : State) (id pipe : Nat) (g : Frame) : Prop where
  frame : getF w id = g
  other : ∀ j, j ≠ id → getF w j = getF s j
  rest : offTables w = offTables s
  count : frozen s (0x202 + 16 * pipe) = false →
    rd64 w (clsB pipe + R.CLS_LOOKUPS) = (rd64 s (clsB pipe + R.CLS_LOOKUPS) + 1) % 2 ^ 64
  fragCtrl : rawRd w (frgB pipe + 0x40) = rawRd s (frgB pipe + 0x40)

theorem notBooks_lookedUp (q : State) (id : Nat) (f : Frame) (tm : Template) :
    notBooks (lookedUp q id f tm) = notBooks (setF q id (lookedFrame q f tm)) :=
  notBooks_of_notEvents (notEvents_lookCounted ..)

theorem getF_lookedUp (q : State) (id : Nat) (f : Frame) (tm : Template) :
    getF (lookedUp q id f tm) id = lookedFrame q f tm :=
  (getF_of_notBooks (notBooks_lookedUp ..) id).trans (getF_setF ..)

theorem getF_lookedUp_ne (q : State) {id j : Nat} (f : Frame) (tm : Template) (h : j ≠ id) :
    getF (lookedUp q id f tm) j = getF q j :=
  (getF_of_notBooks (notBooks_lookedUp ..) j).trans (getF_setF_ne _ _ _ _ h)

theorem aside_lookedUp (q : State) (id : Nat) (f : Frame) (tm : Template) : aside (lookedUp q id f tm) = aside q :=
  (aside_of_notBooks (notBooks_lookedUp ..)).trans (aside_setF ..)

theorem rawRd_lookedUp (q : State) (id : Nat) (f : Frame) (tm : Template) {a : Nat} (ha : plainWord a)
    (hne : a < clsB f.pipe + R.CLS_LOOKUPS ∨ clsB f.pipe + R.CLS_MISSES + 8 ≤ a) :
    rawRd (lookedUp q id f tm) a = rawRd q a := rawRd_lookCounted _ _ _ ha hne

theorem spreadTo_lookedUp (q : State) (id : Nat) (f : Frame) (tm : Template) (pipe g : Nat) :
    spreadTo (lookedUp q id f tm) pipe g (lookedFrame q f tm) = spreadTo q pipe g f := by
  have hrest := aside_lookedUp q id f tm
  refine spreadTo_of_words (eff_of_aside hrest) (fuse_of_aside hrest) (fun a ha => ?_)
    (congrArg ClsSt.spread (cls_of_aside hrest)) rfl rfl pipe g
  have hlow := ha.2
  exact rawRd_lookedUp q id f tm ha.1.plain (.inl (by simp only [clsB, pb]; omega))

theorem passWord_fragCtrl {pipe : Nat} (hp : pipe < 8) : PassWord (frgB pipe + 0x40) :=
  passWord_page (by omega) (by omega) (by omega) (by decide) (by decide)

theorem looked_lookedUp {s u : State} {id : Nat} {more : List Byte} (hu : captureGen (arrive s id more) id = u)
    (hp : (getF u id).pipe < 8) (upset : List Nat) (corrected : Bool) (tm : Template) :
    let q := takeUpsets u (getF u id).pipe upset corrected
    Looked s (lookedUp q id (getF u id) tm) id (getF u id).pipe (lookedFrame q (getF u id) tm) := by
  intro q
  have hq : Upset u q := upset_takeUpsets ..
  have hus : aside u = aside s := hu ▸ aside_classified s id more
  have hregs : u.regs = s.regs := hu ▸ regs_classified s id more
  have hword (a : Nat) (ha : plainWord a) : rawRd q a = rawRd s a := (hq.word a ha).trans (rawRd_congr _ _ _ hregs)
  have hrest : offTables q = offTables s := hq.rest.trans (offTables_of_aside hus)
  obtain ⟨hlo, hhi⟩ := passWord_lookups (getF u id).pipe hp
  have hctrl := passWord_fragCtrl hp
  refine ⟨getF_lookedUp .., fun j hj => ?_, (offTables_of_aside (aside_lookedUp ..)).trans hrest, fun hf => ?_, ?_⟩
  · rw [getF_lookedUp_ne _ _ _ hj, getF_of_frames hq.frames, ← hu, getF_classified_ne s more hj]
  · have hfq : frozen (setF q id (lookedFrame q (getF u id) tm)) (0x202 + 16 * (getF u id).pipe) = false :=
      (frozen_of_eff (eff_of_offTables hrest) _).trans hf
    have hcount : rd64 q (clsB (getF u id).pipe + R.CLS_LOOKUPS) = rd64 s (clsB (getF u id).pipe + R.CLS_LOOKUPS) :=
      rd64_of_words (hword _ hlo.plain) (hword _ hhi.plain)
    rw [← hcount]
    exact lookups_lookCounted _ hp _ hfq
  · rw [rawRd_lookedUp _ _ _ _ hctrl.plain (.inr (by simp only [R.CLS_MISSES, clsB, frgB, pb]; omega)),
      hword _ hctrl.plain]

/-- What every outcome of a frame looked up keeps and counts. -/
structure Settled (s t : State) (id pipe : Nat) : Prop where
  other : ∀ j, j ≠ id → getF t j = getF s j
  count : frozen s (0x202 + 16 * pipe) = false →
    rd64 t (clsB pipe + R.CLS_LOOKUPS) = (rd64 s (clsB pipe + R.CLS_LOOKUPS) + 1) % 2 ^ 64
  still : still t = still s

theorem Looked.settled {s w t : State} {id pipe : Nat} {g : Frame} (h : Looked s w id pipe g) (hp : pipe < 8)
    (k : Onward w t id) : Settled s t id pipe := by
  obtain ⟨hlo, hhi⟩ := passWord_lookups pipe hp
  exact ⟨fun j hj => (k.other j hj).trans (h.other j hj),
    fun hf => (rd64_of_words (k.word _ hlo) (k.word _ hhi)).trans (h.count hf),
      k.still.trans (still_of_offTables h.rest)⟩

/-- A fragment held waits at the end of the hold of its pipeline. -/
theorem Looked.held {s w : State} {id pipe : Nat} {g : Frame} (h : Looked s w id pipe g) (hpipe : g.pipe = pipe)
    (hfind : fragFind s g = none) (hlen : (heldOf s pipe).length < 64) :
    Settled s (laterFrag w id) id pipe ∧ (getF (laterFrag w id) id).stage = .fragHold ∧
      heldOf (laterFrag w id) pipe = heldOf s pipe ++ [id] := by
  subst hpipe
  have hhold := heldOf_of_cls (hold_of_offTables h.rest) g.pipe
  have hfindw : fragFind w (getF w id) = none := by
    rw [h.frame, fragFind_of_words rfl rfl (frag_of_offTables h.rest) (tm_of_offTables h.rest) h.fragCtrl, hfind]
  rw [laterFrag_holds hfindw (by rw [h.frame, hhold]; exact hlen), h.frame, hhold]
  have hword (o : Nat) (ho : o < 0x1000) {u : State} (l : List Nat) :
      rawRd (setHeld u g.pipe l) (clsB g.pipe + o) = rawRd u (clsB g.pipe + o) :=
    rawRd_setHeld _ _ _ (by simp only [clsB, frgB, pb]; omega)
  refine ⟨⟨fun j hj => ?_, fun hf => ?_, (still_setHeld ..).trans (still_of_offTables h.rest)⟩, ?_, heldOf_setHeld ..⟩
  · rw [getF_setHeld, getF_setF_ne _ _ _ _ hj, h.other j hj]
  · refine .trans (rd64_of_words (hword _ (by decide) _) ?_) (h.count hf)
    simp only [Nat.add_assoc]
    exact hword _ (by decide) _
  · rw [getF_setHeld, getF_setF]

/-! What each action leaves of the frame looked up. -/

section
variable {s w : State} {id pipe : Nat} {g : Frame} (h : Looked s w id pipe g) (hp : pipe < 8)
  (hpol : g.verdict.policer = none) (missExc : Bool)
include h hp hpol

theorem Looked.dispatched (hop : g.verdict.op = 3) : Settled s (actOn w id missExc) id pipe ∧
    (getF (actOn w id missExc) id).stage = .dispatch ∧ (getF (actOn w id missExc) id).verdict = g.verdict ∧
    (getF (actOn w id missExc) id).tblResult = g.tblResult ∧ (getF (actOn w id missExc) id).actionIdx = g.actionIdx ∧
    (getF (actOn w id missExc) id).gen = g.gen := by
  obtain ⟨honward, since, hframe⟩ := dispatched_actOn (congrArg Frame.verdict h.frame) hpol missExc hop
  rw [h.frame] at hframe
  refine ⟨h.settled hp honward, ?_⟩
  generalize getF (actOn w id missExc) id = x at hframe
  exact ⟨(congrArg Frame.stage hframe :), (congrArg Frame.verdict hframe :), (congrArg Frame.tblResult hframe :),
    (congrArg Frame.actionIdx hframe :), (congrArg Frame.gen hframe :)⟩

theorem Looked.sent (hpipe : g.pipe = pipe) (hop : g.verdict.op = 1) (hk : g.verdict.kind ≠ 3) :
    Settled s (actOn w id missExc) id pipe ∧ (getF (actOn w id missExc) id).stage = .flowDone ∧
    (getF (actOn w id missExc) id).verdict = { g.verdict with fwd := true } ∧
    (isFirstFrag w g = true → ∃ e, (pipe, e) ∈ (actOn w id missExc).cls.fragDue ∧ e.key = g.fragKey ∧ e.fwd = true ∧
      e.kind = g.verdict.kind ∧ e.egress = g.verdict.egress ∧ e.cls = g.verdict.cls) := by
  obtain ⟨hsent, hdue⟩ := sent_actOn (congrArg Frame.verdict h.frame) hpol missExc hop hk
  rw [h.frame, hpipe] at hdue
  exact ⟨h.settled hp hsent.toOnward, hsent.stage, hsent.verdict, hdue (passWord_fragCtrl hp)⟩

theorem Looked.sent_member {m : Nat} (hop : g.verdict.op = 1) (hk : g.verdict.kind = 3) (he : g.verdict.egress < 256)
    (hm : spreadTo w g.pipe g.verdict.egress g = some m) :
    Settled s (actOn w id missExc) id pipe ∧ (getF (actOn w id missExc) id).stage = .flowDone ∧
    (getF (actOn w id missExc) id).verdict =
        { g.verdict with fwd := true, kind := m / 32768, egress := m % 32768 } := by
  have hsent := sent_actOn_member (congrArg Frame.verdict h.frame) hpol missExc hop hk he (by rw [h.frame]; exact hm)
  exact ⟨h.settled hp hsent.toOnward, hsent.stage, hsent.verdict⟩

theorem Looked.dropped (hop : g.verdict.op = 0 ∨ g.verdict.op = 2) (hm : g.verdict.doMirror = false)
    (he : g.ended = true) : Settled s (actOn w id missExc) id pipe ∧ getF (actOn w id missExc) id = {} := by
  obtain ⟨honward, hgone⟩ := gone_actOn (congrArg Frame.verdict h.frame) hpol missExc hop hm (by rw [h.frame]; exact he)
  exact ⟨h.settled hp honward, hgone⟩

end

/-- Settles O36: up to the lookup by `looked_lookedUp`, then by the action (`Looked.dispatched`, `Looked.sent`,
`Looked.sent_member`, `Looked.dropped`) or the hold (`Looked.held`). -/
theorem classifyTakesTheAction : Obligations.ClassifyTakesTheAction := by
  unfold Obligations.ClassifyTakesTheAction
  intro s id more upset corrected u f tm q l ai data v c counted hlive hstage hp h2 h3
  have hu : captureGen (arrive s id more) id = u := rfl
  have hregs : u.regs = s.regs := regs_classified s id more
  have hus : aside u = aside s := aside_classified s id more
  refine ⟨gen_classified more, fun hended hneed => ?_, fun hready => ?_⟩
  · have hop := classifyOp_waits hu hlive hstage h2 h3 upset corrected ⟨hended, hneed⟩
    exact runs_still (exec_classify ..) (by rw [hop]; exact still_of_aside hus)
      (by rw [hop]; exact ⟨rfl, hregs, cls_of_aside hus, hbm_of_aside hus⟩)
  have hk : ¬ KeyWaits f tm := by
    rintro ⟨hended, x, hx, hlt⟩
    rcases hready with he | hall
    · exact absurd (he.symm.trans hended) (by decide)
    · exact absurd (hall x hx) (Nat.not_le.mpr hlt)
  have hlook : Looked s (classified u id upset corrected) id f.pipe (lookedFrame q f tm) :=
    looked_lookedUp hu hp upset corrected tm
  have hctrl : rawRd (classified u id upset corrected) (frgB f.pipe + 0x40) = rawRd u (frgB f.pipe + 0x40) :=
    hlook.fragCtrl.trans (rawRd_congr _ _ _ hregs).symm
  have hlater := isLaterFrag_of_words f hctrl
  refine ⟨fun hl hpol => ?_, fun hl hfind hlen => ?_⟩
  · have hfirst : isFirstFrag (classified u id upset corrected) (lookedFrame q f tm) = isFirstFrag u f :=
      isFirstFrag_of_words rfl rfl hctrl
    have hspread : spreadTo (classified u id upset corrected) f.pipe v.egress (lookedFrame q f tm) =
      spreadTo q f.pipe v.egress f := spreadTo_lookedUp ..
    obtain ⟨missExc, hop⟩ := classifyOp_acts hu hlive hstage h2 h3 hk (hlater.trans hl)
    refine ⟨fun hv => ?_, fun hv hk => ?_, fun m hv hk he hm => ?_, fun hv hmir hend => ?_⟩
    · obtain ⟨hset, hstage', hverdict, hres, hidx, hgen⟩ := hlook.dispatched hp hpol missExc hv
      rw [← hop] at hset hstage' hverdict hres hidx hgen
      exact runs_still (exec_classify ..) hset.still
        ⟨hstage', hverdict, hres, hidx, hgen, hset.other, hset.count, hbm_of_still hset.still⟩
    · obtain ⟨hset, hstage', hverdict, hdue⟩ := hlook.sent hp hpol missExc rfl hv hk
      rw [← hop] at hset hstage' hverdict hdue
      exact runs_still (exec_classify ..) hset.still
        ⟨hstage', hverdict, hset.other, hset.count, hbm_of_still hset.still, fun hf => hdue (hfirst.trans hf)⟩
    · obtain ⟨hset, hstage', hverdict⟩ := hlook.sent_member hp hpol missExc hv hk he (hspread.trans hm)
      rw [← hop] at hset hstage' hverdict
      exact runs_still (exec_classify ..) hset.still
        ⟨hstage', hverdict, hset.other, hset.count, hbm_of_still hset.still⟩
    · obtain ⟨hset, hgone⟩ := hlook.dropped hp hpol missExc hv hmir hend
      rw [← hop] at hset hgone
      exact runs_still (exec_classify ..) hset.still ⟨hgone, hset.other, hset.count, hbm_of_still hset.still⟩
  · have hop := classifyOp_later hu hlive hstage h2 h3 hk (hlater.trans hl)
    obtain ⟨hset, hstage', hheld⟩ := hlook.held rfl hfind hlen
    rw [← hop] at hset hstage' hheld
    exact runs_still (exec_classify ..) hset.still
      ⟨hstage', hheld, hset.other, hset.count, hbm_of_still hset.still⟩

end Sys2Proof.Machine
end

section
/-! O43: the Cruise (R267, R272-R274): what a visit of a Deck way and of an index entry leaves, and the DORMANT pass. -/

namespace Sys2Proof.Machine

open Sys2Proof

/-! What a visit leaves alone, and what its tests read of it. -/

/-- All but the Deck ways, the list of aged records and flow memory. -/
def offCruise (s : State) : State := { s with fl := { s.fl with deck := [], ageDue := [] }, hbm := {} }

theorem regs_of_offCruise {s t : State} (h : offCruise t = offCruise s) : t.regs = s.regs :=
  (congrArg State.regs h :)
theorem frames_of_offCruise {s t : State} (h : offCruise t = offCruise s) : t.frames = s.frames :=
  (congrArg State.frames h :)
theorem tm_of_offCruise {s t : State} (h : offCruise t = offCruise s) : t.tm = s.tm := (congrArg State.tm h :)
theorem eff_of_offCruise {s t : State} (h : offCruise t = offCruise s) : t.eff = s.eff := (congrArg State.eff h :)
theorem md_of_offCruise {s t : State} (h : offCruise t = offCruise s) : t.md = s.md := (congrArg State.md h :)
theorem bound_of_offCruise {s t : State} (h : offCruise t = offCruise s) : t.fl.bound = s.fl.bound :=
  (congrArg (fun u : State => u.fl.bound) h :)
theorem insTT_of_offCruise {s t : State} (h : offCruise t = offCruise s) : t.fl.insTT = s.fl.insTT :=
  (congrArg (fun u : State => u.fl.insTT) h :)
theorem thrPly_of_offCruise {s t : State} (h : offCruise t = offCruise s) : t.fl.thrPly = s.fl.thrPly :=
  (congrArg (fun u : State => u.fl.thrPly) h :)
theorem refreshes_of_offCruise {s t : State} (h : offCruise t = offCruise s) : refreshes t = refreshes s :=
  (congrArg refreshes h :)
theorem agesNow_of_offCruise {s t : State} (h : offCruise t = offCruise s) : agesNow t = agesNow s :=
  (congrArg agesNow h :)
theorem isBound_of_offCruise {s t : State} (h : offCruise t = offCruise s) (idx : Nat) : isBound t idx = isBound s idx :=
  (congrArg (isBound · idx) h :)
theorem residentIn_of_offCruise {s t : State} (h : offCruise t = offCruise s) (idx : Nat) :
    residentIn t idx = residentIn s idx := (congrArg (residentIn · idx) h :)
theorem bad_of_offCruise {s t : State} (h : offCruise t = offCruise s) : t.fl.bad = s.fl.bad :=
  (congrArg (fun u : State => u.fl.bad) h :)
theorem plyNat_of_offCruise {s t : State} (h : offCruise t = offCruise s) : plyNat t = plyNat s :=
  plyNat_of_tm (tm_of_offCruise h)

theorem thrOld_of_tm {s t : State} (h : t.tm = s.tm) (r : List Byte) : thrOld t r = thrOld s r := by
  unfold thrOld
  rw [plyNat_of_tm h]

theorem thrOld_of_offCruise {s t : State} (h : offCruise t = offCruise s) (r : List Byte) : thrOld t r = thrOld s r :=
  thrOld_of_tm (tm_of_offCruise h) r

theorem cg_of_eff {s t : State} (h : t.eff = s.eff) (b : Nat) (f : FRef) : cg t b f = cg s b f := by
  unfold cg effRd
  rw [h]

theorem thrRefill_congr {s t : State} (heff : t.eff = s.eff) (hthr : t.fl.thrPly = s.fl.thrPly) (prof n p : Nat) :
    thrRefill t prof n p = thrRefill s prof n p := by
  unfold thrRefill
  rw [cg_of_eff heff, cg_of_eff heff, hthr]

/-- Stated of the functions: their values, compared as terms, would have the kernel count up to 2^47. -/
theorem thrLevel_congr {s t : State} (heff : t.eff = s.eff) (hthr : t.fl.thrPly = s.fl.thrPly) :
    thrLevel t = thrLevel s := by
  delta thrLevel
  simp only [cg_of_eff heff, thrRefill_congr heff hthr]

/-- A refresh reads the ply, the profile's registers in force and the time of its change (R266, R267). -/
theorem refreshed_congr {s t : State} (htm : t.tm = s.tm) (heff : t.eff = s.eff) (hthr : t.fl.thrPly = s.fl.thrPly)
    (r : List Byte) : refreshed t r = refreshed s r := by
  unfold refreshed
  rw [plyNat_of_tm htm, thrLevel_congr heff hthr]

theorem refreshed_of_offCruise {s t : State} (h : offCruise t = offCruise s) (r : List Byte) : refreshed t r = refreshed s r :=
  refreshed_congr (tm_of_offCruise h) (eff_of_offCruise h) (thrPly_of_offCruise h) r

theorem isBound_of_bound {s t : State} (h : t.fl.bound = s.fl.bound) (idx : Nat) : isBound t idx = isBound s idx := by
  unfold isBound boundTo
  rw [h]

theorem ttNow_of_tm {s t : State} (h : t.tm = s.tm) (dt : Nat) : ttNow t dt = ttNow s dt := by
  unfold ttNow
  rw [h]

theorem ttOfBrand_of_tm {s t : State} (h : t.tm = s.tm) (v : Nat) : ttOfBrand t v = ttOfBrand s v := by
  unfold ttOfBrand
  rw [ttNow_of_tm h]

theorem lastTT_congr {s t : State} (htm : t.tm = s.tm) (hins : t.fl.insTT = s.fl.insTT) (idx : Nat) (r : List Byte) :
    lastTT t idx r = lastTT s idx r := by
  unfold lastTT
  simp only [ttOfBrand_of_tm htm, hins]

/-- Ageing reads the time, the mode, the table's settings in force, the binding and the time of insertion (R273). -/
theorem isAged_congr {s t : State} (htm : t.tm = s.tm) (heff : t.eff = s.eff) (hmd : t.md = s.md)
    (hbound : t.fl.bound = s.fl.bound) (hins : t.fl.insTT = s.fl.insTT) (idx : Nat) (r : List Byte) :
    isAged t idx r = isAged s idx r := by
  unfold isAged ftc
  simp only [cg_of_eff heff, isBound_of_bound hbound, lastTT_congr htm hins, hmd, ttNow_of_tm htm]

theorem isAged_of_offCruise {s t : State} (h : offCruise t = offCruise s) (idx : Nat) (r : List Byte) :
    isAged t idx r = isAged s idx r :=
  isAged_congr (tm_of_offCruise h) (eff_of_offCruise h) (md_of_offCruise h) (bound_of_offCruise h) (insTT_of_offCruise h)
    idx r

/-! What a visit tests of flow memory. -/

theorem entryAt_of_hbm {s t : State} (h : t.hbm = s.hbm) (a : Nat) : entryAt t a = entryAt s a := by
  unfold entryAt mrd mget
  rw [h]

theorem poisoned_of_hbm {s t : State} (h : t.hbm = s.hbm) (a n : Nat) : poisoned t a n = poisoned s a n := by
  unfold poisoned
  rw [h]

theorem arrayRec_of_hbm {s t : State} (h : t.hbm = s.hbm) (idx : Nat) : arrayRec t idx = arrayRec s idx := by
  unfold arrayRec mrd mget
  rw [h]

/-! Marking (R273, R274). -/

/-- Record `idx` is on the list of records to be removed. -/
def AgeListed (s : State) (idx : Nat) : Prop := ∃ e ∈ s.fl.ageDue, e.1 = idx

/-- Record `r` of index `idx` marked for removal where it has aged in a mode that removes. -/
def agedNoted (s : State) (idx : Nat) (r : List Byte) (pipe : Nat) : State :=
  if agesNow s && isAged s idx r then markAged s idx pipe else s

/-- Marking touches only the list, on which it keeps every record. -/
theorem markAged_leaves (s : State) (idx pipe : Nat) : offCruise (markAged s idx pipe) = offCruise s ∧
    (markAged s idx pipe).fl.deck = s.fl.deck ∧ (markAged s idx pipe).hbm = s.hbm ∧
    ∀ e ∈ s.fl.ageDue, e ∈ (markAged s idx pipe).fl.ageDue := by
  unfold markAged
  split
  · exact ⟨rfl, rfl, rfl, fun _ h => h⟩
  · exact ⟨rfl, rfl, rfl, fun _ h => List.mem_append_left _ h⟩

theorem agedNoted_leaves (s : State) (idx : Nat) (r : List Byte) (pipe : Nat) :
    offCruise (agedNoted s idx r pipe) = offCruise s ∧ (agedNoted s idx r pipe).fl.deck = s.fl.deck ∧
      (agedNoted s idx r pipe).hbm = s.hbm ∧ ∀ e ∈ s.fl.ageDue, e ∈ (agedNoted s idx r pipe).fl.ageDue := by
  unfold agedNoted
  split
  · exact markAged_leaves ..
  · exact ⟨rfl, rfl, rfl, fun _ h => h⟩

theorem ageListed_markAged (s : State) (idx pipe : Nat) : AgeListed (markAged s idx pipe) idx := by
  unfold markAged
  split
  next h =>
    obtain ⟨e, he, heq⟩ := List.any_eq_true.mp h
    exact ⟨e, he, beq_iff_eq.mp heq⟩
  · exact ⟨(idx, pipe), List.mem_append_right _ (List.mem_singleton_self _), rfl⟩

theorem ageListed_agedNoted {s : State} {idx : Nat} {r : List Byte} (hn : agesNow s = true)
    (ha : isAged s idx r = true) (pipe : Nat) : AgeListed (agedNoted s idx r pipe) idx := by
  unfold agedNoted
  rw [hn, ha]
  exact ageListed_markAged ..

/-! A Deck way (R267, R272). -/

/-- A way whose record is refreshed, in a mode that refreshes, where it is due. -/
def wayRefreshed (s : State) (w : Way) : Way :=
  if refreshes s && thrOld s w.record then
    { w with record := refreshed s w.record, dirty := true, ply := plyNat s } else w

/-- What a visit of the Cruise leaves of a way. -/
def wayVisited (s : State) (w : Way) : Way :=
  if w.valid = true ∧ isBound s w.idx = false then wayRefreshed s w else w

theorem wayVisited_of_offCruise {s t : State} (h : offCruise t = offCruise s) (w : Way) : wayVisited t w = wayVisited s w := by
  unfold wayVisited wayRefreshed
  rw [isBound_of_offCruise h, refreshes_of_offCruise h, thrOld_of_offCruise h, refreshed_of_offCruise h, plyNat_of_offCruise h]

/-- The record of way `k` refreshed where it is due. -/
def deckRefreshed (s : State) (k : Nat) : State :=
  if refreshes s && thrOld s (getWay s k).record then
    setWay s k { getWay s k with record := refreshed s (getWay s k).record, dirty := true, ply := plyNat s } else s

theorem deckRefreshed_leaves (s : State) (k : Nat) : offCruise (deckRefreshed s k) = offCruise s ∧
    (deckRefreshed s k).hbm = s.hbm ∧ getWay (deckRefreshed s k) k = wayRefreshed s (getWay s k) ∧
    ∀ j, j ≠ k → getWay (deckRefreshed s k) j = getWay s j := by
  unfold deckRefreshed wayRefreshed
  split
  · exact ⟨rfl, rfl, getWay_setWay .., fun j hj => getWay_setWay_ne _ _ hj⟩
  · exact ⟨rfl, rfl, rfl, fun _ _ => rfl⟩

theorem visitWay_eq {s : State} {k : Nat} (hv : (getWay s k).valid = true) (hb : isBound s (getWay s k).idx = false) :
    visitWay s k = agedNoted (deckRefreshed s k) (getWay s k).idx (getWay s k).record (k / 65536) := by
  unfold visitWay
  exact if_neg (by simp [hv, hb])

theorem visitWay_skip {s : State} {k : Nat} (h : ¬ ((getWay s k).valid = true ∧ isBound s (getWay s k).idx = false)) :
    visitWay s k = s := by
  unfold visitWay
  refine if_pos ?_
  rwa [not_and_or, Bool.not_eq_false] at h

/-- A visit of way `k` touches that way, flow memory not at all. -/
structure WayVisited (s t : State) (k : Nat) : Prop where
  rest : offCruise t = offCruise s
  hbm : t.hbm = s.hbm
  way : getWay t k = wayVisited s (getWay s k)
  others : ∀ j, j ≠ k → getWay t j = getWay s j

theorem wayVisited_visitWay (s : State) (k : Nat) : WayVisited s (visitWay s k) k := by
  by_cases h : (getWay s k).valid = true ∧ isBound s (getWay s k).idx = false
  · obtain ⟨hrest, hdeck, hhbm, -⟩ :=
      agedNoted_leaves (deckRefreshed s k) (getWay s k).idx (getWay s k).record (k / 65536)
    obtain ⟨hrest', hhbm', hway, hothers⟩ := deckRefreshed_leaves s k
    rw [visitWay_eq h.1 h.2]
    refine ⟨hrest.trans hrest', hhbm.trans hhbm', ?_, fun j hj => (getWay_of_deck hdeck j).trans (hothers j hj)⟩
    rw [getWay_of_deck hdeck, hway, wayVisited, if_pos h]
  · rw [visitWay_skip h]
    exact ⟨rfl, rfl, (if_neg h).symm, fun _ _ => rfl⟩

/-- Visits of distinct ways leave of each what its own visit leaves. -/
theorem getWay_visits {ks : List Nat} (hks : ks.Nodup) (s : State) (k : Nat) :
    getWay (ks.foldl visitWay s) k = if k ∈ ks then wayVisited s (getWay s k) else getWay s k := by
  induction ks generalizing s with
  | nil => rfl
  | cons j ks ih =>
    obtain ⟨hj, hks⟩ := List.nodup_cons.mp hks
    have hv := wayVisited_visitWay s j
    rw [List.foldl_cons, ih hks, wayVisited_of_offCruise hv.rest]
    by_cases hkj : k = j
    · subst hkj
      rw [if_neg hj, if_pos (List.mem_cons_self ..), hv.way]
    · rw [hv.others k hkj]
      simp only [List.mem_cons, hkj, false_or]

/-- A table in canonical form lists no key twice. -/
theorem nodup_keys_of_twfFrom {α : Type} [DecidableEq α] {d : Nat → α} {t : Tab α} {lo : Nat} (h : twfFrom d lo t = true) :
    (t.map (fun e => e.1)).Nodup := by
  induction t generalizing lo with
  | nil => exact List.nodup_nil
  | cons x t ih =>
    simp only [twfFrom, Bool.and_eq_true] at h
    refine List.nodup_cons.mpr ⟨fun hx => ?_, ih h.2⟩
    obtain ⟨e, he, heq⟩ := List.mem_map.mp hx
    exact absurd (heq ▸ le_of_mem_twfFrom h.2 he) (Nat.not_succ_le_self _)

/-! An index entry (R249, R272, R278). -/

/-- The entry at `a` is valid and correctable, and names a record that no Deck holds and that is not marked BAD. -/
def EntryLive (s : State) (a : Nat) : Prop :=
  entryValid (entryAt s a) = true ∧ poisoned s a 8 = false ∧ (residentIn s (entryIdx (entryAt s a))).isNone = true ∧
    s.fl.bad.contains (entryIdx (entryAt s a)) = false

theorem entryLive_congr {s t : State} (h : offCruise t = offCruise s) (hm : t.hbm = s.hbm) (a : Nat) :
    EntryLive t a ↔ EntryLive s a := by
  unfold EntryLive
  rw [entryAt_of_hbm hm, poisoned_of_hbm hm, residentIn_of_offCruise h, bad_of_offCruise h]

/-- The array's record `idx` refreshed where it is due. -/
def arrayRefreshed (s : State) (idx : Nat) : State :=
  if refreshes s && thrOld s (arrayRec s idx) then mwr s (arrayAt idx) (refreshed s (arrayRec s idx)) else s

theorem arrayRefreshed_leaves (s : State) (idx : Nat) : offCruise (arrayRefreshed s idx) = offCruise s ∧
    (arrayRefreshed s idx).fl = s.fl := by
  unfold arrayRefreshed
  split <;> exact ⟨rfl, rfl⟩

theorem visitEntry_live {s : State} {a : Nat} (h : EntryLive s a) : visitEntry s a =
    agedNoted (arrayRefreshed s (entryIdx (entryAt s a))) (entryIdx (entryAt s a)) (arrayRec s (entryIdx (entryAt s a))) 0 := by
  obtain ⟨hv, hp, hr, hb⟩ := h
  unfold visitEntry
  refine if_neg ?_
  rw [hv, hp, hb, Option.isNone_iff_eq_none.mp hr]
  decide

theorem visitEntry_skip {s : State} {a : Nat} (h : ¬ EntryLive s a) : visitEntry s a = s := by
  unfold visitEntry
  refine if_pos (Classical.byContradiction fun hn => h ?_)
  simp only [not_or, Bool.not_eq_true, Bool.not_eq_false, Option.isSome_eq_false_iff] at hn
  exact hn

theorem visitEntry_leaves (s : State) (a : Nat) : offCruise (visitEntry s a) = offCruise s ∧
    (visitEntry s a).fl.deck = s.fl.deck ∧ ∀ e ∈ s.fl.ageDue, e ∈ (visitEntry s a).fl.ageDue := by
  by_cases h : EntryLive s a
  · obtain ⟨hrest, hdeck, -, hdue⟩ := agedNoted_leaves (arrayRefreshed s (entryIdx (entryAt s a)))
      (entryIdx (entryAt s a)) (arrayRec s (entryIdx (entryAt s a))) 0
    obtain ⟨hrest', hfl⟩ := arrayRefreshed_leaves s (entryIdx (entryAt s a))
    rw [visitEntry_live h]
    exact ⟨hrest.trans hrest', hdeck.trans (congrArg FlowSt.deck hfl), fun e he => hdue e (hfl ▸ he)⟩
  · rw [visitEntry_skip h]
    exact ⟨rfl, rfl, fun _ h => h⟩

/-- An entry whose record is not due for a refresh costs flow memory no byte. -/
theorem hbm_visitEntry {s : State} {a : Nat}
    (h : EntryLive s a → thrOld s (arrayRec s (entryIdx (entryAt s a))) = false) : (visitEntry s a).hbm = s.hbm := by
  by_cases hl : EntryLive s a
  · obtain ⟨-, -, hhbm, -⟩ := agedNoted_leaves (arrayRefreshed s (entryIdx (entryAt s a)))
      (entryIdx (entryAt s a)) (arrayRec s (entryIdx (entryAt s a))) 0
    rw [visitEntry_live hl, hhbm, arrayRefreshed, h hl, Bool.and_false, if_neg Bool.false_ne_true]
  · rw [visitEntry_skip hl]

theorem ageListed_visitEntry {s : State} {a : Nat} (hl : EntryLive s a) (hn : agesNow s = true)
    (ha : isAged s (entryIdx (entryAt s a)) (arrayRec s (entryIdx (entryAt s a))) = true) :
    AgeListed (visitEntry s a) (entryIdx (entryAt s a)) := by
  obtain ⟨hrest, -⟩ := arrayRefreshed_leaves s (entryIdx (entryAt s a))
  rw [visitEntry_live hl]
  exact ageListed_agedNoted ((agesNow_of_offCruise hrest).trans hn) ((isAged_of_offCruise hrest ..).trans ha) 0

/-! A refresh in place (R267). -/

theorem length_beBytes (n v : Nat) : (beBytes n v).length = n := by
  induction n generalizing v with
  | zero => rfl
  | succ n ih => rw [beBytes, List.length_append, ih, List.length_singleton]

/-- A refresh keeps the length of a record. -/
theorem length_refreshed (s : State) (idx : Nat) : (refreshed s (arrayRec s idx)).length = 128 := by
  have hrec : (arrayRec s idx).length = 128 := by simp [arrayRec, mrd]
  simp [refreshed, splice, thrBytes, length_beBytes, hrec, oTHR_LEVEL]

/-- An entry of the index lies above the array. -/
theorem entryAt_mwr_array (s : State) {a i : Nat} {r : List Byte} (ha : 0x200000000 ≤ a) (hi : i < 2 ^ 26)
    (hr : r.length = 128) : entryAt (mwr s (arrayAt i) r) a = entryAt s a := by
  unfold entryAt mrd
  refine congrArg beNat (List.map_congr_left fun k _ => mget_mwr_out _ _ _ _ (.inr ?_))
  unfold arrayAt
  omega

theorem entryIdx_lt (e : Nat) : entryIdx e < 2 ^ 26 := Nat.mod_lt _ (by decide)

/-- An entry whose record is due for a refresh has it refreshed in its 128 bytes. -/
theorem hbm_visitEntry_due {s : State} {a : Nat} (hl : EntryLive s a) (hr : refreshes s = true)
    (ht : thrOld s (arrayRec s (entryIdx (entryAt s a))) = true) : (visitEntry s a).hbm =
      (mwr s (arrayAt (entryIdx (entryAt s a))) (refreshed s (arrayRec s (entryIdx (entryAt s a))))).hbm := by
  obtain ⟨-, -, hhbm, -⟩ := agedNoted_leaves (arrayRefreshed s (entryIdx (entryAt s a)))
    (entryIdx (entryAt s a)) (arrayRec s (entryIdx (entryAt s a))) 0
  rw [visitEntry_live hl, hhbm, arrayRefreshed, hr, ht, Bool.and_self, if_pos rfl]

theorem arrayRec_mwr (s : State) (idx : Nat) {r : List Byte} (hr : r.length = 128) :
    arrayRec (mwr s (arrayAt idx) r) idx = r := by
  have h := mrd_mwr s (arrayAt idx) r
  rwa [hr] at h

/-! A bucket of the index. -/

theorem nodup_slotsOf (b : Nat) : (slotsOf b).Nodup :=
  List.nodup_range.map fun x y h => by omega

theorem le_of_mem_slotsOf {a b : Nat} (h : a ∈ slotsOf b) : b ≤ a := by
  obtain ⟨k, -, rfl⟩ := List.mem_map.mp h
  exact Nat.le_add_right ..

/-- A fold stays where no step moves. -/
theorem foldl_stays {α β : Type} {f : β → α → β} {l : List α} {b : β} (h : ∀ x ∈ l, f b x = b) : l.foldl f b = b :=
  List.foldlRecOn (motive := (· = b)) l f rfl fun _ hb x hx => hb ▸ h x hx

/-- A bucket none of whose records is due for a refresh: no byte and no way changes, and its aged records are listed. -/
theorem bucket_undue {u : State} {as : List Nat} (hn : agesNow u = true)
    (h : ∀ a ∈ as, EntryLive u a → thrOld u (arrayRec u (entryIdx (entryAt u a))) = false) :
    (offCruise (as.foldl visitEntry u) = offCruise u ∧ (as.foldl visitEntry u).hbm = u.hbm ∧
      (as.foldl visitEntry u).fl.deck = u.fl.deck) ∧
    ∀ a ∈ as, EntryLive u a → isAged u (entryIdx (entryAt u a)) (arrayRec u (entryIdx (entryAt u a))) = true →
      AgeListed (as.foldl visitEntry u) (entryIdx (entryAt u a)) := by
  have step : ∀ t, (offCruise t = offCruise u ∧ t.hbm = u.hbm ∧ t.fl.deck = u.fl.deck) → ∀ a ∈ as,
      offCruise (visitEntry t a) = offCruise u ∧ (visitEntry t a).hbm = u.hbm ∧ (visitEntry t a).fl.deck = u.fl.deck := by
    rintro t ⟨hrest, hhbm, hdeck⟩ a ha
    obtain ⟨hrest', hdeck', -⟩ := visitEntry_leaves t a
    refine ⟨hrest'.trans hrest, (hbm_visitEntry fun hl => ?_).trans hhbm, hdeck'.trans hdeck⟩
    rw [entryAt_of_hbm hhbm, arrayRec_of_hbm hhbm, thrOld_of_offCruise hrest]
    exact h a ha ((entryLive_congr hrest hhbm a).mp hl)
  refine ⟨List.foldlRecOn (motive := fun t => offCruise t = offCruise u ∧ t.hbm = u.hbm ∧ t.fl.deck = u.fl.deck) as visitEntry
    ⟨rfl, rfl, rfl⟩ step, fun a ha hl haged => ?_⟩
  refine foldl_establishes (P := fun t => AgeListed t (entryIdx (entryAt u a)))
    (I := fun t => offCruise t = offCruise u ∧ t.hbm = u.hbm ∧ t.fl.deck = u.fl.deck) ha
    (fun t x hx ht => step t ht x hx) (fun t ht => ?_) (fun t x _ _ ht => ?_) ⟨rfl, rfl, rfl⟩
  · obtain ⟨hrest, hhbm, -⟩ := ht
    rw [← entryAt_of_hbm hhbm]
    refine ageListed_visitEntry ((entryLive_congr hrest hhbm a).mpr hl) ((agesNow_of_offCruise hrest).trans hn) ?_
    rw [entryAt_of_hbm hhbm, arrayRec_of_hbm hhbm, isAged_of_offCruise hrest]
    exact haged
  · obtain ⟨-, -, hdue⟩ := visitEntry_leaves t x
    obtain ⟨e, he, heq⟩ := ht
    exact ⟨e, hdue e he, heq⟩

/-- A bucket with one valid entry, whose record is due: the record is refreshed in place. -/
theorem bucket_due {u : State} {b a : Nat} (hb : 0x200000000 ≤ b) (ha : a ∈ slotsOf b) (hl : EntryLive u a)
    (hothers : ∀ c ∈ slotsOf b, c ≠ a → entryValid (entryAt u c) = false) (hr : refreshes u = true)
    (ht : thrOld u (arrayRec u (entryIdx (entryAt u a))) = true) :
    arrayRec ((slotsOf b).foldl visitEntry u) (entryIdx (entryAt u a)) = refreshed u (arrayRec u (entryIdx (entryAt u a))) ∧
      ∀ x, x / 128 ≠ entryIdx (entryAt u a) → mget ((slotsOf b).foldl visitEntry u) x = mget u x := by
  have hdue := hbm_visitEntry_due hl hr ht
  have hnd := nodup_slotsOf b
  have hle : ∀ c ∈ slotsOf b, 0x200000000 ≤ c := fun c hc => Nat.le_trans hb (le_of_mem_slotsOf hc)
  obtain ⟨l, m, hlm⟩ := List.append_of_mem ha
  rw [hlm] at hothers hnd hle ⊢
  obtain ⟨-, ham, hdisj⟩ := List.nodup_append.mp hnd
  have hl' : l.foldl visitEntry u = u := foldl_stays fun c hc => visitEntry_skip fun hlive =>
    Bool.false_ne_true ((hothers c (List.mem_append_left _ hc) (hdisj c hc a (List.mem_cons_self ..))).symm.trans hlive.1)
  have hm' : m.foldl visitEntry (visitEntry u a) = visitEntry u a := foldl_stays fun c hc => visitEntry_skip fun hlive => by
    have hmem : c ∈ l ++ a :: m := List.mem_append_right _ (List.mem_cons_of_mem _ hc)
    have hca : c ≠ a := fun h => (List.nodup_cons.mp ham).1 (h ▸ hc)
    have hsame : entryAt (visitEntry u a) c = entryAt u c := (entryAt_of_hbm hdue c).trans
      (entryAt_mwr_array u (hle c hmem) (entryIdx_lt _) (length_refreshed ..))
    exact Bool.false_ne_true ((hothers c hmem hca).symm.trans (hsame ▸ hlive.1))
  have hlen := length_refreshed u (entryIdx (entryAt u a))
  rw [List.foldl_append, List.foldl_cons, hl', hm']
  refine ⟨(arrayRec_of_hbm hdue _).trans (arrayRec_mwr _ _ hlen), fun x hx => ?_⟩
  refine (mget_of_hbm hdue x).trans (mget_mwr_out _ _ _ x ?_)
  unfold arrayAt
  omega

/-! The commands. -/

/-- PASS_ACTIVE is no part of what the tests of a visit read. -/
theorem agesNow_passOn (s : State) (v : Nat) : agesNow (passOn s v) = agesNow s := by
  unfold agesNow fgb passOn
  rw [fg_fs_addr _ _ _ _ _ _ (by decide)]
  rfl

theorem thrOld_passOn (s : State) (v : Nat) (r : List Byte) : thrOld (passOn s v) r = thrOld s r :=
  thrOld_of_tm (s := s) (t := passOn s v) rfl r

theorem isAged_passOn (s : State) (v idx : Nat) (r : List Byte) : isAged (passOn s v) idx r = isAged s idx r :=
  isAged_congr (s := s) (t := passOn s v) rfl rfl rfl rfl rfl idx r

theorem refreshed_passOn (s : State) (v : Nat) (r : List Byte) : refreshed (passOn s v) r = refreshed s r :=
  refreshed_congr (s := s) (t := passOn s v) rfl rfl rfl r

theorem fg_passOn (s : State) (v : Nat) : fg (passOn s v) pgFT F.FT_AGE_STATUS_PASS_ACTIVE = v % 2 :=
  fg_fs_self _ _ _ _ (by decide)

theorem cruiseVisit_bucket {s : State} {b : Nat} (hb : b < 16777216) (hm : s.fuse.hbm = true)
    (hn : agesNow s = true ∨ refreshes s = true) : cruiseVisit s (.bucket b) =
      (slotsOf (0x200000000 + b * 64)).foldl visitEntry (passOn s (if agesNow s then 1 else 0)) :=
  if_pos (by simpa [hm, hb] using hn)

theorem pagePresent_flowTables (s : State) : pagePresent s 0x340 = true := rfl

/-- The end of a pass. -/
theorem cruiseVisit_passEnd {s : State} (hm : s.fuse.hbm = true) (hn : agesNow s = true) :
    cruiseVisit s .passEnd = raise (passOn s 0) 0x340 evAGE_PASS := if_pos (by rw [hm, hn]; rfl)

/-- The DORMANT pass: the Decks, then the entries of the index that flow memory lists. -/
theorem dormantPass_eq {s : State} (h : s.md.mode = .dormant) : ∃ as : List Nat,
    dormantPass s = as.foldl visitEntry ((s.fl.deck.map (fun e => e.1)).foldl visitWay s) := by
  unfold dormantPass
  rw [if_neg (not_not_intro h)]
  dsimp only
  split
  · exact ⟨[], rfl⟩
  · exact ⟨_, rfl⟩

theorem dormantPass_leaves {s : State} (h : s.md.mode = .dormant) (hwf : twf (fun _ => {}) s.fl.deck = true) :
    offCruise (dormantPass s) = offCruise s ∧ ∀ k, getWay (dormantPass s) k = wayVisited s (getWay s k) := by
  obtain ⟨as, has⟩ := dormantPass_eq h
  rw [has]
  refine ⟨?_, fun k => ?_⟩
  · rw [foldl_keeps offCruise (fun t a => (visitEntry_leaves t a).1),
      foldl_keeps offCruise (fun t k => (wayVisited_visitWay t k).rest)]
  · have hdeck := foldl_keeps (fun t : State => t.fl.deck) (fun t a => (visitEntry_leaves t a).2.1) as
      ((s.fl.deck.map (fun e => e.1)).foldl visitWay s)
    rw [getWay_of_deck hdeck, getWay_visits (nodup_keys_of_twfFrom hwf)]
    split
    · rfl
    next hk =>
      have hempty : getWay s k = {} := Classical.byContradiction fun hne =>
        hk (List.mem_map.mpr ⟨_, mem_of_tget_ne (fun _ => ({} : Way)) s.fl.deck k hne, rfl⟩)
      rw [hempty]
      exact (if_neg fun hv => Bool.false_ne_true hv.1).symm

/-- Settles O43: a Deck way by its visit, a bucket by the fold over its entries, the DORMANT pass by the visits of the
listed ways, which no later visit touches. -/
theorem cruiseRefreshesAndAges : Obligations.CruiseRefreshesAndAges := by
  intro s takes live
  refine ⟨fun pipe set way hset => ?_, fun b hb hm => ?_, fun hm hn => ?_, fun hd hwf => ?_⟩
  · intro k w hv hbound
    have hcmd : cruiseVisit s (.deck pipe set way) = visitWay s k := if_pos hset
    have hvisit := wayVisited_visitWay s k
    refine runs_kept (hcmd ▸ exec_cruiseAgeVisit (.deck pipe set way) s) ?_
    refine ⟨hvisit.way.trans (if_pos ⟨hv, hbound⟩), hvisit.others, hvisit.hbm, (regs_of_offCruise hvisit.rest :), fun hn ha => ?_⟩
    obtain ⟨hrest, -⟩ := deckRefreshed_leaves s k
    rw [fl_kept, visitWay_eq hv hbound]
    exact ageListed_agedNoted ((agesNow_of_offCruise hrest).trans hn) ((isAged_of_offCruise hrest ..).trans ha) _
  · intro as
    refine ⟨fun hn hundue => ?_, fun a ha hr hl hothers ht => ?_⟩
    · have hcmd := cruiseVisit_bucket hb hm (.inl hn)
      rw [if_pos hn] at hcmd
      obtain ⟨⟨hrest, hhbm, hdeck⟩, haged⟩ := bucket_undue (u := passOn s 1) ((agesNow_passOn s 1).trans hn)
        fun a ha hl => (thrOld_passOn s 1 _).trans (hundue a ha hl)
      refine runs_kept (hcmd ▸ exec_cruiseAgeVisit (.bucket b) s) ⟨hhbm, hdeck, ?_, fun a ha hl h =>
        haged a ha hl ((isAged_passOn s 1 _ _).trans h)⟩
      rw [fg_kept, fg_congr _ _ _ _ (regs_of_offCruise hrest), fg_passOn]
    · have hcmd := cruiseVisit_bucket hb hm (.inr hr)
      obtain ⟨hrec, hbytes⟩ := bucket_due (u := passOn s (if agesNow s then 1 else 0)) (Nat.le_add_right ..) ha hl
        hothers hr ((thrOld_passOn ..).trans ht)
      exact runs_kept (hcmd ▸ exec_cruiseAgeVisit (.bucket b) s) ⟨hrec.trans (refreshed_passOn ..), hbytes⟩
  · refine runs_kept (cruiseVisit_passEnd hm hn ▸ exec_cruiseAgeVisit .passEnd s) ?_
    have hev := notEvents_raise (passOn s 0) 0x340 evAGE_PASS
    refine ⟨(notEvents_hbm _ _ hev :), (notEvents_fl _ _ hev :), ?_,
      evStatus_occurrence (pagePresent_flowTables _) (by decide) false 0⟩
    rw [fg_kept, fg_raise _ _ _ _ _ (plainWord_page (by decide) (by decide) (by decide)), fg_passOn]
  · obtain ⟨hrest, hways⟩ := dormantPass_leaves hd hwf
    refine runs_kept (exec_dormantRefreshPass s) ⟨(regs_of_offCruise hrest :), (frames_of_offCruise hrest :), fun k => ?_⟩
    have hr : refreshes s = true := by
      unfold refreshes
      rw [hd]
    simp only [getWay_kept, hways, wayVisited, wayRefreshed, hr, Bool.true_and, ite_and]

end Sys2Proof.Machine
end

section
/-! O44: the host's commands on flow records (R277): what an attempt comes to, and what FT_STATUS and the window show. -/

namespace Sys2Proof.Machine

open Sys2Proof

/-! Writes of FT_CMD. -/

/-- The rows of FT_CMD by operation. -/
def hostRows (a : Agent) (cmd : Word) : List (Nat × Instr) :=
  [(1, .ftRead a cmd), (2, .ftWrite a cmd), (3, .ftInsert a cmd), (4, .ftFind a cmd), (5, .ftDelete a cmd),
    (6, .pin a cmd), (7, .unpin a cmd), (8, .flush a cmd), (9, .clearBad a cmd)]

theorem exec_hostRow {a : Agent} {cmd : Word} {r : Nat × Instr} (h : r ∈ hostRows a cmd) (s : State) :
    exec r.2 s = .next (kept s (regWrite s a (pgFT + R.FT_FT_CMD) (setBits cmd 0 4 r.1))) := by
  simp only [hostRows, List.mem_cons, List.not_mem_nil, or_false] at h
  rcases h with rfl | rfl | rfl | rfl | rfl | rfl | rfl | rfl | rfl <;> rfl

theorem op_of_hostRow {a : Agent} {cmd : Word} {r : Nat × Instr} (h : r ∈ hostRows a cmd) : 1 ≤ r.1 ∧ r.1 ≤ 9 := by
  have hop : r.1 ∈ [1, 2, 3, 4, 5, 6, 7, 8, 9] := List.mem_map_of_mem (f := Prod.fst) h
  simp only [List.mem_cons, List.not_mem_nil, or_false] at hop
  omega

theorem writeFtCmd_op (s : State) (cmd : Word) {op : Nat} (h : 1 ≤ op ∧ op ≤ 9) :
    writeFtCmd s (setBits cmd 0 4 op) = ftCmdOp s op (setBits cmd 0 4 op) := by
  have hop : bitsOf (setBits cmd 0 4 op) 0 4 = op := by
    rw [bitsOf_setBits_self _ _ _ _ (by decide)]
    omega
  unfold writeFtCmd
  rw [hop]
  exact if_neg (by omega)

theorem regWrite_ftCmd {s : State} {a : Agent} {v : Word} {r : Res} {t : State}
    (h : Allowed s a (pgFT + R.FT_FT_CMD) v) (hr : writeFtCmd s v = (r, t)) (hd : r ≠ .denied) :
    regWrite s a (pgFT + R.FT_FT_CMD) v = { t with reply := ⟨r, 0⟩ } := by
  have hopen : writeOpen s a ⟨0x41, 0, .never⟩ ((pgFT + R.FT_FT_CMD) / 0x1000) ((pgFT + R.FT_FT_CMD) % 0x1000) v = (r, t) := hr
  have hinfo : pageInfo ((pgFT + R.FT_FT_CMD) / 0x1000) = some ⟨0x41, 0, .never⟩ := rfl
  rw [regWrite_open s a _ v _ h hinfo (fun _ => by rw [hopen]; exact hd), hopen]

/-- `x` is `t` with the reply `r`, in what the statements say of the host's commands. -/
structure HostAnswer (t : State) (r : Reply) (x : State) : Prop where
  reply : x.reply = r
  regs : x.regs = t.regs
  fl : x.fl = t.fl
  hbm : x.hbm = t.hbm
  frames : x.frames = t.frames

theorem HostAnswer.field {t x : State} {r : Reply} (h : HostAnswer t r x) (b : Nat) (f : FRef) : fg x b f = fg t b f :=
  fg_congr _ _ _ _ h.regs

theorem HostAnswer.flag {t x : State} {r : Reply} (h : HostAnswer t r x) (b : Nat) (f : FRef) : fgb x b f = fgb t b f := by
  unfold fgb
  rw [h.field]

theorem HostAnswer.words {t x : State} {r : Reply} (h : HostAnswer t r x) (o n : Nat) : rdWords x o n = rdWords t o n :=
  rdWords_congr fun _ _ => rawRd_congr _ _ _ h.regs

/-- The write of a row of FT_CMD that reaches its register. -/
theorem regWrite_hostRow {s : State} {a : Agent} {cmd : Word} {r : Nat × Instr} (hr : r ∈ hostRows a cmd)
    (h : Allowed s a (pgFT + R.FT_FT_CMD) (setBits cmd 0 4 r.1)) {res : Res} {t : State}
    (hop : ftCmdOp s r.1 (setBits cmd 0 4 r.1) = (res, t)) (hd : res ≠ .denied) :
    regWrite s a (pgFT + R.FT_FT_CMD) (setBits cmd 0 4 r.1) = { t with reply := ⟨res, 0⟩ } :=
  regWrite_ftCmd h ((writeFtCmd_op s cmd (op_of_hostRow hr)).trans hop) hd

/-- A row of FT_CMD that reaches its register completes with what its operation leaves and answers. -/
theorem runs_hostRow {s : State} {a : Agent} {cmd : Word} {r : Nat × Instr} (hr : r ∈ hostRows a cmd)
    (h : Allowed s a (pgFT + R.FT_FT_CMD) (setBits cmd 0 4 r.1)) {res : Res} {t : State}
    (hop : ftCmdOp s r.1 (setBits cmd 0 4 r.1) = (res, t)) (hd : res ≠ .denied) {P : State → Prop}
    (hp : ∀ x, HostAnswer t ⟨res, 0⟩ x → P x) : Runs r.2 s P := by
  have hw := regWrite_hostRow hr h hop hd
  refine runs_kept (exec_hostRow hr s) (hp _ ?_)
  rw [hw]
  exact ⟨rfl, rfl, rfl, rfl, rfl⟩

theorem ftCmdOp_busy {s : State} (h : fgb s pgFT F.FT_FT_STATUS_BUSY = true) (op : Nat) (v : Word) :
    ftCmdOp s op v = (.error, s) := if_pos h

/-! A command taken (R277). -/

/-- Operation `op` as it is taken: the index of FT_ADDR, the bytes of the window, the pipeline of the written word. -/
def hostCmd (s : State) (op : Nat) (v : Word) : FtCmd :=
  { op := op, pipe := bitsOf v 4 3, addr := fg s pgFT F.FT_FT_ADDR_INDEX,
    data := wordsBytes (rdWords s (pgFT + R.FT_FT_DATA) 32), ply := plyNat s }

/-- BUSY set, and command `c` waiting. -/
def cmdTaken (s : State) (c : FtCmd) : State :=
  setFl (fs s pgFT F.FT_FT_STATUS_BUSY 1) { s.fl with ft := some c }

theorem ftCmdOp_idle {s : State} (h : fgb s pgFT F.FT_FT_STATUS_BUSY = false) {op : Nat} (h8 : op ≠ 8) (v : Word) :
    ftCmdOp s op v = (.ok, ftResume (cmdTaken s (hostCmd s op v))) := by
  have haddr : fg (fs s pgFT F.FT_FT_STATUS_BUSY 1) pgFT F.FT_FT_ADDR_INDEX = fg s pgFT F.FT_FT_ADDR_INDEX :=
    fg_fs_addr _ _ _ _ _ _ (by decide)
  have hdata : rdWords (fs s pgFT F.FT_FT_STATUS_BUSY 1) (pgFT + R.FT_FT_DATA) 32 = rdWords s (pgFT + R.FT_FT_DATA) 32 :=
    rdWords_congr fun b hb => rawRd_fs_ne _ _ _ _ _ (by simp only [R.FT_FT_DATA] at hb ⊢; omega)
  unfold ftCmdOp
  rw [if_neg (by rw [h]; decide)]
  dsimp only
  rw [if_neg h8, haddr, hdata]
  rfl

theorem rawRd_cmdTaken (s : State) (c : FtCmd) {x : Nat} (h : x ≠ pgFT + R.FT_FT_STATUS) :
    rawRd (cmdTaken s c) x = rawRd s x := (rawRd_fs_ne s pgFT F.FT_FT_STATUS_BUSY 1 x h :)

theorem fgb_cmdTaken (s : State) (c : FtCmd) : fgb (cmdTaken s c) pgFT F.FT_FT_STATUS_BUSY = true := by
  have h : fg (fs s pgFT F.FT_FT_STATUS_BUSY 1) pgFT F.FT_FT_STATUS_BUSY = 1 := fg_fs_self _ _ _ _ (by decide)
  have ht : fg (cmdTaken s c) pgFT F.FT_FT_STATUS_BUSY = 1 := h
  unfold fgb
  rw [ht]
  rfl

/-! What an attempt reads stands in the taken state as before. -/

theorem isBound_cmdTaken (s : State) (c : FtCmd) (idx : Nat) : isBound (cmdTaken s c) idx = isBound s idx := rfl
theorem isBad_cmdTaken (s : State) (c : FtCmd) (idx : Nat) : isBad (cmdTaken s c) idx = isBad s idx := rfl
theorem hostRec_cmdTaken (s : State) (c : FtCmd) (idx : Nat) : hostRec (cmdTaken s c) idx = hostRec s idx := rfl
theorem residentIn_cmdTaken (s : State) (c : FtCmd) (idx : Nat) : residentIn (cmdTaken s c) idx = residentIn s idx := rfl
theorem poisoned_cmdTaken (s : State) (c : FtCmd) (a n : Nat) : poisoned (cmdTaken s c) a n = poisoned s a n := rfl
theorem tableOn_cmdTaken (s : State) (c : FtCmd) (t : Nat) : tableOn (cmdTaken s c) t = tableOn s t := rfl
theorem findKey_cmdTaken (s : State) (c : FtCmd) (t : Nat) (key : List Byte) :
    findKey (cmdTaken s c) t key = findKey s t key := rfl
theorem fl_cmdTaken (s : State) (c : FtCmd) : (cmdTaken s c).fl = { s.fl with ft := some c } := rfl
theorem hbm_cmdTaken (s : State) (c : FtCmd) : (cmdTaken s c).hbm = s.hbm := rfl
theorem frames_cmdTaken (s : State) (c : FtCmd) : (cmdTaken s c).frames = s.frames := rfl

theorem ftResume_done {s u : State} {c : FtCmd} {r : Nat} (h : ftAttempt (cmdTaken s c) c = some (r, u)) :
    ftResume (cmdTaken s c) = ftDone u r := by
  have hft : (cmdTaken s c).fl.ft = some c := rfl
  unfold ftResume
  rw [hft]
  dsimp only
  rw [h]

theorem ftResume_waits {s : State} {c : FtCmd} (h : ftAttempt (cmdTaken s c) c = none) :
    ftResume (cmdTaken s c) = cmdTaken s c := by
  have hft : (cmdTaken s c).fl.ft = some c := rfl
  unfold ftResume
  rw [hft]
  dsimp only
  rw [h]

/-! An attempt, while no routine waits for a record (R277, R278). -/

/-- The command names a record by its index. -/
def byIndex (c : FtCmd) : Bool := c.op ≠ 3 && c.op ≠ 4 && c.op ≠ 8

/-- The table and the key of the command's data. -/
def cmdTable (c : FtCmd) : Nat := rget c.data oTABLE 1
def cmdKey (s : State) (c : FtCmd) : List Byte := slice c.data 0 (keyW s (cmdTable c))

/-- The index that the command is about. -/
def cmdIdx (s : State) (c : FtCmd) : Nat :=
  if c.op = 3 ∨ c.op = 4 then (findKey s (cmdTable c) (cmdKey s c)).getD noFlow else c.addr

/-- The record that a command by index needs, read where no Deck or buffer holds it; an uncorrectable one is marked BAD. -/
def cmdReached (s : State) (c : FtCmd) : State :=
  (if byIndex c && s.fuse.hbm && (residentIn s (cmdIdx s c)).isNone then arrayUsable s (cmdIdx s c) else (true, s)).2

/-- What the command does with the record `idx`, when nothing is in its way. -/
def cmdActs (s : State) (c : FtCmd) (idx : Nat) (key : List Byte) : Option (Nat × State) :=
  match c.op with
  | 1 => some (ftOK, ftWindow s (hostRec s idx))
  | 2 =>
    if cmdTable c ≠ rget (hostRec s idx) oTABLE 1 ∨ slice c.data 0 40 ≠ slice (hostRec s idx) 0 40 then some (ftBAD_ARG, s)
    else some (ftOK, putRec s idx (rset c.data oGEN 1 (rget (hostRec s idx) oGEN 1)))
  | 3 => if idx ≠ noFlow then some (ftEXISTS, s) else some (insertRec s c.pipe c.data (cmdTable c) key)
  | 4 => if idx = noFlow then some (ftNOT_FOUND, s) else some (ftOK, fs s pgFT F.FT_FT_ADDR_INDEX idx)
  | 5 => some (ftOK, removeRec s idx)
  | 6 => pinRec s c.pipe idx (hostRec s idx)
  | 7 =>
    match deckByIdx s idx with
    | some k => some (ftOK, setPin s k false)
    | none => some (ftOK, putRec s idx (setFlag (hostRec s idx) flPIN false))
  | _ => some (ftOK, s)

/-- FIND and INSERT of a table that is not enabled. -/
theorem ftAttempt_tableOff {s : State} {c : FtCmd} (h : c.op = 3 ∨ c.op = 4) (ht : tableOn s (cmdTable c) = false) :
    ftAttempt s c = some (ftBAD_ARG, s) := if_pos ⟨h, fun hon => Bool.false_ne_true (ht.symm.trans hon)⟩

theorem cmdIdx_byIndex {c : FtCmd} (s : State) (h3 : c.op ≠ 3) (h4 : c.op ≠ 4) : cmdIdx s c = c.addr :=
  if_neg fun h => h.elim h3 h4

theorem cmdIdx_byKey {c : FtCmd} (s : State) (h : c.op = 3 ∨ c.op = 4) :
    cmdIdx s c = (findKey s (cmdTable c) (cmdKey s c)).getD noFlow := if_pos h

/-- A command on a bound record waits. -/
theorem ftAttempt_bound {s : State} {c : FtCmd} (htab : c.op = 3 ∨ c.op = 4 → tableOn s (cmdTable c) = true) (h8 : c.op ≠ 8)
    (hb : isBound s (cmdIdx s c) = true) : ftAttempt s c = none := by
  unfold ftAttempt
  extract_lets t key byAddr idx mine u s1 r
  rw [if_neg fun h => h.2 (htab h.1)]
  exact if_pos ⟨h8, .inl hb⟩

/-- The answers of an attempt on a record that is not bound, in their order: BAD, NOT_FOUND, then the operation. -/
theorem ftAttempt_idle {s : State} {c : FtCmd} (hidle : ∀ e ∈ s.fl.ctxs, flowReq e.2 = none)
    (htab : c.op = 3 ∨ c.op = 4 → tableOn s (cmdTable c) = true) (h8 : c.op ≠ 8) (h9 : c.op ≠ 9)
    (hb : isBound s (cmdIdx s c) = false) : ftAttempt s c =
      if c.op ≠ 3 ∧ isBad (cmdReached s c) (cmdIdx s c) = true then some (ftBAD, cmdReached s c)
      else if byIndex c = true ∧ hostRec (cmdReached s c) (cmdIdx s c) = [] then some (ftNOT_FOUND, cmdReached s c)
      else cmdActs (cmdReached s c) c (cmdIdx s c) (cmdKey s c) := by
  unfold ftAttempt
  extract_lets t key byAddr idx mine u s1 r
  have hmine : mine = false := List.any_eq_false.mpr fun e he => by rw [hidle e he]; exact Bool.false_ne_true
  have hbound : ¬ (c.op ≠ 8 ∧ (isBound s idx = true ∨ mine = true)) := fun h => h.2.elim
    (fun hi => Bool.false_ne_true (hb.symm.trans hi)) (fun hm => Bool.false_ne_true (hmine.symm.trans hm))
  rw [if_neg (fun h => h.2 (htab h.1)), if_neg hbound, if_neg h9]
  refine if_congr ?_ rfl (if_congr ?_ rfl rfl)
  · rw [Bool.and_eq_true, Bool.and_eq_true, decide_eq_true_iff, decide_eq_true_iff]
    exact ⟨fun h => ⟨h.1.1, h.2⟩, fun h => ⟨⟨h.1, h8⟩, h.2⟩⟩
  · rw [Bool.and_eq_true, List.isEmpty_iff]
    rfl

/-- A command by index, but for FLUSH and CLEAR_BAD. -/
theorem ftAttempt_byIndex {s : State} {c : FtCmd} (hidle : ∀ e ∈ s.fl.ctxs, flowReq e.2 = none)
    (hop : c.op ∈ [1, 2, 5, 6, 7]) (hb : isBound s c.addr = false) : ftAttempt s c =
      if isBad (cmdReached s c) c.addr = true then some (ftBAD, cmdReached s c)
      else if hostRec (cmdReached s c) c.addr = [] then some (ftNOT_FOUND, cmdReached s c)
      else cmdActs (cmdReached s c) c c.addr (cmdKey s c) := by
  simp only [List.mem_cons, List.not_mem_nil, or_false] at hop
  have h3 : c.op ≠ 3 := by omega
  have h4 : c.op ≠ 4 := by omega
  have h8 : c.op ≠ 8 := by omega
  have hidx := cmdIdx_byIndex s h3 h4
  rw [ftAttempt_idle hidle (fun h => absurd h (by omega)) h8 (by omega) (hidx ▸ hb), hidx]
  refine if_congr (and_iff_right h3) rfl (if_congr (and_iff_right ?_) rfl rfl)
  simp [byIndex, h3, h4, h8]

/-- FIND and INSERT of a table that is enabled. -/
theorem ftAttempt_byKey {s : State} {c : FtCmd} (hidle : ∀ e ∈ s.fl.ctxs, flowReq e.2 = none)
    (hop : c.op = 3 ∨ c.op = 4) (htab : tableOn s (cmdTable c) = true) (hb : isBound s (cmdIdx s c) = false) :
    ftAttempt s c = if c.op ≠ 3 ∧ isBad s (cmdIdx s c) = true then some (ftBAD, s)
      else cmdActs s c (cmdIdx s c) (cmdKey s c) := by
  have hx : byIndex c = false := by
    rcases hop with h | h <;> simp [byIndex, h]
  have hself : cmdReached s c = s := by
    unfold cmdReached
    rw [hx]
    rfl
  rw [ftAttempt_idle hidle (fun _ => htab) (by omega) (by omega) hb, hself]
  refine if_congr Iff.rfl rfl (if_neg ?_)
  rw [hx]
  exact fun h => Bool.false_ne_true h.1

theorem cmdActs_read {c : FtCmd} (h : c.op = 1) (s : State) (idx : Nat) (key : List Byte) :
    cmdActs s c idx key = some (ftOK, ftWindow s (hostRec s idx)) := by
  unfold cmdActs
  rw [h]
  rfl

theorem cmdActs_insert {c : FtCmd} (h : c.op = 3) (s : State) {idx : Nat} (hidx : idx ≠ noFlow) (key : List Byte) :
    cmdActs s c idx key = some (ftEXISTS, s) := by
  unfold cmdActs
  rw [h]
  exact if_pos hidx

theorem cmdActs_find {c : FtCmd} (h : c.op = 4) (s : State) (idx : Nat) (key : List Byte) : cmdActs s c idx key =
    if idx = noFlow then some (ftNOT_FOUND, s) else some (ftOK, fs s pgFT F.FT_FT_ADDR_INDEX idx) := by
  unfold cmdActs
  rw [h]
  rfl

/-! The record that the command needs (R278). -/

theorem arrayUsable_fst (s : State) (idx : Nat) :
    (arrayUsable s idx).1 = (!s.fl.bad.contains idx && !poisoned s (arrayAt idx) 128) := by
  rw [arrayUsable_eq]
  cases s.fl.bad.contains idx
  · cases poisoned s (arrayAt idx) 128 <;> rfl
  · rfl

/-- No record is marked BAD where the array's is usable, or already marked, or not needed. -/
theorem cmdReached_eq_self {s : State} {c : FtCmd} (h : byIndex c = true → s.fuse.hbm = true →
      residentIn s (cmdIdx s c) = none → (arrayUsable s (cmdIdx s c)).1 = true ∨ s.fl.bad.contains (cmdIdx s c) = true) :
    cmdReached s c = s := by
  unfold cmdReached
  split
  next hneed =>
    simp only [Bool.and_eq_true, Option.isNone_iff_eq_none] at hneed
    rw [arrayUsable_eq] at h ⊢
    split
    · rfl
    next hbad =>
      split
      next hp =>
        rw [if_neg hbad, if_pos hp] at h
        exact ((h hneed.1.1 hneed.1.2 hneed.2).elim Bool.false_ne_true hbad).elim
      · rfl
  · rfl

theorem cmdReached_uncorrectable {s : State} {c : FtCmd} (hx : byIndex c = true) (hm : s.fuse.hbm = true)
    (hr : residentIn s (cmdIdx s c) = none) (hb : s.fl.bad.contains (cmdIdx s c) = false)
    (hp : poisoned s (arrayAt (cmdIdx s c)) 128 = true) : cmdReached s c = badMarked s (cmdIdx s c) := by
  unfold cmdReached
  rw [hx, hm, hr, if_pos (by rfl), arrayUsable_eq, if_neg (by rw [hb]; exact Bool.false_ne_true), if_pos hp]

theorem fl_badMarked (s : State) (idx : Nat) : (badMarked s idx).fl = { s.fl with bad := s.fl.bad ++ [idx] } :=
  notEvents_fl _ _ (notEvents_raiseD ..)

theorem hbm_badMarked (s : State) (idx : Nat) : (badMarked s idx).hbm = s.hbm := (onlyDeck_badMarked s idx).hbm

theorem evStatus_badMarked (s : State) (idx : Nat) : evStatus (badMarked s idx) 0x340 evRECORD_UE = true :=
  evStatus_raiseD (pagePresent_flowTables _) (by decide) _

theorem isBad_badMarked (s : State) (idx : Nat) : isBad (badMarked s idx) idx = true := by
  unfold isBad
  rw [fl_badMarked]
  simp

/-! A command that ends. -/

/-- From `s` to `t` a host command ended with result `r`: the store, flow memory and the frames are as they were. -/
def HostEnded (s t : State) (r : Nat) : Prop :=
  t.reply = ⟨.ok, 0⟩ ∧ fgb t pgFT F.FT_FT_STATUS_BUSY = false ∧ fg t pgFT F.FT_FT_STATUS_RESULT = r ∧
    t.fl = { s.fl with ft := none } ∧ t.hbm = s.hbm ∧ t.frames = s.frames

theorem hostEnded_ftDone {s v x : State} {r : Nat} (hx : HostAnswer (ftDone v r) ⟨.ok, 0⟩ x) (hr : r < 8)
    (hfl : { v.fl with ft := none } = { s.fl with ft := none }) (hhbm : v.hbm = s.hbm) (hframes : v.frames = s.frames) :
    HostEnded s x r := by
  obtain ⟨hresult, hbusy⟩ := fg_ftDone v r
  have hdeck := onlyDeck_ftDone v r
  exact ⟨hx.reply, (hx.flag ..).trans hbusy, ((hx.field ..).trans hresult).trans (Nat.mod_eq_of_lt hr),
    (hx.fl.trans (fl_ftDone v r)).trans hfl, (hx.hbm.trans hdeck.hbm).trans hhbm, (hx.frames.trans hdeck.frames).trans hframes⟩

/-- A word other than FT_STATUS reads after the end as before. -/
theorem rawRd_ftDone (s : State) (r : Nat) {x : Nat} (h : x ≠ pgFT + R.FT_FT_STATUS) :
    rawRd (ftDone s r) x = rawRd s x :=
  ((rawRd_fs_ne (fs s pgFT F.FT_FT_STATUS_RESULT r) pgFT F.FT_FT_STATUS_BUSY 0 x h).trans
    (rawRd_fs_ne s pgFT F.FT_FT_STATUS_RESULT r x h) :)

theorem fg_ftDone_addr (s : State) (r : Nat) : fg (ftDone s r) pgFT F.FT_FT_ADDR_INDEX = fg s pgFT F.FT_FT_ADDR_INDEX := by
  unfold fg
  rw [rawRd_ftDone s r (by decide)]

theorem evStatus_ftDone (s : State) (r page b : Nat) : evStatus (ftDone s r) page b = evStatus s page b :=
  evStatus_congr (rawRd_ftDone s r (by simp only [pgFT, pb, oEVT_STATUS, R.FT_FT_STATUS]; omega)) b

/-- The window shows the record. -/
theorem rdWords_ftWindow (s : State) (r : List Byte) (c : Nat) :
    rdWords (ftDone (ftWindow s r) c) (pgFT + R.FT_FT_DATA) 32 = packWords 32 (slice r 0 128) := by
  have hread := rdWords_wrWords (packWords 32 (slice r 0 128)) s (pgFT + R.FT_FT_DATA)
  rw [length_packWords] at hread
  rw [rdWords_congr fun b hb => rawRd_ftDone _ c (by simp only [R.FT_FT_DATA, R.FT_FT_STATUS] at hb ⊢; omega)]
  exact hread

/-! The rows, from the register on. -/

/-- The command that row `op` spells, and the state in which it is first attempted. -/
def rowCmd (s : State) (cmd : Word) (op : Nat) : FtCmd := hostCmd s op (setBits cmd 0 4 op)
def rowTaken (s : State) (cmd : Word) (op : Nat) : State := cmdTaken s (rowCmd s cmd op)

section

variable {s : State} {a : Agent} {cmd : Word} {r : Nat × Instr} (hr : r ∈ hostRows a cmd)
  (ha : Allowed s a (pgFT + R.FT_FT_CMD) (setBits cmd 0 4 r.1)) (hbusy : fgb s pgFT F.FT_FT_STATUS_BUSY = false)
  (h8 : r.1 ≠ 8)

include hr ha hbusy h8

/-- A row whose first attempt is carried out. -/
theorem runs_done {n : Nat} {u : State} (h : ftAttempt (rowTaken s cmd r.1) (rowCmd s cmd r.1) = some (n, u))
    {P : State → Prop} (hp : ∀ x, HostAnswer (ftDone u n) ⟨.ok, 0⟩ x → P x) : Runs r.2 s P :=
  runs_hostRow hr ha ((ftCmdOp_idle hbusy h8 _).trans (congrArg (Prod.mk Res.ok) (ftResume_done h))) nofun hp

/-- A row that waits. -/
theorem runs_waits (h : ftAttempt (rowTaken s cmd r.1) (rowCmd s cmd r.1) = none)
    {P : State → Prop} (hp : ∀ x, HostAnswer (rowTaken s cmd r.1) ⟨.ok, 0⟩ x → P x) : Runs r.2 s P :=
  runs_hostRow hr ha ((ftCmdOp_idle hbusy h8 _).trans (congrArg (Prod.mk Res.ok) (ftResume_waits h))) nofun hp

/-- A row whose first attempt ends with a result alone. -/
theorem runs_ended {n : Nat} (hn : n < 8)
    (h : ftAttempt (rowTaken s cmd r.1) (rowCmd s cmd r.1) = some (n, rowTaken s cmd r.1)) : Runs r.2 s (HostEnded s · n) :=
  runs_done hr ha hbusy h8 h fun _ hx => hostEnded_ftDone hx hn rfl (hbm_cmdTaken ..) (frames_cmdTaken ..)

end

/-! The rows that name a record by its index. -/

/-- The index that FT_ADDR names. -/
abbrev namedIdx (s : State) : Nat := fg s pgFT F.FT_FT_ADDR_INDEX

theorem isBad_of_listed {s : State} {idx : Nat} (h : s.fl.bad.contains idx = true) : isBad s idx = true := by
  unfold isBad
  rw [h, Bool.true_or]

/-- The rows by index, but for CLEAR_BAD. -/
theorem op_byIndex {op : Nat} (h : op ∈ [1, 2, 5, 6, 7]) : op ≠ 3 ∧ op ≠ 4 ∧ op ≠ 8 := by
  simp only [List.mem_cons, List.not_mem_nil, or_false] at h
  omega

theorem cmdIdx_asked (s : State) (cmd : Word) {op : Nat} (h3 : op ≠ 3) (h4 : op ≠ 4) :
    cmdIdx (rowTaken s cmd op) (rowCmd s cmd op) = namedIdx s := cmdIdx_byIndex (c := rowCmd s cmd op) _ h3 h4

/-- No record is marked BAD where the one that FT_ADDR names is usable, or already marked. -/
theorem cmdReached_usable {s : State} {cmd : Word} {op : Nat} (h3 : op ≠ 3) (h4 : op ≠ 4)
    (h : s.fuse.hbm = true → residentIn s (namedIdx s) = none →
      (arrayUsable s (namedIdx s)).1 = true ∨ s.fl.bad.contains (namedIdx s) = true) :
    cmdReached (rowTaken s cmd op) (rowCmd s cmd op) = rowTaken s cmd op := by
  have hidx := cmdIdx_asked s cmd h3 h4
  rw [arrayUsable_fst] at h
  refine cmdReached_eq_self fun _ hm hres => ?_
  rw [hidx, rowTaken, residentIn_cmdTaken] at hres
  rw [hidx, arrayUsable_fst, rowTaken, poisoned_cmdTaken]
  exact h hm hres

/-- An uncorrectable record is marked BAD. -/
theorem cmdReached_poisoned {s : State} {cmd : Word} {op : Nat} (h3 : op ≠ 3) (h4 : op ≠ 4) (h8 : op ≠ 8)
    (hm : s.fuse.hbm = true) (hres : residentIn s (namedIdx s) = none) (hbad : s.fl.bad.contains (namedIdx s) = false)
    (hp : poisoned s (arrayAt (namedIdx s)) 128 = true) :
    cmdReached (rowTaken s cmd op) (rowCmd s cmd op) = badMarked (rowTaken s cmd op) (namedIdx s) := by
  have hidx := cmdIdx_asked s cmd h3 h4
  have hx : byIndex (rowCmd s cmd op) = true := by simp [byIndex, rowCmd, hostCmd, h3, h4, h8]
  have hreach := cmdReached_uncorrectable (s := rowTaken s cmd op) hx hm
  rw [hidx, rowTaken, residentIn_cmdTaken, poisoned_cmdTaken] at hreach
  exact hreach hres hbad hp

/-- The attempt of a row by index, on a record that is not bound. -/
theorem ftAttempt_asked {s : State} (cmd : Word) {op : Nat} (hidle : ∀ e ∈ s.fl.ctxs, flowReq e.2 = none)
    (hop : op ∈ [1, 2, 5, 6, 7]) (hb : isBound s (namedIdx s) = false) {u : State}
    (hu : cmdReached (rowTaken s cmd op) (rowCmd s cmd op) = u) : ftAttempt (rowTaken s cmd op) (rowCmd s cmd op) =
      if isBad u (namedIdx s) = true then some (ftBAD, u)
      else if hostRec u (namedIdx s) = [] then some (ftNOT_FOUND, u)
      else cmdActs u (rowCmd s cmd op) (namedIdx s) (cmdKey (rowTaken s cmd op) (rowCmd s cmd op)) := by
  subst hu
  exact ftAttempt_byIndex (s := rowTaken s cmd op) (c := rowCmd s cmd op) hidle hop ((isBound_cmdTaken ..).trans hb)

section

variable {s : State} {a : Agent} {cmd : Word} {r : Nat × Instr} (hr : r ∈ hostRows a cmd)
  (ha : Allowed s a (pgFT + R.FT_FT_CMD) (setBits cmd 0 4 r.1)) (hbusy : fgb s pgFT F.FT_FT_STATUS_BUSY = false)

include hr ha hbusy

/-- A row on a bound record waits with BUSY set. -/
theorem runs_bound (hop : r.1 ∈ [1, 2, 5, 6, 7, 9]) (hb : isBound s (namedIdx s) = true) : Runs r.2 s (fun t =>
    t.reply = ⟨.ok, 0⟩ ∧ fgb t pgFT F.FT_FT_STATUS_BUSY = true ∧ t.hbm = s.hbm ∧
    (∃ c, t.fl = { s.fl with ft := some c } ∧ c.op = r.1 ∧ c.addr = namedIdx s) ∧
    ∀ x, x ≠ pgFT + R.FT_FT_STATUS → rawRd t x = rawRd s x) := by
  obtain ⟨h3, h4, h8⟩ : r.1 ≠ 3 ∧ r.1 ≠ 4 ∧ r.1 ≠ 8 := by
    simp only [List.mem_cons, List.not_mem_nil, or_false] at hop
    omega
  have hwaits := ftAttempt_bound (s := rowTaken s cmd r.1) (c := rowCmd s cmd r.1) (fun h => (h.elim h3 h4).elim) h8
    (by rw [cmdIdx_asked s cmd h3 h4]; exact (isBound_cmdTaken ..).trans hb)
  refine runs_waits hr ha hbusy h8 hwaits fun t ht => ⟨ht.reply, (ht.flag ..).trans (fgb_cmdTaken ..), ht.hbm,
    ⟨rowCmd s cmd r.1, ht.fl.trans (fl_cmdTaken ..), rfl, rfl⟩, fun x hx => ?_⟩
  exact (rawRd_congr _ _ _ ht.regs).trans (rawRd_cmdTaken s _ hx)

variable (hidle : ∀ e ∈ s.fl.ctxs, flowReq e.2 = none) (hop : r.1 ∈ [1, 2, 5, 6, 7])
  (hb : isBound s (namedIdx s) = false)

include hidle hop hb

/-- A record marked BAD outside a Deck. -/
theorem runs_listedBad (hbad : s.fl.bad.contains (namedIdx s) = true) : Runs r.2 s (HostEnded s · ftBAD) := by
  obtain ⟨h3, h4, h8⟩ := op_byIndex hop
  have hattempt := ftAttempt_asked cmd hidle hop hb (cmdReached_usable h3 h4 fun _ _ => .inr hbad)
  rw [rowTaken, isBad_cmdTaken, if_pos (isBad_of_listed hbad)] at hattempt
  exact runs_ended hr ha hbusy h8 (by decide) hattempt

/-- An uncorrectable record of the array is marked BAD and reported. -/
theorem runs_uncorrectable (hm : s.fuse.hbm = true) (hres : residentIn s (namedIdx s) = none)
    (hbad : s.fl.bad.contains (namedIdx s) = false) (hp : poisoned s (arrayAt (namedIdx s)) 128 = true) :
    Runs r.2 s (fun t => fg t pgFT F.FT_FT_STATUS_RESULT = ftBAD ∧ fgb t pgFT F.FT_FT_STATUS_BUSY = false ∧
      t.fl = { s.fl with ft := none, bad := s.fl.bad ++ [namedIdx s] } ∧
      evStatus t 0x340 evRECORD_UE = true ∧ t.hbm = s.hbm) := by
  obtain ⟨h3, h4, h8⟩ := op_byIndex hop
  have hattempt := ftAttempt_asked cmd hidle hop hb (cmdReached_poisoned h3 h4 h8 hm hres hbad hp)
  rw [if_pos (isBad_badMarked ..)] at hattempt
  refine runs_done hr ha hbusy h8 hattempt fun t ht => ?_
  obtain ⟨hresult, hend⟩ := fg_ftDone (badMarked (rowTaken s cmd r.1) (namedIdx s)) ftBAD
  have hfl := ht.fl
  rw [fl_ftDone, fl_badMarked, rowTaken, fl_cmdTaken] at hfl
  have hstatus := (evStatus_ftDone _ ftBAD 0x340 _).trans (evStatus_badMarked (rowTaken s cmd r.1) (namedIdx s))
  have hhbm := (onlyDeck_ftDone _ ftBAD).hbm.trans ((hbm_badMarked (rowTaken s cmd r.1) (namedIdx s)).trans (hbm_cmdTaken ..))
  exact ⟨(ht.field ..).trans hresult, (ht.flag ..).trans hend, hfl, (evStatus_of_regs ht.regs ..).trans hstatus,
    ht.hbm.trans hhbm⟩

variable (hbad : isBad s (namedIdx s) = false)
  (husable : s.fuse.hbm = true → residentIn s (namedIdx s) = none → (arrayUsable s (namedIdx s)).1 = true)

include hbad husable

omit hr ha hbusy in
/-- On a record that is not BAD the attempt ends NOT_FOUND, or acts. -/
theorem ftAttempt_usable : ftAttempt (rowTaken s cmd r.1) (rowCmd s cmd r.1) =
    if hostRec s (namedIdx s) = [] then some (ftNOT_FOUND, rowTaken s cmd r.1)
    else cmdActs (rowTaken s cmd r.1) (rowCmd s cmd r.1) (namedIdx s) (cmdKey (rowTaken s cmd r.1) (rowCmd s cmd r.1)) := by
  obtain ⟨h3, h4, -⟩ := op_byIndex hop
  have hattempt := ftAttempt_asked cmd hidle hop hb (cmdReached_usable h3 h4 fun hm hr => .inl (husable hm hr))
  have hmark : isBad (rowTaken s cmd r.1) (namedIdx s) = false := (isBad_cmdTaken ..).trans hbad
  have hrec : hostRec (rowTaken s cmd r.1) (namedIdx s) = hostRec s (namedIdx s) := hostRec_cmdTaken ..
  rw [hmark, hrec, if_neg Bool.false_ne_true] at hattempt
  exact hattempt

/-- An index that holds no valid record. -/
theorem runs_notFound (hrec : hostRec s (namedIdx s) = []) : Runs r.2 s (HostEnded s · ftNOT_FOUND) := by
  obtain ⟨-, -, h8⟩ := op_byIndex hop
  exact runs_ended hr ha hbusy h8 (by decide) ((ftAttempt_usable hidle hop hb hbad husable).trans (if_pos hrec))

/-- READ shows the current record in the window. -/
theorem runs_ftRead (h1 : r.1 = 1) (hrec : hostRec s (namedIdx s) ≠ []) : Runs r.2 s (fun t =>
    HostEnded s t ftOK ∧
      rdWords t (pgFT + R.FT_FT_DATA) 32 = packWords 32 (slice (hostRec s (namedIdx s)) 0 128)) := by
  obtain ⟨-, -, h8⟩ := op_byIndex hop
  have hattempt : ftAttempt (rowTaken s cmd r.1) (rowCmd s cmd r.1) =
      some (ftOK, ftWindow (rowTaken s cmd r.1) (hostRec s (namedIdx s))) := by
    rw [ftAttempt_usable hidle hop hb hbad husable, if_neg hrec, cmdActs_read (c := rowCmd s cmd r.1) h1, rowTaken,
      hostRec_cmdTaken]
  refine runs_done hr ha hbusy h8 hattempt fun t ht => ⟨?_, (ht.words ..).trans (rdWords_ftWindow ..)⟩
  have hdeck := onlyDeck_ftWindow (rowTaken s cmd r.1) (hostRec s (namedIdx s))
  have hfl : (ftWindow (rowTaken s cmd r.1) (hostRec s (namedIdx s))).fl = (rowTaken s cmd r.1).fl :=
    notEvents_fl _ _ (notEvents_wrWords ..)
  refine hostEnded_ftDone ht (by decide) ?_ (hdeck.hbm.trans (hbm_cmdTaken ..)) (hdeck.frames.trans (frames_cmdTaken ..))
  rw [hfl, rowTaken, fl_cmdTaken]

end

/-! The rows that name a record by its key. -/

/-- The table that the window names. -/
def windowTable (s : State) : Nat := rget (wordsBytes (rdWords s (pgFT + R.FT_FT_DATA) 32)) oTABLE 1

/-- The index of the record of the key in the window, in any place. -/
def windowFound (s : State) : Option Nat :=
  findKey s (windowTable s) (slice (wordsBytes (rdWords s (pgFT + R.FT_FT_DATA) 32)) 0 (keyW s (windowTable s)))

theorem cmdIdx_askedKey (s : State) (cmd : Word) {op : Nat} (hop : op = 3 ∨ op = 4) :
    cmdIdx (rowTaken s cmd op) (rowCmd s cmd op) = (windowFound s).getD noFlow := by
  rw [cmdIdx_byKey (c := rowCmd s cmd op) _ hop, rowTaken, findKey_cmdTaken]
  rfl

section

variable {s : State} {a : Agent} {cmd : Word} {r : Nat × Instr} (hr : r ∈ hostRows a cmd)
  (ha : Allowed s a (pgFT + R.FT_FT_CMD) (setBits cmd 0 4 r.1)) (hbusy : fgb s pgFT F.FT_FT_STATUS_BUSY = false)

include hr ha hbusy

theorem runs_tableOff (hop : r.1 = 3 ∨ r.1 = 4) (hoff : tableOn s (windowTable s) = false) :
    Runs r.2 s (HostEnded s · ftBAD_ARG) :=
  runs_ended hr ha hbusy (by omega) (by decide)
    (ftAttempt_tableOff (s := rowTaken s cmd r.1) (c := rowCmd s cmd r.1) hop ((tableOn_cmdTaken ..).trans hoff))

variable (hidle : ∀ e ∈ s.fl.ctxs, flowReq e.2 = none) (hon : tableOn s (windowTable s) = true)
  (hb : isBound s ((windowFound s).getD noFlow) = false)

include hidle hon hb

omit hr ha hbusy in
theorem ftAttempt_rowKey (hop : r.1 = 3 ∨ r.1 = 4) : ftAttempt (rowTaken s cmd r.1) (rowCmd s cmd r.1) =
    if r.1 ≠ 3 ∧ isBad s ((windowFound s).getD noFlow) = true then some (ftBAD, rowTaken s cmd r.1)
    else cmdActs (rowTaken s cmd r.1) (rowCmd s cmd r.1) ((windowFound s).getD noFlow)
      (cmdKey (rowTaken s cmd r.1) (rowCmd s cmd r.1)) := by
  have hidx := cmdIdx_askedKey s cmd hop
  have hattempt := ftAttempt_byKey (s := rowTaken s cmd r.1) (c := rowCmd s cmd r.1) hidle hop
    ((tableOn_cmdTaken ..).trans hon) (by rw [hidx]; exact (isBound_cmdTaken ..).trans hb)
  have hmark : isBad (rowTaken s cmd r.1) ((windowFound s).getD noFlow) = isBad s ((windowFound s).getD noFlow) :=
    isBad_cmdTaken ..
  rw [hidx, hmark] at hattempt
  exact hattempt

/-- INSERT of a key that exists. -/
theorem runs_exists (h3 : r.1 = 3) (hf : (windowFound s).getD noFlow ≠ noFlow) : Runs r.2 s (HostEnded s · ftEXISTS) := by
  refine runs_ended hr ha hbusy (by omega) (by decide) ?_
  rw [ftAttempt_rowKey hidle hon hb (.inl h3), if_neg fun h => h.1 h3]
  exact cmdActs_insert (c := rowCmd s cmd r.1) h3 _ hf _

variable (h4 : r.1 = 4) (hbad : isBad s ((windowFound s).getD noFlow) = false)

include h4 hbad

omit hr ha hbusy in
theorem ftAttempt_find : ftAttempt (rowTaken s cmd r.1) (rowCmd s cmd r.1) =
    if (windowFound s).getD noFlow = noFlow then some (ftNOT_FOUND, rowTaken s cmd r.1)
    else some (ftOK, fs (rowTaken s cmd r.1) pgFT F.FT_FT_ADDR_INDEX ((windowFound s).getD noFlow)) := by
  rw [ftAttempt_rowKey hidle hon hb (.inr h4), if_neg fun h => Bool.false_ne_true (hbad.symm.trans h.2)]
  exact cmdActs_find (c := rowCmd s cmd r.1) h4 ..

/-- FIND of a key that no record has. -/
theorem runs_findNone (hf : (windowFound s).getD noFlow = noFlow) : Runs r.2 s (HostEnded s · ftNOT_FOUND) := by
  refine runs_ended hr ha hbusy (by omega) (by decide) ?_
  rw [ftAttempt_find hidle hon hb h4 hbad, if_pos hf]

/-- FIND shows the index of the key's record. -/
theorem runs_find {i : Nat} (hf : (windowFound s).getD noFlow = i) (hi : i ≠ noFlow) : Runs r.2 s (fun t =>
    HostEnded s t ftOK ∧ fg t pgFT F.FT_FT_ADDR_INDEX = i % 2 ^ 26) := by
  have hattempt := ftAttempt_find (cmd := cmd) hidle hon hb h4 hbad
  rw [hf, if_neg hi] at hattempt
  refine runs_done hr ha hbusy (by omega) hattempt fun t ht => ⟨?_, ?_⟩
  · exact hostEnded_ftDone ht (by decide) rfl (hbm_cmdTaken s (rowCmd s cmd r.1)) (frames_cmdTaken s (rowCmd s cmd r.1))
  · rw [ht.field, fg_ftDone_addr]
    exact fg_fs_self _ _ _ _ (by decide)

end

/-! FLUSH (R277, R279). -/

/-- The ways that FLUSH writes back. -/
def dirtyWays (s : State) : List Nat := (s.fl.deck.filter (fun e => e.2.valid && e.2.dirty)).map (fun e => e.1)

/-- A way whose record is written back. -/
def cleaned (w : Way) : Way := { w with dirty := false }

theorem mem_dirtyWays {s : State} {k : Nat} (hv : (getWay s k).valid = true) (hd : (getWay s k).dirty = true) :
    k ∈ dirtyWays s := by
  refine List.mem_map.mpr ⟨(k, getWay s k), List.mem_filter.mpr ⟨?_, Bool.and_eq_true_iff.mpr ⟨hv, hd⟩⟩, rfl⟩
  refine mem_of_tget_ne (fun _ => ({} : Way)) s.fl.deck k fun h => ?_
  have hempty : getWay s k = {} := h
  rw [hempty] at hv
  exact Bool.false_ne_true hv

/-- A way cleaned stays so whichever way is written back. -/
theorem getWay_writeBack_cleaned {s : State} {k : Nat} {w : Way} (h : getWay s k = cleaned w) (j : Nat) :
    getWay (writeBack s j) k = cleaned w := by
  by_cases hjk : k = j
  · subst hjk
    rw [getWay_writeBack, h]
    rfl
  · rw [getWay_writeBack_ne _ hjk, h]

theorem cleaned_writeBack (s : State) (j k : Nat) : cleaned (getWay (writeBack s j) k) = cleaned (getWay s k) := by
  by_cases hjk : k = j
  · subst hjk
    rw [getWay_writeBack]
    rfl
  · rw [getWay_writeBack_ne _ hjk]

/-- Way `k` of `s` is clean in `t`, its record queued for flow memory. -/
def Queued (s t : State) (k : Nat) : Prop :=
  getWay t k = cleaned (getWay s k) ∧ ∃ i ∈ t.fl.wbq, i.idx = (getWay s k).idx ∧ i.record = (getWay s k).record

/-- What FLUSH leaves of a valid way. -/
theorem flushed_way {s : State} {k : Nat} (hv : (getWay s k).valid = true) :
    getWay ((dirtyWays s).foldl writeBack s) k = cleaned (getWay s k) ∧ ((getWay s k).dirty = true →
      ∃ i ∈ ((dirtyWays s).foldl writeBack s).fl.wbq, i.idx = (getWay s k).idx ∧ i.record = (getWay s k).record) := by
  cases hd : (getWay s k).dirty
  · have hclean : getWay s k = cleaned (getWay s k) := by
      unfold cleaned
      rw [← hd]
    exact ⟨List.foldlRecOn (motive := fun t => getWay t k = cleaned (getWay s k)) _ _ hclean
      fun t ht j _ => getWay_writeBack_cleaned ht j, nofun⟩
  · have hq : Queued s ((dirtyWays s).foldl writeBack s) k := by
      refine foldl_establishes (I := fun t => cleaned (getWay t k) = cleaned (getWay s k)) (P := fun t => Queued s t k)
        (mem_dirtyWays hv hd) (fun t j _ ht => (cleaned_writeBack t j k).trans ht) (fun t ht => ?_)
        (fun t j _ _ ht => ?_) rfl
      · refine ⟨(getWay_writeBack t k).trans ht, wayItem t k, ?_, (congrArg Way.idx ht :), (congrArg Way.record ht :)⟩
        rw [wbq_writeBack]
        exact List.mem_append_right _ (List.mem_singleton_self _)
      · obtain ⟨hway, i, hi, hrec⟩ := ht
        refine ⟨getWay_writeBack_cleaned hway j, i, ?_, hrec⟩
        rw [wbq_writeBack]
        exact List.mem_append_left _ hi
    exact ⟨hq.1, fun _ => hq.2⟩

/-- FT_STATUS stands on no Deck's page. -/
theorem fgb_writeBack (s : State) (k : Nat) :
    fgb (writeBack s k) pgFT F.FT_FT_STATUS_BUSY = fgb s pgFT F.FT_FT_STATUS_BUSY := by
  have hword : rawRd (writeBack s k) (pgFT + F.FT_FT_STATUS_BUSY.off) = rawRd s (pgFT + F.FT_FT_STATUS_BUSY.off) := by
    refine (rawRd_bump _ _ _ (plainWord_page (by decide) (by decide) (by decide)) ?_ ?_).trans rfl
    · simp only [deckB, pb, R.DECK_WRITEBACKS]
      omega
    · simp only [deckB, pb, R.DECK_WRITEBACKS]
      omega
  unfold fgb fg
  rw [hword]

theorem flushAll_eq (s : State) : flushAll s =
    setFl ((dirtyWays s).foldl writeBack s) { ((dirtyWays s).foldl writeBack s).fl with flushing := true } := rfl

theorem ftCmdOp_flush {s : State} (h : fgb s pgFT F.FT_FT_STATUS_BUSY = false) (v : Word) : ftCmdOp s 8 v =
    (.ok, if s.fuse.hbm then flushAll (fs s pgFT F.FT_FT_STATUS_BUSY 1)
      else ftDone (fs s pgFT F.FT_FT_STATUS_BUSY 1) ftOK) := by
  unfold ftCmdOp
  rw [if_neg (by rw [h]; decide)]
  exact if_pos rfl

/-- FLUSH in a variant with flow memory. -/
theorem flushAll_leaves (s : State) : (flushAll s).fl.flushing = true ∧ (flushAll s).hbm = s.hbm ∧
    fgb (flushAll s) pgFT F.FT_FT_STATUS_BUSY = fgb s pgFT F.FT_FT_STATUS_BUSY ∧
    ∀ k, (getWay s k).valid = true → getWay (flushAll s) k = cleaned (getWay s k) ∧ ((getWay s k).dirty = true →
      ∃ i ∈ (flushAll s).fl.wbq, i.idx = (getWay s k).idx ∧ i.record = (getWay s k).record) := by
  rw [flushAll_eq]
  exact ⟨rfl, foldl_keeps State.hbm hbm_writeBack _ s,
    foldl_keeps (fun t => fgb t pgFT F.FT_FT_STATUS_BUSY) fgb_writeBack _ s, fun k hv => flushed_way hv⟩

/-! The statement. -/

/-- Settles O44: each row by its first attempt, whose answers come in the order of `ftAttempt_idle`; FLUSH by the fold
over the dirty ways. -/
theorem hostFindsAndReadsRecords : Obligations.HostFindsAndReadsRecords := by
  intro s a cmd addr rows ix d t0 found idle usable ended
  refine ⟨fun r hr ha hbusy => ?_, fun hbusy hidle => ⟨fun ha hb hu hbad hrec => ?_, fun ha hon hb hbad => ?_,
    fun r hr hop ha hoff => ?_, fun i ha hon hf hi hb => ?_, fun r hr hop ha hb => ⟨fun hbad => ?_, fun hm hres hbad hp => ?_,
    fun hbad hu hrec => ?_⟩, fun r hr hop ha hb => ?_⟩, fun ha hbusy => ?_⟩
  · exact runs_reply (exec_hostRow hr s) (regWrite_hostRow hr ha (ftCmdOp_busy hbusy _ _) nofun) rfl rfl
  · have hr : (1, .ftRead a cmd) ∈ hostRows a cmd := by simp [hostRows]
    exact runs_ftRead hr ha hbusy hidle (List.mem_cons_self ..) hb hbad hu rfl hrec
  · have hr : (4, .ftFind a cmd) ∈ hostRows a cmd := by simp [hostRows]
    rcases hf : windowFound s with _ | i
    · have hidx : (windowFound s).getD noFlow = noFlow := congrArg (·.getD noFlow) hf
      have hfound : found = none := hf
      rw [hfound]
      exact runs_findNone hr ha hbusy hidle hon hb rfl hbad hidx
    · have hidx : (windowFound s).getD noFlow = i := congrArg (·.getD noFlow) hf
      have hfound : found = some i := hf
      rw [hfound]
      by_cases hi : i = noFlow
      · obtain ⟨t, hexec, hpending, -⟩ := runs_findNone hr ha hbusy hidle hon hb rfl hbad (hidx.trans hi)
        exact ⟨t, hexec, hpending, fun hne => absurd hi hne⟩
      · obtain ⟨t, hexec, hpending, hfind⟩ := runs_find hr ha hbusy hidle hon hb rfl hbad hidx hi
        exact ⟨t, hexec, hpending, fun _ => hfind⟩
  · exact runs_tableOff hr ha hbusy hop hoff
  · have hr : (3, .ftInsert a cmd) ∈ hostRows a cmd := by simp [hostRows]
    have hidx : (windowFound s).getD noFlow = i := congrArg (·.getD noFlow) hf
    exact runs_exists hr ha hbusy hidle hon (hidx ▸ hb) rfl (hidx ▸ hi)
  · exact runs_listedBad hr ha hbusy hidle hop hb hbad
  · exact runs_uncorrectable hr ha hbusy hidle hop hb hm hres hbad hp
  · exact runs_notFound hr ha hbusy hidle hop hb hbad hu hrec
  · exact runs_bound hr ha hbusy hop hb
  · have hr : (8, .flush a cmd) ∈ hostRows a cmd := by simp [hostRows]
    have hflush := ftCmdOp_flush hbusy (setBits cmd 0 4 8)
    refine ⟨fun hm => ?_, fun hm => ?_⟩
    · rw [hm] at hflush
      exact runs_hostRow hr ha hflush nofun fun t ht => hostEnded_ftDone ht (by decide) rfl rfl rfl
    · rw [hm] at hflush
      refine runs_hostRow hr ha hflush nofun fun t ht => ?_
      obtain ⟨hflushing, hhbm, hshown, hways⟩ := flushAll_leaves (fs s pgFT F.FT_FT_STATUS_BUSY 1)
      refine ⟨ht.reply, ht.fl ▸ hflushing, ((ht.flag ..).trans hshown).trans (fgb_cmdTaken s (rowCmd s cmd 8)),
        ht.hbm.trans hhbm, fun k hv => ?_⟩
      rw [getWay_of_deck (congrArg FlowSt.deck ht.fl), ht.fl]
      exact hways k hv

end Sys2Proof.Machine
end

section
/-! The flow memory controllers (R286-R315): what a write of one leaves of the others, and what counters, events and the
error log leave alone. -/

namespace Sys2Proof.Machine

open Sys2Proof

/-! The controllers' states. -/

theorem getM_of_hbm {s t : State} (h : t.hbm = s.hbm) (d : Nat) : getM t d = getM s d := by
  unfold getM
  rw [h]

@[simp] theorem getM_modM_ne (s : State) {c d : Nat} (g : McSt → McSt) (h : d ≠ c) : getM (modM s c g) d = getM s d :=
  tget_tset_ne _ _ _ _ _ h

@[simp] theorem getM_setM_ne (s : State) {c d : Nat} (m : McSt) (h : d ≠ c) : getM (setM s c m) d = getM s d :=
  tget_tset_ne _ _ _ _ _ h

@[simp] theorem mem_modM (s : State) (c : Nat) (g : McSt → McSt) : (modM s c g).hbm.mem = s.hbm.mem := rfl
@[simp] theorem poison_modM (s : State) (c : Nat) (g : McSt → McSt) : (modM s c g).hbm.poison = s.hbm.poison := rfl
@[simp] theorem mem_setM (s : State) (c : Nat) (m : McSt) : (setM s c m).hbm.mem = s.hbm.mem := rfl
@[simp] theorem getM_mwr (s : State) (a : Nat) (bs : List Byte) (d : Nat) : getM (mwr s a bs) d = getM s d := rfl

@[simp] theorem getM_bump (s : State) (a d : Nat) : getM (bump s a) d = getM s d := getM_of_hbm (by simp) d
@[simp] theorem getM_raise (s : State) (p b d : Nat) : getM (raise s p b) d = getM s d := getM_of_hbm (by simp) d
@[simp] theorem getM_setSr (s : State) (c v d : Nat) : getM (setSr s c v) d = getM s d := rfl
@[simp] theorem getM_fs (s : State) (b : Nat) (f : FRef) (x d : Nat) : getM (fs s b f x) d = getM s d := rfl

theorem pageInfo_mcPage {c : Nat} (hc : c < 16) : pageInfo (mcPage c) = some ⟨0x40, c, .d⟩ := by
  revert c
  decide

theorem mcPage_present {s : State} (h : s.fuse.hbm = true) {c : Nat} (hc : c < 16) :
    pagePresent s (mcPage c) = true := by
  unfold pagePresent
  rw [pageInfo_mcPage hc]
  exact h

theorem mcPage_ne_fault (c : Nat) : mcPage c ≠ 6 := by
  simp only [mcPage]
  omega

theorem ctlOf_lt (a : Nat) : ctlOf a < 16 :=
  Nat.xor_lt_two_pow (n := 4) (Nat.mod_lt _ (by decide)) (Nat.mod_lt _ (by decide))

/-! What is noted: counters, events, the error log. -/

/-- Everything but the registers, the events, the mode, the counts, the free values and flow memory. -/
def offHbm (s : State) : State := { notCounts s with freeIx := 0, hbm := {} }

theorem offHbm_of_notEvents {s t : State} (h : notEvents t = notEvents s) : offHbm t = offHbm s := by
  unfold offHbm
  rw [notCounts_of_notEvents h]

theorem tm_of_offHbm {s t : State} (h : offHbm t = offHbm s) : t.tm = s.tm := (congrArg State.tm h :)
theorem fuse_of_offHbm {s t : State} (h : offHbm t = offHbm s) : t.fuse = s.fuse := (congrArg State.fuse h :)
theorem pending_of_offHbm {s t : State} (h : offHbm t = offHbm s) : t.pending = s.pending :=
  (congrArg State.pending h :)

theorem cmdNow_of_tm {s t : State} (h : t.tm = s.tm) : cmdNow t = cmdNow s := by
  unfold cmdNow cycleNow plyNat
  rw [h]

/-- A command of a controller completes with the state that its operation comes to. -/
theorem runs_offHbm {i : Instr} {s t : State} {P : State → Prop} (h : exec i s = .next (kept s t))
    (hr : offHbm t = offHbm s) (ht : P t) : Runs i s P :=
  runs_kept h (by rwa [kept_eq (fuse_of_offHbm hr) (pending_of_offHbm hr)])

/-- From `s` to `t` only counters, events, logs and flow memory changed: no event was cleared, and MC_STATUS of every
controller stands. -/
structure MemNoted (s t : State) : Prop where
  rest : offHbm t = offHbm s
  status : StatusGrows s t
  shown : ∀ d, rawRd t (mcB d + R.HBM_MC_STATUS) = rawRd s (mcB d + R.HBM_MC_STATUS)

namespace MemNoted

variable {s t u : State}

theorem refl (s : State) : MemNoted s s := ⟨rfl, fun _ _ h => h, fun _ => rfl⟩

theorem trans (h : MemNoted s t) (h' : MemNoted t u) : MemNoted s u :=
  ⟨h'.rest.trans h.rest, h.status.trans h'.status, fun d => (h'.shown d).trans (h.shown d)⟩

theorem of_regs (h : offHbm t = offHbm s) (hr : t.regs = s.regs) : MemNoted s t :=
  ⟨h, statusGrows_of_words fun _ => rawRd_congr _ _ _ hr, fun _ => rawRd_congr _ _ _ hr⟩

theorem cmdNow (h : MemNoted s t) : cmdNow t = cmdNow s := cmdNow_of_tm (tm_of_offHbm h.rest)
theorem fuse (h : MemNoted s t) : t.fuse = s.fuse := fuse_of_offHbm h.rest

theorem srState (h : MemNoted s t) (d : Nat) : srState t d = srState s d := fg_of_word (h.shown d)

theorem trained (h : MemNoted s t) (d : Nat) : trained t d = trained s d := by
  unfold Machine.trained fgb
  rw [fg_of_word (h.shown d)]

end MemNoted

theorem memNoted_modM (s : State) (c : Nat) (g : McSt → McSt) : MemNoted s (modM s c g) := .of_regs rfl rfl
theorem memNoted_setM (s : State) (c : Nat) (m : McSt) : MemNoted s (setM s c m) := .of_regs rfl rfl
theorem memNoted_mwr (s : State) (a : Nat) (bs : List Byte) : MemNoted s (mwr s a bs) := .of_regs rfl rfl
theorem memNoted_useGranule (s : State) (c port : Nat) : MemNoted s (useGranule s c port) := .of_regs rfl rfl

theorem plainWord_mcStatus (d : Nat) : plainWord (mcB d + R.HBM_MC_STATUS) :=
  plainWord_page (by omega) (by decide) (by decide)

/-- A counter of a controller's page. -/
theorem memNoted_bump (s : State) (c : Nat) {o : Nat} (hlo : 0x60 ≤ o) (hhi : o < 0xFF8) :
    MemNoted s (bump s (mcB c + o)) :=
  ⟨offHbm_of_notEvents (notEvents_bump ..), statusGrows_bump s (mcPage c) (by omega) hhi, fun d =>
    rawRd_bump _ _ _ (plainWord_mcStatus d) (by simp only [mcB, pb, R.HBM_MC_STATUS]; omega)
      (by simp only [mcB, pb, R.HBM_MC_STATUS]; omega)⟩

theorem memNoted_occurrence (s : State) (page : Nat) {b : Nat} (hb : b < 32) (inj : Bool) (d : Detail) :
    MemNoted s (occurrence s page b inj d) :=
  ⟨offHbm_of_notEvents (notEvents_occurrence ..), statusGrows_occurrence s page hb inj d,
    fun k => rawRd_occurrence _ _ _ _ _ _ (plainWord_mcStatus k)⟩

theorem memNoted_raise (s : State) (page : Nat) {b : Nat} (hb : b < 32) : MemNoted s (raise s page b) :=
  memNoted_occurrence s page hb false 0

theorem memNoted_raiseD (s : State) (page : Nat) {b : Nat} (hb : b < 32) (d : Detail) :
    MemNoted s (raiseD s page b d) :=
  memNoted_occurrence s page hb false d

/-- A field beyond MC_STATUS, as the error log's are. -/
theorem memNoted_fs (s : State) (c : Nat) {f : FRef} (hlo : 0x48 ≤ f.off) (hhi : f.off < 0x1000) (x : Nat) :
    MemNoted s (fs s (mcB c) f x) :=
  ⟨offHbm_of_notEvents (notEvents_fs ..), fun q b h => (evStatus_fs s (mcPage c) (by omega) hhi x q b).trans h, fun d =>
    rawRd_fs_ne _ _ _ _ _ (by simp only [mcB, pb, R.HBM_MC_STATUS]; omega)⟩

theorem statusGrows_pcWrap (s : State) (k : Nat) (hk : k < 64) : StatusGrows s (pcWrap s k) := by
  have hset : StatusGrows s (setBit s (pb 0x007 + (R.CR_PC_OVF + 4 * (k / 32))) (k % 32) true) :=
    statusGrows_setBit _ 0x007 _ (Nat.mod_lt _ (by decide)) true (by simp only [R.CR_PC_OVF]; omega) (fun _ => rfl)
  rw [← Nat.add_assoc] at hset
  exact hset.trans (statusGrows_occurrence _ 0x007 (b := evPERF_WRAP) (by decide) false 0)

theorem memNoted_pcAdd (s : State) (n : Nat) {k : Nat} (hk : k < 64) : MemNoted s (pcAdd s k n) := by
  refine ⟨by unfold offHbm; rw [notCounts_pcAdd], ?_, fun d => rawRd_pcAdd s k n (plainWord_mcStatus d) ?_ hk⟩
  · unfold pcAdd
    split
    · exact (MemNoted.refl s).status
    · dsimp only
      have hset : StatusGrows s (setPc s k ((pcValue s k + n) % 2 ^ 48)) := (MemNoted.of_regs rfl rfl).status
      split
      · exact hset.trans (statusGrows_pcWrap _ k hk)
      · exact hset
  · rw [pb_add_div _ (by decide)]
    omega

/-- Counting an event of a block (R526). -/
theorem memNoted_perf (s : State) (page ev n : Nat) : MemNoted s (perf s page ev n) := by
  refine upTo_ind (fun _ t => MemNoted s t) (.refl s) fun k t hk ht => ?_
  split
  · exact ht.trans (memNoted_pcAdd t n hk)
  · exact ht

@[simp] theorem hbm_perf (s : State) (page ev n : Nat) : (perf s page ev n).hbm = s.hbm :=
  hbm_of_notCounts (notCounts_perf ..)

@[simp] theorem getM_perf (s : State) (page ev n d : Nat) : getM (perf s page ev n) d = getM s d :=
  getM_of_hbm (hbm_perf ..) d

/-! The error log (R305). -/

/-- ECC_LOG with a codeword's entry written. -/
def eccPut (s : State) (c a cw port synd : Nat) (ue : Bool) : State :=
  let s := fs (fs s (mcB c) F.HBM_ECC_LOG_ADDR_L (localOf a)) (mcB c) F.HBM_ECC_LOG_ADDR_VALID 1
  let s := fs (fs s (mcB c) F.HBM_ECC_LOG_INFO_SYNDROME synd) (mcB c) F.HBM_ECC_LOG_INFO_CODEWORD cw
  fs (fs s (mcB c) F.HBM_ECC_LOG_INFO_PORT port) (mcB c) F.HBM_ECC_LOG_INFO_UE (if ue then 1 else 0)

/-- The log takes an entry, takes one over a corrected one, or counts one more. -/
theorem eccLog_cases (s : State) (c a cw port synd : Nat) (ue : Bool) :
    eccLog s c a cw port synd ue = fs (eccPut s c a cw port synd ue) (mcB c) F.HBM_ECC_LOG_INFO_MORE 0 ∨
    eccLog s c a cw port synd ue = eccPut s c a cw port synd ue ∨
    ∃ n, eccLog s c a cw port synd ue = fs s (mcB c) F.HBM_ECC_LOG_INFO_MORE n := by
  by_cases hv : fgb s (mcB c) F.HBM_ECC_LOG_ADDR_VALID = true
  · by_cases hu : (ue && !fgb s (mcB c) F.HBM_ECC_LOG_INFO_UE) = true
    · exact .inr (.inl ((if_neg (not_not_intro hv)).trans (if_pos hu)))
    · exact .inr (.inr ⟨_, (if_neg (not_not_intro hv)).trans (if_neg hu)⟩)
  · exact .inl (if_pos hv)

theorem notEvents_eccPut (s : State) (c a cw port synd : Nat) (ue : Bool) :
    notEvents (eccPut s c a cw port synd ue) = notEvents s := by
  unfold eccPut
  rw [notEvents_fs, notEvents_fs, notEvents_fs, notEvents_fs, notEvents_fs, notEvents_fs]

theorem notEvents_eccLog (s : State) (c a cw port synd : Nat) (ue : Bool) :
    notEvents (eccLog s c a cw port synd ue) = notEvents s := by
  obtain h | h | ⟨n, h⟩ := eccLog_cases s c a cw port synd ue <;> rw [h]
  · exact (notEvents_fs ..).trans (notEvents_eccPut ..)
  · exact notEvents_eccPut ..
  · exact notEvents_fs ..

@[simp] theorem hbm_eccLog (s : State) (c a cw port synd : Nat) (ue : Bool) :
    (eccLog s c a cw port synd ue).hbm = s.hbm := notEvents_hbm _ _ (notEvents_eccLog ..)

theorem memNoted_eccPut (s : State) (c a cw port synd : Nat) (ue : Bool) : MemNoted s (eccPut s c a cw port synd ue) :=
  (((((memNoted_fs _ c (by decide) (by decide) _).trans (memNoted_fs _ c (by decide) (by decide) _)).trans
    (memNoted_fs _ c (by decide) (by decide) _)).trans (memNoted_fs _ c (by decide) (by decide) _)).trans
    (memNoted_fs _ c (by decide) (by decide) _)).trans (memNoted_fs _ c (by decide) (by decide) _)

theorem memNoted_eccLog (s : State) (c a cw port synd : Nat) (ue : Bool) :
    MemNoted s (eccLog s c a cw port synd ue) := by
  obtain h | h | ⟨n, h⟩ := eccLog_cases s c a cw port synd ue <;> rw [h]
  · exact (memNoted_eccPut ..).trans (memNoted_fs _ c (by decide) (by decide) 0)
  · exact memNoted_eccPut ..
  · exact memNoted_fs _ c (by decide) (by decide) n

@[simp] theorem hbm_eccUE (s : State) (c a cw port synd : Nat) : (eccUE s c a cw port synd).hbm = s.hbm := by
  simp [eccUE]

@[simp] theorem getM_eccUE (s : State) (c a cw port synd d : Nat) : getM (eccUE s c a cw port synd) d = getM s d :=
  getM_of_hbm (hbm_eccUE ..) d

theorem memNoted_eccUE (s : State) (c a cw port synd : Nat) : MemNoted s (eccUE s c a cw port synd) :=
  ((memNoted_eccLog ..).trans (memNoted_bump _ c (o := R.HBM_ECC_UE_COUNT) (by decide) (by decide))).trans
    (memNoted_raiseD _ _ (by decide) _)

/-- An uncorrectable codeword raises ECC_UE (R303). -/
theorem evStatus_eccUE {s : State} (h : s.fuse.hbm = true) {c : Nat} (hc : c < 16) (a cw port synd : Nat) :
    evStatus (eccUE s c a cw port synd) (mcPage c) evECC_UE = true := by
  refine evStatus_raiseD (mcPage_present ?_ hc) (by decide) _
  have hn := (memNoted_eccLog s c a cw port synd true).trans
    (memNoted_bump _ c (o := R.HBM_ECC_UE_COUNT) (by decide) (by decide))
  rw [hn.fuse]
  exact h

/-- A corrected codeword before its corrective write is queued. -/
def eccCounted (s : State) (c a cw port synd : Nat) : State :=
  raiseD (bump (eccLog s c a cw port synd false) (mcB c + R.HBM_ECC_CE_COUNT)) (mcPage c) evECC_CE
    (eccDetail a cw port synd)

theorem eccCE_eq (s : State) (c a cw port synd : Nat) : eccCE s c a cw port synd =
    modM (eccCounted s c a cw port synd) c (fun m =>
      if m.corr.contains a then m else { m with corr := m.corr ++ [a] }) := rfl

theorem hbm_eccCounted (s : State) (c a cw port synd : Nat) : (eccCounted s c a cw port synd).hbm = s.hbm := by
  simp [eccCounted]

theorem memNoted_eccCounted (s : State) (c a cw port synd : Nat) : MemNoted s (eccCounted s c a cw port synd) :=
  ((memNoted_eccLog ..).trans (memNoted_bump _ c (o := R.HBM_ECC_CE_COUNT) (by decide) (by decide))).trans
    (memNoted_raiseD _ _ (by decide) _)

end Sys2Proof.Machine
end

section
/-! The check of a granule (R302, R303, R305): what corrected and uncorrectable codewords leave of a controller. -/

namespace Sys2Proof.Machine

open Sys2Proof

/-! What a check leaves alone. -/

/-- A controller without its queue of corrective writes. -/
def offCorr (m : McSt) : McSt := { m with corr := [] }

/-- From `s` to `t` controller `c` noted errors: no byte changed, no codeword became correctable, and of the controllers
only the corrective writes of `c` changed. -/
structure Checked (c : Nat) (s t : State) : Prop extends MemNoted s t where
  mem : t.hbm.mem = s.hbm.mem
  poison : ∀ w, s.hbm.poison.contains w = true → t.hbm.poison.contains w = true
  other : ∀ d, d ≠ c → getM t d = getM s d
  own : offCorr (getM t c) = offCorr (getM s c)

namespace Checked

variable {c : Nat} {s t u : State}

theorem refl (c : Nat) (s : State) : Checked c s s := ⟨.refl s, rfl, fun _ h => h, fun _ _ => rfl, rfl⟩

theorem trans (h : Checked c s t) (h' : Checked c t u) : Checked c s u :=
  ⟨h.toMemNoted.trans h'.toMemNoted, h'.mem.trans h.mem, fun w hw => h'.poison w (h.poison w hw),
    fun d hd => (h'.other d hd).trans (h.other d hd), h'.own.trans h.own⟩

theorem of_hbm (h : MemNoted s t) (hh : t.hbm = s.hbm) : Checked c s t :=
  ⟨h, by rw [hh], fun w hw => by rwa [hh], fun d _ => getM_of_hbm hh d, by rw [getM_of_hbm hh]⟩

theorem reads (h : Checked c s t) : (getM t c).reads = (getM s c).reads := (congrArg McSt.reads h.own :)
theorem scrub (h : Checked c s t) : (getM t c).scrub = (getM s c).scrub := (congrArg McSt.scrub h.own :)

end Checked

theorem checked_eccUE (s : State) (c a cw port synd : Nat) : Checked c s (eccUE s c a cw port synd) :=
  .of_hbm (memNoted_eccUE ..) (hbm_eccUE ..)

theorem checked_eccCE (s : State) (c a cw port synd : Nat) : Checked c s (eccCE s c a cw port synd) := by
  rw [eccCE_eq]
  refine (Checked.of_hbm (memNoted_eccCounted ..) (hbm_eccCounted ..)).trans
    ⟨memNoted_modM .., rfl, fun _ h => h, fun d hd => getM_modM_ne _ _ hd, ?_⟩
  rw [getM_modM]
  split <;> rfl

theorem poison_eccCE (s : State) (c a cw port synd : Nat) : (eccCE s c a cw port synd).hbm.poison = s.hbm.poison := by
  rw [eccCE_eq, poison_modM, hbm_eccCounted]

theorem contains_poisonCw (s : State) (w : Nat) : (poisonCw s w).hbm.poison.contains w = true := by
  unfold poisonCw
  split
  · assumption
  · simp

theorem checked_poisonCw (c : Nat) (s : State) (w : Nat) : Checked c s (poisonCw s w) := by
  unfold poisonCw
  split
  · exact .refl c s
  · refine ⟨.of_regs rfl rfl, rfl, fun x hx => ?_, fun _ _ => rfl, rfl⟩
    simp only [setHbm_hbm, List.contains_eq_mem, decide_eq_true_eq, List.mem_append] at hx ⊢
    exact .inl hx

/-! One codeword. -/

section
variable {c a port cw synd : Nat} {s : State}

theorem checkCw_poisoned (n : Nat) (h : s.hbm.poison.contains (a / 16 + cw) = true) :
    checkCw c a port s (cw, n, synd) = eccUE s c a cw port synd := if_pos h

theorem checkCw_clean (h : s.hbm.poison.contains (a / 16 + cw) = false) : checkCw c a port s (cw, 0, synd) = s :=
  if_neg (by simp only [h]; decide)

theorem checkCw_single (h : s.hbm.poison.contains (a / 16 + cw) = false) :
    checkCw c a port s (cw, 1, synd) = eccCE s c a cw port synd := if_neg (by simp only [h]; decide)

theorem checkCw_double (h : s.hbm.poison.contains (a / 16 + cw) = false) :
    checkCw c a port s (cw, 2, synd) = eccUE (poisonCw s (a / 16 + cw)) c a cw port synd :=
  if_neg (by simp only [h]; decide)

end

/-- Up to two bad symbols change no byte. -/
theorem checked_checkCw (c a port : Nat) (s : State) (cw synd : Nat) {n : Nat} (hn : n ≤ 2) :
    Checked c s (checkCw c a port s (cw, n, synd)) := by
  cases hw : s.hbm.poison.contains (a / 16 + cw) with
  | true =>
    rw [checkCw_poisoned n hw]
    exact checked_eccUE ..
  | false =>
    match n, hn with
    | 0, _ =>
      rw [checkCw_clean hw]
      exact .refl c s
    | 1, _ =>
      rw [checkCw_single hw]
      exact checked_eccCE ..
    | 2, _ =>
      rw [checkCw_double hw]
      exact (checked_poisonCw ..).trans (checked_eccUE ..)

/-- At most one bad symbol of a correctable codeword is corrected. -/
theorem poison_checkCw {c a port cw synd n : Nat} {s : State} (hn : n ≤ 1)
    (hw : s.hbm.poison.contains (a / 16 + cw) = false) :
    (checkCw c a port s (cw, n, synd)).hbm.poison = s.hbm.poison := by
  match n, hn with
  | 0, _ => rw [checkCw_clean hw]
  | 1, _ => rw [checkCw_single hw, poison_eccCE]

/-- Two bad symbols of a codeword, or of one that was uncorrectable, are uncorrectable and raise ECC_UE. -/
theorem checkCw_two {c a port cw synd : Nat} {s : State} (hm : s.fuse.hbm = true) (hc : c < 16) :
    (checkCw c a port s (cw, 2, synd)).hbm.poison.contains (a / 16 + cw) = true ∧
    evStatus (checkCw c a port s (cw, 2, synd)) (mcPage c) evECC_UE = true := by
  cases hw : s.hbm.poison.contains (a / 16 + cw) with
  | true =>
    rw [checkCw_poisoned 2 hw, hbm_eccUE]
    exact ⟨hw, evStatus_eccUE hm hc ..⟩
  | false =>
    rw [checkCw_double hw, hbm_eccUE]
    exact ⟨contains_poisonCw s _, evStatus_eccUE ((checked_poisonCw c s _).fuse ▸ hm) hc ..⟩

/-! The granule. -/

theorem checked_checkGranule (s : State) (c a port : Nat) {errs : List (Nat × Nat)}
    (h : ∀ k, k < 4 → (errs.getD k (0, 0)).1 ≤ 2) : Checked c s (checkGranule s c a port errs) := by
  refine List.foldlRecOn _ _ (.refl c s) fun t ht x hx => ?_
  obtain ⟨k, hk, rfl⟩ := List.mem_map.mp hx
  exact ht.trans (checked_checkCw _ _ _ _ _ _ (h k (List.mem_range.mp hk)))

theorem poisoned_congr {s t : State} (h : t.hbm.poison = s.hbm.poison) (a n : Nat) :
    poisoned t a n = poisoned s a n := by
  unfold poisoned
  rw [h]

theorem mrd_congr {s t : State} (h : t.hbm.mem = s.hbm.mem) (a n : Nat) : mrd t a n = mrd s a n := by
  unfold mrd mget
  rw [h]

/-- The codewords of a granule are touched by a read of it. -/
theorem codeword_mem_touched (a : Nat) {k : Nat} (hk : k < 4) : a / 16 + k ∈ touched a 64 :=
  List.mem_map.mpr ⟨k, List.mem_range.mpr (by omega), rfl⟩

/-- Codewords with at most one bad symbol, none uncorrectable before, are all correctable after. -/
theorem poison_checkGranule {s : State} {a : Nat} (c port : Nat) {errs : List (Nat × Nat)}
    (h : ∀ k, k < 4 → (errs.getD k (0, 0)).1 ≤ 1) (hp : poisoned s a 64 = false) :
    (checkGranule s c a port errs).hbm.poison = s.hbm.poison := by
  refine List.foldlRecOn (motive := fun t : State => t.hbm.poison = s.hbm.poison) _ _ rfl fun t ht x hx => ?_
  obtain ⟨k, hk, rfl⟩ := List.mem_map.mp hx
  have hk := List.mem_range.mp hk
  refine (poison_checkCw (h k hk) ?_).trans ht
  rw [ht]
  exact Bool.eq_false_iff.mpr (List.any_eq_false.mp hp _ (codeword_mem_touched a hk))

/-- A codeword with two bad symbols leaves its granule uncorrectable, and ECC_UE raised. -/
theorem checkGranule_two {s : State} (hm : s.fuse.hbm = true) {c : Nat} (hc : c < 16) (a port : Nat)
    {errs : List (Nat × Nat)} (h : ∀ k, k < 4 → (errs.getD k (0, 0)).1 ≤ 2) {k : Nat} (hk : k < 4)
    (h2 : (errs.getD k (0, 0)).1 = 2) :
    poisoned (checkGranule s c a port errs) a 64 = true ∧
    evStatus (checkGranule s c a port errs) (mcPage c) evECC_UE = true := by
  have hstep (t : State) (x : Nat × Nat × Nat)
      (hx : x ∈ (List.range 4).map (fun k => (k, errs.getD k (0, 0)))) : Checked c t (checkCw c a port t x) := by
    obtain ⟨j, hj, rfl⟩ := List.mem_map.mp hx
    exact checked_checkCw _ _ _ _ _ _ (h j (List.mem_range.mp hj))
  have hmem : (k, errs.getD k (0, 0)) ∈ (List.range 4).map (fun k => (k, errs.getD k (0, 0))) :=
    List.mem_map.mpr ⟨k, List.mem_range.mpr hk, rfl⟩
  have hpair : errs.getD k (0, 0) = (2, (errs.getD k (0, 0)).2) := Prod.ext h2 rfl
  have hmark : (checkGranule s c a port errs).hbm.poison.contains (a / 16 + k) = true ∧
      evStatus (checkGranule s c a port errs) (mcPage c) evECC_UE = true :=
    foldl_establishes (I := fun t : State => t.fuse.hbm = true)
      (P := fun t => t.hbm.poison.contains (a / 16 + k) = true ∧ evStatus t (mcPage c) evECC_UE = true) hmem
      (fun t x hx ht => (hstep t x hx).fuse ▸ ht)
      (fun t ht => by
        rw [hpair]
        exact checkCw_two ht hc)
      (fun t x hx _ ⟨hp, he⟩ => ⟨(hstep t x hx).poison _ hp, (hstep t x hx).status _ _ he⟩) hm
  exact ⟨List.any_eq_true.mpr ⟨_, codeword_mem_touched a hk, hmark.1⟩, hmark.2⟩

end Sys2Proof.Machine
end

section
/-! O47: requests at a controller (R286-R293, R303, R304, R312): accepted, held and refused; reads that return, and the
work that waits in the background. -/

namespace Sys2Proof.Machine

open Sys2Proof

/-! Acceptance (R288, R304). -/

/-- The request that reaches a controller. -/
def mcReq (s : State) (port a : Nat) (w : Option (List Byte)) : HReq :=
  { port := port, addr := a, t := cmdNow s, write := w }

/-- The controller takes note of a request. -/
def requestNoted (s : State) (c : Nat) : State := modM s c (fun m => { m with lastReq := cmdNow s })

/-- A write, counted. -/
def writeCounted (s : State) (c port : Nat) : State :=
  bump (useGranule (requestNoted s c) c port) (mcB c + R.HBM_WRITES)

/-- What the acceptance of a write answers its port: whether it failed. -/
def answered (s : State) (c port a : Nat) (bad : Bool) : State :=
  modM s c (fun m => { m with ret := some (port, a, [], bad) })

/-- Some codeword that the write covers in part is uncorrectable. -/
def partUncorrectable (s : State) (a n : Nat) : Prop :=
  ∃ x ∈ touched a n, s.hbm.poison.contains x = true ∧ whole a n x = false

section
variable {s : State} {c : Nat}

theorem memNoted_writeCounted (s : State) (c port : Nat) : MemNoted s (writeCounted s c port) :=
  ((memNoted_modM ..).trans (memNoted_useGranule ..)).trans (memNoted_bump _ c (by decide) (by decide))

theorem mem_writeCounted (s : State) (c port : Nat) : (writeCounted s c port).hbm.mem = s.hbm.mem := by
  simp [writeCounted, useGranule, requestNoted]

theorem poison_writeCounted (s : State) (c port : Nat) : (writeCounted s c port).hbm.poison = s.hbm.poison := by
  simp [writeCounted, useGranule, requestNoted]

theorem getM_writeCounted_ne (s : State) {c d : Nat} (port : Nat) (h : d ≠ c) :
    getM (writeCounted s c port) d = getM s d := by
  simp [writeCounted, useGranule, requestNoted, h]

theorem reads_writeCounted (s : State) (c port : Nat) : (getM (writeCounted s c port) c).reads = (getM s c).reads := by
  simp [writeCounted, useGranule, requestNoted]

theorem held_writeCounted (s : State) (c port : Nat) : (getM (writeCounted s c port) c).held = (getM s c).held := by
  simp [writeCounted, useGranule, requestNoted]

/-- A read is queued. -/
theorem acceptReq_read {r : HReq} (h : r.write = none) : acceptReq s c r = modM (requestNoted s c) c (fun m =>
    { m with reads := m.reads ++ [{ r with addr := r.addr / 64 * 64, t := cmdNow s }] }) := by
  unfold acceptReq
  rw [h]
  rfl

/-- A write is done, unless it covers part of an uncorrectable codeword. -/
theorem acceptReq_write {r : HReq} {bs : List Byte} (h : r.write = some bs)
    (hp : ¬ partUncorrectable s r.addr bs.length) :
    acceptReq s c r = modM (mwr (writeCounted s c r.port) r.addr bs) c (fun m =>
      { m with corr := m.corr.filter (· ≠ r.addr / 64 * 64), ret := some (r.port, r.addr, [], false) }) := by
  have hfind : (touched r.addr bs.length).find? (fun w =>
      (writeCounted s c r.port).hbm.poison.contains w && !whole r.addr bs.length w) = none := by
    rw [List.find?_eq_none, poison_writeCounted]
    intro x hx hw
    simp only [Bool.and_eq_true, Bool.not_eq_true'] at hw
    exact hp ⟨x, hx, hw⟩
  unfold acceptReq
  simp only [h]
  split
  next hw => exact nomatch hw.symm.trans hfind
  next => rfl

/-- A write that covers part of an uncorrectable codeword fails (R304). -/
theorem acceptReq_part {r : HReq} {bs : List Byte} (h : r.write = some bs) (hp : partUncorrectable s r.addr bs.length) :
    ∃ w, acceptReq s c r =
      answered (eccUE (writeCounted s c r.port) c (r.addr / 64 * 64) (w % 4) r.port 0) c r.port r.addr true := by
  obtain ⟨x, hx, hpart⟩ := hp
  have hsome : ((touched r.addr bs.length).find? (fun w =>
      (writeCounted s c r.port).hbm.poison.contains w && !whole r.addr bs.length w)).isSome = true := by
    rw [List.find?_isSome, poison_writeCounted]
    exact ⟨x, hx, by rw [hpart.1, hpart.2]; rfl⟩
  obtain ⟨w, hw⟩ := Option.isSome_iff_exists.mp hsome
  refine ⟨w, ?_⟩
  unfold acceptReq
  simp only [h]
  split
  next hx =>
    obtain rfl := Option.some.inj (hx.symm.trans hw)
    rfl
  next hx => exact nomatch hx.symm.trans hw

end

/-! The state of a controller (R311, R312). -/

theorem srState_lt (s : State) (c : Nat) : srState s c < 4 := bitsOf_lt _ 1 2

theorem srState_setSr (s : State) (c : Nat) {v : Nat} (hv : v < 4) : srState (setSr s c v) c = v :=
  (fg_fs_self s (mcB c) F.HBM_MC_STATUS_SR_STATE v (by decide)).trans (Nat.mod_eq_of_lt hv)

theorem trained_setSr (s : State) (c v : Nat) : trained (setSr s c v) c = trained s c :=
  congrArg (· != 0) (fg_fs_field s (mcB c) F.HBM_MC_STATUS_SR_STATE v (mcB c) F.HBM_MC_STATUS_TRAINED rfl (by decide)
    (by decide))

theorem offHbm_setSr (s : State) (c v : Nat) : offHbm (setSr s c v) = offHbm s := rfl

/-- A controller whose entry into self-refresh a request stops. -/
def woken (s : State) (c : Nat) : State :=
  if srState s c = srENTERING then raise (setSr s c srACTIVE) (mcPage c) evSR_ABORT else s

theorem offHbm_woken (s : State) (c : Nat) : offHbm (woken s c) = offHbm s := by
  unfold woken
  split
  · exact (offHbm_of_notEvents (notEvents_raise ..)).trans (offHbm_setSr ..)
  · rfl

@[simp] theorem hbm_woken (s : State) (c : Nat) : (woken s c).hbm = s.hbm := by
  unfold woken
  split
  · simp
  · rfl

@[simp] theorem getM_woken (s : State) (c d : Nat) : getM (woken s c) d = getM s d := getM_of_hbm (hbm_woken ..) d

theorem cmdNow_woken (s : State) (c : Nat) : cmdNow (woken s c) = cmdNow s :=
  cmdNow_of_tm (tm_of_offHbm (offHbm_woken ..))

theorem srState_woken {s : State} {c : Nat} (h : srState s c ≤ 1) : srState (woken s c) c = srACTIVE := by
  unfold woken
  split
  · rw [(memNoted_raise _ _ (by decide)).srState, srState_setSr _ _ (by decide)]
  next hne => exact Nat.lt_one_iff.mp (Nat.lt_of_le_of_ne h hne)

/-! HBM_REQUEST: what a request of a whole granule at most comes to. -/

/-- How many bytes a request names. -/
def reqLen : Option (List Byte) → Nat
  | some bs => bs.length
  | none => 1

/-- A request held at its port. -/
def heldAt (s : State) (c : Nat) (r : HReq) : State := modM s c (fun m => { m with held := m.held ++ [r] })

section
variable {s : State} {port : Fin 21} {a : Nat} {w : Option (List Byte)} (hm : s.fuse.hbm = true) (hn : reqLen w ≠ 0)
  (hle : a % 64 + reqLen w ≤ 64)
include hm hn hle

theorem hbmRequestOp_closed (hp : portMay port a w.isSome = false) : hbmRequestOp s port a w =
    answered (raise s (mcPage (ctlOf a)) evREGION_VIOLATION) (ctlOf a) port a true :=
  (if_neg (show ¬ (¬ s.fuse.hbm ∨ reqLen w = 0 ∨ 64 < a % 64 + reqLen w) by simp [hm, hn]; omega)).trans
    (if_pos (by simp [hp]))

theorem hbmRequestOp_accepted (hp : portMay port a w.isSome = true) (ht : trained s (ctlOf a) = true)
    (hs : srState s (ctlOf a) ≤ 1) :
    hbmRequestOp s port a w = acceptReq (woken s (ctlOf a)) (ctlOf a) (mcReq s port a w) := by
  refine (if_neg (show ¬ (¬ s.fuse.hbm ∨ reqLen w = 0 ∨ 64 < a % 64 + reqLen w) by simp [hm, hn]; omega)).trans
    ((if_neg (by simp [hp])).trans ((if_neg (by simp [ht])).trans ?_))
  unfold woken
  split
  next h0 => exact (congrArg (acceptReq · _ _) (if_neg (by rw [h0]; decide))).symm
  next h1 => exact (congrArg (acceptReq · _ _) (if_pos h1)).symm
  next h2 => exact absurd hs (by rw [h2]; decide)
  next h0 h1 _ => exact ((Nat.le_one_iff_eq_zero_or_eq_one.mp hs).elim h0 h1).elim

theorem hbmRequestOp_held (hp : portMay port a w.isSome = true)
    (h : trained s (ctlOf a) = false ∨ 2 ≤ srState s (ctlOf a)) :
    hbmRequestOp s port a w = if trained s (ctlOf a) = true ∧ srState s (ctlOf a) = srSELF then
      setSr (heldAt s (ctlOf a) (mcReq s port a w)) (ctlOf a) srEXITING else heldAt s (ctlOf a) (mcReq s port a w) := by
  refine (if_neg (show ¬ (¬ s.fuse.hbm ∨ reqLen w = 0 ∨ 64 < a % 64 + reqLen w) by simp [hm, hn]; omega)).trans
    ((if_neg (by simp [hp])).trans ?_)
  by_cases ht : trained s (ctlOf a) = true
  · have h2 : 2 ≤ srState s (ctlOf a) := h.resolve_left (by simp [ht])
    refine (if_neg (by simp [ht])).trans ?_
    split
    next h0 => omega
    next h1 => omega
    next hself => rw [if_pos ⟨ht, hself⟩]; rfl
    next _ _ hself => rw [if_neg fun h => hself h.2]; rfl
  · exact (if_pos ht).trans (if_neg fun h => ht h.1).symm

/-- A region closed to the port changes no byte and raises REGION_VIOLATION (R286, R290). -/
theorem hbmRequest_closed (hp : portMay port a w.isSome = false) : Runs (.hbmRequest port a w) s (fun t =>
    t.hbm.mem = s.hbm.mem ∧ t.hbm.poison = s.hbm.poison ∧ evStatus t (mcPage (ctlOf a)) evREGION_VIOLATION = true ∧
    (getM t (ctlOf a)).ret = some (port.val, a, [], true) ∧ (getM t (ctlOf a)).reads = (getM s (ctlOf a)).reads) := by
  have hraise := memNoted_raise s (mcPage (ctlOf a)) (b := evREGION_VIOLATION) (by decide)
  have hanswer := memNoted_modM (raise s (mcPage (ctlOf a)) evREGION_VIOLATION) (ctlOf a) (fun m =>
    { m with ret := some (port.val, a, [], true) })
  refine runs_offHbm (exec_hbmRequest port a w s) ?_ ?_ <;> rw [hbmRequestOp_closed hm hn hle hp]
  · exact (hraise.trans hanswer).rest
  · refine ⟨by simp [answered], by simp [answered], ?_, by simp [answered], by simp [answered]⟩
    exact hanswer.status _ _ (evStatus_raise _ _ _ (mcPage_present hm (ctlOf_lt a)) (by decide) (mcPage_ne_fault _))

/-- A read that its port may make is queued with the granule that it names (R288). -/
theorem hbmRequest_read (hp : portMay port a w.isSome = true) (ht : trained s (ctlOf a) = true)
    (hs : srState s (ctlOf a) ≤ 1) (hw : w = none) : Runs (.hbmRequest port a w) s (fun t =>
    t.hbm.mem = s.hbm.mem ∧ srState t (ctlOf a) = srACTIVE ∧
    (getM t (ctlOf a)).reads = (getM s (ctlOf a)).reads ++ [{ mcReq s port a w with addr := a / 64 * 64 }] ∧
    ∀ d, d ≠ ctlOf a → getM t d = getM s d) := by
  have hop := (hbmRequestOp_accepted hm hn hle hp ht hs).trans (acceptReq_read hw)
  have hnoted (g : McSt → McSt) := (memNoted_modM (woken s (ctlOf a)) (ctlOf a)
    (fun m => { m with lastReq := cmdNow (woken s (ctlOf a)) })).trans (memNoted_modM _ (ctlOf a) g)
  refine runs_offHbm (exec_hbmRequest port a w s) ?_ ?_ <;> rw [hop]
  · exact ((hnoted _).rest).trans (offHbm_woken ..)
  · refine ⟨by simp [requestNoted], ?_, ?_, fun d hd => by simp [requestNoted, hd]⟩
    · exact ((hnoted _).srState _).trans (srState_woken hs)
    · simp [requestNoted, cmdNow_woken, mcReq]

/-- A write that fails leaves every byte (R304). -/
theorem hbmRequest_part {bs : List Byte} (hp : portMay port a w.isSome = true) (ht : trained s (ctlOf a) = true)
    (hs : srState s (ctlOf a) ≤ 1) (hw : w = some bs) (hpart : partUncorrectable s a bs.length) :
    Runs (.hbmRequest port a w) s (fun t => t.hbm.mem = s.hbm.mem ∧ evStatus t (mcPage (ctlOf a)) evECC_UE = true ∧
      (getM t (ctlOf a)).ret = some (port.val, a, [], true)) := by
  have hpart' : partUncorrectable (woken s (ctlOf a)) a bs.length := by
    unfold partUncorrectable
    rwa [hbm_woken]
  obtain ⟨x, hx⟩ := acceptReq_part (c := ctlOf a) (r := mcReq s port a w) hw hpart'
  have hop := (hbmRequestOp_accepted hm hn hle hp ht hs).trans hx
  have hcount := memNoted_writeCounted (woken s (ctlOf a)) (ctlOf a) port
  have hlog := memNoted_eccUE (writeCounted (woken s (ctlOf a)) (ctlOf a) port) (ctlOf a) (a / 64 * 64) (x % 4) port 0
  have hanswer (u : State) : MemNoted u (answered u (ctlOf a) port a true) := memNoted_modM ..
  refine runs_offHbm (exec_hbmRequest port a w s) ?_ ?_ <;> rw [hop]
  · exact ((hcount.trans hlog).trans (hanswer _)).rest.trans (offHbm_woken ..)
  · refine ⟨?_, ?_, ?_⟩
    · simp [answered, mem_writeCounted]
    · refine (hanswer _).status _ _ (evStatus_eccUE ?_ (ctlOf_lt a) ..)
      exact (hcount.fuse.trans (fuse_of_offHbm (offHbm_woken ..))) ▸ hm
    · simp [answered, mcReq]

/-- A write puts its bytes, and what it covers whole is correctable (R288, R303). -/
theorem hbmRequest_write {bs : List Byte} (hp : portMay port a w.isSome = true) (ht : trained s (ctlOf a) = true)
    (hs : srState s (ctlOf a) ≤ 1) (hw : w = some bs)
    (hwhole : ∀ x ∈ touched a bs.length, s.hbm.poison.contains x = true → whole a bs.length x = true) :
    Runs (.hbmRequest port a w) s (fun t => srState t (ctlOf a) = srACTIVE ∧
      (∀ k, k < bs.length → mget t (a + k) = bs.getD k 0) ∧ (∀ x, x < a ∨ a + bs.length ≤ x → mget t x = mget s x) ∧
      (∀ x ∈ touched a bs.length, t.hbm.poison.contains x = false) ∧
      (getM t (ctlOf a)).ret = some (port.val, a, [], false) ∧ (getM t (ctlOf a)).reads = (getM s (ctlOf a)).reads ∧
      ∀ d, d ≠ ctlOf a → getM t d = getM s d) := by
  have hpart : ¬ partUncorrectable (woken s (ctlOf a)) a bs.length := by
    unfold partUncorrectable
    rw [hbm_woken]
    rintro ⟨x, hx, hbad, hnot⟩
    exact absurd (hwhole x hx hbad) (by simp [hnot])
  have hop := (hbmRequestOp_accepted hm hn hle hp ht hs).trans
    (acceptReq_write (c := ctlOf a) (r := mcReq s port a w) hw hpart)
  have hnoted (g : McSt → McSt) := ((memNoted_writeCounted (woken s (ctlOf a)) (ctlOf a) port).trans
    (memNoted_mwr _ a bs)).trans (memNoted_modM _ (ctlOf a) g)
  have hmem : ∀ x, mget (writeCounted (woken s (ctlOf a)) (ctlOf a) port) x = mget s x := fun x => by
    unfold mget
    rw [mem_writeCounted, hbm_woken]
  refine runs_offHbm (exec_hbmRequest port a w s) ?_ ?_ <;> rw [hop]
  · exact ((hnoted _).rest).trans (offHbm_woken ..)
  · refine ⟨((hnoted _).srState _).trans (srState_woken hs), fun k hk => mget_mwr_in _ a bs k hk,
      fun x hx => (mget_mwr_out _ a bs x hx).trans (hmem x), fun x hx => ?_, by simp [mcReq], ?_, fun d hd => ?_⟩
    · have hleft : (mwr (writeCounted (woken s (ctlOf a)) (ctlOf a) port) a bs).hbm.poison =
          s.hbm.poison.filter (fun x => !whole a bs.length x) := by
        rw [← hbm_woken s (ctlOf a), ← poison_writeCounted (woken s (ctlOf a)) (ctlOf a) port]
        rfl
      rw [poison_modM]
      refine (congrArg (·.contains x) hleft).trans (Bool.eq_false_iff.mpr fun hin => ?_)
      obtain ⟨hbad, hnot⟩ := List.mem_filter.mp (List.contains_iff_mem.mp hin)
      simp [hwhole x hx (List.contains_iff_mem.mpr hbad)] at hnot
    · rw [getM_modM, getM_mwr]
      exact (reads_writeCounted ..).trans (by rw [getM_woken])
    · rw [getM_modM_ne _ _ hd, getM_mwr]
      exact (getM_writeCounted_ne _ _ hd).trans (getM_woken ..)

/-- At a controller that is untrained or in self-refresh a request is held, and wakes it (R310, R312). -/
theorem hbmRequest_held (hp : portMay port a w.isSome = true)
    (h : trained s (ctlOf a) = false ∨ 2 ≤ srState s (ctlOf a)) : Runs (.hbmRequest port a w) s (fun t =>
    t.hbm.mem = s.hbm.mem ∧
    getM t (ctlOf a) = { getM s (ctlOf a) with held := (getM s (ctlOf a)).held ++ [mcReq s port a w] } ∧
    (∀ d, d ≠ ctlOf a → getM t d = getM s d) ∧
    (trained s (ctlOf a) = true → srState t (ctlOf a) = srEXITING)) := by
  have hop := hbmRequestOp_held hm hn hle hp h
  by_cases hself : trained s (ctlOf a) = true ∧ srState s (ctlOf a) = srSELF
  · rw [if_pos hself] at hop
    refine runs_offHbm (exec_hbmRequest port a w s) (by rw [hop]; rfl) ?_
    rw [hop]
    exact ⟨by simp [heldAt], by simp [heldAt], fun d hd => by simp [heldAt, hd],
      fun _ => srState_setSr _ _ (by decide)⟩
  · rw [if_neg hself] at hop
    refine runs_offHbm (exec_hbmRequest port a w s) (by rw [hop]; rfl) ?_
    rw [hop]
    refine ⟨by simp [heldAt], by simp [heldAt], fun d hd => by simp [heldAt, hd], fun ht => ?_⟩
    have hlt := srState_lt s (ctlOf a)
    have hne : srState s (ctlOf a) ≠ srSELF := fun hs => hself ⟨ht, hs⟩
    have hge := h.resolve_left (by simp [ht])
    have hexit : srState s (ctlOf a) = 3 := by
      simp only [srSELF] at hne
      omega
    exact ((memNoted_modM ..).srState _).trans hexit

end

/-! HBM_READ_COMPLETE (R303). -/

/-- The next read, taken off the queue and counted. -/
def readTaken (s : State) (c : Nat) (r : HReq) : State :=
  let u := bump (useGranule (modM s c (fun m => { m with reads := m.reads.erase r })) c r.port) (mcB c + R.HBM_READS)
  let u := perf u (mcPage c) 0x40 1
  if rowHit (getM s c) r.addr then perf u (mcPage c) 0x41 1 else u

/-- The read's data, returned to its port. -/
def readReturned (s : State) (c : Nat) (r : HReq) : State :=
  modM (afterAccess s c r) c (fun m => { m with
    ret := some (r.port, r.addr, mrd (afterAccess s c r) r.addr 64, poisoned (afterAccess s c r) r.addr 64) })

theorem readCompleteOp_eq {s : State} {c : Nat} {r : HReq} (errs : List (Nat × Nat)) (h : nextRead s c = some r) :
    readCompleteOp s c errs = readReturned (checkGranule (readTaken s c r) c r.addr r.port errs) c r := by
  unfold readCompleteOp
  rw [h]
  rfl

theorem afterAccess_eq (s : State) (c : Nat) (r : HReq) :
    ∃ rows hits, afterAccess s c r = modM s c (fun m => { m with rows := rows, rowHit := hits }) := ⟨_, _, rfl⟩

theorem mem_readReturned (s : State) (c : Nat) (r : HReq) : (readReturned s c r).hbm.mem = s.hbm.mem := rfl
theorem poison_readReturned (s : State) (c : Nat) (r : HReq) : (readReturned s c r).hbm.poison = s.hbm.poison := rfl

theorem memNoted_readReturned (s : State) (c : Nat) (r : HReq) : MemNoted s (readReturned s c r) := .of_regs rfl rfl

theorem memNoted_readTaken (s : State) (c : Nat) (r : HReq) : MemNoted s (readTaken s c r) := by
  have hcount := ((memNoted_modM s c (fun m => { m with reads := m.reads.erase r })).trans
    (memNoted_useGranule _ c r.port)).trans (memNoted_bump _ c (o := R.HBM_READS) (by decide) (by decide))
  unfold readTaken
  dsimp only
  split
  · exact (hcount.trans (memNoted_perf ..)).trans (memNoted_perf ..)
  · exact hcount.trans (memNoted_perf ..)

theorem hbm_readTaken (s : State) (c : Nat) (r : HReq) : (readTaken s c r).hbm =
    (useGranule (modM s c (fun m => { m with reads := m.reads.erase r })) c r.port).hbm := by
  unfold readTaken
  dsimp only
  split <;> simp

theorem mem_readTaken (s : State) (c : Nat) (r : HReq) : (readTaken s c r).hbm.mem = s.hbm.mem := by
  rw [hbm_readTaken]
  rfl

theorem poison_readTaken (s : State) (c : Nat) (r : HReq) : (readTaken s c r).hbm.poison = s.hbm.poison := by
  rw [hbm_readTaken]
  rfl

theorem reads_readTaken (s : State) (c : Nat) (r : HReq) :
    (getM (readTaken s c r) c).reads = (getM s c).reads.erase r := by
  rw [getM_of_hbm (hbm_readTaken ..)]
  simp [useGranule]

theorem reads_readReturned (s : State) (c : Nat) (r : HReq) :
    (getM (readReturned s c r) c).reads = (getM s c).reads := by
  obtain ⟨rows, hits, h⟩ := afterAccess_eq s c r
  simp [readReturned, h]

/-- What returns is what memory holds, marked where a codeword is uncorrectable. -/
theorem ret_readReturned (s : State) (c : Nat) (r : HReq) : (getM (readReturned s c r) c).ret =
    some (r.port, r.addr, mrd s r.addr 64, poisoned s r.addr 64) := by
  unfold readReturned
  rw [getM_modM]
  rfl

section
variable {s : State} {c : Fin 16} {errs : List (Nat × Nat)} {r : HReq} (hnext : nextRead s c = some r)
include hnext

theorem hbmReadComplete_corrected (h1 : ∀ k, k < 4 → (errs.getD k (0, 0)).1 ≤ 1) (hp : poisoned s r.addr 64 = false) :
    Runs (.hbmReadComplete c errs) s (fun t => t.hbm.mem = s.hbm.mem ∧ t.hbm.poison = s.hbm.poison ∧
      (getM t c).reads = (getM s c).reads.erase r ∧
      (getM t c).ret = some (r.port, r.addr, mrd s r.addr 64, false)) := by
  have hcheck := checked_checkGranule (readTaken s c r) c r.addr r.port fun k hk => Nat.le_succ_of_le (h1 k hk)
  have hpoison := (poison_checkGranule c r.port h1 ((poisoned_congr (poison_readTaken s c r) ..).trans hp)).trans
    (poison_readTaken ..)
  have hmem := hcheck.mem.trans (mem_readTaken ..)
  refine runs_offHbm (exec_hbmReadComplete c errs s) ?_ ?_ <;> rw [readCompleteOp_eq errs hnext]
  · exact (((memNoted_readTaken ..).trans hcheck.toMemNoted).trans (memNoted_readReturned ..)).rest
  · refine ⟨(mem_readReturned ..).trans hmem, (poison_readReturned ..).trans hpoison, ?_, ?_⟩
    · rw [reads_readReturned, hcheck.reads, reads_readTaken]
    · rw [ret_readReturned, mrd_congr hmem, poisoned_congr hpoison, hp]

theorem hbmReadComplete_uncorrectable (hm : s.fuse.hbm = true) (h2 : ∀ k, k < 4 → (errs.getD k (0, 0)).1 ≤ 2)
    (htwo : ∃ k, k < 4 ∧ (errs.getD k (0, 0)).1 = 2) :
    Runs (.hbmReadComplete c errs) s (fun t => t.hbm.mem = s.hbm.mem ∧ evStatus t (mcPage c) evECC_UE = true ∧
      (getM t c).ret = some (r.port, r.addr, mrd s r.addr 64, true)) := by
  obtain ⟨k, hk, hk2⟩ := htwo
  have hcheck := checked_checkGranule (readTaken s c r) c r.addr r.port h2
  obtain ⟨hpoison, hevent⟩ :=
    checkGranule_two (s := readTaken s c r) (by rwa [(memNoted_readTaken s c r).fuse]) c.isLt r.addr r.port h2 hk hk2
  have hmem := hcheck.mem.trans (mem_readTaken ..)
  refine runs_offHbm (exec_hbmReadComplete c errs s) ?_ ?_ <;> rw [readCompleteOp_eq errs hnext]
  · exact (((memNoted_readTaken ..).trans hcheck.toMemNoted).trans (memNoted_readReturned ..)).rest
  · refine ⟨(mem_readReturned ..).trans hmem, (memNoted_readReturned ..).status _ _ hevent, ?_⟩
    rw [ret_readReturned, mrd_congr hmem, hpoison]

end

/-! Background work (R291, R293, R301, R303). -/

theorem lateOp_eq {s : State} {c : Nat} {r : HReq}
    (h : (getM s c).reads.find? (fun r => !r.late && urgency s c r == 3) = some r) : lateOp s c =
    raise (bump (setM s c { getM s c with
      reads := (getM s c).reads.map (fun x => if x = r then { x with late := true } else x) })
      (mcB c + R.HBM_LATE + 8 * r.port)) (mcPage c) evLATE_REQ := by
  unfold lateOp
  dsimp only
  rw [h]

theorem requestLate_counts {s : State} (hm : s.fuse.hbm = true) {c : Fin 16} {r : HReq}
    (h : (getM s c).reads.find? (fun r => !r.late && urgency s c r == 3) = some r) (hr : r.port < 22) :
    Runs (.requestLate c) s (fun t => t.hbm.mem = s.hbm.mem ∧ evStatus t (mcPage c) evLATE_REQ = true ∧
      (getM t c).reads = (getM s c).reads.map (fun x => if x = r then { x with late := true } else x) ∧
      (frozen s (mcPage c) = false → rd64 t (mcB c + R.HBM_LATE + 8 * r.port) =
        (rd64 s (mcB c + R.HBM_LATE + 8 * r.port) + 1) % 2 ^ 64)) := by
  have haddr : mcB c + R.HBM_LATE + 8 * r.port = mcB c + (R.HBM_LATE + 8 * r.port) := Nat.add_assoc ..
  have hlo : plainWord (mcB c + (R.HBM_LATE + 8 * r.port)) :=
    plainWord_page (mcPage_ne_fault c) (by simp only [R.HBM_LATE]; omega) (by simp only [R.HBM_LATE]; omega)
  have hhi : plainWord (mcB c + (R.HBM_LATE + 8 * r.port) + 4) := by
    rw [Nat.add_assoc]
    exact plainWord_page (mcPage_ne_fault c) (by simp only [R.HBM_LATE]; omega) (by simp only [R.HBM_LATE]; omega)
  have hcount (u : State) : MemNoted u (bump u (mcB c + (R.HBM_LATE + 8 * r.port))) :=
    memNoted_bump u c (by simp only [R.HBM_LATE]; omega) (by simp only [R.HBM_LATE]; omega)
  rw [haddr]
  refine runs_offHbm (exec_requestLate c s) ?_ ?_ <;> rw [lateOp_eq h, haddr]
  · exact (((memNoted_setM ..).trans (hcount _)).trans (memNoted_raise _ _ (by decide))).rest
  · have hpresent : pagePresent (bump (setM s c { getM s c with
        reads := (getM s c).reads.map (fun x => if x = r then { x with late := true } else x) })
        (mcB c + (R.HBM_LATE + 8 * r.port))) (mcPage c) = true := by
      refine mcPage_present ?_ c.isLt
      rwa [((memNoted_setM ..).trans (hcount _)).fuse]
    refine ⟨?_, evStatus_raise _ _ _ hpresent (by decide) (mcPage_ne_fault c), ?_, fun hf => ?_⟩
    · simp
    · simp
    · have hpage : (mcB c + (R.HBM_LATE + 8 * r.port)) / 0x1000 = mcPage c :=
        pb_add_div _ (by simp only [R.HBM_LATE]; omega)
      refine (rd64_of_words (rawRd_raise _ _ _ _ hlo) (rawRd_raise _ _ _ _ hhi)).trans ?_
      refine (rd64_bump _ _ ?_ hlo hhi).trans rfl
      rw [hpage]
      exact hf

theorem limitWindowEnd_restarts (s : State) (c : Fin 16) : Runs (.limitWindowEnd c) s (fun t =>
    getM t c = { getM s c with used := [] } ∧ t.regs = s.regs ∧ t.hbm.mem = s.hbm.mem ∧
    ∀ d, d ≠ c.val → getM t d = getM s d) :=
  runs_offHbm (exec_limitWindowEnd c s) rfl ⟨getM_modM .., rfl, rfl, fun _ hd => getM_modM_ne _ _ hd⟩

theorem correctiveWrite_drops (s : State) (c : Fin 16) : Runs (.correctiveWrite c) s (fun t =>
    getM t c = { getM s c with corr := (getM s c).corr.drop 1 } ∧ t.regs = s.regs ∧ t.hbm.mem = s.hbm.mem ∧
    ∀ d, d ≠ c.val → getM t d = getM s d) :=
  runs_offHbm (exec_correctiveWrite c s) rfl ⟨getM_modM .., rfl, rfl, fun _ hd => getM_modM_ne _ _ hd⟩

/-- The granule after the scrubbed one, the first after the last. -/
def nextGranule (g : Nat) : Nat := if 33554432 ≤ g + 1 then 0 else g + 1

/-- The scrub of a controller, once its granule is checked. -/
def scrubMoved (s : State) (c g : Nat) : State :=
  let u := modM s c (fun m => { m with scrub := nextGranule g })
  if 33554432 ≤ g + 1 then bump u (mcB c + R.HBM_SCRUB_PASSES) else u

theorem scrubOp_eq {s : State} {c : Nat} (errs : List (Nat × Nat)) (hm : s.fuse.hbm = true) (ht : trained s c = true)
    (hs : srState s c = srACTIVE) (he : fgb s (mcB c) F.HBM_MC_CTRL_SCRUB_EN = true) : scrubOp s c errs =
    scrubMoved (checkGranule s c (addrOf c (64 * (getM s c).scrub)) 21 errs) c (getM s c).scrub := by
  refine (if_neg (by simp [hm, ht, hs, he])).trans ?_
  unfold scrubMoved nextGranule
  simp only [decide_eq_true_eq]

theorem memNoted_scrubMoved (s : State) (c g : Nat) : MemNoted s (scrubMoved s c g) := by
  unfold scrubMoved
  dsimp only
  split
  · exact (memNoted_modM ..).trans (memNoted_bump _ c (by decide) (by decide))
  · exact memNoted_modM ..

theorem hbm_scrubMoved (s : State) (c g : Nat) :
    (scrubMoved s c g).hbm = (modM s c (fun m => { m with scrub := nextGranule g })).hbm := by
  unfold scrubMoved
  dsimp only
  split
  · simp
  · rfl

theorem hbmScrubRead_advances {s : State} {c : Fin 16} {errs : List (Nat × Nat)} (hm : s.fuse.hbm = true)
    (ht : trained s c = true) (hs : srState s c = srACTIVE) (he : fgb s (mcB c) F.HBM_MC_CTRL_SCRUB_EN = true)
    (h2 : ∀ k, k < 4 → (errs.getD k (0, 0)).1 ≤ 2) : Runs (.hbmScrubRead c errs) s (fun t => t.hbm.mem = s.hbm.mem ∧
      (getM t c).scrub = nextGranule (getM s c).scrub ∧ (getM t c).reads = (getM s c).reads ∧
      ∀ d, d ≠ c.val → getM t d = getM s d) := by
  have hcheck := checked_checkGranule s c (addrOf c (64 * (getM s c).scrub)) 21 h2
  refine runs_offHbm (exec_hbmScrubRead c errs s) ?_ ?_ <;> rw [scrubOp_eq errs hm ht hs he]
  · exact (hcheck.toMemNoted.trans (memNoted_scrubMoved ..)).rest
  · refine ⟨?_, ?_, ?_, fun d hd => ?_⟩
    · rw [hbm_scrubMoved, mem_modM, hcheck.mem]
    · rw [getM_of_hbm (hbm_scrubMoved ..), getM_modM]
    · rw [getM_of_hbm (hbm_scrubMoved ..), getM_modM]
      exact hcheck.reads
    · rw [getM_of_hbm (hbm_scrubMoved ..), getM_modM_ne _ _ hd, hcheck.other d hd]

/-- Settles O47: a request by what its port may do and how its controller stands, a read by the check of its granule,
and the background work command by command. -/
theorem flowMemoryServesRequests : Obligations.FlowMemoryServesRequests := by
  intro s hm
  refine ⟨fun port a w => ?_, fun c errs r hnext _ => ⟨fun h1 hp => ?_, fun h2 htwo => ?_⟩,
    fun c r h hr => requestLate_counts hm h hr, fun c => ⟨limitWindowEnd_restarts s c, correctiveWrite_drops s c,
      fun errs ht hs he h2 => hbmScrubRead_advances hm ht hs he h2⟩⟩
  · intro c n r hn hle
    have hlen : n = reqLen w := rfl
    rw [hlen] at hn hle
    refine ⟨hbmRequest_closed hm hn hle, fun hp => ⟨fun ht hs => ⟨fun bs hw hwhole => ?_, fun bs hw hpart => ?_,
      fun hw => hbmRequest_read hm hn hle hp ht hs hw⟩, hbmRequest_held hm hn hle hp⟩⟩
    · subst hw
      exact hbmRequest_write hm hn hle hp ht hs rfl hwhole
    · subst hw
      exact hbmRequest_part hm hn hle hp ht hs rfl hpart
  · exact hbmReadComplete_corrected hnext h1 hp
  · exact hbmReadComplete_uncorrectable hnext hm h2 htwo

end Sys2Proof.Machine
end

section
/-! Refresh, rows, lanes and training (R297, R299, R306-R309): what each leaves of its controller. -/

namespace Sys2Proof.Machine

open Sys2Proof

/-! What upkeep leaves alone. -/

/-- From `s` to `t` no byte of flow memory changed, and no controller but `c`. -/
def OnlyCtl (c : Nat) (s t : State) : Prop := t.hbm.mem = s.hbm.mem ∧ ∀ d, d ≠ c → getM t d = getM s d

section
variable {c : Nat} {s t u : State}

theorem OnlyCtl.trans (h : OnlyCtl c s t) (h' : OnlyCtl c t u) : OnlyCtl c s u :=
  have ⟨hmem, hother⟩ := h
  have ⟨hmem', hother'⟩ := h'
  ⟨hmem'.trans hmem, fun d hd => (hother' d hd).trans (hother d hd)⟩

theorem onlyCtl_of_hbm (c : Nat) (h : t.hbm = s.hbm) : OnlyCtl c s t := ⟨by rw [h], fun d _ => getM_of_hbm h d⟩

theorem onlyCtl_setM (s : State) (c : Nat) (m : McSt) : OnlyCtl c s (setM s c m) :=
  ⟨rfl, fun _ hd => getM_setM_ne _ _ hd⟩
theorem onlyCtl_modM (s : State) (c : Nat) (g : McSt → McSt) : OnlyCtl c s (modM s c g) := onlyCtl_setM ..

end

@[simp] theorem fg_modM (s : State) (c : Nat) (g : McSt → McSt) (b : Nat) (f : FRef) :
    fg (modM s c g) b f = fg s b f := rfl

/-! Refresh and rows (R297, R299). -/

/-- Closing one row leaves the others. -/
theorem rowOpen_closed {m m' : McSt} {k : Nat} (h : m'.rows = tset (fun _ => 0) m.rows k 0) :
    rowOpen m' k = none ∧ ∀ j, j ≠ k → rowOpen m' j = rowOpen m j := by
  unfold rowOpen
  rw [h]
  refine ⟨by simp, fun j hj => by rw [tget_tset_ne _ _ _ _ _ hj]⟩

/-- A controller with bank `k` refreshed. -/
def bankRefreshed (m : McSt) (k : Nat) : McSt :=
  { m with postponed := tset (fun _ => 0) m.postponed k 0, rows := tset (fun _ => 0) m.rows k 0 }

theorem refreshOp_eq {s : State} {c pc bank : Nat} (hm : s.fuse.hbm = true) (ht : trained s c = true)
    (hs : srState s c ≠ srSELF)
    (hu : ∀ r ∈ (getM s c).reads, bankKey r.addr = pc * 64 + bank → urgency s c r ≠ 3) :
    refreshOp s c pc bank = setM (perf s (mcPage c) 0x40 1) c (bankRefreshed (getM s c) (pc * 64 + bank)) := by
  have hnone : (getM s c).reads.any (fun r => bankKey r.addr == pc * 64 + bank && urgency s c r == 3) = false := by
    rw [List.any_eq_false]
    intro r hr hboth
    simp only [Bool.and_eq_true, beq_iff_eq] at hboth
    exact hu r hr hboth.1 hboth.2
  unfold refreshOp
  rw [if_neg (by simp [hm, ht, hs])]
  simp [hnone, bankRefreshed]

theorem hbmRefresh_closes {s : State} {c : Fin 16} {pc : Fin 4} {bank : Fin 64} (hm : s.fuse.hbm = true)
    (ht : trained s c = true) (hs : srState s c ≠ srSELF)
    (hu : ∀ r ∈ (getM s c).reads, bankKey r.addr = pc.val * 64 + bank → urgency s c r ≠ 3) :
    Runs (.hbmRefresh c pc bank) s (fun t => OnlyCtl c s t ∧ rowOpen (getM t c) (pc * 64 + bank) = none ∧
      (∀ k, k ≠ pc.val * 64 + bank → rowOpen (getM t c) k = rowOpen (getM s c) k) ∧
      (getM t c).reads = (getM s c).reads) := by
  obtain ⟨hclosed, hother⟩ := rowOpen_closed (m := getM s c) (m' := bankRefreshed (getM s c) (pc.val * 64 + bank)) rfl
  refine runs_offHbm (exec_hbmRefresh c pc bank s) ?_ ?_ <;> rw [refreshOp_eq hm ht hs hu]
  · exact ((memNoted_perf ..).trans (memNoted_setM ..)).rest
  · exact ⟨(onlyCtl_of_hbm _ (hbm_perf ..)).trans (onlyCtl_setM ..), by rw [getM_setM]; exact hclosed,
      fun k hk => by rw [getM_setM]; exact hother k hk, by rw [getM_setM]; rfl⟩

theorem rowIdleClose_closes {s : State} {c : Fin 16} {pc : Fin 4} {bank : Nat}
    (ho : (rowOpen (getM s c) (pc * 64 + bank)).isSome = true)
    (hi : tget (fun _ => 0) (getM s c).rowHit (pc * 64 + bank) + fg s (mcB c) F.HBM_PAGE_CFG_OPEN_IDLE ≤ cmdNow s) :
    Runs (.rowIdleClose c pc bank) s (fun t => OnlyCtl c s t ∧ t.regs = s.regs ∧
      rowOpen (getM t c) (pc * 64 + bank) = none) := by
  have hop : rowIdleOp s c pc bank =
      setM s c { getM s c with rows := tset (fun _ => 0) (getM s c).rows (pc * 64 + bank) 0 } := if_pos ⟨ho, hi⟩
  refine runs_offHbm (exec_rowIdleClose c pc bank s) ?_ ?_ <;> rw [hop]
  · rfl
  · exact ⟨onlyCtl_setM .., rfl, by rw [getM_setM]; exact (rowOpen_closed rfl).1⟩

/-! The temperature (R299). -/

theorem hotOp_shows {s : State} (hm : s.fuse.hbm = true) {c : Nat} (on : Bool) (temp : BitVec 8) :
    (hotOp s c on temp.toNat).hbm = s.hbm ∧ offHbm (hotOp s c on temp.toNat) = offHbm s ∧
    fg (hotOp s c on temp.toNat) (mcB c) F.HBM_MC_STATUS_HOT = (if on then 1 else 0) ∧
    fg (hotOp s c on temp.toNat) (mcB c) F.HBM_MC_STATUS_TEMP = temp.toNat ∧
    srState (hotOp s c on temp.toNat) c = srState s c := by
  have hop : hotOp s c on temp.toNat = setLevel (fs (fs s (mcB c) F.HBM_MC_STATUS_HOT (if on then 1 else 0)) (mcB c)
      F.HBM_MC_STATUS_TEMP temp.toNat) (mcPage c) evHOT on := if_neg (not_not_intro hm)
  have hshown (u : State) {f : FRef} (hf : f.off = R.HBM_MC_STATUS) :
      fg (setLevel u (mcPage c) evHOT on) (mcB c) f = fg u (mcB c) f :=
    fg_setLevel _ _ _ _ _ _ (hf ▸ plainWord_mcStatus c)
  have htemp (u : State) {f : FRef} (hf : f.off = R.HBM_MC_STATUS) (hd : f.lo + f.width ≤ 8) :
      fg (fs u (mcB c) F.HBM_MC_STATUS_TEMP temp.toNat) (mcB c) f = fg u (mcB c) f :=
    fg_fs_field _ _ _ _ _ _ (congrArg (mcB c + ·) hf) (by decide) (.inl hd)
  rw [hop]
  refine ⟨by simp, ?_, ?_, ?_, ?_⟩
  · exact (offHbm_of_notEvents (notEvents_setLevel ..)).trans rfl
  · rw [hshown _ rfl, htemp _ rfl (by decide), fg_fs_self _ _ _ _ (by decide)]
    cases on <;> rfl
  · rw [hshown _ rfl, fg_fs_self _ _ _ _ (by decide)]
    exact Nat.mod_eq_of_lt temp.isLt
  · unfold srState
    rw [hshown _ rfl, htemp _ rfl (by decide)]
    exact fg_fs_field _ _ _ _ _ _ rfl (by decide) (.inl (by decide))

/-! MARGIN_LOW (R308, R574). -/

/-- RETRAIN_DUE with the bit of a controller set. -/
def dueMarked (s : State) (c : Nat) : State :=
  fs s (pb 0x004) F.AGE_RETRAIN_DUE_DUE (fg s (pb 0x004) F.AGE_RETRAIN_DUE_DUE ||| 2 ^ c)

theorem marginLow_eq (s : State) (c : Nat) :
    marginLow s c = raise (dueMarked (raise s (mcPage c) evMARGIN_LOW) c) 0x004 3 := rfl

/-- A field of page 0x004 written. -/
theorem memNoted_fs_age (s : State) (x : Nat) : MemNoted s (fs s (pb 0x004) F.AGE_RETRAIN_DUE_DUE x) :=
  ⟨offHbm_of_notEvents (notEvents_fs ..), fun q b h => (evStatus_fs s 0x004 (by decide) (by decide) x q b).trans h,
    fun d => rawRd_fs_ne _ _ _ _ _ (by simp only [mcB, pb, R.HBM_MC_STATUS]; omega)⟩

theorem memNoted_marginLow (s : State) (c : Nat) : MemNoted s (marginLow s c) :=
  ((memNoted_raise s (mcPage c) (by decide)).trans (memNoted_fs_age _ _)).trans (memNoted_raise _ _ (by decide))

@[simp] theorem hbm_marginLow (s : State) (c : Nat) : (marginLow s c).hbm = s.hbm := by
  rw [marginLow_eq]
  simp [dueMarked]

@[simp] theorem getM_marginLow (s : State) (c d : Nat) : getM (marginLow s c) d = getM s d :=
  getM_of_hbm (hbm_marginLow ..) d

theorem evStatus_marginLow {s : State} (hm : s.fuse.hbm = true) {c : Nat} (hc : c < 16) :
    evStatus (marginLow s c) (mcPage c) evMARGIN_LOW = true :=
  ((memNoted_fs_age _ _).trans (memNoted_raise _ _ (by decide))).status _ _
    (evStatus_raise _ _ _ (mcPage_present hm hc) (by decide) (mcPage_ne_fault c))

theorem retrainDue_marginLow (s : State) {c : Nat} (hc : c < 16) : retrainDue (marginLow s c) c = true := by
  unfold retrainDue
  rw [marginLow_eq, fg_raise _ _ _ _ _ (plainWord_page (by decide) (by decide) (by decide))]
  unfold dueMarked
  rw [fg_fs_self _ _ _ _ (by decide), Nat.testBit_mod_two_pow]
  simp [hc]

/-- A word of a controller's page beyond the common registers. -/
theorem rawRd_marginLow (s : State) (c d : Nat) {o : Nat} (hlo : 0x40 ≤ o) (ho : o < 0x1000) :
    rawRd (marginLow s c) (mcB d + o) = rawRd s (mcB d + o) := by
  have hplain : plainWord (mcB d + o) := plainWord_page (mcPage_ne_fault d) hlo ho
  rw [marginLow_eq, rawRd_raise _ _ _ _ hplain]
  unfold dueMarked
  rw [rawRd_fs_ne _ _ _ _ _ (by simp only [mcB, pb]; omega), rawRd_raise _ _ _ _ hplain]

/-! RECENTRE_PROBE (R308). -/

theorem sext_trunc_byte {d : Int} (h : -128 ≤ d ∧ d ≤ 127) : sext 8 (trunc 8 d % 2 ^ 8) = d := by
  unfold sext trunc
  split <;> omega

theorem drift_lane (q j : Nat) (write : Bool) : (laneRef q j (fDrift write)).off = 0x480 + 4 * (5 * q + j) ∧
    (laneRef q j (fDrift write)).width = 8 ∧
    (laneRef q j (fDrift write)).lo + (laneRef q j (fDrift write)).width ≤ 32 := by
  cases write <;> exact ⟨rfl, rfl, Nat.le_of_ble_eq_true rfl⟩

/-- A lane whose probe failed on one side: DRIFT counted, the move queued. -/
def driftCounted (s : State) (c q j : Nat) (write high : Bool) (d : Int) : State :=
  modM (fs s (mcB c) (laneRef q j (fDrift write)) (trunc 8 d)) c (fun m =>
    { m with moves := m.moves ++ [((5 * q + j) * 2 + (if write then 1 else 0), high)] })

section
variable (s : State) (c : Nat) {q j : Nat} (write high : Bool)

theorem memNoted_driftCounted (hq : q < 4) (hj : j < 5) (d : Int) : MemNoted s (driftCounted s c q j write high d) := by
  obtain ⟨hoff, -, -⟩ := drift_lane q j write
  exact (memNoted_fs _ c (by rw [hoff]; omega) (by rw [hoff]; omega) _).trans (memNoted_modM ..)

variable (q j)

theorem onlyCtl_driftCounted (d : Int) : OnlyCtl c s (driftCounted s c q j write high d) :=
  (onlyCtl_of_hbm (s := s) c (by simp)).trans (onlyCtl_modM ..)

theorem drift_driftCounted {d : Int} (hd : -128 ≤ d ∧ d ≤ 127) :
    sext 8 (fg (driftCounted s c q j write high d) (mcB c) (laneRef q j (fDrift write))) = d := by
  obtain ⟨-, hwidth, hfit⟩ := drift_lane q j write
  rw [driftCounted, fg_modM, fg_fs_self _ _ _ _ hfit, hwidth, sext_trunc_byte hd]

theorem moves_driftCounted (d : Int) : (getM (driftCounted s c q j write high d) c).moves =
    (getM s c).moves ++ [((5 * q + j) * 2 + (if write then 1 else 0), high)] := by
  simp [driftCounted]

theorem limit_driftCounted (d : Int) : fg (driftCounted s c q j write high d) (mcB c) F.HBM_TRAIN_CFG_DRIFT_LIMIT =
    fg s (mcB c) F.HBM_TRAIN_CFG_DRIFT_LIMIT := by
  obtain ⟨hoff, -, -⟩ := drift_lane q j write
  have hne : mcB c + 0x050 ≠ mcB c + (laneRef q j (fDrift write)).off := by
    rw [hoff]
    omega
  rw [driftCounted, fg_modM]
  exact fg_fs_addr _ _ _ _ _ _ hne

end

/-- The count that a probe leaves. -/
def driftNext (s : State) (c q j : Nat) (write high : Bool) : Int :=
  sext 8 (fg s (mcB c) (laneRef q j (fDrift write))) + (if high then 1 else -1)

section
variable {s : State} {c : Fin 16} {q : Fin 4} {j : Fin 5} {write low high : Bool} (hm : s.fuse.hbm = true)
  (ht : trained s c = true) (he : fgb s (mcB c) F.HBM_MC_CTRL_RECENTRE_EN = true)
  (hmode : s.md.mode = .live ∨ s.md.mode = .drain)
include hm ht he hmode

theorem probeOp_active : ¬ (¬ s.fuse.hbm ∨ ¬ trained s c ∨ ¬ fgb s (mcB c) F.HBM_MC_CTRL_RECENTRE_EN ∨
    (s.md.mode ≠ .live ∧ s.md.mode ≠ .drain)) := by
  rcases hmode with h | h <;> simp [hm, ht, he, h]

theorem probeOp_one (hne : low ≠ high)
    (hd : -128 ≤ driftNext s c q j write high ∧ driftNext s c q j write high ≤ 127) :
    probeOp s c q j write low high =
      let u := driftCounted s c q j write high (driftNext s c q j write high)
      if (fg u (mcB c) F.HBM_TRAIN_CFG_DRIFT_LIMIT : Int) < (driftNext s c q j write high).natAbs then marginLow u c
      else u := by
  refine (if_neg (probeOp_active hm ht he hmode)).trans ((if_neg ?_).trans ((if_neg ?_).trans ?_))
  · exact fun h => hne (h.1.trans h.2.symm)
  · exact fun h => hne ((Bool.eq_false_iff.mpr h.1).trans (Bool.eq_false_iff.mpr h.2).symm)
  · unfold driftNext at hd ⊢
    simp only [if_pos hd]
    rfl

theorem recentreProbe_counts (hne : low ≠ high) (hlo : -128 ≤ driftNext s c q j write high)
    (hhi : driftNext s c q j write high ≤ 127) : Runs (.recentreProbe c q j write low high) s (fun t => OnlyCtl c s t ∧
      sext 8 (fg t (mcB c) (laneRef q j (fDrift write))) = driftNext s c q j write high ∧
      (getM t c).moves = (getM s c).moves ++ [((5 * q.val + j) * 2 + (if write then 1 else 0), high)] ∧
      ((fg s (mcB c) F.HBM_TRAIN_CFG_DRIFT_LIMIT : Int) < (driftNext s c q j write high).natAbs →
        evStatus t (mcPage c) evMARGIN_LOW = true)) := by
  obtain ⟨hoff, -, -⟩ := drift_lane q j write
  have hop := probeOp_one hm ht he hmode hne ⟨hlo, hhi⟩
  generalize driftNext s c q j write high = d at hop hlo hhi ⊢
  have hnoted := memNoted_driftCounted s c write high q.isLt j.isLt d
  have honly := onlyCtl_driftCounted s c q j write high d
  have hshown := drift_driftCounted s c q j write high ⟨hlo, hhi⟩
  have hmoves := moves_driftCounted s c q j write high d
  simp only [limit_driftCounted] at hop
  generalize driftCounted s c q j write high d = u at hop hnoted honly hshown hmoves
  by_cases hl : (fg s (mcB c) F.HBM_TRAIN_CFG_DRIFT_LIMIT : Int) < d.natAbs
  · rw [if_pos hl] at hop
    refine runs_offHbm (exec_recentreProbe c q j write low high s) ?_ ?_ <;> rw [hop]
    · exact (hnoted.trans (memNoted_marginLow ..)).rest
    · refine ⟨honly.trans (onlyCtl_of_hbm _ (hbm_marginLow ..)), ?_, by rw [getM_marginLow, hmoves],
        fun _ => evStatus_marginLow (hnoted.fuse ▸ hm) c.isLt⟩
      rw [fg_of_word (rawRd_marginLow u c c (by rw [hoff]; omega) (by rw [hoff]; omega)), hshown]
  · rw [if_neg hl] at hop
    refine runs_offHbm (exec_recentreProbe c q j write low high s) ?_ ?_ <;> rw [hop]
    · exact hnoted.rest
    · exact ⟨honly, hshown, hmoves, fun h => absurd h hl⟩

theorem recentreProbe_low (hl : low = false) (hh : high = false) :
    Runs (.recentreProbe c q j write low high) s (fun t => OnlyCtl c s t ∧
      evStatus t (mcPage c) evMARGIN_LOW = true ∧ retrainDue t c = true) := by
  have hop : probeOp s c q j write low high = marginLow s c :=
    (if_neg (probeOp_active hm ht he hmode)).trans ((if_neg (by simp [hl])).trans (if_pos (by simp [hl, hh])))
  refine runs_offHbm (exec_recentreProbe c q j write low high s) ?_ ?_ <;> rw [hop]
  · exact (memNoted_marginLow ..).rest
  · exact ⟨onlyCtl_of_hbm _ (hbm_marginLow ..), evStatus_marginLow hm c.isLt, retrainDue_marginLow s c.isLt⟩

theorem recentreProbe_none (hl : low = true) (hh : high = true) :
    Runs (.recentreProbe c q j write low high) s (fun t => t = s) := by
  have hop : probeOp s c q j write low high = s :=
    (if_neg (probeOp_active hm ht he hmode)).trans (if_pos ⟨hl, hh⟩)
  refine runs_offHbm (exec_recentreProbe c q j write low high s) ?_ ?_ <;> rw [hop]

end

/-! DELAY_CHANGE_APPLY (R309). -/

theorem delay_lane (q j : Nat) (write : Bool) : (laneRef q j (fDelay write)).off = 0x400 + 4 * (5 * q + j) ∧
    (laneRef q j (fDelay write)).width = 7 ∧
    (laneRef q j (fDelay write)).lo + (laneRef q j (fDelay write)).width ≤ 32 := by
  cases write <;> exact ⟨rfl, rfl, Nat.le_of_ble_eq_true rfl⟩

/-- The delay of the lane that a queued move names. -/
def moveRef (k : Nat) : FRef := laneRef (k / 2 / 5) (k / 2 % 5) (fDelay (k % 2 == 1))

/-- A delay one step up or down. -/
def stepped (up : Bool) (v : Nat) : Nat := if up then v + 1 else v - 1

/-- A step of a delay within its range. -/
theorem applyDelay_eq {s : State} {c k : Nat} {up : Bool} {rest : List (Nat × Bool)}
    (h : (getM s c).moves = (k, up) :: rest)
    (hv : if up then fg s (mcB c) (moveRef k) < 127 else 0 < fg s (mcB c) (moveRef k)) :
    applyDelay s c = modM (fs s (mcB c) (moveRef k) (stepped up (fg s (mcB c) (moveRef k)))) c (fun m =>
      { m with moves := rest }) := by
  unfold applyDelay
  rw [h]
  unfold moveRef at hv ⊢
  cases up with
  | true => simp only [if_pos (if_pos rfl ▸ hv : _ < 127)]; rfl
  | false => simp only [if_pos (if_neg Bool.false_ne_true ▸ hv : 0 < _)]; rfl

theorem delayChangeApply_moves {s : State} {c : Fin 16} {k : Nat} {up : Bool} {rest : List (Nat × Bool)} (hk : k < 40)
    (h : (getM s c).moves = (k, up) :: rest)
    (hv : if up then fg s (mcB c) (moveRef k) < 127 else 0 < fg s (mcB c) (moveRef k)) :
    Runs (.delayChangeApply c) s (fun t => OnlyCtl c s t ∧ (getM t c).moves = rest ∧
      fg t (mcB c) (moveRef k) = stepped up (fg s (mcB c) (moveRef k))) := by
  obtain ⟨hoff, hwidth, hfit⟩ := delay_lane (k / 2 / 5) (k / 2 % 5) (k % 2 == 1)
  have hlt : fg s (mcB c) (moveRef k) < 2 ^ 7 := hwidth ▸ bitsOf_lt ..
  refine runs_offHbm (exec_delayChangeApply c s) ?_ ?_ <;> rw [applyDelay_eq h hv]
  · have hwrite := memNoted_fs s c (f := moveRef k) (by rw [moveRef, hoff]; omega) (by rw [moveRef, hoff]; omega)
    exact ((hwrite _).trans (memNoted_modM ..)).rest
  · refine ⟨(onlyCtl_of_hbm (s := s) c (by simp)).trans (onlyCtl_modM ..), by simp, ?_⟩
    rw [fg_modM]
    refine (fg_fs_self s (mcB c) _ _ hfit).trans ?_
    rw [moveRef, hwidth]
    refine Nat.mod_eq_of_lt ?_
    unfold stepped
    unfold moveRef at hv hlt
    split at hv
    next hup => rw [if_pos hup]; omega
    next hup => rw [if_neg hup]; omega

/-! HBM_TRAINING_COMPLETE (R306, R307). -/

/-- A run lies within the steps that were looked at. -/
theorem longestRun_le (p : BitVec 128) (n : Nat) : ∀ (i cur : Nat) (best : Nat × Nat), cur ≤ i →
    best.1 + best.2 ≤ i → (longestRun p n i cur best).1 + (longestRun p n i cur best).2 ≤ i + n := by
  induction n with
  | zero => exact fun i cur best _ h => h
  | succ n ih =>
    intro i cur best hcur hbest
    unfold longestRun
    split
    · refine (ih (i + 1) (cur + 1) _ (by omega) ?_).trans (by omega)
      split
      · dsimp only
        omega
      · omega
    · exact (ih (i + 1) 0 best (by omega) (by omega)).trans (by omega)

theorem eyeOf_le (p : BitVec 128) : (eyeOf p).1 + (eyeOf p).2 ≤ 128 :=
  (longestRun_le p 128 0 0 (0, 0) (Nat.le_refl 0) (Nat.le_refl 0)).trans (by decide)

/-- A lane's sweep, by its place in the lists of sweeps. -/
def sweepOf (q j : Nat) (write : Bool) : Nat := (5 * q + j) * 2 + (if write then 1 else 0)

/-- The sweeps done, with one more. -/
def sweptWith (m : McSt) (k : Nat) : List Nat := if m.swept.contains k then m.swept else m.swept ++ [k]

theorem mem_sweptWith (m : McSt) (k : Nat) : k ∈ sweptWith m k := by
  unfold sweptWith
  split
  next h => exact List.contains_iff_mem.mp h
  · simp

/-- A lane's delay in the middle of its eye, the eye's length, and no drift. -/
def eyeWritten (s : State) (c q j : Nat) (write : Bool) (e : Nat × Nat) : State :=
  fs (fs (fs s (mcB c) (laneRef q j (fDelay write)) ((e.1 + (e.1 + e.2 - 1)) / 2)) (mcB c) (laneRef q j (fEye write))
    e.2) (mcB c) (laneRef q j (fDrift write)) 0

/-- A lane trained. -/
def laneTrained (s : State) (c q j : Nat) (write : Bool) (e : Nat × Nat) : State :=
  modM (eyeWritten s c q j write e) c (fun m => { m with
    swept := sweptWith (getM s c) (sweepOf q j write),
    failedOnce := m.failedOnce.filter (· ≠ sweepOf q j write) })

/-- RETRAIN_DUE without the bit of a controller trained again. -/
def dueCleared (s : State) (c : Nat) : State :=
  if retrainDue s c then fs s (pb 0x004) F.AGE_RETRAIN_DUE_DUE (fg s (pb 0x004) F.AGE_RETRAIN_DUE_DUE - 2 ^ c) else s

/-- A controller all of whose lanes are trained; the first time its regions are cleared (R310). -/
def allTrained (s : State) (c : Nat) : State :=
  if trained (dueCleared s c) c then dueCleared s c
  else zeroRegions (fs (dueCleared s c) (mcB c) F.HBM_MC_STATUS_TRAINED 1) c

theorem memNoted_dueCleared (s : State) (c : Nat) : MemNoted s (dueCleared s c) := by
  unfold dueCleared
  split
  · exact memNoted_fs_age ..
  · exact .refl s

theorem hbm_dueCleared (s : State) (c : Nat) : (dueCleared s c).hbm = s.hbm := by
  unfold dueCleared
  split
  · simp
  · rfl

theorem rawRd_dueCleared (s : State) (c a : Nat) (h : a ≠ pb 0x004 + F.AGE_RETRAIN_DUE_DUE.off) :
    rawRd (dueCleared s c) a = rawRd s a := by
  unfold dueCleared
  split
  · exact rawRd_fs_ne _ _ _ _ _ h
  · rfl

theorem offHbm_zeroRegions (s : State) (c : Nat) : offHbm (zeroRegions s c) = offHbm s := rfl
theorem getM_zeroRegions (s : State) (c d : Nat) : getM (zeroRegions s c) d = getM s d := rfl
theorem rawRd_zeroRegions (s : State) (c a : Nat) : rawRd (zeroRegions s c) a = rawRd s a := rfl

theorem offHbm_allTrained (s : State) (c : Nat) : offHbm (allTrained s c) = offHbm s := by
  unfold allTrained
  split
  · exact (memNoted_dueCleared ..).rest
  · rw [offHbm_zeroRegions]
    exact (offHbm_of_notEvents (notEvents_fs ..)).trans (memNoted_dueCleared ..).rest

theorem getM_allTrained (s : State) (c d : Nat) : getM (allTrained s c) d = getM s d := by
  unfold allTrained
  split
  · exact getM_of_hbm (hbm_dueCleared ..) d
  · rw [getM_zeroRegions, getM_fs]
    exact getM_of_hbm (hbm_dueCleared s c) d

theorem hbm_allTrained {s : State} {c : Nat} (h : trained s c = true) : (allTrained s c).hbm = s.hbm := by
  unfold allTrained
  rw [if_pos (((memNoted_dueCleared ..).trained c).trans h), hbm_dueCleared]

theorem lane_ne_age (d : Nat) {o : Nat} (ho : 0x400 ≤ o) : mcB d + o ≠ pb 0x004 + F.AGE_RETRAIN_DUE_DUE.off := by
  simp only [mcB, pb]
  omega

theorem lane_ne_status (c d : Nat) {o : Nat} (hlo : 0x400 ≤ o) (ho : o < 0x1000) :
    mcB d + o ≠ mcB c + R.HBM_MC_STATUS := by
  simp only [mcB, pb, R.HBM_MC_STATUS]
  omega

/-- The words of the lanes stand. -/
theorem rawRd_allTrained (s : State) (c d : Nat) {o : Nat} (hlo : 0x400 ≤ o) (ho : o < 0x1000) :
    rawRd (allTrained s c) (mcB d + o) = rawRd s (mcB d + o) := by
  have hdue := rawRd_dueCleared s c _ (lane_ne_age d hlo)
  unfold allTrained
  split
  · exact hdue
  · rw [rawRd_zeroRegions]
    exact (rawRd_fs_ne _ _ _ _ _ (lane_ne_status c d hlo ho)).trans hdue

theorem eye_lane (q j : Nat) (write : Bool) : (laneRef q j (fEye write)).off = (laneRef q j (fDelay write)).off ∧
    (laneRef q j (fEye write)).width = 7 ∧ (laneRef q j (fEye write)).lo + (laneRef q j (fEye write)).width ≤ 32 ∧
    (laneRef q j (fDelay write)).lo + (laneRef q j (fDelay write)).width ≤ (laneRef q j (fEye write)).lo := by
  cases write <;> exact ⟨rfl, rfl, Nat.le_of_ble_eq_true rfl, Nat.le_of_ble_eq_true rfl⟩

section
variable (s : State) (c q j : Nat) (write : Bool) {e : Nat × Nat}

/-- The lane's words show its eye (R307). -/
theorem fg_eyeWritten (hle : e.1 + e.2 ≤ 128) (hpos : 0 < e.2) (hlt : e.2 < 128) :
    fg (eyeWritten s c q j write e) (mcB c) (laneRef q j (fDelay write)) = (e.1 + (e.1 + e.2 - 1)) / 2 ∧
    fg (eyeWritten s c q j write e) (mcB c) (laneRef q j (fEye write)) = e.2 ∧
    fg (eyeWritten s c q j write e) (mcB c) (laneRef q j (fDrift write)) = 0 := by
  obtain ⟨hdelay, hdelayw, hdelayfit⟩ := delay_lane q j write
  obtain ⟨heye, heyew, heyefit, happart⟩ := eye_lane q j write
  obtain ⟨hdrift, -, hdriftfit⟩ := drift_lane q j write
  unfold eyeWritten
  refine ⟨?_, ?_, ?_⟩
  · rw [fg_fs_addr _ _ _ _ _ _ (by rw [hdelay, hdrift]; omega),
      fg_fs_field _ _ _ _ _ _ (by rw [heye]) heyefit (.inl happart), fg_fs_self _ _ _ _ hdelayfit, hdelayw]
    exact Nat.mod_eq_of_lt (by omega)
  · rw [fg_fs_addr _ _ _ _ _ _ (by rw [heye, hdelay, hdrift]; omega), fg_fs_self _ _ _ _ heyefit, heyew]
    exact Nat.mod_eq_of_lt hlt
  · rw [fg_fs_self _ _ _ _ hdriftfit]
    exact Nat.zero_mod _

theorem memNoted_laneTrained (hq : q < 4) (hj : j < 5) (e : Nat × Nat) : MemNoted s (laneTrained s c q j write e) := by
  obtain ⟨hdelay, -, -⟩ := delay_lane q j write
  obtain ⟨heye, -, -, -⟩ := eye_lane q j write
  obtain ⟨hdrift, -, -⟩ := drift_lane q j write
  exact (((memNoted_fs _ c (by rw [hdelay]; omega) (by rw [hdelay]; omega) _).trans
    (memNoted_fs _ c (by rw [heye, hdelay]; omega) (by rw [heye, hdelay]; omega) _)).trans
    (memNoted_fs _ c (by rw [hdrift]; omega) (by rw [hdrift]; omega) _)).trans (memNoted_modM ..)

theorem hbm_eyeWritten (e : Nat × Nat) : (eyeWritten s c q j write e).hbm = s.hbm := by
  simp [eyeWritten]

end

section
variable {s : State} {c : Fin 16} {q : Fin 4} {j : Fin 5} {write : Bool} {passes : BitVec 128} (hm : s.fuse.hbm = true)
  (hmode : s.md.mode = .calibrate) (hs : srState s c = srACTIVE)
include hm hmode hs

theorem trainOp_active : ¬ (¬ s.fuse.hbm ∨ s.md.mode ≠ .calibrate ∨ srState s c ≠ srACTIVE) := by
  simp [hm, hmode, hs]

theorem trainOp_passed (hmin : fg s (mcB c) F.HBM_TRAIN_CFG_MIN_EYE ≤ (eyeOf passes).2) (hlt : (eyeOf passes).2 < 128) :
    trainOp s c q j write passes = if (sweptWith (getM s c) (sweepOf q j write)).length ≠ 40 then
      laneTrained s c q j write (eyeOf passes) else allTrained (laneTrained s c q j write (eyeOf passes)) c := by
  refine (if_neg (trainOp_active hm hmode hs)).trans ((if_neg (Nat.not_lt.mpr hmin)).trans ?_)
  simp only [if_pos hlt]
  rfl

theorem trainOp_failed (hmin : (eyeOf passes).2 < fg s (mcB c) F.HBM_TRAIN_CFG_MIN_EYE) : trainOp s c q j write passes =
    if (getM s c).failedOnce.contains (sweepOf q j write) then raise s (mcPage c) evMC_TRAIN_FAIL
    else setM s c { getM s c with failedOnce := (getM s c).failedOnce ++ [sweepOf q j write] } :=
  (if_neg (trainOp_active hm hmode hs)).trans (if_pos hmin)

theorem hbmTrainingComplete_passed (hmin : fg s (mcB c) F.HBM_TRAIN_CFG_MIN_EYE ≤ (eyeOf passes).2)
    (hlt : (eyeOf passes).2 < 128) (hpos : 0 < (eyeOf passes).2) :
    Runs (.hbmTrainingComplete c q j write passes) s (fun t =>
      fg t (mcB c) (laneRef q j (fDelay write)) =
        ((eyeOf passes).1 + ((eyeOf passes).1 + (eyeOf passes).2 - 1)) / 2 ∧
      fg t (mcB c) (laneRef q j (fEye write)) = (eyeOf passes).2 ∧ fg t (mcB c) (laneRef q j (fDrift write)) = 0 ∧
      sweepOf q j write ∈ (getM t c).swept ∧ (trained s c = true → OnlyCtl c s t)) := by
  obtain ⟨hdelay, heye, hdrift⟩ := fg_eyeWritten s c q j write (eyeOf_le passes) hpos hlt
  obtain ⟨hdelayoff, -, -⟩ := delay_lane q j write
  obtain ⟨heyeoff, -, -, -⟩ := eye_lane q j write
  obtain ⟨hdriftoff, -, -⟩ := drift_lane q j write
  have hop := trainOp_passed (q := q) (j := j) (write := write) hm hmode hs hmin hlt
  have hnoted := memNoted_laneTrained s c q j write q.isLt j.isLt (eyeOf passes)
  have honly : OnlyCtl c s (laneTrained s c q j write (eyeOf passes)) :=
    (onlyCtl_of_hbm _ (hbm_eyeWritten ..)).trans (onlyCtl_modM ..)
  have hswept : sweepOf q j write ∈ (getM (laneTrained s c q j write (eyeOf passes)) c).swept := by
    rw [laneTrained, getM_modM]
    exact mem_sweptWith ..
  by_cases hall : (sweptWith (getM s c) (sweepOf q j write)).length ≠ 40
  · rw [if_pos hall] at hop
    refine runs_offHbm (exec_hbmTrainingComplete c q j write passes s) ?_ ?_ <;> rw [hop]
    · exact hnoted.rest
    · refine ⟨?_, ?_, ?_, hswept, fun _ => honly⟩ <;> rw [laneTrained, fg_modM] <;> assumption
  · rw [if_neg hall] at hop
    have hlane {f : FRef} (hlo : 0x400 ≤ f.off) (hhi : f.off < 0x1000) :
        fg (allTrained (laneTrained s c q j write (eyeOf passes)) c) (mcB c) f =
          fg (eyeWritten s c q j write (eyeOf passes)) (mcB c) f := by
      rw [fg_of_word (rawRd_allTrained _ c c hlo hhi), laneTrained, fg_modM]
    refine runs_offHbm (exec_hbmTrainingComplete c q j write passes s) ?_ ?_ <;> rw [hop]
    · exact (offHbm_allTrained ..).trans hnoted.rest
    · refine ⟨?_, ?_, ?_, by rwa [getM_allTrained], fun ht => ?_⟩
      · rw [hlane (by rw [hdelayoff]; omega) (by rw [hdelayoff]; omega), hdelay]
      · rw [hlane (by rw [heyeoff, hdelayoff]; omega) (by rw [heyeoff, hdelayoff]; omega), heye]
      · rw [hlane (by rw [hdriftoff]; omega) (by rw [hdriftoff]; omega), hdrift]
      · exact honly.trans (onlyCtl_of_hbm _ (hbm_allTrained ((hnoted.trained c).trans ht)))

theorem hbmTrainingComplete_again (hmin : (eyeOf passes).2 < fg s (mcB c) F.HBM_TRAIN_CFG_MIN_EYE)
    (hk : sweepOf q j write ∉ (getM s c).failedOnce) : Runs (.hbmTrainingComplete c q j write passes) s (fun t =>
      OnlyCtl c s t ∧ t.regs = s.regs ∧ (getM t c).failedOnce = (getM s c).failedOnce ++ [sweepOf q j write]) := by
  have hop := (trainOp_failed (q := q) (j := j) (write := write) hm hmode hs hmin).trans
    (if_neg fun h => hk (List.contains_iff_mem.mp h))
  refine runs_offHbm (exec_hbmTrainingComplete c q j write passes s) ?_ ?_ <;> rw [hop]
  · exact (memNoted_setM ..).rest
  · exact ⟨onlyCtl_setM .., rfl, by rw [getM_setM]⟩

theorem hbmTrainingComplete_failed (hmin : (eyeOf passes).2 < fg s (mcB c) F.HBM_TRAIN_CFG_MIN_EYE)
    (hk : sweepOf q j write ∈ (getM s c).failedOnce) : Runs (.hbmTrainingComplete c q j write passes) s (fun t =>
      OnlyCtl c s t ∧ evStatus t (mcPage c) evMC_TRAIN_FAIL = true) := by
  have hop := (trainOp_failed (q := q) (j := j) (write := write) hm hmode hs hmin).trans
    (if_pos (List.contains_iff_mem.mpr hk))
  refine runs_offHbm (exec_hbmTrainingComplete c q j write passes s) ?_ ?_ <;> rw [hop]
  · exact (memNoted_raise _ _ (by decide)).rest
  · exact ⟨onlyCtl_of_hbm _ (by simp), evStatus_raise _ _ _ (mcPage_present hm c.isLt) (by decide) (mcPage_ne_fault c)⟩

end

end Sys2Proof.Machine
end

section
/-! O48: self-refresh (R311-R314), and the upkeep of flow memory. -/

namespace Sys2Proof.Machine

open Sys2Proof

/-! Entry and commit (R311). -/

theorem onlyCtl_setSr (s : State) (c v : Nat) : OnlyCtl c s (setSr s c v) := onlyCtl_of_hbm c rfl

theorem srEnterOp_enters {s : State} {c : Nat} (hm : s.fuse.hbm = true) (ht : trained s c = true)
    (hs : srState s c = srACTIVE) : srEnterOp s c = setSr s c srENTERING := if_pos ⟨hm, ht, hs⟩

theorem srEnter_enters {s : State} {c : Fin 16} (hm : s.fuse.hbm = true) (ht : trained s c = true)
    (hs : srState s c = srACTIVE) : Runs (.srEnter c) s (fun t => OnlyCtl c s t ∧ srState t c = srENTERING) := by
  refine runs_offHbm (exec_srEnter c s) ?_ ?_ <;> rw [srEnterOp_enters hm ht hs]
  · exact offHbm_setSr ..
  · exact ⟨onlyCtl_setSr .., srState_setSr _ _ (by decide)⟩

theorem srIdleReenter_enters {s : State} {c : Fin 16} (hm : s.fuse.hbm = true) (ht : trained s c = true)
    (hs : srState s c = srACTIVE) (hmode : s.md.mode = .dormant)
    (hauto : fgb s (mcB c) F.HBM_MC_CTRL_AUTO_REENTER = true) (hexit : (getM s c).byExit = false)
    (hreads : (getM s c).reads = [])
    (hidle : (getM s c).lastReq + fg s (mcB c) F.HBM_SR_CTRL_SR_IDLE * 1200 ≤ cmdNow s) :
    Runs (.srIdleReenter c) s (fun t => OnlyCtl c s t ∧ srState t c = srENTERING) := by
  have hop : srIdleOp s c = setSr s c srENTERING := if_pos ⟨hm, ht, hs, hmode, hauto, hexit, hreads, hidle⟩
  refine runs_offHbm (exec_srIdleReenter c s) ?_ ?_ <;> rw [hop]
  · exact offHbm_setSr ..
  · exact ⟨onlyCtl_setSr .., srState_setSr _ _ (by decide)⟩

theorem srCommit_commits {s : State} {c : Fin 16} (hs : srState s c = srENTERING) (hreads : (getM s c).reads = []) :
    Runs (.srCommit c) s (fun t => OnlyCtl c s t ∧ srState t c = srSELF ∧ (getM t c).rows = []) := by
  have hop : srCommitOp s c = modM (bump (setSr s c srSELF) (mcB c + R.HBM_SR_ENTRIES)) c (fun m =>
      { m with rows := [], byExit := false }) := if_pos ⟨hs, hreads⟩
  have hcount := memNoted_bump (setSr s c srSELF) c (o := R.HBM_SR_ENTRIES) (by decide) (by decide)
  have hnoted (g : McSt → McSt) := hcount.trans (memNoted_modM _ c g)
  refine runs_offHbm (exec_srCommit c s) ?_ ?_ <;> rw [hop]
  · exact ((hnoted _).rest).trans (offHbm_setSr ..)
  · refine ⟨(onlyCtl_of_hbm (s := s) c (by simp)).trans (onlyCtl_modM ..), ?_, by rw [getM_modM]⟩
    rw [(hnoted _).srState, srState_setSr _ _ (by decide)]

/-! A write of SR_CTRL (R311, R313). -/

theorem regWrite_srCtrl {s : State} {a : Agent} {c : Fin 16} {v : Word} (h : Allowed s a (mcB c + R.HBM_SR_CTRL) v) :
    regWrite s a (mcB c + R.HBM_SR_CTRL) v = { srExitOp s c v with reply := ⟨.ok, 0⟩ } := by
  have hpage : (mcB c + R.HBM_SR_CTRL) / 0x1000 = mcPage c := pb_add_div _ (by decide)
  have hoff : (mcB c + R.HBM_SR_CTRL) % 0x1000 = R.HBM_SR_CTRL := pb_add_mod _ (by decide)
  have hinfo := pageInfo_mcPage c.isLt
  have hopen : writeOpen s a ⟨0x40, c, .d⟩ (mcPage c) R.HBM_SR_CTRL v = (.ok, srExitOp s c v) := by
    have hctl : mcPage c - 0x300 = c := Nat.add_sub_cancel_left ..
    unfold writeOpen
    rw [hctl]
    rfl
  rw [regWrite_open s a _ v _ h (hpage ▸ hinfo) (fun _ => by rw [hpage, hoff, hopen]; nofun), hpage, hoff, hopen]

/-- From `s` to `t` only the state of controller `c` moved, SR_STATE or what it keeps of an exit. -/
structure SrMoved (c : Nat) (s t : State) : Prop where
  only : OnlyCtl c s t
  idle : fg t (mcB c) F.HBM_SR_CTRL_SR_IDLE = fg s (mcB c) F.HBM_SR_CTRL_SR_IDLE

theorem SrMoved.refl (c : Nat) (s : State) : SrMoved c s s := ⟨⟨rfl, fun _ _ => rfl⟩, rfl⟩

theorem SrMoved.trans {c : Nat} {s t u : State} (h : SrMoved c s t) (h' : SrMoved c t u) : SrMoved c s u :=
  ⟨h.only.trans h'.only, h'.idle.trans h.idle⟩

theorem srMoved_setSr (s : State) (c v : Nat) : SrMoved c s (setSr s c v) :=
  ⟨onlyCtl_setSr .., fg_fs_addr s (mcB c) F.HBM_MC_STATUS_SR_STATE v (mcB c) F.HBM_SR_CTRL_SR_IDLE
    (by simp only [ne_eq, Nat.add_right_inj]; decide)⟩

theorem srMoved_modM (s : State) (c : Nat) (g : McSt → McSt) : SrMoved c s (modM s c g) := ⟨onlyCtl_modM .., rfl⟩

/-- SR_CTRL with its idle time written. -/
def idleSet (s : State) (c : Nat) (v : Word) : State := fs s (mcB c) F.HBM_SR_CTRL_SR_IDLE (bitsOf v 16 16)

/-- An entry started where ENTER asks for it. -/
def srEntered (s : State) (c : Nat) (v : Word) : State :=
  if v.getLsbD 0 then srEnterOp (idleSet s c v) c else idleSet s c v

/-- The state of the controller that ENTER leaves. -/
def afterEnter (s : State) (c : Nat) (v : Word) : Nat :=
  if v.getLsbD 0 = true ∧ trained s c = true ∧ srState s c = srACTIVE then srENTERING else srState s c

/-- What EXIT makes of a state of a controller (R311, R313). -/
def afterExit (n : Nat) : Nat := if n = srENTERING then srACTIVE else if n = srSELF then srEXITING else n

/-- Where a write of SR_CTRL has EXIT: an entry stops, self-refresh and its exit go on as an exit that was asked for. -/
def srLeft (s : State) (c : Nat) : State :=
  if srState s c = srENTERING then setSr s c srACTIVE
  else if srState s c = srSELF then modM (setSr s c srEXITING) c (fun m => { m with byExit := true })
  else if srState s c = srEXITING then modM s c (fun m => { m with byExit := true })
  else s

theorem srExitOp_eq (s : State) (c : Nat) (v : Word) :
    srExitOp s c v = if v.getLsbD 1 then srLeft (srEntered s c v) c else srEntered s c v := by
  unfold srExitOp srEntered idleSet
  dsimp only
  generalize (if v.getLsbD 0 = true then srEnterOp (fs s (mcB c) F.HBM_SR_CTRL_SR_IDLE (bitsOf v 16 16)) c
    else fs s (mcB c) F.HBM_SR_CTRL_SR_IDLE (bitsOf v 16 16)) = u
  cases v.getLsbD 1 with
  | false => rfl
  | true =>
    rw [if_neg (by simp), if_pos rfl]
    unfold srLeft
    split
    next h => rw [if_pos h]
    next h => rw [if_neg (by rw [h]; decide), if_pos h]
    next h => rw [if_neg (by rw [h]; decide), if_neg (by rw [h]; decide), if_pos h]
    next h1 h2 h3 => rw [if_neg h1, if_neg h2, if_neg h3]

theorem srMoved_srLeft (s : State) (c : Nat) : SrMoved c s (srLeft s c) := by
  unfold srLeft
  split
  · exact srMoved_setSr ..
  · split
    · exact (srMoved_setSr ..).trans (srMoved_modM ..)
    · split
      · exact srMoved_modM ..
      · exact .refl c s

theorem srState_srLeft (s : State) (c : Nat) : srState (srLeft s c) c = afterExit (srState s c) := by
  unfold srLeft afterExit
  split
  · exact srState_setSr _ _ (by decide)
  · split
    · exact ((memNoted_modM ..).srState c).trans (srState_setSr _ _ (by decide))
    · split
      · exact (memNoted_modM ..).srState c
      · rfl

section
variable {s : State} (hm : s.fuse.hbm = true) (c : Nat) (v : Word)

theorem memNoted_idleSet (s : State) : MemNoted s (idleSet s c v) := memNoted_fs s c (by decide) (by decide) _

theorem fg_idleSet (s : State) : fg (idleSet s c v) (mcB c) F.HBM_SR_CTRL_SR_IDLE = bitsOf v 16 16 :=
  (fg_fs_self s (mcB c) F.HBM_SR_CTRL_SR_IDLE _ (by decide)).trans (Nat.mod_eq_of_lt (bitsOf_lt ..))

include hm

/-- ENTER moves a trained controller that is ACTIVE. -/
theorem srEntered_eq : srEntered s c v =
    if v.getLsbD 0 = true ∧ trained s c = true ∧ srState s c = srACTIVE then setSr (idleSet s c v) c srENTERING
    else idleSet s c v := by
  have hset := memNoted_idleSet c v s
  have hfuse : (idleSet s c v).fuse.hbm = true := by rwa [hset.fuse]
  unfold srEntered srEnterOp
  rw [hset.trained, hset.srState]
  cases v.getLsbD 0 <;> simp [hfuse]

theorem srEntered_shows : OnlyCtl c s (srEntered s c v) ∧
    fg (srEntered s c v) (mcB c) F.HBM_SR_CTRL_SR_IDLE = bitsOf v 16 16 ∧
    srState (srEntered s c v) c = afterEnter s c v := by
  have hset := memNoted_idleSet c v s
  have honly : OnlyCtl c s (idleSet s c v) := onlyCtl_of_hbm c (by simp [idleSet])
  have hmoved := srMoved_setSr (idleSet s c v) c srENTERING
  rw [srEntered_eq hm]
  unfold afterEnter
  split
  · exact ⟨honly.trans hmoved.only, hmoved.idle.trans (fg_idleSet ..),
      srState_setSr _ _ (by decide)⟩
  · exact ⟨honly, fg_idleSet .., hset.srState c⟩

end

theorem srExitOp_moves (s : State) (c : Nat) (v : Word) : SrMoved c (srEntered s c v) (srExitOp s c v) ∧
    srState (srExitOp s c v) c =
      if v.getLsbD 1 = true then afterExit (srState (srEntered s c v) c) else srState (srEntered s c v) c := by
  rw [srExitOp_eq]
  split
  · exact ⟨srMoved_srLeft .., srState_srLeft ..⟩
  · exact ⟨.refl _ _, rfl⟩

theorem srExit_moves {s : State} (hm : s.fuse.hbm = true) {a : Agent} {c : Fin 16} {v : Word}
    (ha : Allowed s a (mcB c + R.HBM_SR_CTRL) v) : Runs (.srExit a c v) s (fun t => OnlyCtl c s t ∧
      t.reply = ⟨.ok, 0⟩ ∧ fg t (mcB c) F.HBM_SR_CTRL_SR_IDLE = bitsOf v 16 16 ∧
      srState t c = if v.getLsbD 1 = true then afterExit (afterEnter s c v) else afterEnter s c v) := by
  obtain ⟨honly, hidle, hstate⟩ := srEntered_shows hm c v
  obtain ⟨hmoved, hend⟩ := srExitOp_moves s c v
  refine runs_kept (exec_srExit a c v s) ?_
  rw [regWrite_srCtrl ha]
  refine ⟨honly.trans hmoved.only, rfl, hmoved.idle.trans hidle, ?_⟩
  rw [← hstate]
  exact hend

/-! Held requests served (R310, R312, R313). -/

theorem memNoted_acceptReq (s : State) (c : Nat) (r : HReq) : MemNoted s (acceptReq s c r) := by
  cases hw : r.write with
  | none =>
    rw [acceptReq_read hw]
    exact (memNoted_modM ..).trans (memNoted_modM ..)
  | some bs =>
    have hcount := memNoted_writeCounted s c r.port
    by_cases hp : partUncorrectable s r.addr bs.length
    · obtain ⟨w, h⟩ := acceptReq_part (c := c) hw hp
      rw [h]
      exact (hcount.trans (memNoted_eccUE ..)).trans (memNoted_modM ..)
    · rw [acceptReq_write hw hp]
      exact (hcount.trans (memNoted_mwr ..)).trans (memNoted_modM ..)

theorem held_acceptReq (s : State) (c : Nat) (r : HReq) : (getM (acceptReq s c r) c).held = (getM s c).held := by
  cases hw : r.write with
  | none =>
    rw [acceptReq_read hw]
    simp [requestNoted]
  | some bs =>
    by_cases hp : partUncorrectable s r.addr bs.length
    · obtain ⟨w, h⟩ := acceptReq_part (c := c) hw hp
      rw [h]
      simp [answered, held_writeCounted]
    · rw [acceptReq_write hw hp]
      simp [held_writeCounted]

theorem serveHeld_serves (s : State) (c : Nat) : MemNoted s (serveHeld s c) ∧ (getM (serveHeld s c) c).held = [] := by
  refine List.foldlRecOn (motive := fun t : State => MemNoted s t ∧ (getM t c).held = []) _ _
    ⟨memNoted_modM .., by rw [getM_modM]⟩ fun t ht r _ => ?_
  exact ⟨ht.1.trans (memNoted_acceptReq ..), (held_acceptReq ..).trans ht.2⟩

theorem serveHeld_none {s : State} {c : Nat} (h : (getM s c).held = []) :
    serveHeld s c = modM s c (fun m => { m with held := [] }) := by
  unfold serveHeld
  rw [h]
  rfl

/-- The exit's end, before the held requests: ACTIVE, and MARGIN_LOW where its probes failed. -/
def srExited (s : State) (c : Nat) (ok : Bool) : State :=
  if (getM s c).byExit && !ok then marginLow (setSr s c srACTIVE) c else setSr s c srACTIVE

theorem srExitDoneOp_eq {s : State} {c : Nat} (ok : Bool) (h : srState s c = srEXITING) : srExitDoneOp s c ok =
    if trained (srExited s c ok) c then serveHeld (srExited s c ok) c else srExited s c ok := if_neg (not_not_intro h)

section
variable (s : State) (c : Nat) (ok : Bool)

theorem memNoted_srExited : MemNoted (setSr s c srACTIVE) (srExited s c ok) := by
  unfold srExited
  split
  · exact memNoted_marginLow ..
  · exact .refl _

theorem hbm_srExited : (srExited s c ok).hbm = s.hbm := by
  unfold srExited
  split
  · exact hbm_marginLow ..
  · rfl

theorem trained_srExited : trained (srExited s c ok) c = trained s c :=
  ((memNoted_srExited ..).trained c).trans (trained_setSr ..)

end

theorem srExitComplete_completes {s : State} (hm : s.fuse.hbm = true) {c : Fin 16} (ok : Bool)
    (h : srState s c = srEXITING) : Runs (.srExitComplete c ok) s (fun t => srState t c = srACTIVE ∧
      (trained s c = true → (getM t c).held = []) ∧ ((getM s c).held = [] → OnlyCtl c s t) ∧
      (ok = false → (getM s c).byExit = true → evStatus t (mcPage c) evMARGIN_LOW = true)) := by
  have hexited := memNoted_srExited s c ok
  have honly : OnlyCtl c s (srExited s c ok) := onlyCtl_of_hbm c (hbm_srExited ..)
  have hlow : ok = false → (getM s c).byExit = true → evStatus (srExited s c ok) (mcPage c) evMARGIN_LOW = true := by
    intro hok hby
    have hfuse : (setSr s c srACTIVE).fuse.hbm = true := by simpa using hm
    unfold srExited
    rw [if_pos (by simp [hok, hby])]
    exact evStatus_marginLow hfuse c.isLt
  have hop := srExitDoneOp_eq ok h
  rw [trained_srExited] at hop
  have hstate : srState (srExited s c ok) c = srACTIVE := (hexited.srState c).trans (srState_setSr _ _ (by decide))
  by_cases ht : trained s c = true
  · rw [if_pos ht] at hop
    obtain ⟨hserved, hheld⟩ := serveHeld_serves (srExited s c ok) c
    refine runs_offHbm (exec_srExitComplete c ok s) ?_ ?_ <;> rw [hop]
    · exact (hserved.rest.trans hexited.rest).trans (offHbm_setSr ..)
    · refine ⟨(hserved.srState c).trans hstate, fun _ => hheld, fun hnone => ?_,
        fun hok hby => hserved.status _ _ (hlow hok hby)⟩
      rw [serveHeld_none (by rwa [getM_of_hbm (hbm_srExited ..)])]
      exact honly.trans (onlyCtl_modM ..)
  · rw [if_neg ht] at hop
    refine runs_offHbm (exec_srExitComplete c ok s) ?_ ?_ <;> rw [hop]
    · exact hexited.rest.trans (offHbm_setSr ..)
    · exact ⟨hstate, fun h => absurd h ht, fun _ => honly, hlow⟩

/-- Settles O48, command by command: what is written is a row, the temperature, a lane's words or the controller's
state, and a held request is served as one that comes. -/
theorem flowMemoryUpkeep : Obligations.FlowMemoryUpkeep := by
  intro s c hm only
  refine ⟨fun pc bank ht hs hu => hbmRefresh_closes hm ht hs hu, fun temp => ⟨?_, ?_⟩,
    fun pc bank ho hi => rowIdleClose_closes ho hi, fun q j write low high ht he hmode => ⟨fun hne hlo hhi => ?_,
      fun hl hh => recentreProbe_low hm ht he hmode hl hh, fun hl hh => recentreProbe_none hm ht he hmode hl hh⟩,
    fun k up rest hk h hv => delayChangeApply_moves hk h hv, fun q j write passes hmode hs =>
      ⟨fun hmin hlt hpos => hbmTrainingComplete_passed hm hmode hs hmin hlt hpos,
        fun hmin hk => hbmTrainingComplete_again hm hmode hs hmin hk,
        fun hmin hk => hbmTrainingComplete_failed hm hmode hs hmin hk⟩,
    fun ht hs => srEnter_enters hm ht hs, fun hs hreads => srCommit_commits hs hreads, fun a v ha => srExit_moves hm ha,
    fun ok h => srExitComplete_completes hm ok h,
    fun ht hs hmode hauto hexit hreads hidle => srIdleReenter_enters hm ht hs hmode hauto hexit hreads hidle⟩
  · obtain ⟨hhbm, hrest, hhot, htemp, hstate⟩ := hotOp_shows hm (c := c) true temp
    exact runs_offHbm (exec_hotReported c temp s) hrest ⟨onlyCtl_of_hbm _ hhbm, hhot, htemp, hstate⟩
  · obtain ⟨hhbm, hrest, hhot, htemp, hstate⟩ := hotOp_shows hm (c := c) false temp
    exact runs_offHbm (exec_hotCleared c temp s) hrest ⟨onlyCtl_of_hbm _ hhbm, hhot, htemp, hstate⟩
  · exact recentreProbe_counts hm ht he hmode hne hlo hhi

end Sys2Proof.Machine
end
